-- ==== Sys2Proof/Word.lean ====
section
/-! DEFINITION. The widths of the machine's words: a register is a dword or an aligned pair of dwords (R309), a
fragment is 16 bits (R103), a lane block carries 56 or 64 payload bits (R254, R266), a descriptor 64 bytes (R351). -/

namespace Sys2Proof

/-- A byte. -/
abbrev Byte := BitVec 8
/-- A 16-bit mailbag fragment (R103). -/
abbrev Fragment := BitVec 16
/-- A 32-bit register word (R309). -/
abbrev Dword := BitVec 32
/-- A 64-bit word: a 64-bit register (R309), a body value of a record (R360), a binary64 (R14). -/
abbrev Word := BitVec 64
/-- The 56 payload bits of a control block (R254, R266). -/
abbrev Ctl := BitVec 56
/-- A 64 B descriptor, byte 0 in the least significant bits (R13, R351). -/
abbrev Desc := BitVec 512

end Sys2Proof
end

