-- ==== Sys2Proof/Syntax.lean ====
section
/-! DEFINITION. The commands of the hub: one constructor per row of opcode_table.json, in the table's order. Every
command carries `t`, the moment at which it happens, in Q on the hub's own count (log entry 1); the other operands are
what the outside or the analogue silicon supplies. -/

namespace Sys2Proof

/-- The two references of R33. -/
inductive Ref where
  | refA | refB
  deriving DecidableEq, Repr

/-- The two register ports (R309, R313). -/
inductive Port where
  | host | mspi
  deriving DecidableEq, Repr

/-- What is wrong with a host read of BAR0 that is not completed (R310). -/
inductive ReadKind where
  | plain     -- an ordinary memory read of `len` dwords
  | zeroLen   -- a zero-length read
  | atomic    -- an AtomicOp or a locked read
  deriving DecidableEq, Repr

/-- A fault that strikes one copy of a keeper word between two ticks (R413). -/
structure Upset where
  /-- 0 to 63 a keeper counter, 64 the time counter, 65 the configuration -/
  word : Fin 66
  /-- which of the three copies -/
  copy : Fin 3
  /-- what the struck copy then holds -/
  value : BitVec 48
  deriving DecidableEq, Repr

/-- One word the retention scrub found in error (R404): its MRAM offset, and whether it could be corrected. -/
structure ScrubError where
  offset : Nat
  correctable : Bool
  deriving DecidableEq, Repr

/-- What one engine's hardware measured over a load window (R221): busy time in Q, and the fraction of its accesses through the
crossbar in 1/1,024. -/
structure LoadSample where
  busy : Nat
  xbar : Nat
  deriving DecidableEq, Repr

/-- What the shadow line measured of its reference (R54, R56): the device time of the edge, and how far the shadow line then lies
from the live line, in Q. -/
structure ShadowMeasure where
  edge : Nat
  gap : Int
  deriving DecidableEq, Repr

/-- An edge at TOD_IN (R61): its moment and its direction. -/
structure TodPulse where
  t : Nat
  rising : Bool
  deriving DecidableEq, Repr

/-- What a front end sees of a transition (R72, R95): the input's new value, and the vernier code it is stamped with. -/
structure InputLevel where
  volt : Int
  code : Fin 512
  deriving DecidableEq, Repr

/-- The commands. -/
inductive Instr where
  -- time base (02)
  | refEdge (t : Nat) (r : Ref) (err : Int) (good : Bool) (off : Option Int)
  | refEdgeTimeout (t : Nat) (r : Ref)
  | bandSearchDone (t : Nat) (coarse : Fin 32) (fine : Fin 64)
  | acquisitionLimit (t : Nat)
  | acquisitionSwap (t : Nat)
  | tbApply (t : Nat) (p : Port)
  | handoverSwap (t : Nat) (misalign : Int)
  | returnOffsetMeasured (t : Nat) (m : ShadowMeasure)
  | slewStep (t : Nat)
  | tbSlew (t : Nat) (p : Port)
  | tbAccept (t : Nat) (p : Port) (byStep : Bool)
  | tbLatch (t : Nat) (p : Port)
  | refSelect (t : Nat) (p : Port) (sel : Ref)
  | driftLearn (t : Nat) (word : Dword)
  | holdoverTick (t : Nat)
  | coldCoast (t : Nat)
  | autoReturn (t : Nat)
  | todEdge (p : TodPulse)
  | todMiss (t : Nat)
  | runtSwallowed (t : Nat)
  | tbSpan (t : Nat)
  | thermRead (t : Nat) (raw : BitVec 12)
  -- front ends (03)
  | inputTransition (t : Nat) (n : Fin 256) (x : InputLevel)
  | zoneSettle (t : Nat) (n : Fin 256) (v : Int)
  | blankTrigEdge (t : Nat) (pin : Fin 4) (rising : Bool)
  | blankWindowEnd (t : Nat) (n : Fin 256)
  | feSample (t : Nat) (n : Fin 256) (v : Int)
  | feAlarmWrite (t : Nat) (p : Port) (n : Fin 256) (value : Dword)
  -- capture (04)
  | bucketRefill (t : Nat) (n : Fin 256)
  | thinRateDecay (t : Nat)
  | calHit (t : Nat) (n : Fin 256) (code : Fin 512)
  | calWindowDone (t : Nat) (n : Fin 256)
  | mailbagFlush (t : Nat) (n : Fin 256)
  | ovflWrite (t : Nat) (n : Fin 256)
  | idleAnchor (t : Nat) (n : Fin 256)
  | mailbagPop (t : Nat) (n : Fin 256)
  | engineEdge (t : Nat) (chan : BitVec 20)
  | quadDecide (t : Nat) (chan : BitVec 20)
  -- descriptors and channels (14, 05)
  | descriptorFetch (t : Nat) (ring : Fin 64) (descs : List Desc)
  | fetchFailed (t : Nat) (ring : Fin 64) (descs : List Desc)
  | declare (t : Nat) (ring : Fin 64)
  | channelLive (t : Nat) (chan : BitVec 20)
  | redeclare (t : Nat) (ring : Fin 64)
  | redeclareApply (t : Nat) (chan : BitVec 20)
  | pause (t : Nat) (ring : Fin 64)
  | pauseApply (t : Nat) (chan : BitVec 20)
  | resume (t : Nat) (ring : Fin 64)
  | resumeGap (t : Nat) (chan : BitVec 20)
  | retire (t : Nat) (ring : Fin 64)
  | retireApply (t : Nat) (chan : BitVec 20)
  | cadenceInstant (t : Nat) (c : Fin 16)
  | cadenceOutEnd (t : Nat) (pin : Fin 4)
  | cadenceEnable (t : Nat) (p : Port) (c : Fin 16)
  | cadenceDisable (t : Nat) (p : Port) (c : Fin 16)
  | cadenceGridWrite (t : Nat) (p : Port) (c : Fin 16) (phase : Bool) (value : Word)
  -- instants, recipes, statistics (06, 07, 08)
  | instantResolve (t : Nat) (chan : BitVec 20)
  | bracketWaitExpiry (t : Nat) (chan : BitVec 20)
  | recipeLoad (t : Nat) (ring : Fin 64) (buf : Option (List Dword))
  | coefLoad (t : Nat) (ring : Fin 64) (buf : Option (List Dword))
  | loadApply (t : Nat)
  | devSetup (t : Nat) (ring : Fin 64)
  | histoSetup (t : Nat) (ring : Fin 64)
  | statsRead (t : Nat) (ring : Fin 64)
  | statsTargetApply (t : Nat) (chan : BitVec 20)
  | devReport (t : Nat) (chan : BitVec 20)
  | histoComplete (t : Nat) (chan : BitVec 20) (hist : Fin 4)
  | autoPeriodEnd (t : Nat) (chan : BitVec 20) (hist : Fin 4)
  -- the sorting office (09)
  | loadWindowEnd (t : Nat) (loads : List LoadSample)
  | castlingBegin (t : Nat)
  | castlingSealAck (t : Nat) (chan : BitVec 20)
  | castlingCopyDone (t : Nat) (chan : BitVec 20) (crcEqual : Bool)
  | castleToken (t : Nat)
  | place (t : Nat) (ring : Fin 64)
  | placeRead (t : Nat) (ring : Fin 64)
  -- lanes, physical (10)
  | laneEnable (t : Nat) (p : Port) (lane : Fin 16)
  | laneDisable (t : Nat) (p : Port) (lane : Fin 16)
  | laneProbe (t : Nat) (lane : Fin 16)
  | probeDone (t : Nat) (lane : Fin 16) (found : Bool)
  | backoffEnd (t : Nat) (lane : Fin 16)
  | laneRetry (t : Nat) (p : Port) (lane : Fin 16)
  | laneRetrain (t : Nat) (p : Port) (lane : Fin 16)
  | trainingBlock (t : Nat) (lane : Fin 16) (payload : Ctl)
  | tapRequestTimeout (t : Nat) (lane : Fin 16)
  | rxReady (t : Nat) (lane : Fin 16) (margin : Byte)
  | trainLimit (t : Nat) (lane : Fin 16)
  | alignBlock (t : Nat) (lane : Fin 16) (payload : Ctl)
  | alignLimit (t : Nat) (lane : Fin 16)
  | loopEcho (t : Nat) (lane : Fin 16)
  | creditLimit (t : Nat) (lane : Fin 16)
  | recoverLimit (t : Nat) (lane : Fin 16)
  | lossOfSignal (t : Nat) (lane : Fin 16)
  | invalidSyncHeader (t : Nat) (lane : Fin 16)
  | keepaliveBlock (t : Nat) (lane : Fin 16) (payload : Word)
  | adaptFreeze (t : Nat) (lane : Fin 16)
  | keepaliveSend (t : Nat) (lane : Fin 16)
  | keepaliveMiss (t : Nat) (lane : Fin 16)
  -- lanes, protocol (11)
  | dispatch (t : Nat) (lane : Fin 16) (head : Ctl) (data : List Word) (tail : Ctl) (clean : Bool)
  | ackBlock (t : Nat) (lane : Fin 16) (payload : Ctl)
  | nakBlock (t : Nat) (lane : Fin 16) (payload : Ctl)
  | initBlock (t : Nat) (lane : Fin 16) (payload : Ctl)
  | initSend (t : Nat) (lane : Fin 16)
  | ackSendTimer (t : Nat) (lane : Fin 16)
  | replayTimeout (t : Nat) (lane : Fin 16)
  | nakRepeat (t : Nat) (lane : Fin 16)
  | creditWatchdog (t : Nat) (lane : Fin 16)
  | resyncRepeat (t : Nat) (lane : Fin 16)
  | creditSync (t : Nat) (lane : Fin 16)
  | dispatchSend (t : Nat) (lane : Fin 16)
  | creditRelease (t : Nat) (lane : Fin 16) (blocks : Nat)
  | fineBeacon (t : Nat) (lane : Fin 16)
  | letterPost (t : Nat) (ring : Fin 64) (buf : Option (List Byte))
  | laneReturnTimer (t : Nat) (lane : Fin 16) (reason : Fin 32)
  -- peers (12)
  | peerHello (t : Nat) (lane : Fin 16) (payload : Ctl)
  | peerHelloSend (t : Nat) (lane : Fin 16)
  | peerSyncSend (t : Nat)
  | peerSync (t : Nat) (lane : Fin 16) (sync : Ctl) (d0 d1 d2 d3 : Word)
  | peerFrameMiss (t : Nat) (lane : Fin 16)
  | peerLinkLost (t : Nat) (lane : Fin 16)
  | peerStaleHoldEnd (t : Nat)
  | peerTrimStep (t : Nat)
  | peerWhole (t : Nat) (p : Port)
  -- the register interface (13)
  | registerWrite (t : Nat) (p : Port) (off : Nat) (data : List Dword) (be : List (BitVec 4))
  | farWriteApply (t : Nat)
  | bar0ReadAbort (t : Nat) (off len : Nat) (kind : ReadKind)
  | mspiFrame (t : Nat) (bytes : List Byte)
  | keyUnlock (t : Nat) (p : Port) (value : Dword)
  | keyExpiry (t : Nat) (p : Port)
  | snapshot (t : Nat) (p : Port)
  | snapshotDone (t : Nat)
  | scrubPass (t : Nat) (bad : List Nat)
  -- rings and delivery (14, 15)
  | ringEnable (t : Nat) (p : Port) (ring : Fin 64)
  | ringDisable (t : Nat) (p : Port) (ring : Fin 64)
  | ringStopped (t : Nat) (ring : Fin 64)
  | letterboxWrite (t : Nat) (off : Nat) (data : List Dword) (be : BitVec 4)
  | letterboxReturnTimer (t : Nat) (ring : Fin 64)
  | recordDelivery (t : Nat) (ring : Fin 64)
  | moderationTimer (t : Nat) (ring : Fin 64)
  | vectorHoldoffEnd (t : Nat) (vector : Fin 68)
  | msixTableWrite (t : Nat) (off : Nat) (value : Dword)
  | functionLevelReset (t : Nat)
  | nop (t : Nat) (ring : Fin 64)
  | mark (t : Nat) (ring : Fin 64)
  | repost (t : Nat) (ring : Fin 64)
  | heldPushRelease (t : Nat) (ring : Fin 64) (cls : Fin 3)
  | holdGrace (t : Nat)
  | summaryExit (t : Nat) (ring : Fin 64)
  -- persistence (16)
  | checkpointPass (t : Nat)
  | drainPass (t : Nat)
  | passComplete (t : Nat)
  | configGeneration (t : Nat)
  | generationToken (t : Nat)
  | endgame (t : Nat)
  | endgameDeadline (t : Nat)
  | endgameComplete (t : Nat)
  | restore (t : Nat)
  | restoreComplete (t : Nat)
  | mramScrub (t : Nat) (errors : List ScrubError)
  -- keeper and guarded channels (17)
  | keeperTick (t : Nat) (levels : List (Fin 64 × Int)) (upsets : List Upset)
  | keeperReset (t : Nat)
  | keeperResetEnd (t : Nat)
  | xtalFail (t : Nat)
  | guardCompare (t : Nat) (chan : BitVec 20) (twinCount : BitVec 48) (same : Bool)
  | guardCopyTimeout (t : Nat) (chan : BitVec 20)
  | keeperVote (t : Nat)
  | wakeClear (t : Nat) (p : Port) (value : Dword)
  -- power (18)
  | pfailAssert (t : Nat)
  | pfailRelease (t : Nat)
  | droopTrip (t : Nat) (rails : BitVec 3)
  | perstFall (t : Nat)
  | perstRise (t : Nat)
  | mainRailsPresent (t : Nat)
  | mainRailsLost (t : Nat)
  | baseUnitsSettled (t : Nat)
  | tokenGrant (t : Nat)
  | tokenReturn (t : Nat)
  | coreLow (t : Nat)
  -- faults and recorder (19)
  | ledgerCheck (t : Nat)
  | faultClear (t : Nat) (p : Port) (value : Dword)
  | bbEntryToken (t : Nat)
  | bbSeal (t : Nat) (p : Port)
  | bbUnseal (t : Nat) (p : Port)
  | bbSelect (t : Nat) (p : Port) (entry : BitVec 13)
  | bbCopyDone (t : Nat)
  | bbMark (t : Nat) (p : Port) (value : Dword)
  | partnerSeen (t : Nat) (lane : Fin 16)
  | coreLowEnd (t : Nat)
  | d3hotChange (t : Nat) (entering : Bool)
  | pcieLinkChange (t : Nat) (up : Bool) (rate : Fin 5) (width : Fin 4)
  | testEnChange (t : Nat) (level : Bool)
  | jtagTck (t : Nat) (trstN tms tdi : Bool)
  deriving DecidableEq, Repr

end Sys2Proof
end

