-- ==== Sys2Proof/Decode.lean ====
section
/-! DEFINITION. No row of opcode_table.json gives bits: the hub takes commands, and no word spells one. -/

namespace Sys2Proof

/-- The command that a word spells by the table's bits: none, since no row gives bits. -/
def decodeTableWord (_nbits _w : Nat) : Option Instr := none

end Sys2Proof
end

