-- ==== Sys2Proof/Config.lean ====
section
/-! DEFINITION. What an implementation fixes, and the values the spec leaves open: opaque constants without a body. -/

namespace Sys2Proof

/-- The TAP's instructions (R511). -/
inductive TapInstr where
  | bypass | idcode | samplePreload | extest | extestPulse | extestTrain | clamp | highz
  deriving DecidableEq, Repr, Inhabited

/-- The dwords fixed at test: ID_LOGIC0 to ID_PMEM3, by BAR0 offset (R463, R466; log entry 4). -/
opaque Config.fuse : Nat → Dword
/-- A value the spec leaves open, taken afresh at each use: applied to State.freeIdx (log entry 8). -/
opaque Config.freeValue : Nat → Word
/-- The payload of a NaN that an operation on the given operands makes: the manual names the result, not its bits
(log entry 11). -/
opaque Config.nanBits : Word → Word → BitVec 51

/-- The TAP instruction of an opcode, but for the all-ones opcode of BYPASS: the manual gives no opcodes (log entry 14). -/
opaque Config.tapOpcode : BitVec 8 → TapInstr
/-- Cells of the boundary register: the manual gives no cell list (log entry 14). -/
opaque Config.boundaryCells : Nat

end Sys2Proof
end

