-- ==== Sys2Proof/Machine/State.lean ====
section
/-! DEFINITION. The state of the hub as plain data: every register, store, queue, counter, mode and pin the spec gives
it (INVENTORY.md '## State'), and the queue of the commands that are waiting. Sparse stores are sorted tables of
(key, value) pairs that list no default entry; `Machine/Table.lean` has their operations. -/

namespace Sys2Proof.Machine

/-- A sparse store: keys strictly rising, no entry equal to the store's default. -/
abbrev Table (α : Type) := List (Nat × α)

/-! ### The time base (02) -/

/-- The states of R39, in the coding of TB_STATUS.state (R68). -/
inductive TbState where
  | stopped | searching | acquiring | locked | coasting | slewing | handover
  deriving DecidableEq, Repr

/-- TB_STATUS.shadow_state (R68). -/
inductive ShadowState where
  | idle | searching | acquiring | locked
  deriving DecidableEq, Repr

/-- What brought the time base into HANDOVER (R48, R60). -/
inductive HandoverKind where
  | apply | refSwitch
  deriving DecidableEq, Repr

/-- Where a return to the reference stands (R54, R58, R62). -/
inductive ReturnPhase where
  | none      -- no return is under way
  | measuring -- the shadow line is locked; the offset is being averaged over a lock window
  | awaitTod  -- tod_resolve: the full offset is taken at the next TOD_IN pulse
  | held      -- policy HOLD: TB_STATUS.held
  deriving DecidableEq, Repr

/-- One reference input (R33, R41, R59). -/
structure RefState where
  /-- consecutive periods within 1 %, 0 to 64 -/
  run : Nat := 0
  /-- qualified: TB_STATUS.refa_ok, refb_ok -/
  ok : Bool := false
  /-- the dividers in use -/
  num : Nat := 240
  den : Nat := 1
  frac : Bool := false
  /-- consecutive cycles outside the lock window -/
  outRun : Nat := 0
  /-- when it last qualified, on the hub's own count -/
  since : Nat := 0
  deriving DecidableEq, Repr

/-- The fraction side of one line in fractional mode (R34): the dither register, the fraction of a core cycle that the reference
period leaves over, in 1/den, the last two quantisation errors of the second-order modulator, in 1/den Q, and the code of the
digital-to-time converter, in Q. -/
structure Modulator where
  lfsr : BitVec 24 := 0
  frac : Nat := 0
  e1 : Int := 0
  e2 : Int := 0
  code : Int := 0
  deriving DecidableEq, Repr

/-- The time base. -/
structure Tb where
  st : TbState := .stopped
  /-- the time base holds its wake tokens (R39) -/
  granted : Bool := false
  /-- the holdover began by a cold coast: the unlearned rate applies (R53) -/
  cold : Bool := false
  /-- which of the two lines is live -/
  line : Bool := false
  shadow : ShadowState := .idle
  /-- the reference in use (TB_STATUS.live_ref) -/
  liveRef : Ref := .refA
  /-- the reference the shadow line acquires -/
  acqRef : Ref := .refA
  refA : RefState := {}
  refB : RefState := {}
  /-- consecutive reference cycles of the acquisition inside the window (R37) -/
  lockCount : Nat := 0
  acqFail : Nat := 0
  handoverOf : Option HandoverKind := none
  /-- a TB_CMD.apply waits for the next reference edge, the next acquisition, or the end of the handover (R48, R49); the one
  that a handover is carrying out is `handoverOf` -/
  applyPend : Bool := false
  selPending : Bool := false
  /-- device time of the reference edges modulo the period, as a fraction of Q: numerator, denominator (R54) -/
  p0 : Option (Nat × Nat) := none
  ret : ReturnPhase := .none
  slewRemain : Int := 0
  slewTotal : Int := 0
  slewT0 : Nat := 0
  slewN : Nat := 0
  /-- fine steps made: device time and signed size, positive when device time was gained (R160) -/
  steps : List (Nat × Int) := []
  /-- forward steps made: from, to (R57, R161) -/
  forward : List (Nat × Nat) := []
  /-- u of R52, exact, in 10^-8 Q, and its values since the holdover began, newest first: device time, u -/
  hold : Nat := 0
  holdLog : List (Nat × Nat) := []
  /-- the restore uncertainty u0, in Q (R399) -/
  u0 : Nat := 0
  /-- the start value handed over by the restore (R63) -/
  d0 : Option Nat := none
  /-- device times at which the state changed, newest first (R40) -/
  log : List (Nat × TbState) := []
  aligned : Bool := false
  /-- the last phase error of the injected reference (R42, R67) -/
  lastErr : Int := 0
  /-- the mean control word as last measured (R50, R53) -/
  word : Dword := 0
  drift : Table Dword := []
  /-- the bin the die temperature is in, and since when (R50) -/
  bin : Option (Nat × Nat) := none
  /-- last good die temperature, in 0.125 degrees (R450) -/
  temp : Int := 0
  /-- band codes of line 0 and line 1 (R36) -/
  band0 : Nat × Nat := (0, 0)
  band1 : Nat × Nat := (0, 0)
  /-- the modulator of each line (R34) -/
  mod0 : Modulator := {}
  mod1 : Modulator := {}
  /-- the control word that steers the coasting live line; none while it injects, or where no bin is learned (R51) -/
  steered : Option Dword := none
  /-- the band codes and the control word that a cold coast starts from (R53) -/
  saved : Option (Nat × Nat × Dword) := none
  /-- u0 and the device times from which each value applied, newest first (R64) -/
  u0Log : List (Nat × Nat) := []
  /-- device time of the last fine phase step (R43) -/
  lastStep : Option Nat := none
  todRejects : Nat := 0
  /-- TOD_IN has been enabled and no edge has aligned since; the hold is that of a TOD_IN alignment (R62) -/
  todFirst : Bool := false
  todHold : Bool := false
  /-- when the time base was started, on the hub's own count (R53) -/
  started : Nat := 0
  spanRaised : Bool := false
  deriving DecidableEq, Repr

/-! ### Front ends and capture (03, 04) -/

/-- A zone, in the coding of FE_STATUS.zone (R94). -/
inductive Zone where
  | unresolved | low | mid | high
  deriving DecidableEq, Repr

/-- What follows a head (R105). -/
inductive Resync where
  | none | blankEnd | sampled
  deriving DecidableEq, Repr

/-- What a mailbag group or a remote item tells the sorting office. -/
inductive ItemKind where
  | edge    -- a head
  | est     -- a zone established
  | lost    -- a remote source UNRESOLVED (R279)
  | count   -- remote edges without stamps (R279)
  deriving DecidableEq, Repr

/-- An edge or zone event on its way to the engines (R105, R279). `thin` and `ovfl` are the unstamped edges that the
group's markers state, before the head. -/
structure Item where
  kind : ItemKind
  stamp : Nat
  rising : Bool := false
  zone : Zone := .unresolved
  skip : Bool := false
  resync : Resync := .none
  thin : Nat := 0
  ovfl : Nat := 0
  /-- of `thin` and of `ovfl`, the rising ones (log entry 10) -/
  thinRise : Nat := 0
  ovflRise : Nat := 0
  /-- count items: rising and falling edges without stamps -/
  rises : Nat := 0
  falls : Nat := 0
  deriving DecidableEq, Repr

/-- A closed mailbag word (R107): its fragments in slot order, its sequence, whether it was closed by flush, and what
the fragments decode to, each item standing in the word that holds its last fragment (log entry 10). -/
structure MailWord where
  frags : List Fragment
  seq : BitVec 7
  flushed : Bool
  items : List Item
  deriving DecidableEq, Repr

/-- A mailbag word as the fabric reads it (R107, R109). -/
structure WordOut where
  data : BitVec 128
  valid : BitVec 8
  tag : BitVec 16
  deriving DecidableEq, Repr

/-- What is fused at test into an input's TDC (R95, R97): the comparator's delay for each direction and the skew, in Q, and the
fused code table as hits per code where a code's width is not 1 Q (log entry 5). -/
structure Fused where
  rise : Nat := 0
  fall : Nat := 0
  skew : Int := 0
  codes : Table Nat := []
  deriving DecidableEq, Repr

/-- A WINDOW-mode crossing that may merge with the next one (R74): its stamp, its direction, whether it was passed on, the stamp
its head was written with (none where no head was written), and the device time at which it was decided. -/
structure Crossing where
  stamp : Nat
  rising : Bool
  passed : Bool
  head : Option Nat
  seen : Nat
  deriving DecidableEq, Repr

/-- One local input: front end and capture. -/
structure Input where
  zone : Zone := .unresolved
  /-- when it became established (true) or UNRESOLVED, newest first (R159) -/
  known : List (Nat × Bool) := []
  /-- the zone after the last accepted transition (R82) -/
  accepted : Zone := .unresolved
  /-- a change of R76 has not settled yet -/
  settling : Bool := false
  /-- outputs of the two WINDOW comparators (R72) -/
  aboveLo : Bool := false
  aboveHi : Bool := false
  /-- the last crossing into MID, while a merge is possible (R74) -/
  cross : Option Crossing := none
  /-- the zone and the time with which the alarm is tested once that crossing can merge no more (R74, R89) -/
  alarmDue : Option (Zone × Nat) := none
  /-- the blanking windows that have not closed, oldest first: the last one may be open (R78, R80, R82) -/
  windows : List (Nat × Nat) := []
  /-- the last sample instant of sampled operation (R86) -/
  lastSample : Option Nat := none
  /-- the zone lies in the alarm set (R89) -/
  inAlarm : Bool := false
  bucket : Nat := 64
  /-- when the bucket last gained a token, or began to be below 64, on the hub's own count (R100) -/
  refillAt : Nat := 0
  rate : Nat := 0
  since : Nat := 0
  held : Nat := 0
  heldPressure : Bool := false
  /-- of `held`, the rising ones -/
  heldRise : Nat := 0
  /-- when the rate was last raised, on the hub's own count (R101) -/
  lastRaise : Option Nat := none
  /-- the core cycle, by the device time of its boundary, of the last accepted edge, and of the last hit with its code (R98) -/
  lastEdge : Option Nat := none
  lastHit : Option (Nat × Nat) := none
  fused : Fused := {}
  /-- device time of the last time-bearing fragment (R104) -/
  lastTime : Nat := 0
  /-- vernier hits of the present calibration window, per code (R98) -/
  hits : Table Nat := []
  hitCount : Nat := 0
  /-- hits per code of the last complete window: the code table in use (empty: the fused table) -/
  codes : Table Nat := []
  calOk : Bool := false
  /-- edges dropped at a full mailbag and not yet written (R110); written ahead of the next head -/
  ovfl : Nat := 0
  ovflOut : Nat := 0
  ovflRise : Nat := 0
  ovflOutRise : Nat := 0
  /-- of the edges that no head has followed, those at or after t_cut of an Endgame, and the rising ones (R396) -/
  lateHeld : Nat := 0
  lateRise : Nat := 0
  /-- the open word, and when its oldest fragment was written, on the hub's own count -/
  openFrags : List Fragment := []
  openItems : List Item := []
  openAt : Nat := 0
  fifo : List MailWord := []
  seq : BitVec 7 := 0
  /-- the core cycle, by the device time of its boundary, in which a word was last closed by flush (R108) -/
  flushedAt : Option Nat := none
  /-- the word last handed to the fabric (R107, R109) -/
  popped : Option WordOut := none
  /-- the sequence the sorting office expects next (R107) -/
  routerSeq : BitVec 7 := 0
  deriving DecidableEq, Repr

/-- A cadence (R135 to R137). -/
structure Cadence where
  running : Bool := false
  /-- the grids so far, newest first: the device time from which instants lie on it, P, phase; the reset grid alone while empty -/
  grids : List (Nat × Nat × Nat) := []
  tStart : Nat := 0
  /-- the next instant to be issued -/
  next : Nat := 0
  /-- device time from which the present run issues instants (R163) -/
  since : Nat := 0
  deriving DecidableEq, Repr

/-! ### Channels (05 to 09, 15 to 17) -/

/-- The channel states of R121, in the coding of the PLACEMENT record (R364). -/
inductive ChanState where
  | vacant | declared | live | castling | paused | retired
  deriving DecidableEq, Repr

/-- The channel kinds of R117. -/
inductive Kind where
  | edge | pair | quad | window | remote
  deriving DecidableEq, Repr

/-- A source of a channel (R114, R129). -/
inductive Source where
  | none
  | local (input : Nat)
  | remote (lane index : Nat)
  deriving DecidableEq, Repr

/-- An edge selection (R118, R129). -/
inductive EdgeSel where
  | rising | falling | both
  deriving DecidableEq, Repr

/-- A declaration (R128), the fields of a DECLARE or REDECLARE. -/
structure Decl where
  kind : Kind := .edge
  guarded : Bool := false
  cls : Nat := 0
  ring : Nat := 0
  srcA : Source := .none
  selA : EdgeSel := .rising
  srcB : Source := .none
  selB : EdgeSel := .rising
  srcX : Source := .none
  selX : EdgeSel := .rising
  cadence : Nat := 31
  samples : Bool := false
  stamps : Bool := false
  recipeEn : Bool := false
  recipe : Nat := 0
  qty : Nat := 0
  regress : Bool := false
  wait : Nat := 0
  start : Nat := 0
  keeper : Nat := 0
  decode : Nat := 0
  phaseDiff : Bool := false
  countInit : Nat := 0
  deriving DecidableEq, Repr

/-- A selected edge that a channel has counted: its stamp, its indices (R143), and whether the stamp may be used for
time. `phase` tells a phase edge (R142). -/
structure Edge where
  stamp : Nat
  c : Nat
  m : Int
  phase : Bool
  rising : Bool
  timed : Bool
  zone : Zone := .unresolved
  /-- the chain of the side it belongs to (R144) -/
  chain : Nat := 0
  /-- it came after an instant above its stamp was resolved, and belongs to the next interval (R149) -/
  late : Bool := false
  /-- unstamped edges stand between the previous edge of the list and this one -/
  gap : Bool := false
  /-- the first selected edge of a chain -/
  first : Bool := false
  deriving DecidableEq, Repr

/-- One source of a channel with its own phase chain (R144; PHASE_DIFF has two). -/
structure Side where
  /-- counted edges, oldest first, back to the bracket of the last resolved instant -/
  edges : List Edge := []
  /-- unstamped edges that no head follows: the stamp of their item, and the totaliser after them, oldest first (R145, R157) -/
  counted : List (Nat × Nat) := []
  /-- the number of the chain under way, and from when on instants belong to it and to the chains before it, newest first, as far
  as an instant may still lie below (R144) -/
  chain : Nat := 0
  starts : List Nat := []
  /-- the index the next phase edge takes -/
  nextM : Int := 0
  /-- the highest integer phase reported (R144), and the highest assigned to a phase edge (R385) -/
  highM : Option Int := none
  assigned : Int := 0
  /-- the chain has a phase edge; it has no selected edge yet -/
  chained : Bool := false
  empty : Bool := true
  /-- mean time per cycle: time and cycles (R147) -/
  pest : Option (Nat × Nat) := none
  /-- unstamped edges stand after the last edge of the list -/
  gapNext : Bool := false
  /-- an instant was resolved before its bracket: the bracketing edge is late (R149) -/
  expired : Bool := false
  /-- zones entered: stamp and zone, newest first (WINDOW, R156) -/
  zones : List (Nat × Zone) := []
  deriving DecidableEq, Repr

/-- The previous instant of a channel's chain (R153), and the phase there in 2^-32 cycles. -/
structure PhaseAt where
  time : Nat
  phi : Option Int
  /-- stamps that the phase was computed from, of A and of B (R7) -/
  usedA : List Nat := []
  usedB : List Nat := []
  deriving DecidableEq, Repr

/-- A selected edge of a PAIR channel in INTERVAL mode on its way to the pairing: `timed` is false for a stamp that is not
used for time, `unstamped` tells that selected or unselected unstamped edges stand before it. -/
structure PairEdge where
  stamp : Nat
  onB : Bool
  timed : Bool
  unstamped : Bool
  /-- not an edge: the chain restarts here (R204) -/
  cut : Bool := false
  deriving DecidableEq, Repr

/-- An interval of a PAIR channel: its stamps, and its length after the correction of R160. -/
structure Interval where
  start : Nat
  stop : Nat
  length : Nat
  deriving DecidableEq, Repr

/-- PAIR channels in INTERVAL mode (R156). -/
structure PairState where
  /-- edges not paired yet, in order of their stamps -/
  todo : List PairEdge := []
  start : Option Nat := none
  /-- a FREEZE pause, a chain restart or a change of binding lies behind the open start: its interval is skipped (R204) -/
  dead : Bool := false
  /-- intervals closed and not yet reported -/
  done : List Interval := []
  /-- stamps of the A edges that replaced a start -/
  unmatched : List Nat := []
  /-- pairing is dropped until it may resume -/
  dropped : Bool := false
  /-- an unstamped edge of B has been dropped, and the stamp of the first stamped B edge after the last of them -/
  bWait : Bool := false
  bClear : Option Nat := none
  lastStop : Option Nat := none
  /-- stamps of edges that took part in no interval because of an unstamped edge -/
  lost : List Nat := []
  deriving DecidableEq, Repr

/-- A QUAD change awaiting its decision (R119). -/
structure QuadChange where
  stamp : Nat
  onB : Bool
  rising : Bool
  timed : Bool
  unstamped : Nat := 0
  /-- of `unstamped`, the rising ones -/
  rises : Nat := 0
  /-- the input's zone was established at the stamp: no change -/
  est : Option Zone := none
  /-- unstamped edges alone, which no head follows (log entry 28) -/
  headless : Bool := false
  deriving DecidableEq, Repr

/-- A decided change of a QUAD channel: its stamp, the position before and after its own step (equal where it counts no
step); unstamped steps stand between one entry's `after` and the next one's `before`. -/
structure QuadStep where
  stamp : Nat
  before : Int
  after : Int
  deriving DecidableEq, Repr

/-- QUAD channels (R119, R158): position, zones, and the changes not decided yet. -/
structure QuadState where
  zoneA : Zone := .unresolved
  zoneB : Zone := .unresolved
  todo : List QuadChange := []
  /-- the direction of the last decoded step: true is +1, as it is before any step (log entry 56) -/
  up : Bool := true
  skips : BitVec 32 := 0
  /-- stamps of index edges not below the last resolved instant, and the position at the last one below it -/
  marks : List Nat := []
  latched : Option Int := none
  /-- decided changes, newest first -/
  stepLog : List QuadStep := []
  /-- stamps of changes before which unstamped edges stand, newest first (R158) -/
  spans : List Nat := []
  /-- the position, unwrapped; the totaliser is its value modulo 2^48 -/
  position : Int := 0
  deriving DecidableEq, Repr

/-- State of one recipe stage (07). Fields a stage does not use keep their defaults. -/
structure StageState where
  primed : Bool := false
  /-- CIC integrators then combs, FIR delay line: signed integers -/
  ints : List Int := []
  /-- BIQUAD x1 x2 y1 y2, binary64 -/
  reals : List Word := []
  /-- DERIVE: last valid value and whether there is one; previous quantity for DIFF -/
  hold : Option Int := none
  prev : Option Int := none
  /-- flags of the held value, and of the previous quantity (R7, R189) -/
  holdFlags : BitVec 10 := 0
  prevFlags : BitVec 10 := 0
  /-- flag memory (R189): countdown and flags -/
  memCount : Nat := 0
  memFlags : BitVec 10 := 0
  /-- WINDOW: armed, run of alarm-side inputs -/
  armed : Bool := true
  run : Nat := 0
  /-- EMIT: saturation mask since its previous output; open parcel: values, its flags, first T_out -/
  sat : BitVec 12 := 0
  parcel : List Word := []
  parcelSat : BitVec 12 := 0
  parcelFlags : BitVec 10 := 0
  /-- T_out of the first output with the count and the phase there, the group delay, and the holding space -/
  parcelFrom : Option (Nat × Nat × Word) := none
  parcelG : Nat := 0
  parcelBlks : List Nat := []
  outputs : Nat := 0
  /-- the next output carries CFGCHG (R178) -/
  cfgNext : Bool := false
  deriving DecidableEq, Repr

/-- The basic statistics line (R196). -/
structure StatLine where
  n : Nat := 0
  h : Nat := 0
  mean : Word := 0
  m2 : Word := 0
  mn : Word := 0
  mx : Word := 0
  first : Nat := 0
  last : Nat := 0
  flags : BitVec 10 := 0
  sat : Bool := false
  restored : Bool := false
  deriving DecidableEq, Repr

/-- The sums of one level of a deviation set (R201). -/
structure DevLevel where
  sa : Word := 0
  na : Nat := 0
  sm : Word := 0
  nm : Nat := 0
  deriving DecidableEq, Repr

/-- A deviation set (R198 to R203). -/
structure DevSet where
  modeY : Bool := false
  dq : Int := 0
  unit : Word := 0
  reportN : Nat := 0
  /-- the segment's phase sequence x, newest first -/
  xs : List Int := []
  levels : List DevLevel := []
  inputs : Nat := 0
  held : Nat := 0
  range : Nat := 0
  segments : Nat := 0
  lastG : Option Nat := none
  /-- D_s and P of the last input (R199) -/
  dUsed : Nat := 1
  period : Nat := 0
  first : Nat := 0
  last : Nat := 0
  flags : BitVec 10 := 0
  bank : Nat := 0
  restored : Bool := false
  /-- an automatic report is due (R213) -/
  due : Bool := false
  deriving DecidableEq, Repr

/-- A histogram (R204 to R207). -/
structure Histo where
  auto : Bool := false
  mode : Nat := 0
  w : Nat := 0
  hq : Int := 0
  origin : Int := 0
  target : Nat := 0
  stop : Nat := 0
  bins : Table Nat := []
  binned : Nat := 0
  skipped : Nat := 0
  held : Nat := 0
  satBins : Nat := 0
  after : Nat := 0
  done : Bool := false
  /-- reasons of a completion that HISTO_COMPLETE or AUTO_PERIOD_END has still to deliver -/
  reasons : BitVec 6 := 0
  /-- start of the present AUTO period -/
  began : Nat := 0
  first : Nat := 0
  last : Nat := 0
  flags : BitVec 10 := 0
  bank : Nat := 0
  bank2 : Nat := 0
  restored : Bool := false
  deriving DecidableEq, Repr

/-- Where a channel lives (R216, R238). -/
structure Placed where
  engine : Nat := 0
  /-- the places held, by square and place index: the context's, then those of the state lines -/
  places : List (Nat × Nat) := []
  twin : Option Nat := none
  castles : BitVec 16 := 0
  /-- event equivalents of the present and of the last load window, and those that the twin carries (R221) -/
  work : Nat := 0
  lastWork : Nat := 0
  twinWork : Nat := 0
  twinLast : Nat := 0
  /-- number of the window in which it was placed (R237) -/
  placedIn : Nat := 0
  /-- number of the window in which it was last castled -/
  castledIn : Option Nat := none
  deriving DecidableEq, Repr

/-- A descriptor that has been accepted for a channel and not yet applied (R124, R210): `at_` is t_d, `ring` the submission
ring it came from. -/
inductive ChanOp where
  | redeclare (d : Decl) (tag : Dword) (at_ ring : Nat)
  | pause (countOnly : Bool) (tag : Dword) (at_ ring : Nat)
  | retire (now : Bool) (tag : Dword) (at_ ring : Nat)
  deriving DecidableEq, Repr

/-- A statistics descriptor that has been accepted and not yet applied (R210). -/
inductive TargetOp where
  | dev (release modeY : Bool) (dq : Int) (unit : Word) (reportN : Nat) (tag : Dword) (at_ ring : Nat)
  | histo (release : Bool) (no : Nat) (h : Histo) (tag : Dword) (at_ ring : Nat)
  | read (line dev : Bool) (histos : BitVec 4) (clear : Bool) (at_ ring : Nat)
  deriving DecidableEq, Repr

/-- A withheld interval (R376). -/
structure Withheld where
  from_ : Nat
  count : Nat
  phase : Word
  records : Nat := 0
  stamps : Nat := 0
  deriving DecidableEq, Repr

/-- A GAP that is owed: its code, start, count and phase at the start (R127, R285, R402). -/
structure GapOwed where
  code : Nat
  from_ : Nat
  to_ : Nat
  count : Nat
  phase : Word
  /-- the pause was a FREEZE; flags of the start -/
  frozen : Bool := false
  flags : BitVec 10 := 0
  /-- a GAP of a lane's new session (R285): the lane, and whether its start is still to be solved and its end to be stated -/
  lane : Nat := 0
  startOwed : Bool := false
  endOwed : Bool := false
  deriving DecidableEq, Repr

/-! ### Records (15) -/

/-- A record before it is laid out in slots (R360, R361). -/
structure Record where
  type : Nat
  emit : Bool := false
  flags : BitVec 10 := 0
  chan : Nat := 0xFFFFF
  aux : Nat := 0
  time : Nat := 0
  tde : Nat := 0
  code : Nat := 0
  spec0 : Nat := 0
  spec1 : Nat := 0
  body : List Word := []
  /-- the holding blocks it lies in (R220, R368, R372); none while it is in a sorting queue alone -/
  blks : List Nat := []
  /-- not part of the record's slots: when it was pushed, on the hub's own count (R371), and where it was produced: device time,
  count and phase there, with which a withheld interval would open (R376) -/
  pushedAt : Nat := 0
  at_ : Nat := 0
  count0 : Nat := 0
  phase0 : Word := 0
  deriving DecidableEq, Repr

/-- A record of a guarded channel (R419) as its primary engine made it, the ring it goes to, and of the twin's copy the count
N_t, once it has arrived, and whether the other fields are equal. -/
structure GuardedRecord where
  ring : Nat
  cls : Nat
  record : Record
  twin : Option Nat := none
  same : Bool := true
  /-- when the primary's copy came, on the hub's own count -/
  since : Nat := 0
  deriving DecidableEq, Repr

/-- The guarded side of a channel (17). -/
structure Guarded where
  /-- the twin engine's count minus the primary's, none when the twin's copy did not arrive (R419) -/
  twinOff : Option Int := some 0
  /-- keeper offset `off` (R418), none until aligned -/
  off : Option Int := none
  dispute : Bool := false
  /-- consecutive ticks of the rows of R420 -/
  mismatch : Nat := 0
  undecided : Nat := 0
  /-- records awaiting comparison, oldest first -/
  uncompared : List GuardedRecord := []
  /-- records held by a dispute -/
  heldRecs : List GuardedRecord := []
  /-- N_p of the records pushed before the twin's copy has arrived, oldest first: the copy is due late -/
  lateDue : List Nat := []
  /-- the last copy that came behind its record was equal to it (R419: the result is recorded) -/
  lateEqual : Option Bool := none
  /-- GUARD_KEEPER has been raised and the keeper has not matched since (R423) -/
  keeperFault : Bool := false
  /-- ticks whose vote is due, oldest first: device time and keeper count -/
  votes : List (Nat × Nat) := []
  /-- the tick of the last vote (R422) -/
  lastVote : Nat := 0
  /-- the merge that a restore owes: count and keeper count of the image (R401) -/
  merge : Option (Nat × Nat) := none
  deriving DecidableEq, Repr

/-- A channel. -/
structure Chan where
  st : ChanState := .vacant
  /-- the state a CASTLING channel returns to -/
  back : ChanState := .live
  decl : Decl := {}
  tag : Dword := 0
  tB : Nat := 0
  tLive : Nat := 0
  /-- the first device time at which the channel takes an instant (R126), and from which its edges give STAMP records (R127) -/
  sampleFrom : Nat := 0
  stampFrom : Nat := 0
  /-- PAUSED in COUNT_ONLY -/
  countOnly : Bool := false
  op : Option ChanOp := none
  /-- the device time at which `op` applies, once it is fixed (R124) -/
  opAt : Option Nat := none
  /-- the zones of A and B that a REDECLARE's sources had at t_r (R119, R124) -/
  zonesAt : Option (Zone × Zone) := none
  /-- the declaration that instants up to and including t_r use (R124) -/
  old : Option (Nat × Decl) := none
  /-- accepted statistics descriptors and the t_q of each once it is fixed (R210) -/
  targets : List (TargetOp × Option Nat) := []
  /-- totaliser, 48 bits -/
  count : Nat := 0
  /-- the count at which the totaliser began -/
  base : Nat := 0
  a : Side := {}
  b : Side := {}
  pair : PairState := {}
  quad : QuadState := {}
  /-- instants issued and not resolved, oldest first (R148) -/
  instants : List Nat := []
  prev : Option PhaseAt := none
  /-- from when on instants have no previous phase across a start of the chain, newest first (R144, R153) -/
  restarts : List Nat := []
  /-- the last resolved instant: no later than this is any edge still on time (R149) -/
  resolved : Nat := 0
  late : Bool := false
  /-- flags that the next record carries: CFGCHG, GAP (R362) -/
  cfg : Bool := false
  gapFlag : Bool := false
  /-- intervals in which the records of an input's edges carry CFGCHG (R91): input, from, to -/
  cfgSpan : List (Nat × Nat × Nat) := []
  /-- a GAP that waits for the phase at a RESUME, or for the first horizon of a session -/
  gap : Option GapOwed := none
  /-- a GAP owed for a new session of the channel's lane (R285) -/
  laneGap : Option GapOwed := none
  /-- CAD_PERIOD was written at this device time: the set restarts once the instants up to it are resolved (R203) -/
  gridCut : Option Nat := none
  stages : List StageState := []
  line : StatLine := {}
  dev : Option DevSet := none
  histos : Table Histo := []
  place : Placed := {}
  withheld : Option Withheld := none
  /-- newest image: count and phase index, taken when (R385) -/
  image : Option (Nat × Nat × Nat) := none
  guard : Guarded := {}
  /-- the items routed to this channel and not processed: use (0 A, 1 B, 2 X) and item -/
  inbox : List (Nat × Item) := []
  /-- sources of earlier declarations that were bound since the newest image (R400) -/
  since : List Source := []
  /-- restore bound b (R400), and the state the channel enters when a line is live -/
  bound : Nat := 0
  restoring : Option ChanState := none
  deriving DecidableEq, Repr

/-! ### Lanes and peers (10 to 12) -/

/-- The lane states of R247, in the coding of COU_STATUS.state. -/
inductive LaneState where
  | off | detect | train | align | credit | active | recover | absent
  deriving DecidableEq, Repr

/-- Answers of R254 about one tap. -/
inductive TapAnswer where
  | notUpdated | updated | min | max
  deriving DecidableEq, Repr

/-- The transmitter training of one lane (R253 to R256). -/
structure Training where
  /-- the hub's transmitter taps -/
  pre : Nat := 0
  main : Nat := 40
  post : Nat := 0
  ansPre : TapAnswer := .notUpdated
  ansMain : TapAnswer := .notUpdated
  ansPost : TapAnswer := .notUpdated
  /-- the hub's own outstanding request: none, the preset request, or a tap (0 pre, 1 main, 2 post) and direction -/
  preset : Bool := false
  reqTap : Option (Nat × Bool) := none
  /-- partner taps as the answers imply -/
  ppre : Nat := 0
  pmain : Nat := 0
  ppost : Nat := 0
  /-- blocks since the last invalid header or discarded training block -/
  clean : Nat := 0
  rxReady : Bool := false
  partnerReady : Bool := false
  /-- consecutive training blocks that carried rx_ready: received, sent -/
  readyRx : Nat := 0
  readyTx : Nat := 0
  stepsDone : Bool := false
  /-- training blocks sent, modulo 256 (R254) -/
  seq : BitVec 8 := 0
  /-- the preset request has been sent (R256 step 2) -/
  asked : Bool := false
  deriving DecidableEq, Repr

/-- A dispatch kept for replay (R268). -/
structure Dispatched where
  head : Ctl
  data : List Word
  tail : Ctl
  /-- ring, tag and position of the descriptor that posted the letter -/
  ackRing : Nat
  tag : Dword
  pos : Nat
  deriving DecidableEq, Repr

/-- A letter accepted and not yet sent (R289). -/
structure Letter where
  bytes : List Byte
  ackRing : Nat
  tag : Dword
  pos : Nat
  deriving DecidableEq, Repr

/-- RETURN bookkeeping of one reason (R292, R349): the first occurrence not yet reported and how many, and whether the
1 ms since the last RETURN of the reason runs. -/
structure Occur where
  first : Nat := 0
  count : Nat := 0
  running : Bool := false
  deriving DecidableEq, Repr

/-- A remote source (R279, R282): the time of its last item, and its zone. -/
structure RemoteSrc where
  last : Nat := 0
  zone : Zone := .unresolved
  /-- when it became established (true) or UNRESOLVED, newest first (R159, R279) -/
  known : List (Nat × Bool) := []
  deriving DecidableEq, Repr

/-- A data block in a lane's receive buffer (R273): the remote index and the item that it holds, if it holds one. -/
abbrev LaneBlock := Option (Nat × Item)

/-- A Courier lane. -/
structure Lane where
  st : LaneState := .off
  /-- waiting for its wake tokens to leave OFF -/
  tokens : Bool := false
  attempt : Nat := 0
  /-- in backoff -/
  backoff : Bool := false
  probing : Bool := false
  /-- a probe has begun since DETECT was entered or its backoff ended (R247) -/
  probed : Bool := false
  /-- consecutive probes without a termination -/
  empty : Nat := 0
  partner : Bool := false
  partnerSeen : Bool := false
  signal : Bool := false
  blockLock : Bool := false
  /-- valid headers in a row, up to 64; when the invalid headers of the last 64 blocks came, on the hub's own count -/
  validRun : Nat := 0
  recentBad : List Nat := []
  train : Training := {}
  /-- good ALIGN blocks in a row; when the echo was sent; an echo has been completed in this ALIGN -/
  alignRun : Nat := 0
  echoAt : Option Nat := none
  echoed : Bool := false
  /-- the loop delay measured in this ALIGN, shown once ALIGN completes (R262) -/
  loopNew : Nat := 0
  frozen : Bool := false
  kaCount : Word := 0
  kaMissing : Bool := false
  /-- upstream and downstream sequences (R268) -/
  rxNext : BitVec 16 := 0
  txNext : BitVec 16 := 0
  /-- a session exists (R278) -/
  session : Bool := false
  replay : List Dispatched := []
  letters : List Letter := []
  /-- data blocks since INIT: sent downstream, limit received, credited ones accepted upstream, limit granted (R269, R273) -/
  sent : Nat := 0
  limitRx : Nat := 0
  accepted : Nat := 0
  limitTx : Nat := 0
  /-- the receive buffer, oldest first; how many of its blocks count against the violation reserve; blocks freed while
  credit is withheld (R273 to R275) -/
  buffer : List LaneBlock := []
  reserve : Nat := 0
  freed : Nat := 0
  /-- a resynchronisation is in progress (R276) -/
  sync : Bool := false
  /-- blocks freed since the last ACK -/
  freedSinceAck : Nat := 0
  /-- the sequence of the last NAK while it has not arrived, and NAKs sent for it (R272) -/
  nakOut : Option (BitVec 16 × Nat × Nat) := none
  /-- INIT or PEER_HELLO exchange: a good one has arrived, one with seen at 1 has -/
  initGood : Bool := false
  initSeen : Bool := false
  pCredits : Nat := 0
  pReplay : Nat := 0
  pVersion : Nat := 0
  pResume : Bool := false
  pRxNext : BitVec 16 := 0
  /-- the first dispatch after INIT has not arrived yet -/
  firstDispatch : Bool := false
  resumed : Bool := false
  horizon : Nat := 0
  sources : Table RemoteSrc := []
  occurs : Table Occur := []
  protocolRaised : Bool := false
  /-- the previous FINE_BEACON: its t_tx and its arrival; how many since entry into ACTIVE (R286, R287) -/
  lastBeacon : Option (Nat × Nat) := none
  beacons : Nat := 0
  /-- ledger of data blocks (R454 no. 4) -/
  blocksRx : Nat := 0
  blocksAcc : Nat := 0
  blocksRef : Nat := 0
  blocksDup : Nat := 0
  /-- CTLE and DFE codes in the layout of COU_RX_EQ -/
  eq : Word := 0
  /-- the scrambler of the transmitter, its oldest line bit in bit 0, and the last block on the line, the first transmitted bit of
  its sync header in bit 0 (R240) -/
  scrambler : BitVec 58 := 0
  lineBlock : BitVec 66 := 0
  deriving DecidableEq, Repr

/-- Link state of a peer lane (R303). -/
inductive LinkState where
  | none | up | suspect | lost
  deriving DecidableEq, Repr

/-- A peer lane (R296 to R303): what the partner's last good frame said, and the two-way measurement. -/
structure PeerLane where
  link : LinkState := .none
  rank : Nat := 0
  masterRank : Nat := 0
  hops : Nat := 31
  coast : Bool := false
  aligned : Bool := false
  part : Bool := false
  tde : Nat := 0
  /-- the relayed bound, in Q -/
  bound : Nat := 0
  /-- consecutive missed frames -/
  misses : Nat := 0
  /-- frames the hub sent: sequence and t_tx, newest first -/
  sentAt : List (Nat × Nat) := []
  seq : BitVec 8 := 0
  /-- the partner's last frame: sequence and arrival -/
  arrived : Option (Nat × Nat) := none
  /-- the exchanges averaged, newest first -/
  thetas : List Int := []
  loop : Int := 0
  deriving DecidableEq, Repr

/-- The hub's part in its time domain (R300 to R305). -/
structure Peer where
  master : Bool := false
  masterRank : Nat := 0
  hops : Nat := 31
  parent : Option Nat := none
  part : Bool := false
  tde : Nat := 0
  seenTde : Nat := 0
  /-- rank and hops ignored for 2 ms after a loss (R300) -/
  stale : Option (Nat × Nat) := none
  trimRemain : Int := 0
  trimT0 : Nat := 0
  trimN : Nat := 0
  /-- the last multiple of 125 µs of device time at which frames went out (R298) -/
  slot : Nat := 0
  /-- the parent is new, and has not been corrected to yet; the hub has been aligned before (R301) -/
  fresh : Bool := false
  rejoin : Bool := false
  deriving DecidableEq, Repr

/-! ### Rings and delivery (14, 15) -/

/-- Ring states in the coding of RING_STATE.state (R359). -/
inductive RingState where
  | disabled | active | stopped | stopping
  deriving DecidableEq, Repr

/-- What a slot is: the head of a record's first part, the head of a later part, a body slot. -/
inductive SlotRole where
  | first | part | body
  deriving DecidableEq, Repr

/-- A slot kept for rewind (R379): its ring sequence, what it is, its 32 bytes, and the holding block its copy lies
in. -/
structure Kept where
  seq : Nat
  role : SlotRole
  bits : BitVec 256
  block : Nat
  deriving DecidableEq, Repr

/-- A push (R369): the queue's class, the engine that is held while the push is, the record. -/
structure Push where
  cls : Nat
  engine : Option Nat
  record : Record
  deriving DecidableEq, Repr

/-- A REPOST being written (R380): slots still to be written, slots written, where its CONFIG_ACK goes. -/
structure Reposting where
  todo : List Kept
  written : Nat := 0
  mark : Nat
  ackRing : Nat
  tag : Dword
  /-- the submission ring it came from -/
  ring : Nat
  deriving DecidableEq, Repr

/-- A ring. -/
structure Ring where
  st : RingState := .disabled
  /-- enable was set again while STOPPING (R339) -/
  again : Bool := false
  /-- h of a submission ring, w of a delivery ring -/
  pos : Nat := 0
  /-- t or l -/
  lb : Nat := 0
  /-- descriptors fetched and not consumed, oldest first -/
  fetched : List Desc := []
  /-- sorting queues (R369), oldest first -/
  express : List Record := []
  standard : List Record := []
  bulk : List Record := []
  /-- pushes held because the unit did not fit (R370), oldest first -/
  waiting : List Push := []
  /-- records in the holding store (R372), oldest first -/
  held : List Record := []
  /-- a record of which parts have been written, and the number of the next part (R367) -/
  part : Option (Record × Nat) := none
  /-- holding blocks of the ring: block number to what lies in it; the next block number; the newest block and the bytes
  used in it (R220) -/
  blocks : Table Nat := []
  nextBlock : Nat := 0
  newest : Option (Nat × Nat) := none
  kept : List Kept := []
  marks : Table Nat := []
  repost : Option Reposting := none
  summary : Bool := false
  /-- RING_NOT_DELIVERY has been raised and its condition has not cleared (R347) -/
  notDelivery : Bool := false
  /-- entries made visible since the ring's last message, and when the first of them was, on the hub's own count (R357) -/
  pendingEntries : Nat := 0
  pendingAt : Nat := 0
  updates : Nat := 0
  /-- LETTERBOX RETURN: value and position of the first violation, count, running (R349) -/
  lbFirst : Option (Nat × Nat) := none
  lbCount : Nat := 0
  lbTimer : Bool := false
  produced : Nat := 0
  delivered : Nat := 0
  summarised : Nat := 0
  deriving DecidableEq, Repr

/-- What the hub has put out, in the order issued (log entry 7). -/
inductive Output where
  | slot (addr : Nat) (bits : BitVec 256)
  | status (addr : Nat) (bits : BitVec 512)
  | msix (vector addr : Nat) (data : Nat)
  | completion (off : Nat) (data : List Dword)
  | completerAbort (off : Nat)
  | unsupported (off : Nat)
  | mspi (bytes : List Byte)
  | ctl (lane type : Nat) (payload : Ctl)
  | data (lane : Nat) (payload : Word)
  | fill (lane count : Nat)
  deriving DecidableEq, Repr

/-! ### Persistence (16) -/

/-- A channel record (R384); `good` tells a good CRC and correctable words. -/
structure PRecord where
  count : Nat := 0
  pass : Nat := 0
  state : Nat := 0
  phase : Nat := 0
  good : Bool := true
  deriving DecidableEq, Repr

/-- The kinds of pass (R388). -/
inductive PassKind where
  | checkpoint | drain | endgame | restore
  deriving DecidableEq, Repr

/-- A journal entry (R388) with its sequence. -/
inductive JEntry where
  | passOpen (kind : PassKind) (num tOpen ktime : Nat)
  | source (num chunk : Nat) (counters : List Nat)
  | cut (num tCut ktime : Nat)
  | bitmap (first : Nat) (bits : BitVec 160)
  | passClose (kind : PassKind) (num images time undelivered : Nat) (allWritten : Bool)
  deriving DecidableEq, Repr

/-- A triplicate slot of a guarded channel (R401). -/
structure Triplicate where
  image : PRecord := {}
  keeper : Nat := 0
  deriving DecidableEq, Repr

/-- What the configuration image holds of one channel (R391): with its binding, the sources bound since its image (R400). -/
structure ImageChan where
  decl : Decl
  st : ChanState
  countOnly : Bool
  since : List Source
  dev : Option DevSet
  histos : Table Histo
  deriving DecidableEq, Repr

/-- One half of the configuration image (R391). -/
structure ImageHalf where
  generation : Nat := 0
  good : Bool := true
  chans : Table ImageChan := []
  drift : Table Dword := []
  /-- with the drift table, what a cold coast starts from (R53) -/
  saved : Option (Nat × Nat × Dword) := none
  remap : Table Nat := []
  deriving DecidableEq, Repr

/-- A pass under way (R386): `todo` are the channels whose image waits, for a castling (R231) or for the keeper tick. -/
structure Pass where
  kind : PassKind
  num : Nat
  images : Nat := 0
  todo : List Nat := []
  /-- when its writes began, on the hub's own count, and their bytes, check bits counted (R383, R386) -/
  wroteFrom : Nat := 0
  bytes : Nat := 0
  deriving DecidableEq, Repr

/-- An Endgame under way (R395, R396). Device times in Q; `holdup` is H in Q. -/
structure EndgameRun where
  tPf : Nat
  /-- the moment of entry on the hub's own count -/
  nowPf : Nat
  holdup : Nat
  tCut : Nat
  /-- the keeper tick t_k of step 2 -/
  tK : Option Nat := none
  /-- the keeper time counter at t_k (R388) -/
  kTime : Nat := 0
  /-- the keeper count of every guarded channel at t_k -/
  kAt : Table Nat := []
  /-- the reduced Endgame of R397, before any channel is LIVE -/
  bare : Bool := false
  /-- steps 1 to 3 are done -/
  begun : Bool := false
  /-- edges accepted at or after t_cut, by source counter (R388) -/
  after : Table Nat := []
  num : Nat := 0
  /-- channels dirty at t_cut and not yet written, in the order of step 4; when the writes began, bytes written -/
  todo : List Nat := []
  wroteFrom : Nat := 0
  wrote : Nat := 0
  images : Nat := 0
  deadline : Bool := false
  deriving DecidableEq, Repr

/-- Where a restore stands (R398). -/
inductive RestorePhase where
  | idle      -- no restore has been granted
  | granted   -- the persistent die has its tokens
  | read      -- D0 handed over, channels classified; they enter their states when the line is live
  | done
  deriving DecidableEq, Repr

/-- The persistent die and its engine. -/
structure Pst where
  records : Table PRecord := []
  /-- the journal with its sequences, newest first -/
  journal : List (Nat × JEntry) := []
  jseq : Nat := 0
  trip0 : Table Triplicate := []
  trip1 : Table Triplicate := []
  trip2 : Table Triplicate := []
  half0 : ImageHalf := {}
  half1 : ImageHalf := {}
  /-- a change of the configuration image has not been written -/
  changed : Bool := false
  /-- when the oldest change that has not been written was accepted, on the hub's own count (R391) -/
  changedAt : Nat := 0
  genTokens : Nat := 1000
  blackBox : Table (BitVec 256) := []
  pass : Option Pass := none
  passNum : Nat := 0
  /-- a checkpoint is due behind the pass that runs; the run of late passes has not ended; the last due time -/
  late : Bool := false
  lateRun : Bool := false
  lastCkpt : Nat := 0
  covered : Bool := false
  wear : Table Nat := []
  /-- when a stripe was last written, on the hub's own count (R404) -/
  written : Table Nat := []
  remap : Table Nat := []
  endgame : Option EndgameRun := none
  restore : RestorePhase := .idle
  /-- the pair of R399 that was used: its t, and k_r; where the OUTAGE of R402 begins -/
  restoreT : Option Nat := none
  restoreK : Nat := 0
  outFrom : Nat := 0
  deriving DecidableEq, Repr

/-! ### The keeper domain (17) -/

/-- A keeper word in three copies (R413). -/
structure Triple where
  x : Nat := 0
  y : Nat := 0
  z : Nat := 0
  deriving DecidableEq, Repr

/-- The keeper domain. Its counters are 48 bits. -/
structure Keeper where
  /-- in keeper reset -/
  reset : Bool := false
  por : Bool := true
  xtalFail : Bool := false
  onXtal : Bool := false
  time : Triple := {}
  counters : Table Triple := []
  zones : Table Zone := []
  /-- counters that are not working (R413): 0 to 63, 64 the time counter -/
  broken : List Nat := []
  /-- of these, the ones whose enable has been written 0 since (R413) -/
  zeroed : List Nat := []
  cause : BitVec 5 := 0
  lastInput : Nat := 0
  asserted : Bool := false
  assertedFor : Nat := 0
  corrected : Nat := 0
  /-- counters corrected, and pairs that skipped, in a quiet state since the last restore (R421) -/
  correctedOf : List Nat := []
  skippedOf : List Nat := []
  lastWord : Nat := 0
  uncorr : Bool := false
  cfgCorrected : Nat := 0
  skipAny : BitVec 32 := 0
  lastCause : Nat := 0
  lastDroop : BitVec 3 := 0
  /-- transitions into or out of a quiet state, latched for the black box: cause, code, keeper time, parameter -/
  latched : List (Nat × Nat × Nat × Nat) := []
  /-- device time at which the last tick was registered, the moment it came on the hub's own count, the causes it set -/
  lastTick : Nat := 0
  tickNow : Nat := 0
  fresh : BitVec 5 := 0
  deriving DecidableEq, Repr

/-! ### Power (18) -/

/-- The power states of R431, in the coding of PWR_STATUS.state. -/
inductive PowerState where
  | off | keeper | waking | run | endgame
  deriving DecidableEq, Repr

/-- A unit that draws wake tokens (R437). -/
inductive WakeUnit where
  | timeBase | mram | group (n : Nat) | engine (n : Nat) | lane (n : Nat) | frontEnd (n : Nat)
  deriving DecidableEq, Repr

/-- The power governor. -/
structure Power where
  st : PowerState := .run
  rails : Bool := true
  pfail : Bool := false
  perstN : Bool := true
  testEn : Bool := false
  baseSettled : Bool := true
  droop : BitVec 3 := 0
  queue : List WakeUnit := []
  /-- units that settle: the unit and when its 5 us end -/
  settling : List (WakeUnit × Nat) := []
  out : Nat := 0
  settled : List WakeUnit := []
  coreLow : Bool := false
  vbakLow : Bool := false
  deriving DecidableEq, Repr

/-! ### Faults (19), the register interface (13), the sorting office (09), JTAG (21) -/

/-- The last black-box entry of a fault code and parameter, and the repeats since (R446). -/
structure Repeat where
  code : Nat
  param : Nat
  at_ : Nat
  repeats : Nat
  deriving DecidableEq, Repr

/-- Faults, ledgers and the black box. -/
structure Flt where
  active : BitVec 9 := 0
  severe : Bool := false
  /-- classes that have set severe since it was last cleared (R448) -/
  severeOf : BitVec 9 := 0
  repeats : List Repeat := []
  bbTokens : Nat := 64
  sealed : Bool := false
  session : Nat := 0
  sessionFirst : Nat := 8
  /-- event entries since entry 3 was last written (R456) -/
  since3 : Nat := 0
  failing : Bool := false
  /-- the last multiple of 1 ms of device time whose check has run (R453) -/
  ledgerAt : Nat := 0
  /-- a temperature has been read since entry into RUN (R465) -/
  tempSeen : Bool := false
  warnRun : Nat := 0
  warnOn : Bool := false
  limitRun : Nat := 0
  limitOn : Bool := false
  /-- vectors 64 to 67: holdoff running, event pending (R358) -/
  holdoff : BitVec 4 := 0
  again : BitVec 4 := 0
  pressure : Bool := false
  grace : Bool := false
  routed : Nat := 0
  copies : Nat := 0
  counted : Nat := 0
  unbound : Nat := 0
  outage : Nat := 0
  begun : Nat := 0
  completed : Nat := 0
  aborted : Nat := 0
  engCounted : Table Nat := []
  engWork : Table Nat := []
  selOut : Option Nat := none
  deriving DecidableEq, Repr

/-- The register interface. -/
structure Gbl where
  keyHost : Bool := false
  keyMspi : Bool := false
  /-- a far write in flight: offset and value -/
  far : Option (Nat × Word) := none
  /-- a snapshot being copied: its time and its values -/
  snap : Option (Nat × Table Word) := none
  /-- registers whose mismatch awaits a rewrite (R329) -/
  mismatched : List Nat := []
  safe : Bool := false
  deriving DecidableEq, Repr

/-- A planned move (R224, R227). -/
structure Move where
  chan : Nat
  /-- move of a target: none a context, some 4 the deviation set, some h histogram h -/
  target : Option Nat := none
  twin : Bool := false
  toEngine : Nat
  toSquare : Option Nat := none
  pin : Bool := false
  /-- number of the window that planned it -/
  window : Nat
  deriving DecidableEq, Repr

/-- A castling under way (R227). -/
structure Castling where
  move : Move
  sealed : Bool := false
  /-- device time of the seal: instants behind it wait in the diversion queue (R228, R230) -/
  sealAt : Nat := 0
  /-- the words that arrived after the seal, each with its items for the channel, and those held at the input arbiter (R228) -/
  diverted : List (List (Nat × Item)) := []
  waiting : List (List (Nat × Item)) := []
  /-- the destination places of a context's move -/
  dest : List (Nat × Nat) := []
  deriving DecidableEq, Repr

/-- A pin or a hint (R236), kept also for VACANT channels. -/
structure Wish where
  pinned : Bool := false
  engine : Nat := 0
  square : Option Nat := none
  pinRing : Nat := 0
  pinTag : Dword := 0
  pinOwed : Bool := false
  rate : Nat := 0
  group : Nat := 0
  groupMode : Nat := 0
  deriving DecidableEq, Repr

/-- The sorting office. -/
structure Plc where
  tokens : Nat := 41
  /-- number of the load window that was planned last -/
  windowNo : Nat := 0
  wishes : Table Wish := []
  plan : List Move := []
  castlings : List Castling := []
  /-- busy time in Q and event equivalents of each engine in the last window (R221) -/
  busy : Table Nat := []
  work : Table Nat := []
  /-- event equivalents of each engine in the present window -/
  workNow : Table Nat := []
  /-- PLC_CASTLE_RATE.limit as it applies, and when the bucket last gained a token, or stopped being full, on the hub's own count
  (R232, R239) -/
  limit : Nat := 4096
  tokenAt : Nat := 0
  /-- predicted additions to the busy fraction in the present window, in 2^-40 (R223) -/
  predicted : Table Nat := []
  pinRuns : Table Nat := []
  /-- places in use, or reserved by a castling, per square, and per guard buffer -/
  used : Table Nat := []
  guardUsed : Table Nat := []
  holdFree : Nat := 8192
  minFree : Nat := 8192
  deriving DecidableEq, Repr

/-- A load accepted and not yet applied (R178); `ring` is the submission ring it came from. -/
inductive Load where
  | recipe (slot ackRing : Nat) (tag : Dword) (image : List Dword) (ring : Nat)
  | bank (bank ackRing : Nat) (tag : Dword) (first : Nat) (data : List Dword) (ring : Nat)
  deriving DecidableEq, Repr

/-- The TAP controller's states (IEEE 1149.1, R511). -/
inductive TapState where
  | reset | idle | selectDr | captureDr | shiftDr | exit1Dr | pauseDr | exit2Dr | updateDr
  | selectIr | captureIr | shiftIr | exit1Ir | pauseIr | exit2Ir | updateIr
  deriving DecidableEq, Repr

/-- The boundary-scan port. -/
structure Jtag where
  st : TapState := .reset
  /-- the instruction in effect; IDCODE after Test-Logic-Reset, whatever its opcode -/
  ir : BitVec 8 := 0
  idcode : Bool := true
  /-- the instruction and the selected data register while they shift, the bit nearest TDO first -/
  irShift : List Bool := []
  dr : List Bool := []
  /-- the update stage of the boundary register -/
  update : List Bool := []
  /-- JTAG_TDO, which is driven only while a register shifts -/
  tdo : Option Bool := none
  deriving DecidableEq, Repr

/-- The PCI Express port (R333, R336). -/
structure Pcie where
  /-- the ring last served at each step of R371 -/
  served : Table Nat := []
  d3hot : Bool := false
  up : Bool := false
  rate : Nat := 0
  width : Nat := 0
  deriving DecidableEq, Repr

/-- Why the model stops. -/
inductive Fault where
  /-- Raised by the meaning of a command that is not well formed (`WellFormed`; log entry 16), in the rows that carry a list
  or a BAR offset: the outside cannot issue it, so no behaviour of the hub is left out. Safe. -/
  | illFormed
  deriving DecidableEq, Repr

/-- Why a command has no meaning. -/
inductive Refusal where
  /-- Raised by an arm of `exec` for a row that has no meaning yet. Safe: the machine stops. -/
  | notModelled (mnemonic : String)
  deriving DecidableEq, Repr

/-- The hub. -/
structure State where
  /-- elapsed Q on the hub's own count (log entry 1) -/
  now : Nat := 0
  /-- device time (R31, R65) -/
  devTime : Nat := 0
  /-- device time of core-cycle boundaries modulo 512 -/
  phase : Nat := 0
  /-- BAR0 registers by offset, where they differ from their Reset value -/
  regs : Table Word := []
  /-- far-side working copies by offset (R317) -/
  far : Table Word := []
  tb : Tb := {}
  inputs : Table Input := []
  /-- the last whole microsecond of device time at which thinning rates fell (R101) -/
  decayed : Nat := 0
  /-- BLANK_TRIG pin levels and CADENCE_OUT pin levels -/
  trig : BitVec 4 := 0
  cadOut : BitVec 4 := 0
  /-- when the pulse on a CADENCE_OUT pin ends, by pin, on the hub's own count (R140) -/
  cadEnd : Table Nat := []
  cadences : Table Cadence := []
  chans : Table Chan := []
  recipes : Table (List Dword) := []
  banks : Table (List Dword) := []
  loads : List Load := []
  plc : Plc := {}
  lanes : Table Lane := []
  peerLanes : Table PeerLane := []
  peer : Peer := {}
  rings : Table Ring := []
  /-- MSI-X table dwords by offset where they differ from reset, and the Pending Bit Array -/
  msix : Table Dword := []
  pba : BitVec 68 := 0
  pcie : Pcie := {}
  pst : Pst := {}
  kpr : Keeper := {}
  pwr : Power := {}
  flt : Flt := {}
  gbl : Gbl := {}
  jtag : Jtag := {}
  sent : List Output := []
  /-- when each timer was last started, on the hub's own count: `Timer.no` to its moment -/
  timers : Table Nat := []
  /-- the counter that free values are applied to (log entry 8) -/
  freeIdx : Nat := 0
  /-- the commands that are waiting, first in, first out -/
  pending : List Instr := []
  deriving DecidableEq, Repr

/-- The hub right after reset: every register at its Reset value (R471), the governor just entered into RUN (log entry
3), nothing declared, an empty queue. -/
def State.reset : State :=
  { kpr := { por := true }
    pwr := { queue := [.timeBase, .mram] ++ (List.range 16).map .group ++ (List.range 16).map .engine } }

end Sys2Proof.Machine
end

