-- ==== Sys2Proof/Machine/Table.lean ====
section
/-! DEFINITION. The operations on sparse stores: sorted lists of (key, value) that list no entry equal to the store's
default, so that equal stores are equal data. -/

namespace Sys2Proof.Machine

/-- The listed value of a key. -/
def tget? {α : Type} : Table α → Nat → Option α
  | [], _ => none
  | (k, v) :: r, x => if x = k then some v else tget? r x

/-- The value of a key; `d` where none is listed. -/
def tget {α : Type} (d : α) (t : Table α) (x : Nat) : α := (tget? t x).getD d

/-- Lists a value in key order. -/
def tput {α : Type} : Table α → Nat → α → Table α
  | [], x, v => [(x, v)]
  | (k, w) :: r, x, v =>
    if x < k then (x, v) :: (k, w) :: r
    else if x = k then (x, v) :: r
    else (k, w) :: tput r x v

/-- Takes a key out. -/
def tdel {α : Type} : Table α → Nat → Table α
  | [], _ => []
  | (k, v) :: r, x => if x = k then tdel r x else (k, v) :: tdel r x

/-- Sets a key; setting it to the default takes it out. -/
def tset {α : Type} [DecidableEq α] (d : α) (t : Table α) (x : Nat) (v : α) : Table α :=
  if v = d then tdel t x else tput t x v

/-- Changes a key's value. -/
def tmod {α : Type} [DecidableEq α] (d : α) (t : Table α) (x : Nat) (f : α → α) : Table α :=
  tset d t x (f (tget d t x))

/-- Changes every listed value. -/
def tmap {α : Type} [DecidableEq α] (d : α) (t : Table α) (f : α → α) : Table α :=
  t.filterMap fun (k, v) => let w := f v; if w = d then none else some (k, w)

/-- Every key is above `b`, strictly rising, and no entry is the default of its key. -/
def twfFrom {α : Type} [DecidableEq α] (d : Nat → α) (b : Option Nat) : Table α → Bool
  | [] => true
  | (k, v) :: r => (match b with | none => true | some m => decide (m < k)) && decide (v ≠ d k) && twfFrom d (some k) r

/-- The canonical form of a sparse store with default `d`. -/
def twf {α : Type} [DecidableEq α] (d : Nat → α) (t : Table α) : Bool := twfFrom d none t

/-- The keys, rising. -/
def tkeys {α : Type} (t : Table α) : List Nat := t.map Prod.fst

end Sys2Proof.Machine
end

