-- ==== Sys2Proof/Machine/RegMap.lean ====
section
/-! DEFINITION. The register map (20): the BAR0 offset of every register by the manual's own name, and for each block
its rows: offset, width, which bits a write may change, access codes and Reset value (R468 to R487). A bit that a field
table marks reserved or RO is outside `mask`. -/

namespace Sys2Proof.Machine

namespace Reg
/-! ID -/
def ID_LOGIC (k : Nat) : Nat := 0x0 + 4 * k
def ID_SRAM (k : Nat) : Nat := 0x10 + 4 * k
def ID_PMEM (k : Nat) : Nat := 0x20 + 4 * k
def ID_DEVICE : Nat := 0x30
def ID_FUSE : Nat := 0x34
/-! GBL -/
def GBL_CTRL : Nat := 0x1000
def GBL_STATUS : Nat := 0x1004
def GBL_SCRUB : Nat := 0x1008
def GBL_KEY : Nat := 0x1010
def GBL_KEY_FAULT : Nat := 0x1014
def GBL_FAR_PEND : Nat := 0x1018
def GBL_SNAP_CMD : Nat := 0x1020
def GBL_ACC_LAST : Nat := 0x1024
def GBL_ACC_COUNT : Nat := 0x1028
def GBL_EPOCH (k : Nat) : Nat := 0x1030 + 4 * k
def GBL_SCRATCH (k : Nat) : Nat := 0x1050 + 4 * k
def GBL_PARITY_LAST : Nat := 0x1060
/-! TB -/
def TB_CTRL : Nat := 0x2000
def TB_CMD : Nat := 0x2004
def TB_STATUS : Nat := 0x2008
def TB_REFA_NUM : Nat := 0x2010
def TB_REFA_DEN : Nat := 0x2014
def TB_REFB_NUM : Nat := 0x2018
def TB_REFB_DEN : Nat := 0x201C
def TB_LOCK : Nat := 0x2020
def TB_DITHER_SEED : Nat := 0x2024
def TB_SLEW_RATE : Nat := 0x2028
def TB_RET_POLICY : Nat := 0x202C
def TB_RET_SLEW_MAX : Nat := 0x2030
def TB_REF_TOL : Nat := 0x2038
def TB_ACQ : Nat := 0x203C
def TB_LATCH_LO : Nat := 0x2040
def TB_LATCH_HI : Nat := 0x2048
def TB_HOLD_RATE : Nat := 0x2050
def TB_HOLD_BOUND : Nat := 0x2058
def TB_OFFSET : Nat := 0x2060
def TB_SLEW_REMAIN : Nat := 0x2068
def TB_BAND : Nat := 0x2070
def TB_TEMP : Nat := 0x2074
def TB_LEARN : Nat := 0x2078
def TB_TOD_CTRL : Nat := 0x2080
def TB_TOD_OFFSET : Nat := 0x2088
def TB_TOD_TOL : Nat := 0x2090
def TB_TOD_STATUS : Nat := 0x2094
def TB_SLEW_REQ : Nat := 0x2098
def TB_CNT : Nat := 0x20A0
/-! PWR -/
def PWR_CTRL : Nat := 0x3000
def PWR_STATUS : Nat := 0x3004
def PWR_TOKEN_CFG : Nat := 0x3008
def PWR_TOKEN_STATUS : Nat := 0x300C
def PWR_TOKEN_ISSUED : Nat := 0x3010
def PWR_TOKEN_RETURNED : Nat := 0x3018
def PWR_UNITS : Nat := 0x3020
def PWR_UNITS2 : Nat := 0x3024
def PWR_WAKE_CAUSE : Nat := 0x3028
/-! FE -/
def FE_CTRL (n : Nat) : Nat := 0x4000 + 64 * n
def FE_THR (n : Nat) : Nat := 0x4004 + 64 * n
def FE_TIE (n : Nat) : Nat := 0x4008 + 64 * n
def FE_SAMP (n : Nat) : Nat := 0x400C + 64 * n
def FE_BLANK (n : Nat) : Nat := 0x4010 + 64 * n
def FE_BLANK_SRC (n : Nat) : Nat := 0x4014 + 64 * n
def FE_ALARM (n : Nat) : Nat := 0x4018 + 64 * n
def FE_STATUS (n : Nat) : Nat := 0x4020 + 64 * n
def FE_BLANKED (n : Nat) : Nat := 0x4024 + 64 * n
/-! CAP -/
def CAP_CTRL (n : Nat) : Nat := 0x8000 + 64 * n
def CAP_FLUSH (n : Nat) : Nat := 0x8004 + 64 * n
def CAP_SKEW (n : Nat) : Nat := 0x8008 + 64 * n
def CAP_STATUS (n : Nat) : Nat := 0x800C + 64 * n
def CAP_CNT_IN (n : Nat) : Nat := 0x8010 + 64 * n
def CAP_CNT_STAMPED (n : Nat) : Nat := 0x8018 + 64 * n
def CAP_CNT_THIN (n : Nat) : Nat := 0x8020 + 64 * n
def CAP_CNT_OVFL (n : Nat) : Nat := 0x8028 + 64 * n
def CAP_FILL_MAX (n : Nat) : Nat := 0x8030 + 64 * n
def CAP_CAL (n : Nat) : Nat := 0x8034 + 64 * n
/-! COU -/
def COU_CTRL (n : Nat) : Nat := 0xC000 + 256 * n
def COU_CMD (n : Nat) : Nat := 0xC004 + 256 * n
def COU_STATUS (n : Nat) : Nat := 0xC008 + 256 * n
def COU_TRAIN (n : Nat) : Nat := 0xC00C + 256 * n
def COU_TX_COEF (n : Nat) : Nat := 0xC010 + 256 * n
def COU_PARTNER_COEF (n : Nat) : Nat := 0xC014 + 256 * n
def COU_RX_EQ (n : Nat) : Nat := 0xC018 + 256 * n
def COU_TRAIN_STATUS (n : Nat) : Nat := 0xC020 + 256 * n
def COU_ADAPT (n : Nat) : Nat := 0xC024 + 256 * n
def COU_ERR (n : Nat) : Nat := 0xC028 + 256 * n
def COU_KA (n : Nat) : Nat := 0xC02C + 256 * n
def COU_LOOP_DELAY (n : Nat) : Nat := 0xC030 + 256 * n
def COU_LANE_CNT (n : Nat) : Nat := 0xC034 + 256 * n
def COU_PROBE (n : Nat) : Nat := 0xC038 + 256 * n
def COU_PROTO_CTRL (n : Nat) : Nat := 0xC080 + 256 * n
def COU_BEACON (n : Nat) : Nat := 0xC084 + 256 * n
def COU_ASYM (n : Nat) : Nat := 0xC088 + 256 * n
def COU_SEQ (n : Nat) : Nat := 0xC08C + 256 * n
def COU_HORIZON_LO (n : Nat) : Nat := 0xC090 + 256 * n
def COU_HORIZON_HI (n : Nat) : Nat := 0xC098 + 256 * n
def COU_CRED_STATUS (n : Nat) : Nat := 0xC09C + 256 * n
def COU_CNT_EVENTS (n : Nat) : Nat := 0xC0A0 + 256 * n
def COU_CNT_DISPATCH (n : Nat) : Nat := 0xC0A8 + 256 * n
def COU_CNT_VIOL_BLOCKS (n : Nat) : Nat := 0xC0B0 + 256 * n
def COU_PROTO_ERR (n : Nat) : Nat := 0xC0B8 + 256 * n
def COU_PROTO_ERR2 (n : Nat) : Nat := 0xC0BC + 256 * n
def COU_NAK (n : Nat) : Nat := 0xC0C0 + 256 * n
def COU_REPLAY (n : Nat) : Nat := 0xC0C4 + 256 * n
def COU_PARTNER (n : Nat) : Nat := 0xC0C8 + 256 * n
def COU_LETTER_STATUS (n : Nat) : Nat := 0xC0CC + 256 * n
def COU_CNT_ITEM_DISC (n : Nat) : Nat := 0xC0D0 + 256 * n
def COU_LREF (n : Nat) : Nat := 0xC0F0 + 256 * n
/-! PEER -/
def PEER_CTRL : Nat := 0xD000
def PEER_CMD : Nat := 0xD004
def PEER_STATUS : Nat := 0xD008
def PEER_TDE : Nat := 0xD00C
def PEER_TRIM : Nat := 0xD010
def PEER_CNT : Nat := 0xD014
def PEER_LOOP : Nat := 0xD018
def PEER_LANE_ASYM (n : Nat) : Nat := 0xD040 + 16 * n
def PEER_LANE_STAT (n : Nat) : Nat := 0xD044 + 16 * n
def PEER_LANE_OFFSET (n : Nat) : Nat := 0xD048 + 16 * n
/-! RING -/
def RING_BASE (n : Nat) : Nat := 0xE000 + 64 * n
def RING_CFG (n : Nat) : Nat := 0xE008 + 64 * n
def RING_MOD (n : Nat) : Nat := 0xE00C + 64 * n
def RING_STATUS_ADDR (n : Nat) : Nat := 0xE010 + 64 * n
def RING_STATE (n : Nat) : Nat := 0xE018 + 64 * n
def RING_POS (n : Nat) : Nat := 0xE01C + 64 * n
def RING_LB (n : Nat) : Nat := 0xE020 + 64 * n
def RING_ERR (n : Nat) : Nat := 0xE024 + 64 * n
def RING_SEQ (n : Nat) : Nat := 0xE028 + 64 * n
def RING_REJ (n : Nat) : Nat := 0xE030 + 64 * n
def RING_HOLD (n : Nat) : Nat := 0xE034 + 64 * n
/-! PLC -/
def PLC_CTRL : Nat := 0xF000
def PLC_POLICY : Nat := 0xF004
def PLC_CASTLE_RATE : Nat := 0xF008
def PLC_STATUS : Nat := 0xF00C
def PLC_CNT_CASTLED : Nat := 0xF010
def PLC_CNT_ABORTED : Nat := 0xF018
def PLC_WINDOW : Nat := 0xF01C
def PLC_ENGINE_LOAD (e : Nat) : Nat := 0xF020 + 4 * e
def PLC_SQUARE_FREE (s : Nat) : Nat := 0xF060 + 4 * s
def PLC_PINNED : Nat := 0xF160
def PLC_HOLD_FREE : Nat := 0xF164
/-! PST -/
def PST_CTRL : Nat := 0x10000
def PST_CKPT : Nat := 0x10004
def PST_HOLDUP_US : Nat := 0x10008
def PST_STATUS : Nat := 0x1000C
def PST_NEED : Nat := 0x10010
def PST_DIRTY : Nat := 0x10018
def PST_PASS : Nat := 0x10020
def PST_CKPT_LATE : Nat := 0x10024
def PST_RESTORE : Nat := 0x10028
def PST_BAD : Nat := 0x1002C
def PST_LOST : Nat := 0x10030
def PST_U0 : Nat := 0x10038
def PST_OUTAGE : Nat := 0x10040
def PST_IMG : Nat := 0x10048
def PST_WEAR : Nat := 0x1004C
def PST_ECC : Nat := 0x10050
def PST_SCRUB : Nat := 0x10054
/-! KPR -/
def KPR_CTRL : Nat := 0x11000
def KPR_STATUS : Nat := 0x11004
def KPR_TIME : Nat := 0x11008
def KPR_WAKE_EN : Nat := 0x11010
def KPR_WAKE_STATUS : Nat := 0x11014
def KPR_WAKE_TIME : Nat := 0x11018
def KPR_VOTE : Nat := 0x11020
def KPR_TMR : Nat := 0x11024
def KPR_SKIP_ANY : Nat := 0x11028
def KPR_IN_CFG (n : Nat) : Nat := 0x11100 + 16 * n
def KPR_IN_STAT (n : Nat) : Nat := 0x11104 + 16 * n
def KPR_CNT (n : Nat) : Nat := 0x11108 + 16 * n
def KPR_CMP (n : Nat) : Nat := 0x11500 + 8 * n
/-! FLT -/
def FLT_CTRL : Nat := 0x12000
def FLT_ACTIVE : Nat := 0x12004
def FLT_LAST : Nat := 0x12008
def FLT_LAST_PARAM : Nat := 0x1200C
def FLT_LAST_TIME_LO : Nat := 0x12010
def FLT_LAST_TIME_HI : Nat := 0x12018
def FLT_COUNT (n : Nat) : Nat := 0x12020 + 4 * n
def FLT_LEDGER_CHECKS : Nat := 0x12044
def FLT_LEDGER_LAST : Nat := 0x12048
def FLT_LEDGER_FAIL : Nat := 0x1204C
def FLT_THERM : Nat := 0x12050
def FLT_BB_CTRL : Nat := 0x12054
def FLT_BB_CMD : Nat := 0x12058
def FLT_BB_UNSEAL : Nat := 0x1205C
def FLT_BB_STATUS : Nat := 0x12060
def FLT_BB_SEQ : Nat := 0x12064
def FLT_BB_SEL : Nat := 0x12068
def FLT_BB_MARK : Nat := 0x1206C
def FLT_BB_DATA (k : Nat) : Nat := 0x12070 + 4 * k
def FLT_TEMP_MAX : Nat := 0x12090
def FLT_SUPPLY : Nat := 0x12094
def FLT_HOLD_CTRL : Nat := 0x12800
def FLT_HOLD_GRACE : Nat := 0x12804
def FLT_HOLD_STATUS : Nat := 0x12808
def FLT_REC_RING : Nat := 0x1280C
def FLT_CNT_SUMMARY : Nat := 0x12810
def FLT_CNT_WITHHELD : Nat := 0x12818
/-! CAD -/
def CAD_CTRL (n : Nat) : Nat := 0x13000 + 64 * n
def CAD_PERIOD (n : Nat) : Nat := 0x13008 + 64 * n
def CAD_PHASE (n : Nat) : Nat := 0x13010 + 64 * n
def CAD_START_LO (n : Nat) : Nat := 0x13018 + 64 * n
def CAD_START_HI (n : Nat) : Nat := 0x13020 + 64 * n
def CAD_STATUS (n : Nat) : Nat := 0x13024 + 64 * n
def CAD_NEXT (n : Nat) : Nat := 0x13028 + 64 * n
def CAD_COUNT (n : Nat) : Nat := 0x13030 + 64 * n
def CAD_NEXT_HI (n : Nat) : Nat := 0x13038 + 64 * n
/-! SNAP -/
def SNAP_SEQ : Nat := 0x14000
def SNAP_TIME_LO : Nat := 0x14008
def SNAP_TIME_HI : Nat := 0x14010
def SNAP_LED (i : Nat) : Nat := 0x14020 + 8 * i
def SNAP_CAP_IN (n : Nat) : Nat := 0x14100 + 32 * n
def SNAP_CAP_STAMPED (n : Nat) : Nat := 0x14108 + 32 * n
def SNAP_CAP_THIN (n : Nat) : Nat := 0x14110 + 32 * n
def SNAP_CAP_OVFL (n : Nat) : Nat := 0x14118 + 32 * n
def SNAP_COU (n : Nat) (j : Nat) : Nat := 0x16100 + 64 * n + 8 * j
def SNAP_RING (n : Nat) (j : Nat) : Nat := 0x16500 + 32 * n + 8 * j
def SNAP_ENG_COUNTED (e : Nat) : Nat := 0x16D00 + 16 * e
def SNAP_ENG_WORK (e : Nat) : Nat := 0x16D08 + 16 * e
end Reg

/-- One row of a block's register table. `step`, `num` and `step2`, `num2` count the registers a variable of the offset
names; `mask` holds the writable bits, `w1c` the bits cleared by writing 1. -/
structure RegRow where
  off : Nat
  step : Nat := 0
  num : Nat := 1
  step2 : Nat := 0
  num2 : Nat := 1
  wide : Bool := false
  mask : Nat := 0
  w1c : Nat := 0
  key : Bool := false
  far : Bool := false
  msk : Bool := false
  bytes : Bool := false
  /-- exists only in lanes 0, 4, 8 and 12 (R479) -/
  group : Bool := false
  fused : Bool := false
  reset : Nat := 0
  deriving DecidableEq, Repr

/-- The registers of the ID block. -/
def rowsId : List RegRow := [
  { off := 0x0, step := 4, num := 4, fused := true }, -- ID_LOGIC
  { off := 0x10, step := 4, num := 4, fused := true }, -- ID_SRAM
  { off := 0x20, step := 4, num := 4, fused := true }, -- ID_PMEM
  { off := 0x30, reset := 0xB25171 }, -- ID_DEVICE
  { off := 0x34 } ] -- ID_FUSE

/-- The registers of the GBL block. -/
def rowsGbl : List RegRow := [
  { off := 0x0, mask := 0x3, key := true, msk := true, reset := 0x3 }, -- GBL_CTRL
  { off := 0x4 }, -- GBL_STATUS
  { off := 0x8 }, -- GBL_SCRUB
  { off := 0x10, mask := 0xFFFF }, -- GBL_KEY
  { off := 0x14 }, -- GBL_KEY_FAULT
  { off := 0x18 }, -- GBL_FAR_PEND
  { off := 0x20, mask := 0x1 }, -- GBL_SNAP_CMD
  { off := 0x24 }, -- GBL_ACC_LAST
  { off := 0x28 }, -- GBL_ACC_COUNT
  { off := 0x30, step := 4, num := 7 }, -- GBL_EPOCH
  { off := 0x50, step := 4, num := 4, mask := 0xFFFFFFFF, bytes := true }, -- GBL_SCRATCH
  { off := 0x60 } ] -- GBL_PARITY_LAST

/-- The registers of the TB block. -/
def rowsTb : List RegRow := [
  { off := 0x0, mask := 0x1F, reset := 0x16 }, -- TB_CTRL
  { off := 0x4, mask := 0x1F }, -- TB_CMD
  { off := 0x8 }, -- TB_STATUS
  { off := 0x10, mask := 0xFFFFFFFF, reset := 0xF0 }, -- TB_REFA_NUM
  { off := 0x14, mask := 0xFFFFFFFF, reset := 0x1 }, -- TB_REFA_DEN
  { off := 0x18, mask := 0xFFFFFFFF, reset := 0xF0 }, -- TB_REFB_NUM
  { off := 0x1C, mask := 0xFFFFFFFF, reset := 0x1 }, -- TB_REFB_DEN
  { off := 0x20, mask := 0xFFFFFFFF, reset := 0x4180100 }, -- TB_LOCK
  { off := 0x24, mask := 0xFFFFFF, reset := 0x6B1D2F }, -- TB_DITHER_SEED
  { off := 0x28, mask := 0xFFFF, reset := 0x3E8 }, -- TB_SLEW_RATE
  { off := 0x2C, mask := 0x3, reset := 0x3 }, -- TB_RET_POLICY
  { off := 0x30, wide := true, mask := 0xFFFFFFFFFFFF, reset := 0x12C000 }, -- TB_RET_SLEW_MAX
  { off := 0x38, mask := 0xFFFF, reset := 0x2710 }, -- TB_REF_TOL
  { off := 0x3C, mask := 0xFFFFFF, reset := 0xA640A }, -- TB_ACQ
  { off := 0x40, wide := true }, -- TB_LATCH_LO
  { off := 0x48 }, -- TB_LATCH_HI
  { off := 0x50, mask := 0xFFFFFFFF, reset := 0x7D000C8 }, -- TB_HOLD_RATE
  { off := 0x58, wide := true }, -- TB_HOLD_BOUND
  { off := 0x60, wide := true }, -- TB_OFFSET
  { off := 0x68, wide := true }, -- TB_SLEW_REMAIN
  { off := 0x70 }, -- TB_BAND
  { off := 0x74 }, -- TB_TEMP
  { off := 0x78, wide := true }, -- TB_LEARN
  { off := 0x80, mask := 0x3 }, -- TB_TOD_CTRL
  { off := 0x88, wide := true, mask := 0x1FFFFFFFFFF }, -- TB_TOD_OFFSET
  { off := 0x90, mask := 0xFFFFFFFF, reset := 0x12C000 }, -- TB_TOD_TOL
  { off := 0x94 }, -- TB_TOD_STATUS
  { off := 0x98, wide := true, mask := 0xFFFFFFFFFFFFFFFF }, -- TB_SLEW_REQ
  { off := 0xA0 } ] -- TB_CNT

/-- The registers of the PWR block. -/
def rowsPwr : List RegRow := [
  { off := 0x0, mask := 0xFF0F, reset := 0x10F }, -- PWR_CTRL
  { off := 0x4, reset := 0x3 }, -- PWR_STATUS
  { off := 0x8, mask := 0xFF, reset := 0x20 }, -- PWR_TOKEN_CFG
  { off := 0xC }, -- PWR_TOKEN_STATUS
  { off := 0x10, wide := true }, -- PWR_TOKEN_ISSUED
  { off := 0x18, wide := true }, -- PWR_TOKEN_RETURNED
  { off := 0x20 }, -- PWR_UNITS
  { off := 0x24 }, -- PWR_UNITS2
  { off := 0x28 } ] -- PWR_WAKE_CAUSE

/-- The registers of the FE block. -/
def rowsFe : List RegRow := [
  { off := 0x0, mask := 0x1FF, far := true, reset := 0x24 }, -- FE_CTRL
  { off := 0x4, mask := 0x3FF03FF, far := true, reset := 0x3EB0015 }, -- FE_THR
  { off := 0x8, mask := 0x3FF, far := true }, -- FE_TIE
  { off := 0xC, mask := 0xFFFF, far := true, reset := 0x3E8 }, -- FE_SAMP
  { off := 0x10, mask := 0xFFFFFFFF }, -- FE_BLANK
  { off := 0x14, mask := 0xF }, -- FE_BLANK_SRC
  { off := 0x18, mask := 0x3F1F }, -- FE_ALARM
  { off := 0x20, reset := 0x10 }, -- FE_STATUS
  { off := 0x24 } ] -- FE_BLANKED

/-- The registers of the CAP block. -/
def rowsCap : List RegRow := [
  { off := 0x0, mask := 0x3F, reset := 0xD }, -- CAP_CTRL
  { off := 0x4, mask := 0xFFF, reset := 0x40 }, -- CAP_FLUSH
  { off := 0x8, mask := 0xFFFFFFFF }, -- CAP_SKEW
  { off := 0xC }, -- CAP_STATUS
  { off := 0x10, wide := true }, -- CAP_CNT_IN
  { off := 0x18, wide := true }, -- CAP_CNT_STAMPED
  { off := 0x20, wide := true }, -- CAP_CNT_THIN
  { off := 0x28, wide := true }, -- CAP_CNT_OVFL
  { off := 0x30 }, -- CAP_FILL_MAX
  { off := 0x34 } ] -- CAP_CAL

/-- The registers of the COU block. -/
def rowsCou : List RegRow := [
  { off := 0x0, mask := 0x7FF, reset := 0x400 }, -- COU_CTRL
  { off := 0x4, mask := 0x3 }, -- COU_CMD
  { off := 0x8 }, -- COU_STATUS
  { off := 0xC, mask := 0xFF7F, reset := 0x3004 }, -- COU_TRAIN
  { off := 0x10, reset := 0x2800 }, -- COU_TX_COEF
  { off := 0x14 }, -- COU_PARTNER_COEF
  { off := 0x18, wide := true }, -- COU_RX_EQ
  { off := 0x20 }, -- COU_TRAIN_STATUS
  { off := 0x24, mask := 0x1FF, reset := 0x20 }, -- COU_ADAPT
  { off := 0x28 }, -- COU_ERR
  { off := 0x2C }, -- COU_KA
  { off := 0x30 }, -- COU_LOOP_DELAY
  { off := 0x34 }, -- COU_LANE_CNT
  { off := 0x38 }, -- COU_PROBE
  { off := 0x80, mask := 0x3F7FFFFF, reset := 0x1932 }, -- COU_PROTO_CTRL
  { off := 0x84, mask := 0xFFFF, reset := 0x3E8 }, -- COU_BEACON
  { off := 0x88, mask := 0xFFFF }, -- COU_ASYM
  { off := 0x8C }, -- COU_SEQ
  { off := 0x90, wide := true }, -- COU_HORIZON_LO
  { off := 0x98 }, -- COU_HORIZON_HI
  { off := 0x9C }, -- COU_CRED_STATUS
  { off := 0xA0, wide := true }, -- COU_CNT_EVENTS
  { off := 0xA8, wide := true }, -- COU_CNT_DISPATCH
  { off := 0xB0, wide := true }, -- COU_CNT_VIOL_BLOCKS
  { off := 0xB8 }, -- COU_PROTO_ERR
  { off := 0xBC }, -- COU_PROTO_ERR2
  { off := 0xC0 }, -- COU_NAK
  { off := 0xC4 }, -- COU_REPLAY
  { off := 0xC8 }, -- COU_PARTNER
  { off := 0xCC }, -- COU_LETTER_STATUS
  { off := 0xD0 }, -- COU_CNT_ITEM_DISC
  { off := 0xF0, mask := 0x1F, reset := 0x4, group := true } ] -- COU_LREF

/-- The registers of the PEER block. -/
def rowsPeer : List RegRow := [
  { off := 0x0, mask := 0xFF07FF, reset := 0x4006FF }, -- PEER_CTRL
  { off := 0x4, mask := 0x1 }, -- PEER_CMD
  { off := 0x8, reset := 0x7C00 }, -- PEER_STATUS
  { off := 0xC }, -- PEER_TDE
  { off := 0x10, mask := 0xFFFFFFFF, reset := 0x300003E8 }, -- PEER_TRIM
  { off := 0x14 }, -- PEER_CNT
  { off := 0x18 }, -- PEER_LOOP
  { off := 0x40, step := 16, num := 16, mask := 0xFFFFFFFF }, -- PEER_LANE_ASYM
  { off := 0x44, step := 16, num := 16, reset := 0x7C00 }, -- PEER_LANE_STAT
  { off := 0x48, step := 16, num := 16, wide := true } ] -- PEER_LANE_OFFSET

/-- The registers of the RING block. -/
def rowsRing : List RegRow := [
  { off := 0x0, wide := true, mask := 0xFFFFFFFFFFFFFFFF }, -- RING_BASE
  { off := 0x8, mask := 0x7F7F, reset := 0x4010 }, -- RING_CFG
  { off := 0xC, mask := 0xFFFFFFF, reset := 0x10000 }, -- RING_MOD
  { off := 0x10, wide := true, mask := 0xFFFFFFFFFFFFFFFF }, -- RING_STATUS_ADDR
  { off := 0x18 }, -- RING_STATE
  { off := 0x1C }, -- RING_POS
  { off := 0x20 }, -- RING_LB
  { off := 0x24 }, -- RING_ERR
  { off := 0x28, wide := true }, -- RING_SEQ
  { off := 0x30 }, -- RING_REJ
  { off := 0x34 } ] -- RING_HOLD

/-- The registers of the PLC block. -/
def rowsPlc : List RegRow := [
  { off := 0x0, mask := 0x3F03 }, -- PLC_CTRL
  { off := 0x4, mask := 0xFFFFFFFF, reset := 0x40A33DA }, -- PLC_POLICY
  { off := 0x8, mask := 0x1FFFF, reset := 0x1000 }, -- PLC_CASTLE_RATE
  { off := 0xC, reset := 0xA40 }, -- PLC_STATUS
  { off := 0x10, wide := true }, -- PLC_CNT_CASTLED
  { off := 0x18 }, -- PLC_CNT_ABORTED
  { off := 0x1C }, -- PLC_WINDOW
  { off := 0x20, step := 4, num := 16 }, -- PLC_ENGINE_LOAD
  { off := 0x60, step := 4, num := 64, reset := 0x4000 }, -- PLC_SQUARE_FREE
  { off := 0x160 }, -- PLC_PINNED
  { off := 0x164, reset := 0x2000 } ] -- PLC_HOLD_FREE

/-- The registers of the PST block. -/
def rowsPst : List RegRow := [
  { off := 0x0, mask := 0x7, reset := 0x7 }, -- PST_CTRL
  { off := 0x4, mask := 0x3F1FFF, reset := 0x80064 }, -- PST_CKPT
  { off := 0x8, mask := 0x7FFF, reset := 0xC8 }, -- PST_HOLDUP_US
  { off := 0xC }, -- PST_STATUS
  { off := 0x10, reset := 0x12C }, -- PST_NEED
  { off := 0x18, wide := true }, -- PST_DIRTY
  { off := 0x20 }, -- PST_PASS
  { off := 0x24 }, -- PST_CKPT_LATE
  { off := 0x28 }, -- PST_RESTORE
  { off := 0x2C }, -- PST_BAD
  { off := 0x30, wide := true }, -- PST_LOST
  { off := 0x38, wide := true }, -- PST_U0
  { off := 0x40, wide := true }, -- PST_OUTAGE
  { off := 0x48 }, -- PST_IMG
  { off := 0x4C }, -- PST_WEAR
  { off := 0x50 }, -- PST_ECC
  { off := 0x54 } ] -- PST_SCRUB

/-- The registers of the KPR block. -/
def rowsKpr : List RegRow := [
  { off := 0x0, mask := 0xFFFF000F, key := true, far := true, reset := 0x640002 }, -- KPR_CTRL
  { off := 0x4, far := true, reset := 0x28 }, -- KPR_STATUS
  { off := 0x8, wide := true, far := true }, -- KPR_TIME
  { off := 0x10, mask := 0x1F, far := true }, -- KPR_WAKE_EN
  { off := 0x14, w1c := 0x1F, far := true }, -- KPR_WAKE_STATUS
  { off := 0x18, wide := true, mask := 0xFFFFFFFFFFFF, far := true }, -- KPR_WAKE_TIME
  { off := 0x20, mask := 0xFFFFFF, key := true, far := true, reset := 0x3C10 }, -- KPR_VOTE
  { off := 0x24, far := true }, -- KPR_TMR
  { off := 0x28, far := true }, -- KPR_SKIP_ANY
  { off := 0x100, step := 16, num := 64, mask := 0x1FFFFFF, key := true, far := true, reset := 0xFB0520 }, -- KPR_IN_CFG
  { off := 0x104, step := 16, num := 64, far := true }, -- KPR_IN_STAT
  { off := 0x108, step := 16, num := 64, wide := true, far := true }, -- KPR_CNT
  { off := 0x500, step := 8, num := 64, wide := true, mask := 0xFFFFFFFFFFFF, far := true } ] -- KPR_CMP

/-- The registers of the FLT block. -/
def rowsFlt : List RegRow := [
  { off := 0x0, mask := 0x1FF01FF, reset := 0x1FF01FF }, -- FLT_CTRL
  { off := 0x4, w1c := 0x101FF }, -- FLT_ACTIVE
  { off := 0x8 }, -- FLT_LAST
  { off := 0xC }, -- FLT_LAST_PARAM
  { off := 0x10, wide := true }, -- FLT_LAST_TIME_LO
  { off := 0x18 }, -- FLT_LAST_TIME_HI
  { off := 0x20, step := 4, num := 9 }, -- FLT_COUNT
  { off := 0x44 }, -- FLT_LEDGER_CHECKS
  { off := 0x48 }, -- FLT_LEDGER_LAST
  { off := 0x4C }, -- FLT_LEDGER_FAIL
  { off := 0x50, mask := 0xFFFF, reset := 0x564 }, -- FLT_THERM
  { off := 0x54, mask := 0x1FF }, -- FLT_BB_CTRL
  { off := 0x58, mask := 0x1 }, -- FLT_BB_CMD
  { off := 0x5C, mask := 0x1, key := true }, -- FLT_BB_UNSEAL
  { off := 0x60, reset := 0x8 }, -- FLT_BB_STATUS
  { off := 0x64 }, -- FLT_BB_SEQ
  { off := 0x68, mask := 0x1FFF }, -- FLT_BB_SEL
  { off := 0x6C, mask := 0xFFFFFFFF }, -- FLT_BB_MARK
  { off := 0x70, step := 4, num := 8 }, -- FLT_BB_DATA
  { off := 0x90 }, -- FLT_TEMP_MAX
  { off := 0x94 }, -- FLT_SUPPLY
  { off := 0x800, mask := 0x3FFF3FFF, reset := 0x8000400 }, -- FLT_HOLD_CTRL
  { off := 0x804, mask := 0xFFFF, reset := 0x64 }, -- FLT_HOLD_GRACE
  { off := 0x808, reset := 0x20000000 }, -- FLT_HOLD_STATUS
  { off := 0x80C, mask := 0x3F3F }, -- FLT_REC_RING
  { off := 0x810, wide := true }, -- FLT_CNT_SUMMARY
  { off := 0x818, wide := true } ] -- FLT_CNT_WITHHELD

/-- The registers of the CAD block. -/
def rowsCad : List RegRow := [
  { off := 0x0, mask := 0xFFF, reset := 0x180 }, -- CAD_CTRL
  { off := 0x8, wide := true, mask := 0x1FFFFFFFFFFFF, reset := 0xBB8000 }, -- CAD_PERIOD
  { off := 0x10, wide := true, mask := 0x3FFFFFFFFFFFFF }, -- CAD_PHASE
  { off := 0x18, wide := true, mask := 0xFFFFFFFFFFFFFFFF }, -- CAD_START_LO
  { off := 0x20, mask := 0xFF }, -- CAD_START_HI
  { off := 0x24 }, -- CAD_STATUS
  { off := 0x28, wide := true }, -- CAD_NEXT
  { off := 0x30, wide := true }, -- CAD_COUNT
  { off := 0x38 } ] -- CAD_NEXT_HI

/-- The registers of the SNAP block. -/
def rowsSnap : List RegRow := [
  { off := 0x0 }, -- SNAP_SEQ
  { off := 0x8, wide := true }, -- SNAP_TIME_LO
  { off := 0x10 }, -- SNAP_TIME_HI
  { off := 0x20, step := 8, num := 16, wide := true }, -- SNAP_LED
  { off := 0x100, step := 32, num := 256, wide := true }, -- SNAP_CAP_IN
  { off := 0x108, step := 32, num := 256, wide := true }, -- SNAP_CAP_STAMPED
  { off := 0x110, step := 32, num := 256, wide := true }, -- SNAP_CAP_THIN
  { off := 0x118, step := 32, num := 256, wide := true }, -- SNAP_CAP_OVFL
  { off := 0x2100, step := 64, num := 16, step2 := 8, num2 := 7, wide := true }, -- SNAP_COU
  { off := 0x2500, step := 32, num := 64, step2 := 8, num2 := 4, wide := true }, -- SNAP_RING
  { off := 0x2D00, step := 16, num := 16, wide := true }, -- SNAP_ENG_COUNTED
  { off := 0x2D08, step := 16, num := 16, wide := true } ] -- SNAP_ENG_WORK

/-- A block of BAR0 (R468): region base and end, stride and number of instances (1 where it has none), MSPI window,
number of its epoch in GBL_EPOCH (R325; none for ID and SNAP). -/
structure Block where
  base : Nat
  top : Nat
  stride : Nat
  inst : Nat
  window : Nat
  epoch : Option Nat
  rows : List RegRow
  deriving DecidableEq, Repr

/-- The blocks of R468, with the stride of a block without instances set to its region's size. -/
def blocks : List Block := [
  { base := 0x0, top := 0x1000, stride := 0x1000, inst := 1, window := 64, epoch := none, rows := rowsId },
  { base := 0x1000, top := 0x2000, stride := 0x1000, inst := 1, window := 128, epoch := some 0, rows := rowsGbl },
  { base := 0x2000, top := 0x3000, stride := 0x1000, inst := 1, window := 256, epoch := some 1, rows := rowsTb },
  { base := 0x3000, top := 0x4000, stride := 0x1000, inst := 1, window := 64, epoch := some 2, rows := rowsPwr },
  { base := 0x4000, top := 0x8000, stride := 64, inst := 256, window := 64, epoch := some 3, rows := rowsFe },
  { base := 0x8000, top := 0xC000, stride := 64, inst := 256, window := 64, epoch := some 4, rows := rowsCap },
  { base := 0xC000, top := 0xD000, stride := 256, inst := 16, window := 256, epoch := some 5, rows := rowsCou },
  { base := 0xD000, top := 0xE000, stride := 0x1000, inst := 1, window := 512, epoch := some 6, rows := rowsPeer },
  { base := 0xE000, top := 0xF000, stride := 64, inst := 64, window := 64, epoch := some 7, rows := rowsRing },
  { base := 0xF000, top := 0x10000, stride := 0x1000, inst := 1, window := 512, epoch := some 8, rows := rowsPlc },
  { base := 0x10000, top := 0x11000, stride := 0x1000, inst := 1, window := 128, epoch := some 9, rows := rowsPst },
  { base := 0x11000, top := 0x12000, stride := 0x1000, inst := 1, window := 2048, epoch := some 10, rows := rowsKpr },
  { base := 0x12000, top := 0x13000, stride := 0x1000, inst := 1, window := 4096, epoch := some 11, rows := rowsFlt },
  { base := 0x13000, top := 0x14000, stride := 64, inst := 16, window := 64, epoch := some 12, rows := rowsCad },
  { base := 0x14000, top := 0x18000, stride := 0x4000, inst := 1, window := 0x4000, epoch := none, rows := rowsSnap } ]

/-- What a dword offset reaches: the register's own offset, whether the dword is its upper half, its row, its block's
epoch, its instance. -/
structure Hit where
  reg : Nat
  upper : Bool
  row : RegRow
  epoch : Option Nat
  inst : Nat
  deriving DecidableEq, Repr

/-- The register of a row that the offset `o` (a multiple of 4) lies in, relative to the row's block. -/
def RegRow.at (r : RegRow) (o : Nat) : Option Nat :=
  if o < r.off then none
  else
    let d := o - r.off
    let i := if r.step = 0 then 0 else d / r.step
    let d1 := if r.step = 0 then d else d % r.step
    let j := if r.step2 = 0 then 0 else d1 / r.step2
    let d2 := if r.step2 = 0 then d1 else d1 % r.step2
    if i < r.num && j < r.num2 && d2 < (if r.wide then 8 else 4) then some (r.off + r.step * i + r.step2 * j) else none

/-- The first row of a block that holds the offset. -/
def findRow : List RegRow → Nat → Option (RegRow × Nat)
  | [], _ => none
  | r :: rs, o => match r.at o with
    | some ro => some (r, ro)
    | none => findRow rs o

/-- The block whose region holds a BAR0 offset. -/
def findBlock : List Block → Nat → Option Block
  | [], _ => none
  | b :: bs, a => if b.base ≤ a && a < b.top then some b else findBlock bs a

/-- The register of a block's instance at an offset within the instance. -/
def Block.hit (b : Block) (inst o : Nat) : Option Hit :=
  match findRow b.rows o with
  | none => none
  | some (r, ro) =>
    if r.group && inst % 4 != 0 then none
    else some { reg := b.base + b.stride * inst + ro, upper := decide (ro + 4 ≤ o), row := r, epoch := b.epoch,
                inst := inst }

/-- The register a host offset reaches; none where the location is reserved (R311, R469). -/
def regAt (a : Nat) : Option Hit :=
  match findBlock blocks a with
  | none => none
  | some b =>
    let i := (a - b.base) / b.stride
    if i < b.inst then b.hit i ((a - b.base) % b.stride) else none

/-- The BAR0 offset that an MSPI frame address is decoded to within a block, as block, instance and offset (R316,
R472). -/
def mspiPlace (addr : Nat) : Option (Block × Nat × Nat) :=
  let a0 := addr % 0x20000 / 4 * 4
  let a := if 0x10000 ≤ a0 then 0x10000 + a0 % 0x8000 else a0
  match findBlock blocks a with
  | none => none
  | some b =>
    let d := a - b.base
    some (b, d / b.stride % b.inst, d % b.stride % b.window)

/-- The register an MSPI address reaches; none where it names no register. -/
def mspiAt (addr : Nat) : Option Hit :=
  match mspiPlace addr with
  | none => none
  | some (b, i, o) => b.hit i o

/-- A dword of a die's identity as fused (R463): the logic die's stepping is 0xB2 and its grade one of its two codes, the other dies'
grade is 0; every other bit is the die's own. -/
def fuseOf (a : Nat) : Dword :=
  let v := Config.fuse a
  if a = Reg.ID_LOGIC 3 then (v &&& 0xFFFF00FF) ||| 0xB200
  else if a = Reg.ID_LOGIC 2 then (v &&& 0x1FFFFFFF) ||| (if v.getLsbD 29 then 0x20000000 else 0x40000000)
  else if a = Reg.ID_SRAM 2 ∨ a = Reg.ID_PMEM 2 then v &&& 0x1FFFFFFF
  else v

/-- A register's Reset value, by its own offset (R470, R471); zero where no register stands. -/
def resetOf (a : Nat) : Word :=
  match regAt a with
  | none => 0
  | some h => if h.row.fused then (fuseOf a).setWidth 64 else BitVec.ofNat 64 h.row.reset

end Sys2Proof.Machine
end

