-- ==== Sys2Proof/Machine/Ops.lean ====
section
/-! DEFINITION. The shared operations over the state: the passage of time, register fields, instances, outputs and MSI-X
messages (14 R356 to R358), the black box (19 R456 to R461), raising a fault (R445, R446), and the pushes of records
into the sorting queues (15 R369, R370) with the holding store's blocks (09 R220, 15 R373, R374, R379). -/

namespace Sys2Proof.Machine

/-! ### Time -/

/-- One second, one millisecond and one microsecond in Q (R12). -/
def secQ : Nat := 1228800000000
def msQ : Nat := 1228800000
def usQ : Nat := 1228800

/-- The last device time (R65). -/
def spanMax : Nat := 2 ^ 72 - 1

/-- A line is live: the core clock runs (R39). -/
def TbState.live : TbState → Bool
  | .locked | .coasting | .slewing | .handover => true
  | .stopped | .searching | .acquiring => false

/-- Time passes up to the command's moment `t`: device time advances with it while a line is live (R31) and holds at its
last value (R65). A moment already past changes nothing. -/
def State.advance (s : State) (t : Nat) : State :=
  { s with
    now := s.now + (t - s.now)
    devTime := if s.tb.st.live then max s.devTime (min spanMax (s.devTime + (t - s.now))) else s.devTime }

/-- The form of every meaning: time passes, then the effect; the count of time and the queue are not the effect's. -/
def atMoment (t : Nat) (s : State) (f : State → State) : Host.Outcome State Fault Refusal :=
  let s1 := s.advance t
  .next { f s1 with now := s1.now, pending := s.pending }

/-- The first core-cycle boundary at or after `x`, and the last at or before it. -/
def State.boundaryFrom (s : State) (x : Nat) : Nat := x + (((s.phase : Int) - (x : Int)) % 512).toNat
def State.boundaryTo (s : State) (x : Nat) : Nat := x - (((x : Int) - (s.phase : Int)) % 512).toNat

/-- Device time of the next core-cycle boundary. -/
def State.nextCycle (s : State) : Nat := s.boundaryFrom s.devTime

/-! ### Timers -/

/-- What a lane times (10, 11, 12). -/
inductive LaneTimer where
  | state                     -- entry into the present state (R247)
  | probe                     -- the last probe (R247)
  | request                   -- the first training block with the outstanding request (R255)
  | data                      -- the last data-bearing block received (R260)
  | miss                      -- the keep-alive window (R261)
  | keepalive                 -- the last keep-alive or dispatch sent (R261)
  | echo                      -- the last echo request sent (R258)
  | ack                       -- the last ACK sent (R271)
  | replay                    -- the last advance of the partner's ACKs, or the last replay (R272)
  | ackRx                     -- the last ACK received (R276)
  | nak                       -- the last NAK sent (R272)
  | syncReq                   -- the last resynchronisation request (R276)
  | sync                      -- the resynchronisation's first request (R276)
  | beacon                    -- the last FINE_BEACON (R286)
  | init                      -- the last INIT or PEER_HELLO sent (R277, R296)
  | frame                     -- the peer frame slot (R303)
  | good                      -- the last good peer frame (R303)
  deriving DecidableEq, Repr

/-- A lane timer's number. -/
def LaneTimer.no : LaneTimer → Nat
  | .state => 0 | .probe => 1 | .request => 2 | .data => 3 | .miss => 4 | .keepalive => 5 | .echo => 6 | .ack => 7
  | .replay => 8 | .ackRx => 9 | .nak => 10 | .syncReq => 11 | .sync => 12 | .beacon => 13 | .init => 14 | .frame => 15 | .good => 16

/-- What the hub times from an event of its own. -/
inductive Timer where
  | search                    -- the band search of the acquisition under way (R37)
  | refEdge (r : Ref)         -- the last edge of a reference (R41)
  | stale                     -- the loss of the parent (R300)
  | key (p : Port)            -- a port's key unlock (R320)
  | therm                     -- the last temperature reading (R450)
  | bbEntry                   -- the last gain of the black box's entry bucket (R459)
  | genToken                  -- the last gain of the generation bucket (R394)
  | pfail                     -- the last assertion of PFAIL_N (R430)
  | rails                     -- the last break of the main rails (R428)
  | scrub                     -- the last retention scrub (R404)
  | vbak                      -- the last fall of VBAK below 1.62 V (R406)
  | grace                     -- the exhaustion of the holding store (R375)
  | lbReturn (n : Nat)        -- a ring's last RETURN LETTERBOX (R349)
  | vector (i : Nat)          -- the last message of vector 64 + i (R358)
  | lane (k : LaneTimer) (n : Nat)
  | laneReturn (n reason : Nat)   -- the last RETURN of a lane and reason (R292)
  deriving DecidableEq, Repr

/-- A timer's number. -/
def Timer.no : Timer → Nat
  | .search => 0
  | .refEdge .refA => 1
  | .refEdge .refB => 2
  | .stale => 3
  | .key .host => 4
  | .key .mspi => 5
  | .therm => 6
  | .bbEntry => 7
  | .genToken => 8
  | .pfail => 9
  | .rails => 10
  | .scrub => 11
  | .grace => 12
  | .vbak => 13
  | .vector i => 16 + i
  | .lbReturn n => 3000 + n
  | .lane k n => 1000 + 32 * n + k.no
  | .laneReturn n reason => 2000 + 32 * n + reason

/-- When a timer was started; a timer that was never started counts from State.reset. -/
def State.began (s : State) (x : Timer) : Nat := tget 0 s.timers x.no

/-- Starts a timer. -/
def State.start (s : State) (x : Timer) : State := { s with timers := tset 0 s.timers x.no s.now }

/-- `d` Q have passed since a timer was started. -/
def State.past (s : State) (x : Timer) (d : Nat) : Bool := decide (s.began x + d ≤ s.now)

/-! ### The MRAM's upkeep (R391, R403, R404) -/

/-- A stripe is written once more: its wear and the time of its last write. -/
def State.wearCount (s : State) (stripe : Nat) : State :=
  { s with pst := { s.pst with wear := tput s.pst.wear stripe (tget 0 s.pst.wear stripe + 1), written := tput s.pst.written stripe s.now } }

/-- A configuration change is to be written into the image (R391). -/
def State.imageChanged (s : State) : State :=
  { s with pst := { s.pst with changed := true, changedAt := if s.pst.changed then s.pst.changedAt else s.now } }

/-! ### Numbers -/

/-- floor of n / d upwards. -/
def ceilDiv (n d : Nat) : Nat := (n + d - 1) / d

/-- A two's-complement field as an integer. -/
def sx (w v : Nat) : Int := if v % 2 ^ w < 2 ^ (w - 1) then (v % 2 ^ w : Nat) else (v % 2 ^ w : Nat) - (2 ^ w : Nat)

/-- An integer as a two's-complement field. -/
def toField (w : Nat) (v : Int) : Nat := (v % (2 ^ w : Nat)).toNat

/-- An integer as a 64-bit word. -/
def wordOf (v : Int) : Word := BitVec.ofInt 64 v

/-- Clamps to ± (2^(w−1) − 1), or to −2^(w−1). -/
def satInt (w : Nat) (v : Int) : Int := max (-(2 ^ (w - 1) : Nat)) (min v ((2 ^ (w - 1) : Nat) - 1))

/-- Fields (low bit, width, value) laid into one number. -/
def packBits : List (Nat × Nat × Nat) → Nat
  | [] => 0
  | (lo, w, v) :: r => (v % 2 ^ w) * 2 ^ lo + packBits r

/-- A field of a number. -/
def fieldOf (v lo w : Nat) : Nat := v / 2 ^ lo % 2 ^ w

/-- Whether a bit of a number is 1. -/
def bitOf (v i : Nat) : Bool := v / 2 ^ i % 2 == 1

/-- A Bool as a bit. -/
def b2n (b : Bool) : Nat := if b then 1 else 0

/-- The bytes of a number, least significant first. -/
def bytesOf : Nat → Nat → List Nat
  | 0, _ => []
  | k + 1, v => v % 256 :: bytesOf k (v / 256)

/-! ### CRC-16 (R384) -/

/-- One bit of the CRC: polynomial 0x1021, no reflection. -/
def crcBits : Nat → BitVec 16 → BitVec 16
  | 0, c => c
  | k + 1, c => crcBits k (if c.getLsbD 15 then (c <<< 1) ^^^ 0x1021 else c <<< 1)

/-- The CRC over bytes in order, from an initial value. -/
def crcFrom : BitVec 16 → List Nat → BitVec 16
  | c, [] => c
  | c, b :: r => crcFrom (crcBits 8 (c ^^^ (BitVec.ofNat 16 b <<< 8))) r

/-- CRC-16 of R384: initial value 0xFFFF. -/
def crc16 (bytes : List Nat) : Nat := (crcFrom 0xFFFF bytes).toNat

/-! ### Registers -/

/-- A register's stored value. -/
def State.reg (s : State) (a : Nat) : Word := (tget? s.regs a).getD (resetOf a)

/-- Stores a register. -/
def State.setReg (s : State) (a : Nat) (v : Word) : State := { s with regs := tset (resetOf a) s.regs a v }

/-- A field of a stored register. -/
def State.fld (s : State) (a lo w : Nat) : Nat := fieldOf (s.reg a).toNat lo w

/-- A bit of a stored register. -/
def State.bit (s : State) (a i : Nat) : Bool := (s.reg a).getLsbD i

/-- A field laid over a word. -/
def putField (x : Word) (lo w v : Nat) : Word :=
  let m : Word := BitVec.ofNat 64 ((2 ^ w - 1) * 2 ^ lo)
  (x &&& ~~~m) ||| BitVec.ofNat 64 (v % 2 ^ w * 2 ^ lo)

/-- Sets a field of a register. -/
def State.setFld (s : State) (a lo w v : Nat) : State := s.setReg a (putField (s.reg a) lo w v)

/-- Adds to a wrapping field. -/
def State.bumpBy (s : State) (a lo w k : Nat) : State := s.setFld a lo w ((s.fld a lo w + k) % 2 ^ w)

/-- Increments a wrapping field. -/
def State.bump (s : State) (a lo w : Nat) : State := s.bumpBy a lo w 1

/-- Adds to a saturating field. -/
def State.bumpSatBy (s : State) (a lo w k : Nat) : State := s.setFld a lo w (min (2 ^ w - 1) (s.fld a lo w + k))

/-- Increments a saturating field. -/
def State.bumpSat (s : State) (a lo w : Nat) : State := s.bumpSatBy a lo w 1

/-- Advances a block's configuration epoch (R325), `e` as in `Block.epoch`. -/
def State.bumpEpoch (s : State) (e : Nat) : State := s.bump (Reg.GBL_EPOCH (e / 2)) (16 * (e % 2)) 16

/-- The far side's working copy of a far register (R317). -/
def State.farReg (s : State) (a : Nat) : Word := (tget? s.far a).getD (resetOf a)

/-- A field of a far register's working copy. -/
def State.farFld (s : State) (a lo w : Nat) : Nat := fieldOf (s.farReg a).toNat lo w

/-- Stores a working copy. -/
def State.setFar (s : State) (a : Nat) (v : Word) : State := { s with far := tset (resetOf a) s.far a v }

/-! ### Instances -/

/-- Input n. -/
def State.input (s : State) (n : Nat) : Input := tget {} s.inputs n
def State.setInput (s : State) (n : Nat) (x : Input) : State := { s with inputs := tset {} s.inputs n x }
def State.modInput (s : State) (n : Nat) (f : Input → Input) : State := s.setInput n (f (s.input n))

/-- Notes from when on a zone is established or UNRESOLVED; the last sixteen are kept. -/
def noteKnown (l : List (Nat × Bool)) (time : Nat) (est : Bool) : List (Nat × Bool) := (time, est) :: l.take 15

/-- The zone is UNRESOLVED at a device time. -/
def unknownAt (l : List (Nat × Bool)) (t : Nat) : Bool := match l.find? fun x => decide (x.1 < t) with | some (_, est) => !est | none => true

/-- Cadence c. -/
def State.cadence (s : State) (c : Nat) : Cadence := tget {} s.cadences c
def State.setCadence (s : State) (c : Nat) (x : Cadence) : State := { s with cadences := tset {} s.cadences c x }

/-- Channel c. -/
def State.chan (s : State) (c : Nat) : Chan := tget {} s.chans c
def State.setChan (s : State) (c : Nat) (x : Chan) : State := { s with chans := tset {} s.chans c x }
def State.modChan (s : State) (c : Nat) (f : Chan → Chan) : State := s.setChan c (f (s.chan c))

/-- Lane n. -/
def State.lane (s : State) (n : Nat) : Lane := tget {} s.lanes n
def State.setLane (s : State) (n : Nat) (x : Lane) : State := { s with lanes := tset {} s.lanes n x }
def State.modLane (s : State) (n : Nat) (f : Lane → Lane) : State := s.setLane n (f (s.lane n))

/-- Peer lane n. -/
def State.peerLane (s : State) (n : Nat) : PeerLane := tget {} s.peerLanes n
def State.setPeerLane (s : State) (n : Nat) (x : PeerLane) : State := { s with peerLanes := tset {} s.peerLanes n x }
def State.modPeerLane (s : State) (n : Nat) (f : PeerLane → PeerLane) : State := s.setPeerLane n (f (s.peerLane n))

/-- Ring n. -/
def State.ring (s : State) (n : Nat) : Ring := tget {} s.rings n
def State.setRing (s : State) (n : Nat) (x : Ring) : State := { s with rings := tset {} s.rings n x }
def State.modRing (s : State) (n : Nat) (f : Ring → Ring) : State := s.setRing n (f (s.ring n))

/-- The next record of every channel carries CFGCHG (R68). -/
def State.cfgAll (s : State) : State := { s with chans := tmap {} s.chans fun c => { c with cfg := true } }

/-- A remote source of a lane. -/
def State.remoteSrc (s : State) (lane index : Nat) : RemoteSrc := tget {} (s.lane lane).sources index

/-- The present zone of a source. -/
def State.srcZone (s : State) : Source → Zone
  | .none => .unresolved
  | .local n => (s.input n).zone
  | .remote l i => (s.remoteSrc l i).zone

/-- A free value: a number the spec leaves open, taken afresh (log entry 8). -/
def State.free (s : State) : Word × State := (Config.freeValue s.freeIdx, { s with freeIdx := s.freeIdx + 1 })

/-! ### Outputs and interrupts -/

/-- Puts something out of the hub. -/
def State.out (s : State) (o : Output) : State := { s with sent := s.sent ++ [o] }

/-- A dword of the MSI-X table; a vector's control dword resets to masked (R489). -/
def State.msixDword (s : State) (a : Nat) : Dword := (tget? s.msix a).getD (if a % 16 = 12 then 1 else 0)

/-- Sends a vector's message, or sets its pending bit while it is masked (R356). -/
def State.message (s : State) (v : Nat) : State :=
  if (s.msixDword (16 * v + 12)).getLsbD 0 then { s with pba := s.pba ||| (1#68 <<< v) }
  else s.out (.msix v ((s.msixDword (16 * v)).toNat + 2 ^ 32 * (s.msixDword (16 * v + 4)).toNat)
    (s.msixDword (16 * v + 8)).toNat)

/-- An event on one of the vectors 64 to 67: at most one message per 10 µs (R358). -/
def State.event (s : State) (v : Nat) : State :=
  let i := v - 64
  if s.flt.holdoff.getLsbD i then { s with flt := { s.flt with again := s.flt.again ||| (1#4 <<< i) } }
  else ({ s.start (.vector i) with flt := { s.flt with holdoff := s.flt.holdoff ||| (1#4 <<< i) } } : State).message v

/-- A wake cause (R415): WAKE_N goes low when an enabled cause is set. `i` is its bit. -/
def State.wakeCause (s : State) (i : Nat) : State :=
  let c := s.kpr.cause ||| (1#5 <<< i)
  let low := (c.toNat &&& s.farFld Reg.KPR_WAKE_EN 0 5) != 0
  { s with kpr := { s.kpr with cause := c
                               asserted := s.kpr.asserted || low
                               assertedFor := if low && !s.kpr.asserted then 0 else s.kpr.assertedFor } }

/-! ### Codings of the states -/

def TbState.code : TbState → Nat
  | .stopped => 0 | .searching => 1 | .acquiring => 2 | .locked => 3 | .coasting => 4 | .slewing => 5 | .handover => 6

def PowerState.code : PowerState → Nat
  | .off => 0 | .keeper => 1 | .waking => 2 | .run => 3 | .endgame => 4

def Zone.code : Zone → Nat
  | .unresolved => 0 | .low => 1 | .mid => 2 | .high => 3

/-- Two of three copies (R413); the first copy where none agree. -/
def Triple.vote (x : Triple) : Nat := if x.x = x.y || x.x = x.z then x.x else if x.y = x.z then x.y else x.x

/-! ### The black box (R456 to R461) -/

/-- The six bits of PWR_STATUS, TB_STATUS and GBL_STATUS in an entry (R457). -/
def State.bbStates (s : State) : Nat := s.pwr.st.code + 16 * s.tb.st.code + 128 * b2n s.gbl.safe

/-- An event entry of R457 without its CRC. -/
def bbBits (kind sub code seq time ktime param states session : Nat) : Nat :=
  packBits [(0, 8, kind), (8, 8, sub), (16, 16, code), (32, 32, seq), (64, 72, time), (136, 48, ktime), (184, 32, param),
    (216, 8, states), (224, 16, session)]

/-- A 32 B entry with its CRC-16 at bytes 30 and 31. -/
def withCrc (v : Nat) : BitVec 256 := BitVec.ofNat 256 (v + crc16 (bytesOf 30 v) * 2 ^ 240)

/-- Rewrites header entry 3 (R456). -/
def State.bbHeader (s0 : State) : State :=
  let s := s0.wearCount 0x1600
  let v := packBits [(0, 32, s.flt.session), (32, 16, s.flt.sessionFirst), (48, 16, s.fld Reg.FLT_BB_STATUS 0 13),
    (64, 32, s.fld Reg.FLT_BB_SEQ 0 32), (96, 1, b2n s.flt.sealed)]
  { s with pst := { s.pst with blackBox := tput s.pst.blackBox 3 (withCrc v) }, flt := { s.flt with since3 := 0 } }

/-- Writes an event entry at the head (R456, R457). -/
def State.bbPut (s0 : State) (kind sub code time ktime param : Nat) : State :=
  let s := s0.wearCount (0x1600 + s0.fld Reg.FLT_BB_STATUS 0 13 / 128)
  let h := s.fld Reg.FLT_BB_STATUS 0 13
  let e := withCrc (bbBits kind sub code (s.fld Reg.FLT_BB_SEQ 0 32) time ktime param s.bbStates s.flt.session)
  let s1 : State := { s with pst := { s.pst with blackBox := tput s.pst.blackBox h e },
                             flt := { s.flt with since3 := s.flt.since3 + 1 } }
  let s2 := (s1.setFld Reg.FLT_BB_STATUS 0 13 (if h = 8191 then 8 else h + 1)).bump Reg.FLT_BB_SEQ 0 32
  if s2.flt.since3 = 64 then s2.bbHeader else s2

/-- The entry kinds that never wait for the bucket: POWER, ENDGAME, ENDGAME_END, RESTORE (R459). -/
def bbUrgent (kind : Nat) : Bool := kind == 2 || kind == 3 || kind == 4 || kind == 5

/-- Writes an entry under the seal and the bucket (R459, R461); an entry not written counts in missed. -/
def State.bbEntry (s : State) (kind sub code param : Nat) : State :=
  let put (s : State) := s.bbPut kind sub code s.devTime s.kpr.time.vote param
  if s.flt.sealed && !(bbUrgent kind || kind == 8) then s.bumpSat Reg.FLT_BB_STATUS 16 16
  else if bbUrgent kind then put s
  else if s.flt.bbTokens = 0 then s.bumpSat Reg.FLT_BB_STATUS 16 16
  else put { s with flt := { s.flt with bbTokens := s.flt.bbTokens - 1 } }

/-- Whether a FAULT entry of this code and parameter was written within the last 1 ms, and its repeats so far. -/
def findRepeat (l : List Repeat) (code param now : Nat) : Option Repeat :=
  l.find? fun r => r.code == code && r.param == param && decide (now < r.at_ + msQ)

/-- Seals the recorder (R461): `sub` 1 for the host, 2 for a fault, `code` the fault that sealed. -/
def State.seal (s : State) (sub code : Nat) : State :=
  if s.flt.sealed then s
  else
    let s1 := s.bbEntry 7 sub code 0
    let s2 : State := { s1 with flt := { s1.flt with sealed := true } }
    (s2.setFld Reg.FLT_BB_STATUS 13 1 1).bbHeader

/-! ### Raising a fault (R445) -/

/-- The fault codes of R449. -/
inductive FaultCode where
  | accessFault | farOverrun | keyFault | keyLocked | woViolation | snapOverrun | cfgParity | cfgParitySafe | tbDivRange
  | tbCmdState | tbStepBack | feThrOrder | feRange | capRange | cadRange | couLrefBusy | couRange | couCmdState | couState
  | couPeerLimit | peerRankDup | peerState | peerRange | plcPinLoad | plcRange | ringRange | ringState | holdRange
  | pstRange | kprThrOrder | kprRange | pwrRange | fltRange | tbRange
  | tbRefLoss | tbNolock | tbRunt | tbSpan
  | laneAbsent | laneDown | keepaliveMiss | replayStall | creditSync | satParam | protocol
  | dmaRead | ringNotDelivery | ringLbAccess | ringLbValue | holdPressure | summaryMode
  | ledgerMismatch | mailbagSeq | plcCopy | tokenAudit
  | guardDerived | guardCount | keeperMismatch | guardKeeper | guardRestore | keeperTmr
  | ckptLate | holdupShort | endgameShort | noEndgame | recordBad | keeperTimeLost | spareLow | wearLimit | eccUncorr
  | thermWarn | thermLimit | thermSensor
  | droop | vbakLow | coreLow
  deriving DecidableEq, Repr

/-- The code of a fault and whether it is marked FAULT_N (R449). -/
def FaultCode.row : FaultCode → Nat × Bool
  | .accessFault => (0x0101, false) | .farOverrun => (0x0102, false) | .keyFault => (0x0103, false)
  | .keyLocked => (0x0104, false) | .woViolation => (0x0105, false) | .snapOverrun => (0x0106, false)
  | .cfgParity => (0x0107, false) | .cfgParitySafe => (0x0108, true) | .tbDivRange => (0x0109, false)
  | .tbCmdState => (0x010A, false) | .tbStepBack => (0x010B, false) | .feThrOrder => (0x010C, false)
  | .feRange => (0x010D, false) | .capRange => (0x010E, false) | .cadRange => (0x010F, false)
  | .couLrefBusy => (0x0110, false) | .couRange => (0x0111, false) | .couCmdState => (0x0112, false)
  | .couState => (0x0113, false) | .couPeerLimit => (0x0114, false) | .peerRankDup => (0x0115, false)
  | .peerState => (0x0116, false) | .peerRange => (0x0117, false) | .plcPinLoad => (0x0118, false)
  | .plcRange => (0x0119, false) | .ringRange => (0x011A, false) | .ringState => (0x011B, false)
  | .holdRange => (0x011C, false) | .pstRange => (0x011D, false) | .kprThrOrder => (0x011E, false)
  | .kprRange => (0x011F, false) | .pwrRange => (0x0120, false) | .fltRange => (0x0121, false)
  | .tbRange => (0x0122, false)
  | .tbRefLoss => (0x0201, false) | .tbNolock => (0x0202, true) | .tbRunt => (0x0203, true) | .tbSpan => (0x0204, true)
  | .laneAbsent => (0x0301, false) | .laneDown => (0x0302, false) | .keepaliveMiss => (0x0303, false)
  | .replayStall => (0x0304, false) | .creditSync => (0x0305, false) | .satParam => (0x0306, false)
  | .protocol => (0x0307, false)
  | .dmaRead => (0x0401, false) | .ringNotDelivery => (0x0402, false) | .ringLbAccess => (0x0403, false)
  | .ringLbValue => (0x0404, false) | .holdPressure => (0x0405, false) | .summaryMode => (0x0406, true)
  | .ledgerMismatch => (0x0501, true) | .mailbagSeq => (0x0502, true) | .plcCopy => (0x0503, true)
  | .tokenAudit => (0x0504, true)
  | .guardDerived => (0x0601, true) | .guardCount => (0x0602, true) | .keeperMismatch => (0x0603, true)
  | .guardKeeper => (0x0604, true) | .guardRestore => (0x0605, true) | .keeperTmr => (0x0606, true)
  | .ckptLate => (0x0701, false) | .holdupShort => (0x0702, true) | .endgameShort => (0x0703, true)
  | .noEndgame => (0x0704, true) | .recordBad => (0x0705, true) | .keeperTimeLost => (0x0706, true)
  | .spareLow => (0x0707, false) | .wearLimit => (0x0708, true) | .eccUncorr => (0x0709, true)
  | .thermWarn => (0x0801, false) | .thermLimit => (0x0802, true) | .thermSensor => (0x0803, true)
  | .droop => (0x0901, true) | .vbakLow => (0x0902, true) | .coreLow => (0x0903, false)

/-- A fault's 16-bit code. -/
def FaultCode.code (f : FaultCode) : Nat := f.row.1

/-- A fault's class bit (R444). -/
def FaultCode.cls (f : FaultCode) : Nat := f.row.1 / 256 - 1

/-- Class bits, severe, FLT_COUNTn and FLT_LAST (R445). -/
def State.logFault (s : State) (f : FaultCode) (param : Nat) : State :=
  let b : BitVec 9 := 1#9 <<< f.cls
  let s1 : State := { s with flt := { s.flt with
    active := s.flt.active ||| b
    severe := s.flt.severe || f.row.2
    severeOf := if f.row.2 then s.flt.severeOf ||| b else s.flt.severeOf } }
  ((((s1.bump (Reg.FLT_COUNT f.cls) 0 32).setReg Reg.FLT_LAST (BitVec.ofNat 64 f.code)).setReg Reg.FLT_LAST_PARAM
    (BitVec.ofNat 64 (param % 2 ^ 32))).setReg Reg.FLT_LAST_TIME_LO (BitVec.ofNat 64 s.devTime)).setReg
    Reg.FLT_LAST_TIME_HI (BitVec.ofNat 64 (s.devTime / 2 ^ 64))

/-- The FAULT entry of the black box, or the repeat it is counted as (R446). -/
def State.faultEntry (s : State) (f : FaultCode) (param : Nat) : State :=
  match findRepeat s.flt.repeats f.code param s.now with
  | some _ =>
    { s with flt := { s.flt with repeats := s.flt.repeats.map fun r =>
        if r.code = f.code ∧ r.param = param then { r with repeats := r.repeats + 1 } else r } }
  | none =>
    let same (r : Repeat) := r.code == f.code && r.param == param
    let n := match s.flt.repeats.find? same with | some r => min 255 r.repeats | none => 0
    let s1 := s.bbEntry 1 n f.code param
    -- an entry that was not written leaves the last one standing
    if s1.fld Reg.FLT_BB_SEQ 0 32 = s.fld Reg.FLT_BB_SEQ 0 32 then s1
    else { s1 with flt := { s1.flt with repeats :=
      { code := f.code, param := param, at_ := s.now, repeats := 0 } :: s1.flt.repeats.filter fun r => !same r } }

/-- Raises a fault (R445), and seals the recorder where its class is chosen for it (R461). -/
def State.raise (s : State) (f : FaultCode) (param : Nat) : State :=
  let s1 := (s.logFault f param).faultEntry f param
  let s2 := if s1.bit Reg.FLT_CTRL f.cls then s1.event 64 else s1
  if s2.bit Reg.FLT_BB_CTRL f.cls then s2.seal 2 f.code else s2

/-- FAULT_N is low (R448): a fault that set severe is of an enabled class, or the safe state holds, or TEST_EN is high (R495);
released in the quiet states. -/
def State.faultNLow (s : State) : Bool :=
  (match s.pwr.st with | .off | .keeper => false | _ => true) &&
    ((s.flt.severe && (s.flt.severeOf.toNat &&& s.fld Reg.FLT_CTRL 16 9) != 0) || s.gbl.safe || s.pwr.testEn)

/-! ### The holding store (R220, R373, R374, R379) -/

/-- Free holding blocks (PLC_HOLD_FREE). -/
def State.free? (s : State) : Nat := 8192 - (s.rings.map fun r => r.2.blocks.length).sum

/-- After f has changed: pressure (R373), the lowest f, the grace timer of R375. -/
def State.holdCheck (s : State) : State :=
  let f := s.free?
  let hwm := s.fld Reg.FLT_HOLD_CTRL 0 14
  let lwm := s.fld Reg.FLT_HOLD_CTRL 16 14
  let s1 : State := { s with plc := { s.plc with minFree := min s.plc.minFree f } }
  let s2 := if f ≤ hwm && !s1.flt.pressure then
      (({ s1 with flt := { s1.flt with pressure := true } } : State).raise .holdPressure 0)
    else if lwm ≤ f && s1.flt.pressure then { s1 with flt := { s1.flt with pressure := false } } else s1
  let begins := decide (f ≤ 64) && decide (64 < s.plc.holdFree)
  let s3 := if begins then s2.start .grace else s2
  { s3 with flt := { s3.flt with grace := decide (f ≤ 64) && (s2.flt.grace || begins) }, plc := { s3.plc with holdFree := f } }

/-- A thing more, or a thing less, lies in a block; a block in which nothing lies returns to the free list. -/
def Ring.ref (r : Ring) (b : Nat) : Ring := { r with blocks := tmod 0 r.blocks b (· + 1) }
def Ring.unref (r : Ring) (b : Nat) : Ring := { r with blocks := tmod 0 r.blocks b (· - 1) }

/-- Takes references off blocks. -/
def State.unrefAll (s : State) (n : Nat) (bs : List Nat) : State :=
  if bs = [] then s else (s.modRing n fun r => bs.foldl Ring.unref r).holdCheck

/-- Frees the oldest block of rewind copies of the first ring that has one (R379); copies being reposted stay. -/
def freeRewind : Table Ring → Option (Table Ring)
  | [] => none
  | (n, r) :: rest =>
    match r.repost, r.kept with
    | none, k :: _ =>
      let gone := r.kept.filter fun x => x.block == k.block
      some ((n, gone.foldl (fun r x => r.unref x.block)
        { r with kept := r.kept.filter fun x => x.block != k.block }) :: rest)
    | _, _ => (freeRewind rest).map ((n, r) :: ·)

/-- Frees rewind copies while a grant of `need` blocks would leave f at or below hwm (R379). -/
def State.makeRoom : Nat → State → Nat → State
  | 0, s, _ => s
  | k + 1, s, need =>
    if s.free? < need + s.fld Reg.FLT_HOLD_CTRL 0 14 + 1 then
      match freeRewind s.rings with
      | some rs => State.makeRoom k { s with rings := rs } need
      | none => s
    else s

/-- Places `size` bytes in ring n's blocks: in the newest block where they fit, else in new blocks (R220). A grant to a
data record leaves the 64 blocks of the reserve (R374). Answers the blocks taken; none where there is no space. -/
def State.place (s : State) (n size : Nat) (data : Bool) : Option (List Nat × State) :=
  let r := s.ring n
  match r.newest with
  | some (b, used) =>
    if used + size ≤ 4096 && (tget? r.blocks b).isSome then
      some ([b], s.setRing n ({ r with newest := some (b, used + size) }.ref b))
    else grant
  | none => grant
where
  grant : Option (List Nat × State) :=
    let need := max 1 (ceilDiv size 4096)
    let s1 := State.makeRoom 8192 s need
    if s1.free? < need + (if data then 64 else 0) then none
    else
      let r := s1.ring n
      let bs := (List.range need).map (r.nextBlock + ·)
      let r1 := bs.foldl Ring.ref { r with nextBlock := r.nextBlock + need,
                                           newest := some (r.nextBlock + need - 1, size - 4096 * (need - 1)) }
      some (bs, (s1.setRing n r1).holdCheck)

/-! ### Records and their pushes (R360 to R370) -/

/-- The data records (R363). -/
def Record.data (r : Record) : Bool := r.type == 1 || r.type == 4 || ((r.type == 2 || r.type == 3) && r.emit)

/-- Slots of a record: its head and its body slots (R360). -/
def Record.slots (r : Record) : Nat := 1 + ceilDiv r.body.length 4

/-- Queue entries of a record: the body passes through the queue when it has at most 8 values and is not assembled in
holding blocks (R368, R369). -/
def Record.units (r : Record) : Nat := if 8 < r.body.length || r.blks != [] then 1 else r.slots

/-- Whether a record is assembled in holding blocks: more than 8 body values, or a letter's or an open parcel's head
(R368). -/
def Record.assembled (r : Record) : Bool := decide (8 < r.body.length) || r.type == 2

/-- A ring's queue of a class: 0 EXPRESS, 1 STANDARD, 2 BULK. -/
def Ring.queue (r : Ring) : Nat → List Record
  | 0 => r.express
  | 1 => r.standard
  | _ => r.bulk
def Ring.setQueue (r : Ring) (cls : Nat) (q : List Record) : Ring :=
  match cls with
  | 0 => { r with express := q }
  | 1 => { r with standard := q }
  | _ => { r with bulk := q }

/-- Entries in use in a queue. -/
def queueFill (q : List Record) : Nat := (q.map Record.units).sum

/-- Puts a unit into its queue when it fits in the 128 entries (R369) and, where it is assembled in holding blocks, has its
space (R368); none where the push is held. -/
def State.tryPush (s : State) (n : Nat) (p : Push) : Option State :=
  let q := (s.ring n).queue p.cls
  if p.record.assembled && p.record.blks == [] then
    if 128 < queueFill q + 1 then none
    else match s.place n (32 * p.record.slots) p.record.data with
      | none => none
      | some (bs, s1) =>
        some (s1.modRing n fun r => r.setQueue p.cls (r.queue p.cls ++ [{ p.record with blks := bs }]))
  else if 128 < queueFill q + p.record.units then none
  else some (s.modRing n fun r => r.setQueue p.cls (q ++ [p.record]))

/-- Flag bits of R362, from bit 22 of the head. -/
def fExtrap : BitVec 10 := 1#10
def fLate : BitVec 10 := 2#10
def fThinned : BitVec 10 := 4#10
def fCoast : BitVec 10 := 8#10
def fSlew : BitVec 10 := 16#10
def fCfg : BitVec 10 := 32#10
def fPart : BitVec 10 := 64#10
def fGap : BitVec 10 := 128#10
def fGuard : BitVec 10 := 256#10
def fUncertain : BitVec 10 := 512#10

/-- The holdover states, in which values are flagged COAST (R40, R52). -/
def TbState.holds : TbState → Bool
  | .coasting | .handover => true
  | _ => false

/-- The time base's state at a device time (R40). -/
def stateAt : List (Nat × TbState) → Nat → TbState
  | [], _ => .stopped
  | (t, st) :: r, x => if t ≤ x then st else stateAt r x

/-- COAST and SLEW of values computed from these stamps and instants (R40). -/
def State.timeFlags (s : State) (ts : List Nat) : BitVec 10 :=
  let sts := ts.map (stateAt s.tb.log)
  (if sts.any TbState.holds then fCoast else 0) ||| (if sts.any (· == .slewing) then fSlew else 0)

/-- The parent of a follower advertises coast (R302). -/
def State.parentCoasts (s : State) : Bool :=
  s.bit Reg.PEER_CTRL 8 && !s.peer.master && (match s.peer.parent with | some l => (s.peerLane l).coast | none => false)

/-- The flags of every record of the hub: PARTITION while part is 1 (R305), COAST while a follower's parent advertises it
(R302), UNCERTAIN while u0 is carried (R64, R402). -/
def State.hubFlags (s : State) : BitVec 10 :=
  (if s.peer.part then fPart else 0) ||| (if s.parentCoasts then fCoast else 0) |||
    (if s.tb.u0 ≠ 0 then fUncertain else 0)

/-- Pushes a record: into its queue, or behind the pushes already held (R370). Nothing is dropped. The time-domain epoch is
the hub's at production (R361). -/
def State.push (s : State) (n cls : Nat) (engine : Option Nat) (rec0 : Record) : State :=
  let r : Record := { rec0 with tde := s.peer.tde, flags := rec0.flags ||| s.hubFlags, pushedAt := s.now }
  let p : Push := { cls := cls, engine := engine, record := r }
  let s1 := s.modRing n fun r => { r with produced := r.produced + 1 }
  if ((s1.ring n).waiting.filter fun w => w.cls == cls) != [] then
    s1.modRing n fun r => { r with waiting := r.waiting ++ [p] }
  else match s1.tryPush n p with
    | some s2 => s2
    | none => s1.modRing n fun r => { r with waiting := r.waiting ++ [p] }

/-- An engine is held by a held push (R370). -/
def State.engineHeld (s : State) (e : Nat) : Bool :=
  s.rings.any fun r => r.2.waiting.any fun p => p.engine == some e

/-- A RETURN record (R364, R365): `ring` the ring or lane in aux, `detail` its first value, `n` the occurrences. -/
def State.sendReturn (s : State) (dest ring reason : Nat) (tag : Dword) (type pos : Nat) (detail n : Nat) : State :=
  s.push dest 1 none { type := 8, aux := ring, time := s.devTime, code := reason, spec0 := tag.toNat,
                       spec1 := packBits [(0, 8, type), (8, 25, pos)],
                       body := [BitVec.ofNat 64 detail, BitVec.ofNat 64 (n % 2 ^ 48)] }

/-- A CONFIG_ACK record (R364, R365). -/
def State.sendAck (s : State) (dest cls chan aux stage : Nat) (tag : Dword) (body : List Word) : State :=
  s.push dest cls none { type := 11, chan := chan, aux := aux, time := s.devTime, code := stage, spec0 := tag.toNat,
                         body := body }

/-- The holdover bound, rounded up to a whole Q (R52). -/
def Tb.bound (b : Tb) : Nat := ceilDiv b.hold 100000000

/-- A TIME record (R67), and its black-box entry for the reasons of R459. -/
def State.timeRecord (s : State) (reason : Nat) (value : Int) : State :=
  let s1 := s.push (s.fld Reg.FLT_REC_RING 0 6) 0 none
    { type := 7, time := s.devTime, code := reason
      body := [wordOf value, BitVec.ofNat 64 (min (2 ^ 64 - 1) s.tb.bound)] }
  if reason == 1 || reason == 2 || reason == 4 || reason == 8 || reason == 11 then
    s1.bbEntry 6 0 reason (toField 32 (max (-(2 ^ 31 - 1)) (min value (2 ^ 31 - 1))))
  else s1

end Sys2Proof.Machine
end

