-- ==== Sys2Proof/Machine/Cadence.lean ====
section
/-! DEFINITION. The cadence generator (05 R135 to R141): grids, the issue of instants to the channels, output pulses. -/

namespace Sys2Proof.Machine

/-- P of a CAD_PERIOD value (R135). -/
def periodOf (v : Word) : Nat := if v.getLsbD 48 then fieldOf v.toNat 0 48 * 64 else fieldOf v.toNat 0 48

/-- The period and the phase of cadence c. -/
def State.cadP (s : State) (c : Nat) : Nat := periodOf (s.reg (Reg.CAD_PERIOD c))
def State.cadPhase (s : State) (c : Nat) : Nat := s.fld (Reg.CAD_PHASE c) 0 54

/-- The first grid point at or after `t`. -/
def gridFrom (p phase t : Nat) : Nat := if p = 0 then t else t + (((phase : Int) - (t : Int)) % (p : Int)).toNat

/-- The grids of cadence c so far, newest first (R137). -/
def State.grids (s : State) (c : Nat) : List (Nat × Nat × Nat) :=
  if (s.cadence c).grids = [] then [(0, s.cadP c, s.cadPhase c)] else (s.cadence c).grids

/-- P and phase of the grid on which cadence c's instant T lies (R137, R171). -/
def State.gridAt (s : State) (c t : Nat) : Nat × Nat :=
  match (s.grids c).find? fun g => decide (g.1 ≤ t) with
  | some g => g.2
  | none => (s.cadP c, s.cadPhase c)

/-- The points in [lo, hi) of a list of grids, newest first. -/
def pointsOf (lo : Nat) : List (Nat × Nat × Nat) → Nat → List Nat
  | [], _ => []
  | (f, p, ph) :: r, hi =>
    let g := gridFrom p ph (max lo f)
    pointsOf lo r (min hi f) ++ (if p = 0 ∨ hi ≤ g then [] else (List.range ((hi - g + p - 1) / p)).map fun i => g + i * p)

/-- The P and phase that R135 and R138 allow. -/
def gridOk (p phase : Nat) : Bool := decide (1228800 ≤ p ∧ p ≤ 1228800000000000 ∧ phase < p)

/-- A channel takes its cadence's instants: it is LIVE, or CASTLING out of LIVE (R121). -/
def Chan.samples (c : Chan) : Bool := c.st == .live || (c.st == .castling && c.back == .live)

/-- When a statistics descriptor was accepted. -/
def TargetOp.acceptedAt : TargetOp → Nat
  | .dev _ _ _ _ _ _ a _ => a
  | .histo _ _ _ _ a _ => a
  | .read _ _ _ _ a _ => a

/-- An instant T reaches a channel: one bound to cadence `k` takes it from t_live, or behind the RESUME, on (R126), and an accepted descriptor that
waits for the first instant after its acceptance has found it (R124). -/
def Chan.takeInstant (c : Chan) (k time : Nat) : Chan :=
  -- a REDECLARE fixed at t_r and not applied yet: later instants are those of the new declaration
  let d := match c.op, c.opAt with
    | some (.redeclare d _ _ _), some r => if r < time then d else c.decl
    | _, _ => c.decl
  -- an instant at t_p or t_x still belongs to the period that ends (R126)
  let ends := match c.op, c.opAt with
    | some (.redeclare _ _ _ _), _ => false
    | _, some x => decide (x < time)
    | _, none => false
  if d.cadence != k then c
  else
    let c0 := { c with targets := c.targets.map fun (p : TargetOp × Option Nat) => (p.1, if p.2.isNone && p.1.acceptedAt < time then some time else p.2) }
    let c1 := if c.samples && decide (c.sampleFrom ≤ time) && !ends then { c0 with instants := c0.instants ++ [time] } else c0
    match c1.op, c1.opAt with
    | some (.redeclare _ _ a _), none => if a < time then { c1 with opAt := some time } else c1
    | some (.pause _ _ a _), none => if a < time then { c1 with opAt := some time } else c1
    | some (.retire now _ a _), none => if !now && a < time then { c1 with opAt := some time } else c1
    | _, _ => c1

/-- The pin a cadence drives: CAD_CTRL.out 1 to 4 (R140, R141). -/
def State.cadPin (s : State) (c : Nat) : Option Nat :=
  let o := s.fld (Reg.CAD_CTRL c) 1 3
  if 1 ≤ o ∧ o ≤ 4 then some (o - 1) else none

/-- A REDECLARE has found t_r: the zones that its sources have there are the start of their period (R119, R124). -/
def State.noteZones (s : State) (x : Chan) : Chan :=
  match x.op, x.opAt with
  | some (.redeclare d _ _ _), some _ => if x.zonesAt.isSome then x else { x with zonesAt := some (s.srcZone d.srcA, s.srcZone d.srcB) }
  | _, _ => x

/-- Issues the instant of cadence `c` at device time `time` to every channel, and raises its output pin at the first core-cycle
boundary for out_width core cycles, 0 handled as 1 (R135, R140, R141). -/
def State.issueInstant (s : State) (c time : Nat) : State :=
  let k := s.cadence c
  let s1 := (s.setCadence c { k with next := time + s.cadP c }).setReg (Reg.CAD_COUNT c) (s.reg (Reg.CAD_COUNT c) + 1)
  let s2 : State := { s1 with chans := tmap {} s1.chans fun x => s.noteZones (x.takeInstant c time) }
  let stop := s.now + (s.nextCycle - s.devTime) + 512 * max 1 (s.fld (Reg.CAD_CTRL c) 4 8)
  match s.cadPin c with
  | some p => { s2 with cadOut := s2.cadOut ||| (1#4 <<< p), cadEnd := tset 0 s2.cadEnd p (max stop (tget 0 s2.cadEnd p)) }
  | none => s2

/-- The cadence whose next instant is the earliest up to `lim`; of equal ones the lowest number. -/
def earliest (l : List (Nat × Cadence)) (lim : Nat) : Option (Nat × Nat) :=
  l.foldl (fun best (c, k) =>
    if k.running && decide (k.next ≤ lim) then
      match best with
      | some (_, t) => if k.next < t then some (c, k.next) else best
      | none => some (c, k.next)
    else best) none

/-- Issues, in order of time, the instants that fall up to `lim` (R57); at most `fuel` of them. -/
def State.issueMany : Nat → State → Nat → State
  | 0, s, _ => s
  | k + 1, s, lim =>
    match earliest s.cadences lim with
    | some (c, t) => State.issueMany k (s.issueInstant c t) lim
    | none => s

/-- Every grid instant inside a step up to device time `lim`, none skipped (R57): P is at least 1 µs, so the span bounds
their number on each of the 16 cadences. -/
def State.issueThrough (s : State) (lim : Nat) : State :=
  let first := s.cadences.foldl (fun m (_, k) => if k.running then min m k.next else m) lim
  State.issueMany (16 * ((lim - first) / usQ + 2)) s lim

/-- Starts or resumes cadence `c` from device time `t`: the next instant is the first grid point at or after the later of
t_start and `t` (R136). -/
def State.resumeCadence (s : State) (c t : Nat) : State :=
  let k := s.cadence c
  let n := gridFrom (s.cadP c) (s.cadPhase c) (max t k.tStart)
  s.setCadence c { k with running := true, next := n, since := max t k.tStart }

/-- A line becomes live: every enabled cadence resumes with the first grid point at or after the swap (R136). -/
def State.resumeCadences (s : State) : State :=
  (List.range 16).foldl (fun s c => if s.bit (Reg.CAD_CTRL c) 0 then s.resumeCadence c s.devTime else s) s

/-- No line is live: no instants are issued (R136). -/
def State.stopCadences (s : State) : State :=
  { s with cadences := tmap {} s.cadences fun k => { k with running := false } }

/-- A cadence instant. -/
def execCadenceInstant (t : Nat) (c : Fin 16) (s : State) : Host.Outcome State Fault Refusal :=
  atMoment t s fun s =>
    let k := s.cadence c
    if k.running && s.tb.st.live && decide (k.next ≤ s.devTime) then s.issueInstant c k.next else s

/-- The pulse on a CADENCE_OUT pin ends, once its width and that of every pulse ORed onto it has passed (R140). -/
def execCadenceOutEnd (t : Nat) (pin : Fin 4) (s : State) : Host.Outcome State Fault Refusal :=
  atMoment t s fun s =>
    if tget 0 s.cadEnd pin.val ≤ s.now then { s with cadOut := s.cadOut &&& ~~~(1#4 <<< pin.val), cadEnd := tdel s.cadEnd pin.val } else s

/-- CAD_CTRL.enable goes from 0 to 1 (R136): t_start is the later of CAD_START and the device time of the write. -/
def State.cadenceOn (s : State) (c : Nat) : State :=
  let start := (s.reg (Reg.CAD_START_LO c)).toNat + s.fld (Reg.CAD_START_HI c) 0 8 * 2 ^ 64
  let s1 := s.setCadence c { s.cadence c with tStart := max start s.devTime }
  if s1.tb.st.live then s1.resumeCadence c s1.devTime else s1

/-- CAD_CTRL.enable is cleared at t_w: an instant at t_w is still issued (R136). -/
def State.cadenceOff (s : State) (c : Nat) : State :=
  let k := s.cadence c
  let s1 := if k.running && k.next = s.devTime then s.issueInstant c k.next else s
  s1.setCadence c { s1.cadence c with running := false }

/-- A write of CAD_PERIOD or CAD_PHASE at t_w (R137): an instant of the old grid at t_w is issued first; the next instant is
the first point of the new grid after t_w; the cadence's channels carry CFGCHG. -/
def State.cadenceGrid (s : State) (c : Nat) (write : State → State) : State :=
  let k := s.cadence c
  let s1 := write (if k.running && k.next = s.devTime then s.issueInstant c k.next else s)
  let s2 : State := { s1 with chans := tmap {} s1.chans fun x =>
    if x.decl.cadence = c then
      { x with cfg := true, gridCut := if s1.cadP c = s.cadP c || x.dev.isNone then x.gridCut else some s.devTime }
    else x }
  let fr := if k.running then s.devTime + 1 else s.devTime
  let s3 := s2.setCadence c { s2.cadence c with grids := (fr, s2.cadP c, s2.cadPhase c) :: s.grids c }
  if k.running then
    s3.setCadence c { s3.cadence c with next := gridFrom (s3.cadP c) (s3.cadPhase c) (max (s.devTime + 1) k.tStart) }
  else s3

end Sys2Proof.Machine
end

