-- ==== Sys2Proof/Machine/Capture.lean ====
section
/-! DEFINITION. Edge capture (04): the fragments and their decoding, the mailbag and its words, thinning, the start of
capture, and the meanings of capture's rows. -/

namespace Sys2Proof.Machine

/-! ### Fragments (R103 to R105) -/

/-- What a head or a control fragment says, with its continuations. -/
inductive Mark where
  | head (rising : Bool) (delta : Nat)
  | zone (z : Zone) (skip : Bool)
  | est (z : Zone)
  | thin (count : Nat) (pressure : Bool)
  | ovfl (count : Nat)
  | resync (sampled : Bool)
  | anchor (time : Nat)
  | cfg (cap : Bool) (epoch : Nat)
  deriving DecidableEq, Repr

/-- The fewest continuations, at most 3, of 14 bits each that hold `v` with `w` bits in the first fragment (R104). -/
def contCount (w v : Nat) : Nat :=
  if v < 2 ^ w then 0 else if v < 2 ^ (w + 14) then 1 else if v < 2 ^ (w + 28) then 2 else 3

/-- `k` continuations of `v`, least significant 14 bits first. -/
def conts : Nat → Nat → List Fragment
  | 0, _ => []
  | k + 1, v => BitVec.ofNat 16 (v % 2 ^ 14) :: conts k (v / 2 ^ 14)

/-- A control fragment. -/
def ctlFrag (sub k payload : Nat) : Fragment := BitVec.ofNat 16 (3 * 2 ^ 14 + sub * 2 ^ 11 + k * 2 ^ 9 + payload)

/-- PAD, which fills the slots that hold no fragment: 0xFFFF (R105, R107). -/
def padFrag : Fragment := ctlFrag 7 3 0x1FF

/-- The fragments of a mark (R103 to R105). -/
def Mark.encode : Mark → List Fragment
  | .head rising d =>
    BitVec.ofNat 16 ((if rising then 1 else 2) * 2 ^ 14 + contCount 12 d * 2 ^ 12 + d % 2 ^ 12) ::
      conts (contCount 12 d) (d / 2 ^ 12)
  | .zone z skip => [ctlFrag 0 0 (z.code + 4 * b2n skip)]
  | .est z => [ctlFrag 1 0 z.code]
  | .thin n pressure => ctlFrag 2 (contCount 8 n) (n % 2 ^ 8 + 2 ^ 8 * b2n pressure) :: conts (contCount 8 n) (n / 2 ^ 8)
  | .ovfl n => ctlFrag 3 (contCount 9 n) (n % 2 ^ 9) :: conts (contCount 9 n) (n / 2 ^ 9)
  | .resync sampled => [ctlFrag 4 0 (b2n sampled)]
  | .anchor t => ctlFrag 5 3 (t % 2 ^ 9) :: conts 5 (t / 2 ^ 9)
  | .cfg cap epoch => [ctlFrag 6 0 (epoch % 2 ^ 8 + 2 ^ 8 * b2n cap)]

/-- Reads `k` continuations. -/
def readConts : Nat → List Fragment → Option (Nat × List Fragment)
  | 0, r => some (0, r)
  | _ + 1, [] => none
  | k + 1, f :: r =>
    if f.toNat / 2 ^ 14 = 0 then
      match readConts k r with
      | some (v, q) => some (f.toNat + 2 ^ 14 * v, q)
      | none => none
    else none

/-- A zone from its code. -/
def zoneOf : Nat → Zone
  | 1 => .low
  | 2 => .mid
  | 3 => .high
  | _ => .unresolved

/-- Reads one mark from the front of a fragment stream; none where the stream does not begin with one. -/
def readMark : List Fragment → Option (Mark × List Fragment)
  | [] => none
  | f :: r =>
    let v := f.toNat
    let ctl (k w : Nat) (m : Nat → Mark) : Option (Mark × List Fragment) :=
      match readConts k r with
      | some (x, q) => some (m (v % 2 ^ w + 2 ^ w * x), q)
      | none => none
    match v / 2 ^ 14 with
    | 0 => none
    | 1 => ctl (v / 2 ^ 12 % 4) 12 (.head true)
    | 2 => ctl (v / 2 ^ 12 % 4) 12 (.head false)
    | _ =>
      let k := v / 2 ^ 9 % 4
      match v / 2 ^ 11 % 8 with
      | 0 => ctl 0 0 fun _ => .zone (zoneOf (v % 4)) (bitOf v 2)
      | 1 => ctl 0 0 fun _ => .est (zoneOf (v % 4))
      | 2 => ctl k 8 fun n => .thin n (bitOf v 8)
      | 3 => ctl k 9 .ovfl
      | 4 => ctl 0 0 fun _ => .resync (bitOf v 0)
      | 5 => ctl 5 9 .anchor
      | 6 => ctl 0 8 fun n => .cfg (bitOf v 8) n
      | _ => none

/-! ### The mailbag (R107 to R110) -/

/-- Slots that a data group may still take: 255 closed words and the open word (R110). -/
def Input.dataRoom (x : Input) : Int := (255 - (x.fifo.length : Int)) * 8 + (8 - (x.openFrags.length : Int))

/-- Slots that an OVFL marker may take: the kept word too. -/
def Input.ovflRoom (x : Input) : Int := x.dataRoom + 8

/-- Eight slots as 128 bits, slot 0 lowest; slots without a fragment hold PAD (R107). -/
def slotBits (frags : List Fragment) : Nat → Nat
  | 0 => 0
  | k + 1 => (frags.headD padFrag).toNat + 2 ^ 16 * slotBits frags.tail k

/-- A word's sideband tag: input, sequence, flushed (R107). -/
def wordTag (n : Nat) (seq : BitVec 7) (flushed : Bool) : BitVec 16 := BitVec.ofNat 16 (n % 2 ^ 8 + 2 ^ 8 * seq.toNat + 2 ^ 15 * b2n flushed)

/-- The word as it is handed to the fabric (R107). -/
def MailWord.out (w : MailWord) (n : Nat) : WordOut :=
  { data := BitVec.ofNat 128 (slotBits w.frags 8), valid := BitVec.ofNat 8 (2 ^ w.frags.length - 1), tag := wordTag n w.seq w.flushed }

/-- NOT_VALID: what a pop of an empty FIFO returns, with the sequence of the next word to be closed (R109). -/
def Input.notValid (x : Input) (n : Nat) : WordOut :=
  { data := BitVec.ofNat 128 (slotBits [] 8), valid := 0, tag := wordTag n x.seq false }

/-- Closes the open word (R108). -/
def Input.closeWord (x : Input) (flushed : Bool) : Input :=
  { x with fifo := x.fifo ++ [{ frags := x.openFrags, seq := x.seq, flushed := flushed, items := x.openItems }]
           seq := x.seq + 1, openFrags := [], openItems := [] }

/-- Closes a full open word while the FIFO has space for it. -/
def Input.closeFull (x : Input) : Input :=
  if 8 ≤ x.openFrags.length && x.fifo.length < 256 then x.closeWord false else x

/-- Writes one fragment at `now` on the hub's own count, with the item that it completes. -/
def Input.writeFrag (x : Input) (now : Nat) (f : Fragment) (item : Option Item) : Input :=
  ({ x with openAt := if x.openFrags = [] then now else x.openAt
            openFrags := x.openFrags ++ [f], openItems := x.openItems ++ item.toList } : Input).closeFull

/-- Writes a group; the item goes with its last fragment. -/
def Input.writeFrags (now : Nat) (item : Option Item) : Input → List Fragment → Input
  | x, [] => x
  | x, [f] => x.writeFrag now f item
  | x, f :: g => (x.writeFrag now f none).writeFrags now item g

/-- A group of marks as fragments. -/
def groupFrags (g : List Mark) : List Fragment := g.flatMap Mark.encode

/-- A word closed by flush opens again when the fragments of its own core cycle fill its eighth slot: it then closes once, with
flushed at 0 (R108, R111). `cycle` is the core cycle, `k` the fragments to be written. -/
def Input.unflush (x : Input) (cycle k : Nat) : Input :=
  match x.fifo.reverse with
  | w :: ws =>
    if x.openFrags = [] && x.flushedAt == some cycle && w.flushed && w.seq + 1 == x.seq && decide (8 ≤ w.frags.length + k) then
      { x with fifo := ws.reverse, seq := w.seq, openFrags := w.frags, openItems := w.items, flushedAt := none }
    else x
  | [] => x

/-- Stores an input after a write and keeps CAP_FILL_MAX. -/
def State.putInput (s : State) (n : Nat) (x : Input) : State :=
  let s1 := s.setInput n x
  if s1.fld (Reg.CAP_FILL_MAX n) 0 9 < x.fifo.length then s1.setFld (Reg.CAP_FILL_MAX n) 0 9 x.fifo.length else s1

/-- Writes a group's fragments, with the item that they stand for, into the input `x`. -/
def State.putGroup (s : State) (n : Nat) (x : Input) (item : Option Item) (fs : List Fragment) : State :=
  s.putInput n ((x.unflush (s.boundaryTo s.devTime) fs.length).writeFrags s.now item fs)

/-- The pending OVFL count has been written ahead of the next head. -/
def Input.ovflWritten (x : Input) : Input :=
  { x with ovfl := 0, ovflRise := 0, ovflOut := x.ovflOut + x.ovfl, ovflOutRise := x.ovflOutRise + x.ovflRise }

/-- Writes a group that holds no edge, behind a pending OVFL count (R106); a group that does not fit is dropped (R110).
Answers whether it was written. -/
def State.writeGroup (s : State) (n : Nat) (g : List Mark) (item : Option Item) : Bool × State :=
  let x := s.input n
  let fs := groupFrags ((if x.ovfl = 0 then [] else [.ovfl x.ovfl]) ++ g)
  if (fs.length : Int) ≤ x.dataRoom then
    (true, s.putGroup n x.ovflWritten item fs)
  else (false, s)

/-- The time of an ANCHOR written at device time `time`: time-bearing fragments never decrease (R106). -/
def State.anchorTime (s : State) (n time : Nat) : Nat := max time (s.input n).lastTime

/-- Writes an ANCHOR at device time `time` with what follows it. -/
def State.anchorGroup (s : State) (n time : Nat) (g : List Mark) (item : Option Item) : State :=
  let (ok, s1) := s.writeGroup n (.anchor (s.anchorTime n time) :: g) item
  if ok then s1.modInput n fun x => { x with lastTime := s.anchorTime n time } else s1

/-- A zone is established (R76): the Establishment group. -/
def State.captureEst (s : State) (n : Nat) (z : Zone) : State :=
  s.anchorGroup n s.devTime [.est z] (some { kind := .est, stamp := s.anchorTime n s.devTime, zone := z })

/-- A configuration epoch of the input has changed at the core-cycle boundary that applies the write (R91, R106, R112). -/
def State.captureCfg (s : State) (n : Nat) (cap : Bool) : State :=
  let e := if cap then 4 else 3
  s.anchorGroup n s.nextCycle [.cfg cap (s.fld (Reg.GBL_EPOCH (e / 2)) (16 * (e % 2)) 8)] none

/-! ### Thinning (R100, R101) -/

/-- The pressure floor applies to an input. -/
def State.pressed (s : State) (n : Nat) : Bool := s.flt.pressure && !s.bit (Reg.CAP_CTRL n) 1

/-- n of R101. -/
def State.thinN (s : State) (n : Nat) : Nat :=
  let r := 2 ^ (s.input n).rate
  if s.pressed n then max r (2 ^ s.fld (Reg.CAP_CTRL n) 2 4) else r

/-- An accepted edge and what goes with its head. -/
structure Accepted where
  rising : Bool
  stamp : Nat
  /-- the zone after the edge, in WINDOW mode -/
  zone : Option Zone := none
  skip : Bool := false
  resync : Resync := .none
  deriving DecidableEq, Repr

/-- The Edge group of R106. -/
def edgeGroup (x : Input) (a : Accepted) (delta : Nat) : List Mark :=
  (if x.held = 0 then [] else [.thin x.held x.heldPressure]) ++ (if x.ovfl = 0 then [] else [.ovfl x.ovfl]) ++
    [.head a.rising delta] ++ (match a.zone with | some z => [.zone z a.skip] | none => []) ++
    (match a.resync with | .none => [] | .blankEnd => [.resync false] | .sampled => [.resync true])

/-- Edges of an Endgame's outage that have no head (R388, R396). -/
def State.noteLate (s : State) (n : Nat) (a : Accepted) : State :=
  match s.pst.endgame with
  | some e =>
    if e.tCut ≤ a.stamp then s.modInput n fun x => { x with lateHeld := x.lateHeld + 1, lateRise := x.lateRise + b2n a.rising } else s
  | none => s

/-- Stamps an edge and writes its group, or drops the group at a full mailbag (R96, R104, R110). -/
def State.stampEdge (s : State) (n : Nat) (a : Accepted) : State :=
  let x := s.input n
  let st := max a.stamp x.lastTime
  let g := edgeGroup x a (st - x.lastTime)
  let fs := groupFrags g
  if (fs.length : Int) ≤ x.dataRoom then
    let item : Item := { kind := .edge, stamp := st, rising := a.rising, zone := a.zone.getD .unresolved, skip := a.skip,
                         resync := a.resync, thin := x.held, ovfl := x.ovfl + x.ovflOut
                         thinRise := x.heldRise, ovflRise := x.ovflRise + x.ovflOutRise }
    let y : Input := { x with held := 0, heldRise := 0, heldPressure := false, ovfl := 0, ovflOut := 0, ovflRise := 0, ovflOutRise := 0
                              lateHeld := 0, lateRise := 0, lastTime := st }
    (s.putGroup n y (some item) fs).bump (Reg.CAP_CNT_STAMPED n) 0 48
  else ((s.setInput n { x with ovfl := x.ovfl + 1, ovflRise := x.ovflRise + b2n a.rising }).noteLate n a).bump (Reg.CAP_CNT_OVFL n) 0 48

/-- An Endgame tells the edges of an input that belong to the outage from those its source table counts (R388, R396). -/
def State.noteCut (s : State) (n stamp : Nat) : State :=
  match s.pst.endgame with
  | some e => if e.tCut ≤ stamp then { s with pst := { s.pst with endgame := some { e with after := tmod 0 e.after n (· + 1) } } } else s
  | none => s

/-- At whole microsecond number `m` of device time the rate falls on every input whose bucket is full (R101). -/
def State.thinDecay (s : State) (m : Nat) : State :=
  if s.decayed < m then
    { s with decayed := m
             inputs := tmap {} s.inputs fun x => if 0 < x.rate && x.bucket = 64 then { x with rate := x.rate - 1 } else x }
  else s

/-- An edge reaches the TDC in the core cycle `cycle`: a calibration hit of that core cycle is discarded (R98). -/
def Input.dropHit (x : Input) (cycle : Nat) : Input :=
  let y := { x with lastEdge := some cycle }
  match x.lastHit with
  | some (h, code) => if h = cycle then { y with hits := tmod 0 x.hits code (· - 1), hitCount := x.hitCount - 1, lastHit := none } else y
  | none => y

/-- An accepted edge (R75, R95, R101). The decrement of a whole microsecond in its core cycle comes first. Where the pressure
floor and the rate name the same n, the cause is RATE (log entry 51). -/
def State.acceptEdge (s : State) (n : Nat) (a : Accepted) : State :=
  let cycle := s.boundaryTo s.devTime
  let s0 := (((s.thinDecay ((cycle + 511) / usQ)).noteCut n a.stamp).modInput n (·.dropHit cycle)).bump (Reg.CAP_CNT_IN n) 0 48
  let x := s0.input n
  let due := decide (s.thinN n ≤ x.since + 1)
  if due && 0 < x.bucket then
    let s1 := s0.setInput n { x with bucket := x.bucket - 1, since := 0, refillAt := if x.bucket = 64 then s.now else x.refillAt }
    -- no delta exceeds the reach of three continuations: an idle anchor comes first (R104, R106)
    let s2 := if x.lastTime + 2 ^ 52 ≤ a.stamp then s1.anchorGroup n s1.devTime [] none else s1
    s2.stampEdge n a
  else
    let cause := s.pressed n && decide (2 ^ x.rate < 2 ^ s.fld (Reg.CAP_CTRL n) 2 4)
    let raise := due && decide (x.rate < 16) &&
      (match x.lastRaise with | some t => decide (t + 1024 * 512 ≤ s.now) | none => true)
    ((s0.setInput n { x with held := x.held + 1, heldRise := x.heldRise + b2n a.rising, since := x.since + 1
                             heldPressure := x.heldPressure || cause
                             rate := if raise then x.rate + 1 else x.rate
                             lastRaise := if raise then some s.now else x.lastRaise }).noteLate n a).bump (Reg.CAP_CNT_THIN n) 0 48

/-- Hits below and on a code, out of 2^20: of the last complete calibration window, or of the fused table before the first (R97,
R98). -/
def Input.hitsTo (x : Input) (code : Nat) : Nat × Nat :=
  let h (k : Nat) : Nat := if x.calOk then tget 0 x.codes k else tget 2048 x.fused.codes k
  ((List.range code).foldl (fun a k => a + h k) 0, h code)

/-- The calibrated position of a vernier code (R98): the widths below it plus half its own, rounded down to a whole Q (log entry
5). -/
def Input.position (x : Input) (code : Nat) : Nat :=
  let (below, own) := x.hitsTo code
  (2 * below + own) / 2 ^ 12

/-- The trim of a direction (R95). -/
def State.trim (s : State) (n : Nat) (rising : Bool) : Int := sx 16 (s.fld (Reg.CAP_SKEW n) (if rising then 0 else 16) 16)

/-- The stamp of an edge that the vernier places with a code in the present core cycle (R95). -/
def State.stampOf (s : State) (n : Nat) (rising : Bool) (code : Nat) : Nat :=
  let x := s.input n
  ((s.boundaryTo s.devTime : Nat) + (x.position code : Nat) - (if rising then x.fused.rise else x.fused.fall : Nat) - x.fused.skew
    - s.trim n rising).toNat

/-- No edge of the present core cycle, or of a later one, is stamped below this. -/
def State.stampFloor (s : State) (n : Nat) : Nat := min (s.stampOf n true 0) (s.stampOf n false 0)

/-- Two crossings merge (R74): the last head's ZONE fragment and item take the final zone, with skip. -/
def amendZone (z : Zone) (st : Nat) (frags : List Fragment) (items : List Item) : List Fragment × List Item :=
  match frags.reverse, items.reverse with
  | f :: fs, i :: is =>
    if i.kind == .edge && i.stamp == st && f.toNat / 2 ^ 11 == 24 then
      ((ctlFrag 0 0 (z.code + 4) :: fs).reverse, ({ i with zone := z, skip := true } :: is).reverse)
    else (frags, items)
  | _, _ => (frags, items)

/-- Amends the zone of the head last written, in the open word or in the word closed last. -/
def Input.amendLast (x : Input) (z : Zone) (st : Nat) : Input :=
  if x.openFrags = [] then
    match x.fifo.reverse with
    | w :: ws =>
      let (f, i) := amendZone z st w.frags w.items
      { x with fifo := ({ w with frags := f, items := i } :: ws).reverse }
    | [] => x
  else
    let (f, i) := amendZone z st x.openFrags x.openItems
    { x with openFrags := f, openItems := i }

/-! ### Meanings -/

/-- A calibration hit is histogrammed; it is discarded in the core cycle of an accepted edge (R98). -/
def execCalHit (t : Nat) (n : Fin 256) (code : Fin 512) (s : State) : Host.Outcome State Fault Refusal :=
  atMoment t s fun s =>
    let x := s.input n
    let cycle := s.boundaryTo s.devTime
    if s.tb.st.live && s.bit (Reg.CAP_CTRL n) 0 && x.lastEdge != some cycle && decide (x.hitCount < 2 ^ 20) then
      s.setInput n { x with hits := tmod 0 x.hits code.val (· + 1), hitCount := x.hitCount + 1, lastHit := some (cycle, code.val) }
    else s

/-- The largest code-width error of a window, in 1/256 Q, saturating: the width of code k is h_k / 2^11 Q (R98, R112). -/
def dnlMax (h : Table Nat) : Nat :=
  min 255 ((List.range 512).foldl (fun m k => max m ((((tget 0 h k : Nat) : Int) - 2048).natAbs / 8)) 0)

/-- A calibration window of 2^20 hits is complete: the new table is swapped in (R98). -/
def execCalWindowDone (t : Nat) (n : Fin 256) (s : State) : Host.Outcome State Fault Refusal :=
  atMoment t s fun s =>
    let x := s.input n
    if x.hitCount = 2 ^ 20 then
      let s1 := s.setInput n { x with codes := x.hits, hits := [], hitCount := 0, calOk := true, lastHit := none }
      (s1.bump (Reg.CAP_CAL n) 0 16).setFld (Reg.CAP_CAL n) 16 8 (dnlMax x.hits)
    else s

/-- The oldest fragment of the open word has waited CAP_FLUSH.wait core cycles (R108). -/
def execMailbagFlush (t : Nat) (n : Fin 256) (s : State) : Host.Outcome State Fault Refusal :=
  atMoment t s fun s =>
    let x := s.input n
    if x.openFrags != [] && decide (x.openAt + s.fld (Reg.CAP_FLUSH n) 0 12 * 512 ≤ s.now) &&
        decide (x.fifo.length < 256) then
      s.putInput n { x.closeWord true with flushedAt := some (s.boundaryTo s.devTime) }
    else s

/-- The pending OVFL count is written once a slot is free (R110). -/
def execOvflWrite (t : Nat) (n : Fin 256) (s : State) : Host.Outcome State Fault Refusal :=
  atMoment t s fun s =>
    let x := s.input n
    let fs := (Mark.ovfl x.ovfl).encode
    if x.ovfl != 0 && decide ((fs.length : Int) ≤ x.ovflRoom) then
      s.putGroup n x.ovflWritten none fs
    else s

/-- The idle ANCHOR group: 2^52 Q without a time-bearing fragment (R106). -/
def execIdleAnchor (t : Nat) (n : Fin 256) (s : State) : Host.Outcome State Fault Refusal :=
  atMoment t s fun s =>
    if s.tb.st.live && decide ((s.input n).lastTime + 2 ^ 52 ≤ s.devTime) then s.anchorGroup n s.devTime [] none else s

end Sys2Proof.Machine
end

