-- ==== Sys2Proof/Machine/F64.lean ====
section
/-! DEFINITION. IEEE 754 binary64 as the recipes and statistics use it (R14, R167, R183 to R185, R196, R201): every
operation forms the exact result as a rational and rounds it once, to nearest with ties to even. -/

namespace Sys2Proof.Machine

/-- What a binary64 word says. A finite value is ± m × 2^(e − 1074), so zero and the subnormals have e = 0. -/
inductive F64 where
  | nan
  | inf (neg : Bool)
  | fin (neg : Bool) (m e : Nat)
  deriving DecidableEq, Repr

/-- Reads a word. -/
def f64Of (w : Word) : F64 :=
  let neg := w.getLsbD 63
  let ex := (w.extractLsb' 52 11).toNat
  let fr := (w.extractLsb' 0 52).toNat
  if ex = 2047 then (if fr = 0 then .inf neg else .nan)
  else if ex = 0 then .fin neg fr 0
  else .fin neg (fr + 2 ^ 52) (ex - 1)

/-- The sign bit of a word. -/
def signBit (neg : Bool) : Nat := if neg then 2 ^ 63 else 0

/-- An infinity. -/
def f64Inf (neg : Bool) : Word := BitVec.ofNat 64 (signBit neg + 0x7FF0000000000000)

/-- A NaN made by an operation on `a` and `b`; its payload is open (log entry 11). -/
def f64Nan (a b : Word) : Word := BitVec.ofNat 64 (0x7FF8000000000000 + (Config.nanBits a b).toNat)

/-- The quiet NaN of R201. -/
def quietNan : Word := 0x7FF8000000000000

/-- n / d rounded to nearest, ties to even, for integers (d > 0). -/
def rne (n d : Nat) : Nat :=
  let q := n / d
  let r := n % d
  if 2 * r > d || (2 * r == d && q % 2 == 1) then q + 1 else q

/-- ± n / d × 2^-1074 × 2^s as a binary64, rounded to nearest even; d > 0. -/
def f64Round (neg : Bool) (n d s : Nat) : Word :=
  if n = 0 then BitVec.ofNat 64 (signBit neg)
  else
    -- the magnitude in units of 2^-1074 is x = n × 2^s / d; e is floor(log2 x)
    let x := n * 2 ^ s
    let e0 := Nat.log2 x - Nat.log2 d
    let e := if d * 2 ^ e0 ≤ x then e0 else e0 - 1
    -- one unit in the last place is 2^(e − 52), or 1 among the subnormals
    let u := e - 52
    let q := rne x (d * 2 ^ u)
    let bits := u * 2 ^ 52 + q
    if 0x7FF0000000000000 ≤ bits then f64Inf neg else BitVec.ofNat 64 (signBit neg + bits)

/-- A signed integer × 2^-f as a binary64 (R167). -/
def f64OfFixed (v : Int) (f : Int) : Word :=
  -- in units of 2^-1074 the magnitude is |v| × 2^(1074 − f)
  let s := 1074 - f
  if 0 ≤ s then f64Round (decide (v < 0)) v.natAbs 1 s.toNat
  else f64Round (decide (v < 0)) v.natAbs (2 ^ (-s).toNat) 0

/-- An integer as a binary64. -/
def f64OfInt (v : Int) : Word := f64OfFixed v 0

/-- The value of a finite word in units of 2^-1074. -/
def f64Units (neg : Bool) (m e : Nat) : Int := (if neg then -1 else 1) * (m * 2 ^ e : Nat)

/-- Whether a word is finite. -/
def f64Finite (w : Word) : Bool :=
  match f64Of w with
  | .fin .. => true
  | _ => false

/-- x + y. -/
def f64Add (a b : Word) : Word :=
  match f64Of a, f64Of b with
  | .nan, _ => f64Nan a b
  | _, .nan => f64Nan a b
  | .inf p, .inf q => if p = q then f64Inf p else f64Nan a b
  | .inf p, _ => f64Inf p
  | _, .inf q => f64Inf q
  | .fin p m e, .fin q n g =>
    let z := f64Units p m e + f64Units q n g
    if z = 0 then BitVec.ofNat 64 (signBit (p && q)) else f64Round (decide (z < 0)) z.natAbs 1 0

/-- −x. -/
def f64Neg (a : Word) : Word := a ^^^ 0x8000000000000000

/-- x − y. -/
def f64Sub (a b : Word) : Word := f64Add a (f64Neg b)

/-- x × y. -/
def f64Mul (a b : Word) : Word :=
  let zero (m : Nat) := m = 0
  match f64Of a, f64Of b with
  | .nan, _ => f64Nan a b
  | _, .nan => f64Nan a b
  | .inf p, .inf q => f64Inf (p != q)
  | .inf p, .fin q n _ => if zero n then f64Nan a b else f64Inf (p != q)
  | .fin p m _, .inf q => if zero m then f64Nan a b else f64Inf (p != q)
  | .fin p m e, .fin q n g => f64Round (p != q) (m * n) (2 ^ 1074) (e + g)

/-- x ÷ y. -/
def f64Div (a b : Word) : Word :=
  match f64Of a, f64Of b with
  | .nan, _ => f64Nan a b
  | _, .nan => f64Nan a b
  | .inf _, .inf _ => f64Nan a b
  | .inf p, .fin q _ _ => f64Inf (p != q)
  | .fin p _ _, .inf q => BitVec.ofNat 64 (signBit (p != q))
  | .fin p m e, .fin q n g =>
    if n = 0 then (if m = 0 then f64Nan a b else f64Inf (p != q))
    else f64Round (p != q) (m * 2 ^ 1074) (n * 2 ^ g) e

/-- floor(√n), one binary digit a step. -/
def isqrtGo : Nat → Nat → Nat → Nat
  | 0, r, _ => r
  | k + 1, r, n => if (r + 2 ^ k) * (r + 2 ^ k) ≤ n then isqrtGo k (r + 2 ^ k) n else isqrtGo k r n

/-- floor(√n). -/
def isqrt (n : Nat) : Nat := isqrtGo (Nat.log2 n / 2 + 1) 0 n

/-- √x. With x = m × 2^(e − 1074), the root in units of 2^-1074 is √(m × 2^(e + 1074)); 2 × its floor, plus 1 when it is not
exact, rounds as the root itself does. -/
def f64Sqrt (a : Word) : Word :=
  match f64Of a with
  | .nan => f64Nan a a
  | .inf neg => if neg then f64Nan a a else f64Inf false
  | .fin neg m e =>
    if m = 0 then a
    else if neg then f64Nan a a
    else
      let z := m * 2 ^ (e + 1074)
      let r := isqrt z
      f64Round false (2 * r + (if r * r = z then 0 else 1)) 2 0

/-- −1, 0 or 1 as x is below, equal to or above y, for finite words and infinities. -/
def f64Cmp (a b : Word) : Int :=
  let key (w : Word) : Int :=
    match f64Of w with
    | .nan => 0
    | .inf p => if p then -(2 ^ 2200) else 2 ^ 2200
    | .fin p m e => f64Units p m e
  if key a < key b then -1 else if key a = key b then 0 else 1

/-- x ≤ y. -/
def f64Le (a b : Word) : Bool := decide (f64Cmp a b ≤ 0)

/-- round(v × 2^k) to an integer, ties away from zero, for finite words (R199, R204); 0 for the others, which never reach it
(R168). -/
def f64Scale (w : Word) (k : Int) : Int :=
  match f64Of w with
  | .fin p m e =>
    let s : Int := (e : Int) + k - 1074
    let mag := if 0 ≤ s then m * 2 ^ s.toNat else (2 * m + 2 ^ (-s).toNat) / (2 * 2 ^ (-s).toNat)
    if p then -(mag : Int) else mag
  | _ => 0

end Sys2Proof.Machine
end

