-- ==== Sys2Proof/Machine/FrontEnd.lean ====
section
/-! DEFINITION. The input front ends (03): comparators and zones, blanking, alarms, sampled operation, and the effects of
the far FE writes. Voltages are in µV at the ball, positive leg minus negative leg. -/

namespace Sys2Proof.Machine

/-! ### Comparators (R69 to R72, R76, R83) -/

/-- FE_CTRL in effect: its bits. -/
def State.feBit (s : State) (n i : Nat) : Bool := (s.farReg (Reg.FE_CTRL n)).getLsbD i

/-- An input is enabled. -/
def State.feOn (s : State) (n : Nat) : Bool := s.feBit n 0

/-- The voltage the comparators see: the tied level in place of the pin, inverted by swap (R83). -/
def State.feVolt (s : State) (n : Nat) (v : Int) : Int :=
  let x := if s.feBit n 8 then 2350 * sx 10 (s.farFld (Reg.FE_TIE n) 0 10) else v
  if s.feBit n 7 then -x else x

/-- THR_LO and THR_HI: the lower and the higher of the two codes (R69, R70). -/
def State.feThr (s : State) (n : Nat) : Int × Int :=
  let h := 2350 * sx 10 (s.farFld (Reg.FE_THR n) 0 10)
  let l := 2350 * sx 10 (s.farFld (Reg.FE_THR n) 16 10)
  (min h l, max h l)

/-- A comparator at threshold `thr` with half its auxiliary hysteresis `h2` (R72). -/
def comparator (above : Bool) (v thr h2 : Int) : Bool := if thr + h2 < v then true else if v < thr - h2 then false else above

/-- The zone of two WINDOW comparators. -/
def windowZone (lo hi : Bool) : Zone := if hi then .high else if lo then .mid else .low

/-- What the comparators of an input decide: the zone, and the outputs of the two WINDOW comparators. -/
structure Decided where
  zone : Zone
  lo : Bool
  hi : Bool
  deriving DecidableEq, Repr

/-- What an input's comparators decided last. -/
def Input.decided (x : Input) : Decided := { zone := x.zone, lo := x.aboveLo, hi := x.aboveHi }

/-- An input whose comparators have decided. -/
def Input.take (x : Input) (d : Decided) : Input := { x with zone := d.zone, aboveLo := d.lo, aboveHi := d.hi }

/-- What the settled comparators decide at a voltage: the new zone, or the zone kept (R71, R72, R76). -/
def State.feDecide (s : State) (n : Nat) (pin : Int) : Decided :=
  let x := (s.input n).decided
  let v := s.feVolt n pin
  let (lo, hi) := s.feThr n
  if s.feBit n 1 then
    let h2 := 1175 * (s.farFld (Reg.FE_CTRL n) 4 3 : Nat)
    let outside := (decide (lo + h2 < v) || decide (v < lo - h2)) && (decide (hi + h2 < v) || decide (v < hi - h2))
    if x.zone == .unresolved && !outside then x
    else
      let a := comparator x.lo v lo h2
      let b := comparator x.hi v hi h2
      { zone := windowZone a b, lo := a, hi := b }
  else if hi < v then { x with zone := .high }
  else if v < lo then { x with zone := .low }
  else x

/-! ### Alarms (R89, R90) -/

/-- A zone lies in the alarm set; MID has no effect in HYST mode, where no zone is MID (R89). -/
def State.inZones (s : State) (n : Nat) : Zone → Bool
  | .low => s.bit (Reg.FE_ALARM n) 0
  | .mid => s.bit (Reg.FE_ALARM n) 1
  | .high => s.bit (Reg.FE_ALARM n) 2
  | .unresolved => false

/-- Tests a zone against FE_ALARM: entry into the set gives one ALARM record, at the device time `time`, with the flags of a
value measured then (R40). -/
def State.alarmTest (s : State) (n : Nat) (z : Zone) (time : Nat) : State :=
  let inSet := s.bit (Reg.FE_ALARM n) 3 && s.inZones n z
  let x := s.input n
  let s1 := s.setInput n { x with inAlarm := inSet }
  if inSet && !x.inAlarm then
    let s2 := s1.push (s.fld (Reg.FE_ALARM n) 8 6) 0 none
      { type := 5, aux := n, time := time, code := 1, spec0 := z.code, flags := s.timeFlags [time] }
    if s.bit (Reg.FE_ALARM n) 4 && s.pwr.st == .run then s2.wakeCause 3 else s2
  else s1

/-- The alarm test of a crossing into MID, once it can merge no more (R74, R89; log entry 52). -/
def State.alarmFlush (s : State) (n : Nat) : State :=
  match (s.input n).alarmDue with
  | some (z, time) => (s.modInput n fun x => { x with alarmDue := none }).alarmTest n z time
  | none => s

/-- A second crossing may still merge with the last one: it would be stamped within 400 ps of it, and a stamp lies within one core
cycle of the moment it is for. -/
def State.mayMerge (s : State) (n : Nat) : Bool :=
  match (s.input n).cross with | some c => decide (s.devTime < c.seen + 1536) | none => false

/-- The alarm test that time has made due. -/
def State.alarmSettle (s : State) (n : Nat) : State := if s.mayMerge n then s else s.alarmFlush n

/-! ### Blanking (R78 to R82) -/

/-- A trigger at device time `tg` opens a window of the input, or extends the one that is open (R78, R80). -/
def State.blankTrigger (s : State) (n tg : Nat) : State :=
  let w := 512 * s.fld (Reg.FE_BLANK n) 0 16
  let start := tg + 512 * s.fld (Reg.FE_BLANK n) 16 16
  if w = 0 then s
  else s.modInput n fun x => { x with windows := match x.windows.reverse with
    | (a, b) :: r => if tg < b then ((a, max b (start + w)) :: r).reverse else x.windows ++ [(start, start + w)]
    | [] => [(start, start + w)] }

/-- A stamp lies in a blanking window (R79). -/
def Input.blanks (x : Input) (st : Nat) : Bool := x.windows.any fun w => decide (w.1 ≤ st) && decide (st < w.2)

/-- The transition from one resolved zone to another: direction, and whether it spans two zones in WINDOW mode (R74). -/
def State.edgeOf (s : State) (n : Nat) (old new : Zone) (stamp : Nat) (r : Resync) : Accepted :=
  { rising := decide (old.code < new.code), stamp := stamp, resync := r
    zone := if s.feBit n 1 then some new else none
    skip := s.feBit n 1 && (old == .low && new == .high || old == .high && new == .low) }

/-- Passes an accepted edge to capture. -/
def State.passEdge (s : State) (n : Nat) (old new : Zone) (stamp : Nat) (r : Resync) : State :=
  (s.acceptEdge n (s.edgeOf n old new stamp r)).modInput n fun x => { x with accepted := new }

/-- The windows that have ended at or before `time` close, oldest first: each with one transition to the present zone when it
differs from the last accepted one, stamped at the window's end (R82). -/
def State.closeWindows : Nat → State → Nat → Nat → State
  | 0, s, _, _ => s
  | k + 1, s, n, time =>
    let x := s.input n
    match x.windows with
    | (_, e) :: r =>
      if e ≤ time then
        let s1 := (s.setInput n { x with windows := r, cross := none }).alarmFlush n
        let s2 := if s.tb.st.live && x.zone != .unresolved && x.accepted != .unresolved && x.zone != x.accepted then
            (s1.passEdge n x.accepted x.zone e .blankEnd).alarmTest n x.zone e
          else s1
        State.closeWindows k s2 n time
      else s
    | [] => s

/-- Closes every window of an input that has ended by `time`. -/
def State.endWindows (s : State) (n time : Nat) : State := State.closeWindows ((s.input n).windows.length) s n time

/-! ### Transitions (R73 to R75, R79, R99) -/

/-- The zone is established: no edge (R76). -/
def State.feEstablish (s : State) (n : Nat) (d : Decided) : State :=
  let s1 := s.modInput n fun x => { x.take d with accepted := d.zone, cross := none, known := noteKnown x.known s.devTime true }
  let s2 := if s1.tb.st.live then s1.captureEst n d.zone else s1
  s2.alarmTest n d.zone s2.devTime

/-- The crossing with which a second one merges: into MID, in the same direction, less than 400 ps before it (R74). -/
def mergesWith (x : Input) (rising : Bool) (stamp : Nat) : Option Crossing :=
  match x.cross with
  | some c => if x.zone == .mid && c.rising == rising && decide (stamp ≤ c.stamp + 491) then some c else none
  | none => none

/-- The transition that a comparator decision makes at stamp `st`, while a line is live: merged with the crossing before it, or
blanked, or passed on. -/
def State.feTransit (s : State) (n : Nat) (d : Decided) (st : Nat) (r : Resync) : State :=
  let x := s.input n
  let rising := decide (x.zone.code < d.zone.code)
  match mergesWith x rising st with
  | some c =>
    let y : Input := { x.take d with cross := none }
    -- a blanked first crossing takes the second with it: one blanked transition
    if c.passed then
      (s.setInput n { (match c.head with | some h => y.amendLast d.zone h | none => y) with
        accepted := d.zone, alarmDue := some (d.zone, c.stamp) }).alarmFlush n
    else s.setInput n y
  | none =>
    let s0 := s.alarmFlush n
    let blanked := x.blanks st
    let s1 := s0.modInput n fun y => { y.take d with cross := none }
    let s2 := if blanked then s1.bump (Reg.FE_BLANKED n) 0 32 else s1.passEdge n x.zone d.zone st r
    let y := s2.input n
    let s3 := if s.feBit n 1 && d.zone == .mid && r == .none then
        s2.setInput n { y with
          cross := some { stamp := st, rising := rising, passed := !blanked, seen := s.devTime
                          head := if !blanked && y.held = 0 && y.ovfl = 0 then some y.lastTime else none }
          alarmDue := if blanked then y.alarmDue else some (d.zone, st) }
      else if blanked then s2 else s2.alarmTest n d.zone st
    if !blanked && s.fld (Reg.FE_BLANK_SRC n) 0 3 = 1 then s3.blankTrigger n st else s3

/-- The comparators of an input have decided at stamp `st`: the windows that have ended come first. -/
def State.feCross (s : State) (n : Nat) (d : Decided) (st : Nat) (r : Resync) : State :=
  let s1 := s.endWindows n st
  if d.zone == (s1.input n).zone then s1.modInput n (·.take d) else s1.feTransit n d st r

/-- The comparators decide at pin voltage `v`; `stamp` gives the stamp of a transition in each direction, `r` tells sampled
operation. -/
def State.feInput (s : State) (n : Nat) (v : Int) (stamp : Bool → Nat) (r : Resync) : State :=
  let x := s.input n
  let d := s.feDecide n v
  if x.zone == .unresolved then (if d.zone == .unresolved then s else s.feEstablish n d)
  else if !s.tb.st.live then s.setInput n (x.take d)
  else s.feCross n d (stamp (decide (x.zone.code < d.zone.code))) r

/-- The front end has power: from t_cut of an Endgame on, that of an input bound to a guarded channel alone, until t_k
(R395). -/
def State.fePowered (s : State) (n : Nat) : Bool :=
  match s.pst.endgame with
  | none => true
  | some e => decide (s.devTime < e.tCut) ||
      (e.tK.isNone && s.chans.any fun x => x.2.decl.guarded && (x.2.decl.srcA == .local n || x.2.decl.srcB == .local n))

/-- The input's voltage has moved to `x.volt`; the vernier places the moment in its core cycle with `x.code`. -/
def execInputTransition (t : Nat) (n : Fin 256) (x : InputLevel) (s : State) : Host.Outcome State Fault Refusal :=
  atMoment t s fun s =>
    if s.fePowered n && s.feOn n && !(s.input n).settling && !s.feBit n 3 then s.feInput n x.volt (s.stampOf n · x.code.val) .none else s

/-- 1 µs after a change of R76 the front end classifies V; in sampled operation it does so at the next sample. -/
def execZoneSettle (t : Nat) (n : Fin 256) (v : Int) (s : State) : Host.Outcome State Fault Refusal :=
  atMoment t s fun s =>
    if s.fePowered n && s.feOn n && (s.input n).settling then
      let s1 := s.modInput n fun x => { x with settling := false }
      if s1.feBit n 3 then s1 else s1.feInput n v (s1.stampOf n · 0) .none
    else s

/-- A BLANK_TRIG pin's edge is registered: every input that selects the pin and this edge is triggered (R78, R81). -/
def execBlankTrigEdge (t : Nat) (pin : Fin 4) (rising : Bool) (s : State) : Host.Outcome State Fault Refusal :=
  atMoment t s fun s =>
    let b : BitVec 4 := 1#4 <<< pin.val
    let s1 := { s with trig := if rising then s.trig ||| b else s.trig &&& ~~~b }
    if !s1.tb.st.live then s1
    else (List.range 256).foldl (fun s n =>
      if s.fld (Reg.FE_BLANK_SRC n) 0 3 = pin.val + 2 && s.bit (Reg.FE_BLANK_SRC n) 3 != rising then
        s.blankTrigger n (s.boundaryTo s.devTime)
      else s) s1

/-- A blanking window ends: it closes once no transition can be stamped inside it any more (R79, R82). -/
def execBlankWindowEnd (t : Nat) (n : Fin 256) (s : State) : Host.Outcome State Fault Refusal :=
  atMoment t s fun s => (s.alarmSettle n).endWindows n (s.stampFloor n)

/-- A sample instant of sampled operation, a whole multiple of P, decides the zone once (R86). -/
def execFeSample (t : Nat) (n : Fin 256) (v : Int) (s : State) : Host.Outcome State Fault Refusal :=
  atMoment t s fun s =>
    let p := 131072 * s.farFld (Reg.FE_SAMP n) 0 16
    let at_ := s.devTime / p * p
    if s.tb.st.live && s.fePowered n && s.feOn n && s.feBit n 3 && !(s.input n).settling && p != 0 &&
        (s.input n).lastSample != some at_ then
      (s.modInput n fun x => { x with lastSample := some at_ }).feInput n v (fun _ => at_) .sampled
    else s

/-- FE_ALARM has been written: the present zone is re-evaluated at once (R93). -/
def State.feAlarmWritten (s : State) (n : Nat) : State :=
  let s1 := s.modInput n fun x => { x with alarmDue := none }
  s1.alarmTest n (s1.input n).zone s1.devTime

/-! ### Tokens and rates (R100, R101) -/

/-- One token every 50 ns while below 64 (R100). -/
def execBucketRefill (t : Nat) (n : Fin 256) (s : State) : Host.Outcome State Fault Refusal :=
  atMoment t s fun s =>
    let x := s.input n
    if s.tb.st.live && decide (x.bucket < 64) && decide (x.refillAt + 61440 ≤ s.now) then
      (s.setInput n { x with bucket := x.bucket + 1, refillAt := x.refillAt + 61440 }).alarmSettle n
    else s.alarmSettle n

/-- At a whole microsecond of device time the rate falls on every input whose bucket is full (R101). -/
def execThinRateDecay (t : Nat) (s : State) : Host.Outcome State Fault Refusal :=
  atMoment t s fun s =>
    if s.tb.st.live then (tkeys s.inputs).foldl State.alarmSettle (s.thinDecay (s.devTime / usQ)) else s

/-! ### Far writes (R76, R77, R91) -/

/-- A source of a declaration is input n. -/
def Decl.uses (d : Decl) (n : Nat) : Bool := d.srcA == .local n || d.srcB == .local n || d.srcX == .local n

/-- The next record of every channel bound to the input carries CFGCHG; with `span`, so does every record computed from an
edge of the input stamped within 40 ns of the boundary (R91, R112). -/
def State.cfgInput (s : State) (n : Nat) (span : Bool) : State :=
  { s with chans := tmap {} s.chans fun c =>
      if c.st != .vacant && c.decl.uses n then
        { c with cfg := true, cfgSpan := if span then (n, s.nextCycle, s.nextCycle + 49152) :: c.cfgSpan else c.cfgSpan }
      else c }

/-- A far write may move what a tied input sees, or its thresholds: the comparators decide anew, and every crossing is a
transition at a free time within 40 ns of the boundary, two of them where the move spans two zones (R84, R92; log entry 53). -/
def State.feMove (s : State) (n : Nat) : State :=
  if s.feOn n && s.feBit n 8 && !s.feBit n 3 && !(s.input n).settling && s.fePowered n then
    let (u, s1) := s.free
    let (v, s2) := s1.free
    let x := s2.input n
    let d := s2.feDecide n 0
    let rising := decide (x.zone.code < d.zone.code)
    let at_ (k : Nat) : Nat := (((s2.nextCycle + k % 49152 : Nat) : Int) - s2.trim n rising).toNat
    if s2.feBit n 1 && (x.zone == .low && d.zone == .high || x.zone == .high && d.zone == .low) then
      let mid : Decided := { zone := .mid, lo := true, hi := false }
      if s2.tb.st.live then
        (s2.feCross n mid (min (at_ u.toNat) (at_ v.toNat)) .none).feCross n d (max (at_ u.toNat) (at_ v.toNat)) .none
      else s2.setInput n (x.take d)
    else s2.feInput n 0 (fun _ => at_ u.toNat) .none
  else s

/-- A far FE register of input n has taken effect, FE_CTRL going from `old` to its present value (R76, R77, R91). -/
def State.feApplied (s : State) (n : Nat) (old : Word) : State :=
  let new := s.farReg (Reg.FE_CTRL n)
  let ch (i : Nat) := old.getLsbD i != new.getLsbD i
  let s1 :=
    if !new.getLsbD 0 then
      (s.alarmFlush n).modInput n fun x =>
        { x with zone := .unresolved, accepted := .unresolved, settling := false, cross := none
                 known := noteKnown x.known s.nextCycle false
                 inAlarm := false, aboveLo := false, aboveHi := false }
    else if ch 0 || ch 1 || ch 7 || ch 8 then
      (s.alarmFlush n).modInput n fun x =>
        { x with zone := .unresolved, accepted := .unresolved, settling := true, cross := none
                 known := noteKnown x.known s.nextCycle false
                 inAlarm := false, aboveLo := false, aboveHi := false }
    else s
  let s2 := if s1.tb.st.live then s1.captureCfg n false else s1
  (s2.cfgInput n true).feMove n

/-- Capture starts at the first live core cycle (R99, R100): buckets are full; every enabled input has its ANCHOR, and its
zone where it is established. -/
def State.captureStart (s : State) : State :=
  let s0 : State := { s with decayed := s.devTime / usQ }
  let s1 := (tkeys s0.inputs).foldl (fun s n => s.modInput n fun x => { x with bucket := 64 }) s0
  (List.range 256).foldl (fun s n =>
    if s.feOn n then
      let z := (s.input n).zone
      if z == .unresolved then s.anchorGroup n s.devTime [] none
      else ((s.modInput n fun x => { x with accepted := z, cross := none }).captureEst n z).alarmTest n z s.devTime
    else s) s1

end Sys2Proof.Machine
end

