-- ==== Sys2Proof/Machine/TimeBase.lean ====
section
/-! DEFINITION. The time base (02): states and their TIME records, qualification of the references, acquisition, handover,
holdover, the return to the reference, TOD_IN, and the meanings of the time base's rows. -/

namespace Sys2Proof.Machine

/-- A reference's number as a fault parameter. -/
def refNum : Ref → Nat
  | .refA => 0
  | .refB => 1

def Tb.ref (b : Tb) : Ref → RefState
  | .refA => b.refA
  | .refB => b.refB

def Tb.setRef (b : Tb) (r : Ref) (x : RefState) : Tb :=
  match r with
  | .refA => { b with refA := x }
  | .refB => { b with refB := x }

/-- The selected reference (TB_CTRL.ref_sel). -/
def State.selRef (s : State) : Ref := if s.bit Reg.TB_CTRL 0 then .refB else .refA

def State.setTb (s : State) (b : Tb) : State := { s with tb := b }
def State.modTb (s : State) (f : Tb → Tb) : State := { s with tb := f s.tb }

/-! ### State changes (R39, R40, R515) -/

/-- The middle of a bin of the drift table, in 0.125 °C: 64 bins of 2.5 °C from −40 °C (R50). -/
def binMid (k : Nat) : Int := 20 * (k : Int) - 310

/-- The control word at a temperature, interpolated between the nearest learned bins below and above it, rounded down; the
nearest bin's word outside them (R51; log entry 45). -/
def steerWord (drift : Table Dword) (temp : Int) : Option Dword :=
  let below := (drift.filter fun x => decide (binMid x.1 ≤ temp)).getLast?
  let above := drift.find? fun x => decide (temp < binMid x.1)
  match below, above with
  | some (k, w), some (l, v) =>
    let d : Int := ((v.toNat : Int) - w.toNat) * (temp - binMid k) / (binMid l - binMid k)
    some (BitVec.ofInt 32 (w.toNat + d))
  | some (_, w), none => some w
  | none, some (_, v) => some v
  | none, none => none

/-- Enters a state: the log of R40, the TIME record of R515, vector 65 (R39), at the start of a holdover u := u0 (R52) and the
control word that steers the line from here on (R48 step 2, R51). -/
def State.tbEnter (s : State) (st : TbState) (reason : Nat) (value : Int) : State :=
  let start := st.holds && !s.tb.st.holds
  let b := { s.tb with st := st, log := (s.devTime, st) :: s.tb.log
                       steered := if st.holds then steerWord s.tb.drift s.tb.temp else none }
  let b1 := if start then { b with hold := s.tb.u0 * 100000000, holdLog := (s.devTime, s.tb.u0 * 100000000) :: b.holdLog } else b
  let s1 := (s.setTb b1).timeRecord reason value
  if s1.bit Reg.TB_CTRL 4 then s1.event 65 else s1

/-! ### Dividers (R33, R48, R49) -/

/-- A divider set matches a row of R33. -/
def divOk (num den : Nat) (frac : Bool) : Bool :=
  if frac then decide (1 ≤ num ∧ 1 ≤ den ∧ 12 * den ≤ num ∧ num ≤ 480 * den ∧
    -- 5 MHz to 200 MHz: the reference is 2.4 GHz × den / num
    5000000 * num ≤ 2400000000 * den ∧ 2400000000 * den ≤ 200000000 * num)
  else den == 1 && (num == 240 || num == 96 || num == 24)

/-- The pending dividers of a reference: num, den, frac. -/
def State.pendingDiv (s : State) : Ref → Nat × Nat × Bool
  | .refA => (s.fld Reg.TB_REFA_NUM 0 32, s.fld Reg.TB_REFA_DEN 0 31, s.bit Reg.TB_REFA_DEN 31)
  | .refB => (s.fld Reg.TB_REFB_NUM 0 32, s.fld Reg.TB_REFB_DEN 0 31, s.bit Reg.TB_REFB_DEN 31)

/-- Takes the pending dividers of both references; a set that matches no row leaves those in use unchanged, with
TB_DIV_RANGE (R33). Answers whether they were taken. -/
def State.takeDividers (s : State) : Bool × State :=
  let (na, da, fa) := s.pendingDiv .refA
  let (nb, db, fb) := s.pendingDiv .refB
  let s0 := s.modTb fun b => { b with applyPend := false }
  if divOk na da fa && divOk nb db fb then
    (true, s0.modTb fun b => { b with refA := { b.refA with num := na, den := da, frac := fa },
                                      refB := { b.refB with num := nb, den := db, frac := fb } })
  else (false, s0.raise .tbDivRange 0)

/-! ### Acquisition (R34, R36 to R38) -/

/-- The dither register loaded at a band search: the seed, or 1 for a seed of zero; off in integer mode (R34). -/
def State.loadDither (s : State) : State :=
  let seed := s.fld Reg.TB_DITHER_SEED 0 24
  let v := BitVec.ofNat 24 (if seed = 0 then 1 else seed)
  if (s.tb.ref s.tb.acqRef).frac then
    -- the shadow line is the one that is not live
    s.modTb fun b => if b.line then { b with mod0 := { lfsr := v } } else { b with mod1 := { lfsr := v } }
  else s

/-- One reference cycle of a line in fractional mode: the dither register steps by x^24 + x^23 + x^22 + x^17 + 1, the fraction
advances, and the second-order modulator chooses the code, its quantisation error shaped by (1 − z^-1)^2 (R34; log entry
46). -/
def Modulator.cycle (m : Modulator) (num den : Nat) : Modulator :=
  let bit := m.lfsr.getLsbD 23 ^^ m.lfsr.getLsbD 22 ^^ m.lfsr.getLsbD 21 ^^ m.lfsr.getLsbD 16
  let frac := (m.frac + num) % den
  let v : Int := 512 * (frac : Int) + (if m.lfsr.getLsbD 0 then (den : Int) else 0) - 2 * m.e1 + m.e2
  let code := v / (den : Int)
  { lfsr := (m.lfsr <<< 1) ||| (if bit then 1 else 0), frac := frac, e1 := code * den - v, e2 := m.e1, code := code }

/-- An edge of reference `r` on the live line or on the shadow line steps that line's modulator (R34). -/
def State.ditherEdge (s : State) (r : Ref) (live : Bool) : State :=
  let x := s.tb.ref r
  if x.frac then
    s.modTb fun b => if b.line == live then { b with mod1 := b.mod1.cycle x.num x.den } else { b with mod0 := b.mod0.cycle x.num x.den }
  else s

/-- The shadow line begins a band search on a reference; a held apply is taken first (R49). Without a live line the time
base shows SEARCHING. -/
def State.beginSearch (s : State) (r : Ref) : State :=
  let s1 := if s.tb.applyPend && s.tb.st != .handover then s.takeDividers.2 else s
  let s2 := ((s1.modTb fun b => { b with shadow := .searching, acqRef := r, lockCount := 0, ret := .none }).loadDither).start .search
  if s2.tb.st == .stopped || s2.tb.st == .acquiring then s2.tbEnter .searching 12 0 else s2

/-- The reference in use: the live line's, or the one being acquired while no line is live. -/
def Tb.inUse (b : Tb) : Ref := if b.st.live then b.liveRef else b.acqRef

/-- The reference the hub may acquire: the selected one when it is qualified, while a selection waits the one in use (R60),
else REFB for REFA under auto_switch (R59). -/
def State.acqTarget (s : State) : Option Ref :=
  let sel := s.selRef
  if (s.tb.ref sel).ok then some sel
  else if s.tb.selPending && (s.tb.ref s.tb.inUse).ok then some s.tb.inUse
  else if sel == .refA && s.bit Reg.TB_CTRL 1 && s.tb.refB.ok then some .refB
  else none

/-- The time base has its wake tokens: it searches as soon as a reference is qualified (R39). -/
def State.tbStart (s : State) : State :=
  let s1 := s.modTb fun b => { b with granted := true, started := s.now }
  match s1.acqTarget with
  | some r => s1.beginSearch r
  | none => s1

/-- The governor leaves RUN: the time base stops (R39); its next start loads D0 anew (R63). -/
def State.tbStop (s : State) : State :=
  if s.tb.st == .stopped then s.modTb fun b => { b with granted := false, d0 := none, aligned := false }
  else
    (s.tbEnter .stopped 14 0).modTb fun b =>
      { b with granted := false, d0 := none, aligned := false, shadow := .idle, ret := .none, slewRemain := 0,
               handoverOf := none, cold := false, p0 := none, acqFail := 0 }

/-- u0 takes a value from the present device time on (R64, R399). -/
def State.setU0 (s : State) (u : Nat) : State := s.modTb fun b => { b with u0 := u, u0Log := (s.devTime, u) :: b.u0Log }

/-- Aligned: from here on no record carries u0 (R64). -/
def State.setAligned (s : State) : State := (s.setU0 0).modTb fun b => { b with aligned := true, todFirst := false }

/-- The coasting line has been brought back to a reference: with TOD_IN disabled that first lock aligns the hub (R64); a follower
aligns with its parent (R301). `was` is the state before. -/
def State.firstLock (s : State) (was : State) : State :=
  let follower := s.bit Reg.PEER_CTRL 8 && !s.peer.master
  if was.tb.st == .coasting && (s.tb.st == .locked || s.tb.st == .slewing) && !s.tb.aligned && !s.bit Reg.TB_TOD_CTRL 0 && !follower
    then s.setAligned else s

/-- The two lines' edges lie within ±4 Q of one another, so that the roles may be exchanged (R32). -/
def meetsR32 (gap : Int) : Bool := decide (gap.natAbs ≤ 4)

/-- The shadow line becomes live (R31, R32). -/
def Tb.swap (b : Tb) : Tb := { b with line := !b.line, liveRef := b.acqRef, shadow := .idle, lockCount := 0, cold := false }

/-! ### Slews and steps (R46, R56, R57) -/

/-- Begins a slew of `off` Q at the present device time. -/
def State.setSlew (s : State) (off : Int) : State :=
  s.modTb fun b => { b with slewRemain := off, slewTotal := 0, slewT0 := s.devTime, slewN := 0 }

/-- Device time and the coarse counters advance by `k` Q at one boundary, and every grid instant inside the step is issued
(R57). -/
def State.stepForward (s : State) (k : Nat) : State :=
  let lim := min spanMax (s.devTime + k)
  let s1 : State := { s with devTime := lim, tb := { s.tb with forward := (s.devTime, lim) :: s.tb.forward } }
  s1.issueThrough lim

/-- The correction of R56 by slew: LOCKED when nothing is left to slew. -/
def State.correctBySlew (s : State) (off : Int) (reason : Nat) (value : Int) : State :=
  let s1 := s.setSlew off
  if off = 0 then s1.tbEnter .locked reason value else s1.tbEnter .slewing reason value

/-- The forward step of R56, with the remainder below 512 Q slewed. `reason` is RETURN_STEP, or TOD_ALIGN with its own
value. -/
def State.correctByStep (s : State) (off : Int) (reason : Nat) (value : Option Int) : State :=
  let r := off % 512
  let k := off - r
  (s.stepForward k.toNat).correctBySlew r reason (value.getD k)

/-- A return is held (R56, R58): the hub coasts, with TIME RETURN_HELD when the hold begins. -/
def State.holdReturn (s : State) (off : Int) : State :=
  if s.tb.ret == .held then s
  else
    let s1 := s.modTb fun b => { b with ret := .held, todHold := false, shadow := .locked, acqRef := if s.tb.st == .coasting then b.acqRef else b.liveRef }
    if s1.tb.st == .coasting then s1.timeRecord 5 off else s1.tbEnter .coasting 5 off

/-- Correct a measured offset (R56). `same`, `slew`, `step` are the reasons of the three outcomes (R515); with TOD_ALIGN
the record carries the offset. -/
def State.correct (s : State) (off : Int) (same slew step : Nat) : State :=
  let s0 := s.setReg Reg.TB_OFFSET (wordOf off)
  let live (s : State) : State :=
    s.modTb fun b => if b.st == .coasting then { b.swap with ret := .none } else { b with ret := .none }
  if off = 0 then
    if s0.tb.st == .coasting then ((live s0).correctBySlew 0 same 0).firstLock s
    else
      let s1 := live s0
      if same == 9 then s1.timeRecord 9 0 else s1
  else if off < 0 || off ≤ (s.fld Reg.TB_RET_SLEW_MAX 0 48 : Nat) then ((live s0).correctBySlew off slew off).firstLock s
  else if s.bit Reg.TB_RET_POLICY 0 then s0.holdReturn off
  else ((live s0).correctByStep off step (if step == 9 then some off else none)).firstLock s

/-! ### Losing and gaining a reference (R38, R41, R42, R58 to R60) -/

/-- A switch to the selected reference by handover (R48, R60); a slew under way, and the request in TB_SLEW_REQ, are cleared (log
entry 47). -/
def State.switchTo (s : State) (r : Ref) : State :=
  let s1 := s.modTb fun b => { b with slewRemain := 0, ret := .none, handoverOf := some .refSwitch, selPending := false }
  ((s1.setReg Reg.TB_SLEW_REQ 0).tbEnter .handover 15 1).beginSearch r

/-- Acts on the selection of R60, as soon as the selected reference is qualified. -/
def State.actOnSelection (s : State) : State :=
  let r := s.selRef
  if !(s.tb.ref r).ok then s.modTb fun b => { b with selPending := true }
  else
    let s1 := s.modTb fun b => { b with selPending := false }
    match s1.tb.st with
    | .locked | .slewing => if s1.tb.liveRef == r then s1 else s1.switchTo r
    | .handover => if s1.tb.acqRef == r then s1 else s1.modTb fun b => { b with selPending := true }
    | .coasting => if s1.tb.shadow != .idle && s1.tb.acqRef == r then s1 else s1.beginSearch r
    | .searching | .acquiring => if s1.tb.shadow != .idle && s1.tb.acqRef == r then s1 else s1.beginSearch r
    | .stopped => if s1.tb.granted then s1.beginSearch r else s1

/-- The shadow line acquires a reference; where it is not the one in use, TIME REF_SWITCH marks the switch (R59). -/
def State.acquire (s : State) (r : Ref) : State :=
  (if s.tb.inUse == r then s else s.timeRecord 8 (refNum r)).beginSearch r

/-- A reference has become qualified. -/
def State.refQualified (s : State) (r : Ref) : State :=
  if s.tb.selPending && s.selRef == r then s.actOnSelection
  else if s.tb.shadow == .idle && s.acqTarget == some r then
    match s.tb.st with
    | .stopped => if s.tb.granted then s.beginSearch r else s
    | .searching | .coasting => s.acquire r
    | _ => s
  else s

/-- The reference in use has been lost: the shadow line acquires another that is qualified and may be used: REFB for a selected
REFA under auto_switch, or the selected reference itself (R59, R60). -/
def State.autoSwitch (s : State) : State :=
  match s.acqTarget with
  | some r => s.acquire r
  | none => s

/-- The injected reference, or the lock of the handover's reference, is lost: COASTING (R42, R49). A slew requested through
TB_SLEW_REQ is cleared with the remainder, and the register with it (log entry 47). -/
def State.toCoasting (s : State) (lost : Ref) : State :=
  let apply := s.tb.applyPend || s.tb.handoverOf == some .apply
  let sel := s.tb.selPending || s.tb.handoverOf == some .refSwitch
  let s1 := (s.raise .tbRefLoss (refNum lost)).bumpSat Reg.TB_CNT 0 16
  let s2 := s1.modTb fun b => { b with slewRemain := 0, shadow := .idle, ret := .none, handoverOf := none,
                                       applyPend := apply, selPending := sel }
  (s2.setReg Reg.TB_SLEW_REQ 0).tbEnter .coasting 2 s2.tb.lastErr

/-- A reference is disqualified (R41, R42). -/
def State.refDisqualified (s : State) (r : Ref) : State :=
  let s1 := s.modTb fun b => b.setRef r { b.ref r with ok := false, run := 0, outRun := 0 }
  match s1.tb.st with
  | .locked | .slewing => if s1.tb.liveRef == r then (s1.toCoasting r).autoSwitch else s1
  | .handover => if s1.tb.acqRef == r then (s1.toCoasting r).autoSwitch else s1
  | .coasting =>
    if s1.tb.shadow != .idle && s1.tb.acqRef == r then
      (s1.modTb fun b => { b with shadow := .idle, ret := .none }).autoSwitch
    else s1
  | .searching | .acquiring =>
    if s1.tb.shadow != .idle && s1.tb.acqRef == r then
      let s2 := s1.modTb fun b => { b with shadow := .idle }
      (if s2.tb.st == .acquiring then s2.tbEnter .searching 12 0 else s2).autoSwitch
    else s1
  | .stopped => s1

/-! ### A reference edge (R37, R41, R48, R54) -/

/-- The bin of a temperature in 0.125 °C: 64 bins of 2.5 °C from −40 °C (R50). -/
def binOf (temp : Int) : Nat := (max 0 (min 63 ((temp + 320) / 20))).toNat

/-- The present bin has been learned. -/
def Tb.binLearned (b : Tb) : Bool := (tget? b.drift (binOf b.temp)).isSome

/-- The live line injects this reference. -/
def Tb.injects (b : Tb) (r : Ref) : Bool := (b.st == .locked || b.st == .slewing) && b.liveRef == r

/-- Counts a period of a reference that is not qualified, to 64 in a row (R41). -/
def State.countPeriod (s : State) (r : Ref) (good : Bool) : State :=
  let x := s.tb.ref r
  let n := if good then min 64 (x.run + 1) else 0
  if n = 64 then
    (s.modTb fun b => b.setRef r { x with run := 64, ok := true, since := s.now, outRun := 0 }).refQualified r
  else s.modTb fun b => b.setRef r { x with run := n }

/-- The frequency and phase rules of R41 on a qualified reference: must it be disqualified at this edge? -/
def State.edgeFails (s : State) (r : Ref) (err : Int) (off : Option Int) : Bool :=
  let tol : Int := (s.fld Reg.TB_REF_TOL 0 16 : Nat)
  let far := match off with
    | some x => s.tb.st.live && decide (tol < x.natAbs) && (!s.tb.injects r || s.tb.binLearned)
    | none => false
  let out := decide ((s.fld Reg.TB_LOCK 16 8 : Nat) < err.natAbs)
  far || (s.tb.injects r && out && decide (s.fld Reg.TB_LOCK 24 8 ≤ (s.tb.ref r).outRun + 1))

/-- The edge drives the injection: within the window it is injected, and in LOCKED its device time is held as P0; outside,
the cycle runs on the control word and counts towards the loss of lock (R41, R54). -/
def State.injectEdge (s : State) (r : Ref) (err : Int) : State :=
  let x := s.tb.ref r
  if (s.fld Reg.TB_LOCK 16 8 : Nat) < err.natAbs then
    s.modTb fun b => b.setRef r { x with outRun := x.outRun + 1 }
  else
    let p := s.devTime * x.den % (512 * x.num)
    (s.ditherEdge r true).modTb fun b =>
      let b1 := { b.setRef r { x with outRun := 0 } with lastErr := err }
      if b.st == .locked && b.ret == .none then { b1 with p0 := some (p, x.den) } else b1

/-- The shadow line counts lock cycles (R37); locked and waiting, it counts the cycles that lose the lock again (R63). -/
def State.shadowEdge (s : State) (r : Ref) (err : Int) : State :=
  let inWin := decide (err.natAbs ≤ s.fld Reg.TB_LOCK 16 8)
  if s.tb.acqRef != r then s
  else match s.tb.shadow with
  | .acquiring =>
    let n := if inWin then s.tb.lockCount + 1 else 0
    if s.fld Reg.TB_LOCK 0 16 ≤ n then
      s.modTb fun b => { b with shadow := .locked, lockCount := 0, acqFail := 0,
                                refA := if r == .refA then { b.refA with outRun := 0 } else b.refA,
                                refB := if r == .refB then { b.refB with outRun := 0 } else b.refB,
                                ret := if b.st == .coasting then .measuring else b.ret }
    else s.modTb fun b => { b with lockCount := n }
  | .locked =>
    if s.tb.injects r then s
    else if inWin then s.modTb fun b => b.setRef r { b.ref r with outRun := 0 }
    else if s.fld Reg.TB_LOCK 24 8 ≤ (s.tb.ref r).outRun + 1 then
      (s.modTb fun b => b.setRef r { b.ref r with outRun := 0 }).beginSearch r
    else s.modTb fun b => b.setRef r { b.ref r with outRun := (b.ref r).outRun + 1 }
  | _ => s

/-- A held apply at an edge of the live reference: the dividers are taken and the handover begins (R48). -/
def State.applyEdge (s : State) (r : Ref) : State :=
  if s.tb.applyPend && s.tb.injects r then
    let (ok, s1) := s.takeDividers
    if ok then
      let s2 := (s1.modTb fun b => { b with handoverOf := some .apply, ret := .none }).tbEnter .handover 15 0
      s2.beginSearch r
    else s1
  else s

/-- The shadow line injects the reference it counts (R37). -/
def Tb.shadowInjects (b : Tb) (r : Ref) : Bool := b.acqRef == r && (b.shadow == .acquiring || b.shadow == .locked)

/-- An edge of a reference. -/
def State.refEdge (s : State) (r : Ref) (err : Int) (good : Bool) (off : Option Int) : State :=
  let s0 := s.start (.refEdge r)
  if (s0.tb.ref r).ok then
    if s0.edgeFails r err off then s0.refDisqualified r
    else
      let s1 := if s0.tb.injects r then s0.injectEdge r err
        else if s0.tb.shadowInjects r then (s0.ditherEdge r false).shadowEdge r err else s0
      s1.applyEdge r
  else s0.countPeriod r good

def execRefEdge (t : Nat) (r : Ref) (err : Int) (good : Bool) (off : Option Int) (s : State) :
    Host.Outcome State Fault Refusal :=
  atMoment t s fun s => s.refEdge r err good off

/-- 1.5 nominal periods of a reference, in Q. -/
def RefState.lost (x : RefState) : Nat := ceilDiv (3 * 512 * x.num) (2 * x.den)

/-- No edge within 1.5 nominal periods of the last (R41). -/
def execRefEdgeTimeout (t : Nat) (r : Ref) (s : State) : Host.Outcome State Fault Refusal :=
  atMoment t s fun s =>
    if !s.past (.refEdge r) (s.tb.ref r).lost then s
    else if (s.tb.ref r).ok then s.refDisqualified r else s.modTb fun b => b.setRef r { b.ref r with run := 0 }

/-- The band search of the shadow line ends (R36, R39). -/
def execBandSearchDone (t : Nat) (coarse : Fin 32) (fine : Fin 64) (s : State) : Host.Outcome State Fault Refusal :=
  atMoment t s fun s =>
    if s.tb.shadow == .searching then
      let s1 := s.modTb fun b =>
        let b1 := { b with shadow := .acquiring, lockCount := 0 }
        if b.line then { b1 with band0 := (coarse.val, fine.val) } else { b1 with band1 := (coarse.val, fine.val) }
      if s1.tb.st == .searching then s1.tbEnter .acquiring 13 0 else s1
    else s

/-- TB_ACQ.limit_ms have passed since the band search began, without a lock (R37). -/
def State.acqOver (s : State) : Bool :=
  (s.tb.shadow == .searching || s.tb.shadow == .acquiring) && s.past .search (s.fld Reg.TB_ACQ 0 8 * msQ)

/-- The acquisition limit expires before lock: a new band search, and TB_NOLOCK at the fourth failure in a row (R38). -/
def execAcquisitionLimit (t : Nat) (s : State) : Host.Outcome State Fault Refusal :=
  atMoment t s fun s =>
    if s.acqOver then
      let s1 := s.modTb fun b => { b with acqFail := min 15 (b.acqFail + 1) }
      let s2 := if s.tb.acqFail = 3 then s1.raise .tbNolock 0 else s1
      s2.beginSearch s2.tb.acqRef
    else s

/-- Device time is loaded with D0, never below a value already reported (R63). -/
def State.loadD0 (s : State) (d0 : Nat) : State :=
  { s with devTime := max s.devTime (min spanMax d0), phase := max s.devTime (min spanMax d0) % 512 }

/-- TB_CMD.apply (R48, R49): taken at the next reference edge, after the present handover, or at the next acquisition. -/
def State.tbApply (s : State) : State := s.modTb fun b => { b with applyPend := true }

/-- The trimmed shadow line is swapped in at a boundary that meets R32 (R48 step 5): TB_CMD.apply is cleared, the epoch advances,
every channel's next record carries CFGCHG. The offset of step 6 is measured over the next lock window. The TIME record has no
field for the applied dividers (R67, R364) and leaves them out (log entry 48). -/
def execHandoverSwap (t : Nat) (misalign : Int) (s : State) : Host.Outcome State Fault Refusal :=
  atMoment t s fun s =>
    if s.tb.st == .handover && s.tb.shadow == .locked && meetsR32 misalign then
      let s1 := (s.modTb fun b => { b.swap with handoverOf := none, ret := .measuring }).bump Reg.TB_CNT 24 8
      let s2 := (s1.bumpEpoch 1).cfgAll
      let s3 := s2.tbEnter (if s2.tb.slewRemain = 0 then .locked else .slewing) 7 misalign
      if s3.tb.selPending then s3.actOnSelection else s3
    else s

/-- The residue of R54: P0 − edge mod P, wrapped into (−P/2, +P/2] and rounded to Q, ties upwards. All in units of
1/(dp·den) Q, with P = 512·num/den. -/
def residue (p0 : Nat × Nat) (edge num den : Nat) : Int :=
  let u : Int := ((p0.2 * den : Nat) : Int)
  let p : Int := ((512 * num * p0.2 : Nat) : Int)
  let d : Int := ((p0.1 * den : Nat) : Int) - ((edge * p0.2 * den : Nat) : Int)
  let m := d % p
  let w := if 2 * m ≤ p then m else m - p
  (2 * w + u) / (2 * u)

/-- Returns are resolved at the TOD_IN pulse (R54). -/
def State.todResolves (s : State) : Bool := s.bit Reg.TB_RET_POLICY 1 && s.bit Reg.TB_TOD_CTRL 0

/-- The offset to the reference, averaged over a lock window (R54): `m.edge` is the mean device time of the reference edges, `m.gap`
how far the shadow line's edge then lies from the live line's: a return waits for lines that meet R32 (log entry 49). Once a
return is held, the measurement shows in TB_OFFSET and corrects nothing (R56, R58). -/
def execReturnOffsetMeasured (t : Nat) (m : ShadowMeasure) (s : State) : Host.Outcome State Fault Refusal :=
  atMoment t s fun s =>
    let coasts := s.tb.st == .coasting && s.tb.shadow == .locked && (s.tb.ret == .measuring || s.tb.ret == .held) && meetsR32 m.gap
    let ready := coasts || ((s.tb.st == .locked || s.tb.st == .slewing) && s.tb.ret == .measuring)
    let r := if s.tb.st == .coasting then s.tb.acqRef else s.tb.liveRef
    let off := match s.tb.p0 with
      | some p0 => residue p0 m.edge (s.tb.ref r).num (s.tb.ref r).den
      | none => 0
    if !ready then s
    else if s.tb.ret == .held then
      if s.todResolves || s.tb.todHold then s else s.setReg Reg.TB_OFFSET (wordOf off)
    else if s.todResolves then s.modTb fun b => { b with ret := .awaitTod }
    else s.correct off 1 3 4

/-- The slew is complete: LOCKED (R515). -/
def State.slewDone (s : State) : State :=
  if s.tb.slewRemain = 0 && s.tb.st == .slewing then s.tbEnter .locked 6 s.tb.slewTotal else s

/-- When step n + 1 counted from t_0 may be made at a rate of `rate` × 10^-8: at the first core-cycle boundary at or after
t_0 + (n + 1) × 8 × 10^8 / rate, computed exactly, that lies 16 core cycles behind the step before (R43, R46, R301). -/
def State.stepAfter (s : State) (t0 n rate : Nat) : Nat :=
  let x := s.boundaryFrom (t0 + ceilDiv ((n + 1) * 800000000) (max 1 rate))
  match s.tb.lastStep with
  | some l => max x (l + 8192)
  | none => x

/-- A fine step of `k` Q at the present boundary (R43), logged for R160. -/
def State.fineStep (s : State) (k : Int) : State :=
  let at_ := s.boundaryTo s.devTime
  s.modTb fun b => { b with steps := (at_, k) :: b.steps, lastStep := some at_ }

/-- The device time at which the next step of the slew is due (R46). -/
def State.slewDue (s : State) : Nat :=
  s.stepAfter s.tb.slewT0 s.tb.slewN (s.fld Reg.TB_SLEW_RATE 0 16)

/-- TB_SLEW_RATE has changed: the schedule counts from now (R46). -/
def State.slewRestart (s : State) : State := s.modTb fun b => { b with slewT0 := s.devTime, slewN := 0 }

/-- One step of the slew, once it is due: 8 Q, or the remainder below 8 Q (R43, R46). Device time itself counts on; the step's
gain is logged. -/
def execSlewStep (t : Nat) (s : State) : Host.Outcome State Fault Refusal :=
  atMoment t s fun s =>
    if s.tb.st == .slewing && s.tb.slewRemain != 0 && decide (s.slewDue ≤ s.devTime) then
      let k : Int := max (-8) (min 8 s.tb.slewRemain)
      ((s.fineStep k).modTb fun b =>
        { b with slewRemain := b.slewRemain - k, slewTotal := b.slewTotal + k, slewN := b.slewN + 1 }).slewDone
    else s

/-- TB_CMD.slew (R47). -/
def State.tbSlew (s : State) : State :=
  let req := sx 64 (s.reg Reg.TB_SLEW_REQ).toNat
  match s.tb.st with
  | .locked => if req = 0 then s else (s.setSlew req).tbEnter .slewing 16 req
  | .slewing => ((s.modTb fun b => { b with slewRemain := b.slewRemain + req }).timeRecord 16 req).slewDone
  | _ => s.raise .tbCmdState 0

/-- TB_CMD.accept (R58). -/
def State.tbAccept (s : State) (byStep : Bool) : State :=
  let off := sx 64 (s.reg Reg.TB_OFFSET).toNat
  if s.tb.ret != .held then s.raise .tbCmdState 0
  else if byStep && decide (off < 0) then s.raise .tbStepBack 0
  else
    let s1 := s.modTb fun b => { b.swap with ret := .none }
    -- a held TOD_IN alignment ends with its own reason, and aligns the hub (R62, R515)
    if s.tb.todHold then
      (if byStep then s1.correctByStep off 9 (some off) else s1.correctBySlew off 9 off).setAligned
    else (if byStep then s1.correctByStep off 4 none else s1.correctBySlew off 3 off).firstLock s

/-- TB_CMD.latch (R66). -/
def State.tbLatch (s : State) : State :=
  let s1 := s.setReg Reg.TB_LATCH_LO (BitVec.ofNat 64 s.devTime)
  (s1.setFld Reg.TB_LATCH_HI 0 8 (s.devTime / 2 ^ 64)).bump Reg.TB_LATCH_HI 8 16

/-- A drift-table bin is learned once the temperature has stayed in it for 10 s (R50); with it the band codes and the control
word are saved (R53). -/
def execDriftLearn (t : Nat) (word : Dword) (s : State) : Host.Outcome State Fault Refusal :=
  atMoment t s fun s =>
    match s.tb.bin with
    | some (b, since) =>
      if s.tb.st == .locked && decide (since + 10 * secQ ≤ s.now) then
        let band := if s.tb.line then s.tb.band1 else s.tb.band0
        ({ s with tb := { s.tb with word := word, drift := tput s.tb.drift b word, saved := some (band.1, band.2, word) } } :
          State).imageChanged
      else s
    | none => s

/-- The device time of the next holdover tick: 1 µs after the last (R52). -/
def Tb.holdDue (b : Tb) : Nat := match b.holdLog with | (x, _) :: _ => x + usQ | [] => 0

/-- 1 µs of holdover (R52, R53): r in 0.01 ppm of 1,228,800 Q. -/
def execHoldoverTick (t : Nat) (s : State) : Host.Outcome State Fault Refusal :=
  atMoment t s fun s =>
    if s.tb.st.holds && decide (s.tb.holdDue ≤ s.devTime) then
      let r := if s.tb.binLearned && !s.tb.cold then s.fld Reg.TB_HOLD_RATE 0 16 else s.fld Reg.TB_HOLD_RATE 16 16
      let u := s.tb.hold + r * usQ
      s.modTb fun b => { b with hold := u, holdLog := (b.holdDue, u) :: b.holdLog }
    else s

/-- REFA has stayed qualified for return_s: the hub returns to it by a switch, with TIME REF_SWITCH (R59). -/
def execAutoReturn (t : Nat) (s : State) : Host.Outcome State Fault Refusal :=
  atMoment t s fun s =>
    if s.bit Reg.TB_CTRL 2 && s.selRef == .refA && s.tb.liveRef == .refB && s.tb.refA.ok &&
        decide (s.tb.refA.since + s.fld Reg.TB_ACQ 16 8 * secQ ≤ s.now) then
      match s.tb.st with
      | .locked | .slewing => (s.timeRecord 8 0).switchTo .refA
      | .coasting => (s.timeRecord 8 0).beginSearch .refA
      | _ => s
    else s

/-- The offset of a TOD_IN edge (R61): expected − stamp, wrapped into (−0.5 s, +0.5 s]. -/
def todOffset (expected stamp : Nat) : Int :=
  let d : Int := ((expected : Int) - (stamp : Int)) % (secQ : Int)
  if 2 * d ≤ (secQ : Int) then d else d - secQ

/-- The edge of TOD_IN is active and is stamped against the live line (R61). A follower never corrects by it (R302). -/
def State.todActive (s : State) (rising : Bool) : Bool :=
  s.bit Reg.TB_TOD_CTRL 0 && s.tb.st.live && (rising != s.bit Reg.TB_TOD_CTRL 1) && !(s.bit Reg.PEER_CTRL 8 && !s.peer.master)

/-- An edge of TOD_IN (R54, R61, R62). While the line coasts there is no injection to walk: an edge within tolerance changes nothing
there, and the alignment waits for a lock (log entry 50). -/
def execTodEdge (p : TodPulse) (s : State) : Host.Outcome State Fault Refusal :=
  atMoment p.t s fun s =>
    if !s.todActive p.rising then s
    else
      let off := todOffset (s.fld Reg.TB_TOD_OFFSET 0 41) s.devTime
      let locked := s.tb.st == .locked || s.tb.st == .slewing
      if s.tb.ret == .awaitTod then s.correct off 1 3 4
      else if s.tb.ret == .held && (s.todResolves || s.tb.todHold) then s.setReg Reg.TB_OFFSET (wordOf off)
      else if s.tb.todFirst || !s.tb.aligned then
        if !locked then s
        else
          let s1 := (s.correct off 9 9 9).modTb fun b => { b with todRejects := 0 }
          if s1.tb.ret == .held then s1.modTb fun b => { b with todHold := true } else s1.setAligned
      else if off.natAbs ≤ s.fld Reg.TB_TOD_TOL 0 32 then
        let s1 := s.modTb fun b => { b with todRejects := 0 }
        if off.natAbs ≤ s.fld Reg.TB_LOCK 16 8 || !locked then s1
        else if s1.tb.st == .locked then (s1.setSlew off).tbEnter .slewing 16 off
        else (s1.modTb fun b => { b with slewRemain := off }).timeRecord 16 off
      else
        let s1 := (s.bumpSat Reg.TB_TOD_STATUS 0 16).timeRecord 10 off
        if s.tb.todRejects = 2 then s1.modTb fun b => { b with aligned := false, todRejects := 0 }
        else s1.modTb fun b => { b with todRejects := b.todRejects + 1 }

/-- A missing TOD_IN pulse is counted and changes nothing (R62). -/
def execTodMiss (t : Nat) (s : State) : Host.Outcome State Fault Refusal :=
  atMoment t s fun s =>
    if s.bit Reg.TB_TOD_CTRL 0 && s.tb.aligned then s.bumpSat Reg.TB_TOD_STATUS 16 16 else s

/-- A swallowed pulse (R45). -/
def execRuntSwallowed (t : Nat) (s : State) : Host.Outcome State Fault Refusal :=
  atMoment t s fun s => if s.tb.st.live then (s.bumpSat Reg.TB_CNT 16 8).raise .tbRunt 0 else s

/-- Device time has reached its last value (R65). -/
def execTbSpan (t : Nat) (s : State) : Host.Outcome State Fault Refusal :=
  atMoment t s fun s =>
    if s.devTime = spanMax && !s.tb.spanRaised then (s.modTb fun b => { b with spanRaised := true }).raise .tbSpan 0
    else s

/-- The highest junction temperature of the ordering code, in °C: 95 for SVT1M-B2C (grade 2), else 105 (R10, R463). -/
def maxJunction : Int := if (fuseOf (Reg.ID_LOGIC 2)).toNat / 2 ^ 29 = 2 then 95 else 105

/-- One onset of R450: ten readings in a row above `lim`, until a reading below `lim` − hyst; all in 0.125 °C. Answers the
new run, whether the onset holds, and whether it has just begun. -/
def onset (run : Nat) (on : Bool) (x lim hyst : Int) : Nat × Bool × Bool :=
  let run1 := if lim < x then min 10 (run + 1) else 0
  if on then (run1, !decide (x < lim - hyst), false)
  else (run1, decide (run1 = 10), decide (run1 = 10))

/-- A reading of the die temperature, every 100 µs (R450), and the bin it puts the drift table in (R50). FLT_TEMP_MAX takes the first
reading as it is. -/
def execThermRead (t : Nat) (raw : BitVec 12) (s : State) : Host.Outcome State Fault Refusal :=
  atMoment t s fun s =>
    if s.pwr.st != .run || !s.past .therm (100 * usQ) then s
    else
      let x := raw.toInt
      let s0 := s.start .therm
      let s1 := ({ s0 with flt := { s0.flt with tempSeen := true } } : State).setReg Reg.TB_TEMP (raw.setWidth 64)
      let s2 := if !s.flt.tempSeen || sx 12 (s1.fld Reg.FLT_TEMP_MAX 0 12) < x then s1.setReg Reg.FLT_TEMP_MAX (raw.setWidth 64) else s1
      let s3 := if x < -440 || 1200 < x then s2.raise .thermSensor raw.toNat
        else s2.modTb fun b =>
          let k := binOf x
          -- a line that coasts is steered at the new temperature (R51); in HANDOVER it coasts frozen (R48)
          { b with temp := x, steered := if b.st == .coasting then steerWord b.drift x else b.steered, bin := match b.bin with
              | some (k0, since) => if k0 = k then some (k0, since) else some (k, s.now)
              | none => some (k, s.now) }
      let hyst : Int := 8 * (s.fld Reg.FLT_THERM 8 8 : Nat)
      let w := onset s.flt.warnRun s.flt.warnOn x (8 * sx 8 (s.fld Reg.FLT_THERM 0 8)) hyst
      let l := onset s.flt.limitRun s.flt.limitOn x (8 * maxJunction) hyst
      let s4 : State := { s3 with flt := { s3.flt with warnRun := w.1, warnOn := w.2.1, limitRun := l.1, limitOn := l.2.1 } }
      let s5 := if w.2.2 then s4.raise .thermWarn (toField 32 (x / 8)) else s4
      if l.2.2 then s5.raise .thermLimit (toField 32 (x / 8)) else s5

end Sys2Proof.Machine
end

