-- ==== Sys2Proof/Machine/Engine.lean ====
section
/-! DEFINITION. What an engine does for one channel (06): flags and records of a channel, indices and chains, the count and
the phase at an instant, and the quantities of R154. -/

namespace Sys2Proof.Machine

/-! ### Flags and records of a channel (R40, R91, R362, R376, R419) -/

/-- Edges that a record was computed from: their source and stamp (R91). -/
abbrev Used := List (Source × Nat)

/-- Stamps of one source. -/
def usedOf (src : Source) (ts : List Nat) : Used := ts.map (src, ·)

/-- Some of the edges lie within 40 ns of a far FE write to their input (R91). -/
def Chan.inSpan (c : Chan) (es : Used) : Bool :=
  es.any fun e => c.cfgSpan.any fun w => e.1 == .local w.1 && decide (w.2.1 ≤ e.2) && decide (e.2 < w.2.2)

/-- UNCERTAIN of a guarded channel while the hub is in the safe state (R330, R362). -/
def State.guardUncertain (s : State) (d : Decl) : BitVec 10 := if d.guarded && s.gbl.safe then fUncertain else 0

/-- The flags a channel's record takes beside those of its values. -/
def State.recFlags (s : State) (c : Chan) (r : Record) (stamps : Used) : BitVec 10 :=
  (if c.cfg || c.inSpan stamps then fCfg else 0) ||| (if c.gapFlag && r.data then fGap else 0) |||
    (if c.decl.guarded then fGuard else 0) ||| s.guardUncertain c.decl

/-- Where a channel's record was produced: its instant, or stamp, with the count and the phase there. -/
structure At where
  time : Nat
  count : Nat
  phase : Word
  deriving DecidableEq, Repr

/-- A data record for a ring in summary mode is withheld (R376). -/
def State.withhold (s : State) (c : Nat) (ring : Nat) (stamp : Bool) (a : At) : State :=
  let ch := s.chan c
  let w0 : Withheld := ch.withheld.getD { from_ := a.time, count := a.count, phase := a.phase }
  let w := { w0 with records := w0.records + 1, stamps := w0.stamps + b2n stamp }
  ((s.setChan c { ch with withheld := some w }).modRing ring fun r =>
    { r with produced := r.produced + 1, summarised := r.summarised + 1 }).bump Reg.FLT_CNT_WITHHELD 0 48

/-- Emits a record of channel `c` with its declaration `d`: to the comparison of a guarded channel (R419), or into the queue
of its class; STATS and HISTO_DONE go to BULK (R369). `stamps` are the edges it was computed from. -/
def State.chanRec (s : State) (c : Nat) (d : Decl) (rec0 : Record) (stamps : Used) (a : At) : State :=
  if rec0.data && (s.ring d.ring).summary then (s.withhold c d.ring (rec0.type == 4) a).unrefAll d.ring rec0.blks
  else
    let ch := s.chan c
    let r := { rec0 with chan := c, flags := rec0.flags ||| s.recFlags ch rec0 stamps, at_ := a.time, count0 := a.count
                         phase0 := a.phase }
    let cls := if r.type == 9 || r.type == 10 then 2 else d.cls
    let ch1 := { ch with cfg := false, gapFlag := ch.gapFlag && !r.data }
    if d.guarded then
      s.setChan c { ch1 with guard := { ch1.guard with
        uncompared := ch1.guard.uncompared ++ [{ ring := d.ring, cls := cls, record := r, since := s.now }] } }
    else (s.setChan c ch1).push d.ring cls (some ch.place.engine) r

/-- A CONFIG_ACK of a channel (R121). -/
def State.chanAck (s : State) (c stage : Nat) (tag : Dword) (time : Nat) (body : List Word) : State :=
  s.chanRec c (s.chan c).decl { type := 11, time := time, code := stage, spec0 := tag.toNat, body := body } []
    { time := time, count := (s.chan c).count, phase := 0 }

/-- An ALARM QUAD_SKIP (R119). -/
def State.quadAlarm (s : State) (c : Nat) (time : Nat) : State :=
  let ch := s.chan c
  let n := ch.quad.skips + 1
  (s.setChan c { ch with quad := { ch.quad with skips := n } }).chanRec c ch.decl
    { type := 5, time := time, code := 2, spec0 := n.toNat, flags := s.timeFlags [time] }
    (usedOf ch.decl.srcA [time] ++ usedOf ch.decl.srcB [time])
    { time := time, count := ch.count, phase := 0 }

/-! ### Sources -/

/-- A source was UNRESOLVED at a device time (R76, R279, R285). -/
def State.srcUnknown (s : State) (t : Nat) : Source → Bool
  | .none => false
  | .local n => unknownAt (s.input n).known t
  | .remote l i => unknownAt (s.remoteSrc l i).known t

/-- A source of the declaration was UNRESOLVED at a device time (R159; log entry 57). -/
def State.unresolved (s : State) (d : Decl) (t : Nat) : Bool :=
  s.srcUnknown t d.srcA || s.srcUnknown t d.srcB || s.srcUnknown t d.srcX

/-! ### Rational arithmetic -/

/-- n / d to the nearest integer, ties away from zero; 0 where d is not positive. -/
def rdiv (n : Int) (d : Nat) : Int :=
  if d = 0 then 0 else if 0 ≤ n then (2 * n + d) / (2 * d) else -((2 * (-n) + d) / (2 * d))

/-- NONE of R155. -/
def noneWord : Word := 0x8000000000000000#64

/-- A signed 64-bit code, saturated short of NONE (R155). -/
def code64 (v : Int) : Word := wordOf (max (-(2 ^ 63 - 1)) (min (2 ^ 63 - 1) v))

/-- The reference length of a span of device time (R160). -/
def State.refSpan (s : State) (t1 t2 : Nat) : Int :=
  (t2 : Int) - t1 - ((s.tb.steps.filter fun p => t1 ≤ p.1 && p.1 < t2).map Prod.snd).sum

/-! ### Edges enter a side (R142 to R145) -/

/-- An edge selection takes a direction. -/
def EdgeSel.takes : EdgeSel → Bool → Bool
  | .rising, r => r
  | .falling, r => !r
  | .both, _ => true

/-- How many of `rises` and `falls` edges a selection takes, and how many of those are phase edges (R142). -/
def EdgeSel.share (sel : EdgeSel) (windowMode : Bool) (rises falls : Nat) : Nat × Nat :=
  match sel with
  | .rising => (rises, rises)
  | .falling => (falls, falls)
  | .both => (rises + falls, if windowMode then rises + falls else rises)

/-- Takes `k` selected unstamped edges, `p` of them phase edges, out of `u` (R143). -/
def Side.unstamped (x : Side) (u p : Nat) : Side :=
  { x with nextM := x.nextM + p, chained := x.chained || 0 < p, gapNext := x.gapNext || 0 < u
           assigned := if 0 < p then max x.assigned (x.nextM + p - 1) else x.assigned }

/-- Takes a stamped selected edge; `c` is the totaliser after it. -/
def Side.edge (x : Side) (stamp c : Nat) (rising phase timed late : Bool) (zone : Zone) : Side :=
  { x with edges := x.edges ++ [{ stamp := stamp, c := c, m := x.nextM, phase := phase, rising := rising, timed := timed
                                  zone := zone, chain := x.chain, late := late, gap := x.gapNext, first := x.empty }]
           empty := false
           nextM := if phase then x.nextM + 1 else x.nextM
           chained := x.chained || phase
           assigned := if phase then max x.assigned x.nextM else x.assigned
           -- a stamp that is not used for time leaves its edge unstamped (R157)
           gapNext := !timed }

/-! ### The count and the phase at a device time (R145, R150 to R152) -/

/-- The latest edge below `t` and the earliest at or after it, of the edges that `f` admits. -/
def bracket (es : List Edge) (f : Edge → Bool) (t : Nat) : Option Edge × Option Edge :=
  ((es.filter fun e => f e && decide (e.stamp < t)).getLast?, es.find? fun e => f e && decide (t ≤ e.stamp))

/-- The totaliser of a side after every edge whose own stamp, or whose item's, lies below `t`. -/
def Side.countBelow (x : Side) (base t : Nat) : Nat :=
  let a := (x.edges.filter fun e => decide (e.stamp < t)).getLast?
  let u := (x.counted.filter fun p => decide (p.1 < t)).getLast?
  match a, u with
  | some a, some u => if a.stamp ≤ u.1 then u.2 else a.c
  | some a, none => a.c
  | none, some u => u.2
  | none, none => base

/-- The count at `t` (R145): the totaliser began with `base` at `began`. Unstamped edges before the first stamped selected edge
are divided from `began` on (log entry 58); where no later edge is stamped, those counted below `t` are in the count. -/
def countAt (x : Side) (base began t : Nat) : Nat :=
  match bracket x.edges (·.timed) t with
  | (a, some b) =>
    let (ca, ta) := match a with | some a => (a.c, a.stamp) | none => (base, min began t)
    let k := (b.c + 2 ^ 48 - 1 - ca) % 2 ^ 48
    (ca + (if b.stamp ≤ ta then 0 else k * (t - ta) / (b.stamp - ta))) % 2 ^ 48
  | (_, none) => x.countBelow base t

/-- A phase edge whose stamp may be used for time. -/
def Edge.usable (e : Edge) : Bool := e.phase && e.timed

/-- The chain that an instant belongs to (R144). -/
def Side.chainAt (x : Side) (t : Nat) : Nat := x.chain - (x.starts.filter fun f => decide (t < f)).length

/-- The usable phase edges of an instant's chain. -/
def Side.usable (x : Side) (t : Nat) (e : Edge) : Bool := e.usable && e.chain == x.chainAt t

/-- The bracket of an instant (R150): of the edges of its chain. -/
def Side.bracketAt (x : Side) (t : Nat) : Option Edge × Option Edge := bracket x.edges (x.usable t) t

/-- An edge belongs to the interval that ends at `t` and began at `fr`; a late one to the interval it came in (R149, R153). -/
def Edge.within (e : Edge) (fr t : Nat) : Bool := (e.late || decide (fr ≤ e.stamp)) && decide (e.stamp < t)

/-- The highest integer phase reported, with those that the unresolved instants `ts` of the chain under way can still report
(R144, R150 to R152). -/
def Side.highest (x : Side) (ts : List Nat) (regress : Bool) : Option Int :=
  let top (h : Option Int) (v : Int) : Option Int := some (match h with | some h => max h v | none => v)
  ts.foldl (fun h t => match x.bracketAt t with
    | (some a, some b) => top h (if regress || b.stamp = t then b.m else a.m)
    | (some a, none) => top h a.m
    | (none, _) => h) x.highM

/-- Starts a new phase chain, to which instants from `at_` on belong (R144): the first phase edge takes the integer above the
highest reported. -/
def Side.startChain (x : Side) (at_ : Nat) (ts : List Nat) (regress : Bool) : Side :=
  { x with nextM := match x.highest (ts.filter (· < at_)) regress with | some h => h + 1 | none => 0
           chain := x.chain + 1, starts := at_ :: x.starts, chained := false, empty := true }

/-- A chain of a channel starts, to which instants from `at_` on belong (R144): the first of them has no previous phase (R153),
and its DIFF no previous value (R170). -/
def Chan.restart (c : Chan) (onB : Bool) (at_ : Nat) : Chan :=
  let c1 := if onB then { c with b := c.b.startChain at_ c.instants c.decl.regress }
    else { c with a := c.a.startChain at_ c.instants c.decl.regress }
  { c1 with restarts := if onB && c.decl.kind == .pair then c1.restarts else at_ :: c1.restarts }

/-- A fraction of a cycle to 40 bits, rounded to 32 (R150). -/
def frac32 (n d : Nat) : Nat := if d = 0 then 0 else (n * 2 ^ 40 / d + 128) / 256

/-- A phase found at a device time: its value in 2^-32 cycles, whether it was extrapolated, the stamps it came from, and the
fitted slope b of R152 as a fraction of Q per cycle with the ends of the fit. -/
structure Phased where
  phi : Option Int := none
  extrap : Bool := false
  stamps : List Nat := []
  fit : Option (Int × Int × Nat × Nat) := none
  deriving DecidableEq, Repr

/-- The extrapolated fraction of R151 in 2^-32 cycles: `w` is w_c, `p` the mean time per cycle, both fractions of Q. -/
def extrapolate (t ta : Nat) (w p : Nat × Nat) : Nat :=
  let d := t - ta
  let f1 := if p.1 = 0 then 2 ^ 32 - 1 else frac32 (d * p.2) p.1
  let f2 := frac32 (d * w.2) (d * w.2 + w.1)
  min (min f1 f2) (2 ^ 32 - 1)

/-- The bracketing estimator (R150), or the extrapolation of R151 where the bracket is not known: also where an instant that waits
for no bracket is resolved before it is known, as a recipe then sees it (R166; log entry 64). -/
def Side.phase (x : Side) (t : Nat) (w : Nat × Nat) : Phased :=
  match x.bracketAt t with
  | (some a, some b) =>
    let dm := (b.m - a.m).toNat
    { phi := some (a.m * 2 ^ 32 + frac32 (dm * (t - a.stamp)) (b.stamp - a.stamp)), stamps := [a.stamp, b.stamp] }
  | (some a, none) =>
    { phi := some (a.m * 2 ^ 32 + extrapolate t a.stamp w (x.pest.getD (secQ, 1))), extrap := true, stamps := [a.stamp] }
  | (none, _) => {}

/-- The exact sums of R152 over fitted edges: n, Σx, Σy, Σxy, Σx². -/
def fitSums (m0 : Int) (t : Nat) : List Edge → Int × Int × Int × Int × Int
  | [] => (0, 0, 0, 0, 0)
  | e :: r =>
    let (n, sx, sy, sxy, sxx) := fitSums m0 t r
    let x := e.m - m0
    let y := (e.stamp : Int) - t
    (n + 1, sx + x, sy + y, sxy + x * y, sxx + x * x)

/-- A signed fraction to the nearest, ties away; the denominator's sign is taken into the numerator. -/
def rdivInt (n d : Int) : Int := if 0 ≤ d then rdiv n d.toNat else rdiv (-n) (-d).toNat

/-- The regression estimator (R152) over the phase edges in [from, t), clamped between the bracketing indices; `free` stands
for a phase the fit does not determine, all fitted stamps being equal. -/
def Side.regress (x : Side) (fr t : Nat) (w : Nat × Nat) (free : Int) : Phased :=
  let es := x.edges.filter fun e => x.usable t e && e.within fr t
  let p := x.phase t w
  match es, es.getLast?, x.bracketAt t with
  | e0 :: _, some el, (some a, b) =>
    if es.length < 3 then p
    else
      let (n, sx, sy, sxy, sxx) := fitSums e0.m t es
      let bn := n * sxy - sx * sy
      let bd := n * sxx - sx * sx
      let phi := if bn = 0 then free else e0.m * 2 ^ 32 - rdivInt ((sy * bd - bn * sx) * 2 ^ 32) (n * bn)
      let lo := a.m * 2 ^ 32
      let hi := match b with | some b => b.m * 2 ^ 32 | none => (a.m + 1) * 2 ^ 32 - 1
      { phi := some (min (max phi lo) hi), extrap := b.isNone, stamps := es.map (·.stamp)
        fit := some (bn, bd, e0.stamp, el.stamp) }
  | _, _, _ => p

/-- p_est (R147) after the interval [from, t): unchanged unless it holds two stamped phase edges. -/
def Side.newPest (x : Side) (fr t : Nat) : Option (Nat × Nat) :=
  let es := x.edges.filter fun e => x.usable t e && e.within fr t
  match es, es.getLast? with
  | a :: _, some b => if b.m ≤ a.m then x.pest else some (b.stamp - a.stamp, (b.m - a.m).toNat)
  | _, _ => x.pest

/-- p_est of a QUAD channel after the interval [from, t) (R147): its steps are its cycles, whichever way they go (log entry
59). -/
def QuadState.newPest (q : QuadState) (old : Option (Nat × Nat)) (fr t : Nat) : Option (Nat × Nat) :=
  let es := (q.stepLog.filter fun p => p.before ≠ p.after && decide (fr ≤ p.stamp ∧ p.stamp < t)).reverse
  match es, es.getLast? with
  | a :: r, some b =>
    let n := (r.foldl (fun (acc : Int × Nat) p => (p.after, acc.2 + (p.before - acc.1).natAbs + (p.after - p.before).natAbs)) (a.after, 0)).2
    if n = 0 then old else some (b.stamp - a.stamp, n)
  | _, _ => old

/-- W of R147, a fraction of Q. -/
def Side.wait (x : Side) (d : Decl) : Nat × Nat :=
  if d.wait = 0 then
    match x.pest with
    | some (n, k) => if 4 * n ≤ secQ * k then (4 * n, max 1 k) else (secQ, 1)
    | none => (secQ, 1)
  else (d.wait * usQ, 1)

/-- 0.70 µs, the settling of R146, and the addition of a QUAD channel. -/
def settleQ : Nat := 860160
def Decl.settle (d : Decl) : Nat := if d.kind == .quad then 860652 else settleQ

/-- w_c of R151. -/
def waitC (w : Nat × Nat) : Nat × Nat := (max w.1 (settleQ * w.2) - settleQ * w.2, w.2)

/-! ### Quantities (R154 to R156) -/

/-- A quantity at an instant: its exact value as an integer with `frac` fractional bits, its code, and the flags and stamps
it brings. -/
structure Quantity where
  v : Int
  frac : Nat
  word : Word
  flags : BitVec 10 := 0
  used : Used := []
  deriving DecidableEq, Repr

/-- The eight quantities of an instant, by bit; none is NONE. -/
abbrev Quantities := List (Option Quantity)

/-- A count. -/
def qCount (n : Nat) : Quantity := { v := n, frac := 0, word := BitVec.ofNat 64 (n % 2 ^ 48) }
/-- A phase, its integer part modulo 2^32. -/
def qPhase (p : Int) (flags : BitVec 10) (used : Used) : Quantity :=
  { v := p, frac := 32, word := wordOf p, flags := flags, used := used }
/-- The format of a frequency is unsigned (R14, R155). -/
def satFreq (f : Int) : Int := max 0 (min (2 ^ 64 - 1) f)
/-- A frequency, saturated. -/
def qFreq (f : Int) (flags : BitVec 10) (used : Used) : Quantity :=
  { v := satFreq f, frac := 32, word := wordOf (satFreq f), flags := flags, used := used }
/-- A signed 64-bit value with `frac` fractional bits, saturated. -/
def qSigned (frac : Nat) (x : Int) (flags : BitVec 10) (used : Used) : Quantity :=
  { v := max (-(2 ^ 63 - 1)) (min (2 ^ 63 - 1) x), frac := frac, word := code64 x, flags := flags, used := used }

/-- The mean of fractions n/d, scaled by 2^k and rounded. -/
def meanOf (l : List (Int × Nat)) (k : Nat) : Option Int :=
  if l = [] then none
  else
    let d := l.foldl (fun d x => d * max 1 x.2) 1
    let n := (l.map fun x => x.1 * ((d / max 1 x.2 : Nat) : Int)).sum
    some (rdiv (n * 2 ^ k) (d * l.length))

/-- The complete cycles r, f, r′ of stamped edges whose end r′ lies in [from, t) (R156). -/
def cycles (fr t : Nat) : List Edge → List (Nat × Nat × Nat)
  | r :: f :: r' :: rest =>
    let ok := r.rising && !f.rising && r'.rising && r.timed && f.timed && r'.timed && !f.gap && !r'.gap && !f.first && !r'.first &&
      r'.within fr t
    let tail := cycles fr t (f :: r' :: rest)
    if ok then (r.stamp, f.stamp, r'.stamp) :: tail else tail
  | _ => []

/-- u0 as it applied at a device time (R64). -/
def Tb.u0At (b : Tb) (t : Nat) : Nat := match b.u0Log.find? fun p => decide (p.1 ≤ t) with | some (_, u) => u | none => b.u0

/-- BOUND at `t` (R156): the holdover bound in the holdover states, else u0 until the time base is aligned; a follower adds
the relayed bound (R302). In whole Q. -/
def State.boundAt (s : State) (t : Nat) : Nat :=
  let own := if (stateAt s.tb.log t).holds then
      match s.tb.holdLog.find? (fun (p : Nat × Nat) => decide (p.1 ≤ t)) with
      | some (_, u) => ceilDiv u 100000000
      | none => s.tb.u0At t
    else s.tb.u0At t
  let relayed := if s.bit Reg.PEER_CTRL 8 && !s.peer.master then
      match s.peer.parent with | some l => (s.peerLane l).bound | none => 0
    else 0
  own + relayed

/-- The mask of quantities a SAMPLE carries; 0 selects the kind's default (R154). -/
def Decl.mask (d : Decl) : Nat :=
  if d.qty ≠ 0 then d.qty
  else match d.kind with
    | .edge | .remote | .quad => 0x07
    | .pair => if d.phaseDiff then 0x07 else 0x19
    | .window => 0x03

/-- The time-derived quantities of a kind (R154). -/
def Decl.timed (d : Decl) : Nat :=
  match d.kind with
  | .edge | .remote => 0x3E
  | .pair => if d.phaseDiff then 0x06 else 0
  | .quad => 0x06
  | .window => 0

/-- The instant waits for its bracket (R146). -/
def Decl.waits (d : Decl) : Bool := d.mask &&& d.timed != 0

/-- The bits a kind leaves undefined (R154). -/
def Decl.undefinedQty (d : Decl) : Nat :=
  match d.kind with
  | .edge | .remote => 0
  | .pair => if d.phaseDiff then 0x38 else 0x06
  | .quad => 0x28
  | .window => 0x3C

/-- What FREQ and PERIOD of a span make of a phase advance (R153). -/
def freqPer (dphi span : Int) (fl : BitVec 10) (used : Used) : Option Quantity × Option Quantity :=
  if span ≤ 0 then (none, none)
  else (some (qFreq (rdiv (dphi * secQ) span.toNat) fl used),
        if dphi = 0 then none else some (qSigned 16 (rdivInt (span * 2 ^ 48) dphi) fl used))

/-- The position of a QUAD channel at `t` (R145): unstamped steps between two decided changes are divided in time. -/
def quadCount (q : QuadState) (base : Int) (t : Nat) : Int :=
  match q.stepLog.find? (fun p => decide (p.stamp < t)), (q.stepLog.filter fun p => decide (t ≤ p.stamp)).getLast? with
  | some a, some b =>
    let k := b.before - a.after
    let n : Int := (k.natAbs * (t - a.stamp) / max 1 (b.stamp - a.stamp) : Nat)
    a.after + (if 0 ≤ k then n else -n)
  | some a, none => a.after
  | none, _ => base

/-- The interpolated position in 2^-32 counts, whether the bracketing step is missing, and the stamps used (R156). -/
def quadAt (q : QuadState) (base : Int) (t : Nat) : Int × Bool × List Nat :=
  let steps := q.stepLog.filter fun p => p.before ≠ p.after
  let p := quadCount q base t * 2 ^ 32
  match steps.find? (fun p => decide (p.stamp < t)), (steps.filter fun p => decide (t ≤ p.stamp)).getLast? with
  | some a, some b =>
    let ua := decide (a.before < a.after)
    let f : Int := if ua = decide (b.before < b.after) then (frac32 (t - a.stamp) (b.stamp - a.stamp) : Nat) else 0
    (p + (if ua then f else -f), false, [a.stamp, b.stamp])
  | some a, none => (p, true, [a.stamp])
  | none, some b => (p, false, [b.stamp])
  | none, none => (p, true, [])

end Sys2Proof.Machine
end

