-- ==== Sys2Proof/Machine/Dirty.lean ====
section
/-! DEFINITION. The dirty set (16 R385, R393): images, the dirty bytes D, the Endgame need E, and covered. -/

namespace Sys2Proof.Machine

/-- The phase of a channel record: the highest integer phase index assigned to a phase edge (R384). -/
def Chan.phaseIndex (c : Chan) : Nat := toField 48 c.a.assigned

/-- A channel is dirty while its totaliser or its phase index differs from its newest image (R385); a VACANT or RETIRED one
keeps what its record holds, but for a RETIRED one whose record is still to be written. -/
def Chan.dirty (c : Chan) : Bool :=
  match c.st with
  | .vacant => false
  | _ => match c.image with
    | some (n, p, _) => n != c.count || p != c.phaseIndex
    | none => true

/-- D (R393). -/
def State.dirtyBytes (s : State) : Nat :=
  ((s.chans.filter fun x => x.2.dirty).map fun x => if x.2.decl.guarded then 108 else 18).sum

/-- F of R393, in ps: 300 µs, and at a tick slower than 8,192 Hz the tick's length beyond 122.07 µs. -/
def State.fixedNeed (s : State) : Nat :=
  let div := s.farFld Reg.KPR_CTRL 1 3
  if div ≤ 2 then 300000000 else 300000000 + 2 ^ (div - 3) * 244140625 - 122070000

/-- E of R393, in ps. -/
def State.need (s : State) : Nat := s.fixedNeed + 125 * s.dirtyBytes

/-- PST_NEED. -/
def State.needUs (s : State) : Nat := min 65535 (ceilDiv s.need 1000000)

/-- Keeps covered current; HOLDUP_SHORT is raised once at each onset (R393). -/
def State.coverCheck (s : State) : State :=
  let c := decide (s.need ≤ s.fld Reg.PST_HOLDUP_US 0 15 * 1000000)
  let s1 : State := { s with pst := { s.pst with covered := c } }
  if s.pst.covered && !c then s1.raise .holdupShort s1.needUs else s1

end Sys2Proof.Machine
end

