-- ==== Sys2Proof/Machine/Stats.lean ====
section
/-! DEFINITION. Statistics and time-interval analysis (08): the basic line, deviation sets, histograms, and their
reports. -/

namespace Sys2Proof.Machine

/-- A value of a recipe's stream (R167): fixed with its fractional bits, or binary64. -/
inductive Stream where
  | fixed (v : Int) (frac : Nat)
  | real (v : Word)
  deriving DecidableEq, Repr

/-- A stream value as binary64 (R167). -/
def Stream.toReal : Stream → Word
  | .fixed v f => f64OfFixed v f
  | .real w => w

/-- A stream value as an integer: s of a fixed stream, or the value with `k` fractional bits (R198, R205). -/
def Stream.toUnits (k : Int) : Stream → Int
  | .fixed v _ => v
  | .real w => f64Scale w k

/-! ### The basic line (R196, R197) -/

/-- The smaller and the larger of two finite values. -/
def f64Min (a b : Word) : Word := if f64Le a b then a else b
def f64Max (a b : Word) : Word := if f64Le a b then b else a

/-- A value reaches the line (R196). -/
def StatLine.feed (l : StatLine) (v : Word) (held : Bool) (t : Nat) (fl : BitVec 10) : StatLine :=
  if l.sat then l
  else
    let n := l.n + 1
    let d := f64Sub v l.mean
    let mean := f64Add l.mean (f64Div d (f64OfInt n))
    { l with n := n, h := if held then min (2 ^ 32 - 1) (l.h + 1) else l.h, mean := mean
             m2 := f64Add l.m2 (f64Mul d (f64Sub v mean))
             mn := if l.n = 0 then v else f64Min l.mn v, mx := if l.n = 0 then v else f64Max l.mx v
             first := if l.n = 0 then t else l.first, last := t, flags := l.flags ||| fl, sat := decide (n = 2 ^ 48 - 1) }

/-- The six values of the line (R213); the bit sat stands in the record's aux (log entry 60). -/
def StatLine.values (l : StatLine) : List Word :=
  let nan (x : Word) := if l.n = 0 then quietNan else x
  [BitVec.ofNat 64 l.n, BitVec.ofNat 64 l.h, nan l.mean, if l.n = 0 then 0 else l.m2, nan l.mn, nan l.mx]

/-! ### Deviation sets (R198 to R203) -/

/-- x(back) of a sequence kept newest first. -/
def xBack (xs : List Int) (k : Nat) : Int := (xs[k]?).getD 0

/-- w: the sum of m values, the newest of them `back` values ago. -/
def xSum (xs : List Int) (back m : Nat) : Int := ((xs.drop back).take m).sum

/-- The square of a difference as binary64, the difference saturated (R202). -/
def squareOf (d : Int) : Word × Nat :=
  let c := max (-(2 ^ 63 - 1)) (min (2 ^ 63 - 1) d)
  let w := f64OfInt c
  (f64Mul w w, b2n (decide (2 ^ 63 - 1 < d.natAbs)))

/-- The terms of level k that the newest of L values completes (R201). -/
def devLevel (xs : List Int) (len k : Nat) (l : DevLevel) : DevLevel × Nat :=
  let m := 2 ^ k
  let st := 2 ^ (k - 2)
  let a : DevLevel × Nat :=
    if 2 * m + 1 ≤ len && (len - 1 - 2 * m) % st = 0 then
      let (q, r) := squareOf (xBack xs 0 - 2 * xBack xs m + xBack xs (2 * m))
      ({ l with sa := f64Add l.sa q, na := l.na + 1 }, r)
    else (l, 0)
  if 3 * m ≤ len && (len - 3 * m) % st = 0 then
    let (q, r) := squareOf (xSum xs 0 m - 2 * xSum xs m m + xSum xs (2 * m) m)
    ({ a.1 with sm := f64Add a.1.sm q, nm := a.1.nm + 1 }, a.2 + r)
  else a

/-- A value x_j joins the segment. -/
def DevSet.push (d : DevSet) (x : Int) : DevSet :=
  let xs := x :: d.xs
  let ls := if d.levels = [] then List.replicate 21 {} else d.levels
  let out := (List.range ls.length).map fun k => devLevel xs xs.length k ((ls[k]?).getD {})
  { d with xs := xs, levels := out.map Prod.fst, range := d.range + (out.map Prod.snd).sum }

/-- A value reaches a deviation set (R198, R200): `g` is its grid number, `ds` the decimation before the STATS stage. -/
def DevSet.feed (d : DevSet) (v : Stream) (held : Bool) (g : Int) (ds p t : Nat) (fl : BitVec 10) : DevSet :=
  let v0 := v.toUnits d.dq
  let u := max (-(2 ^ 63 - 1)) (min (2 ^ 63 - 1) v0)
  let sat := decide (2 ^ 63 - 1 < v0.natAbs)
  let joins := match d.lastG with | some p => decide (g = (p : Int) + ds) | none => false
  let d0 := if joins then d else { d with xs := [], segments := d.segments + 1 }
  let d1 := if d.modeY && !joins then d0.push 0 else d0
  let d2 := d1.push (if d.modeY then xBack d1.xs 0 + u else u)
  let n := d.inputs + 1
  { d2 with inputs := n, held := d.held + b2n held, range := d2.range + b2n sat, lastG := some g.toNat, dUsed := ds, period := p
            first := if d.inputs = 0 then t else d.first, last := t, flags := d.flags ||| fl
            due := d.reportN ≠ 0 && n % (max 1 d.reportN) = 0 }

/-- A set with its settings kept and its contents cleared. -/
def DevSet.clear (d : DevSet) : DevSet :=
  { modeY := d.modeY, dq := d.dq, unit := d.unit, reportN := d.reportN, bank := d.bank, dUsed := d.dUsed, period := d.period }

/-- ADEV, MDEV and TDEV of a level (R201), in binary64, each operation rounded, in the order written (log entry 12). `tau0` is
τ0. -/
def devReportLevel (unit tau0 : Word) (k : Nat) (l : DevLevel) : Word × Word × Word :=
  let m := f64OfInt (2 ^ k : Nat)
  let tau := f64Mul m tau0
  let u2 := f64Mul unit unit
  let tt := f64Mul (f64OfInt 2) (f64Mul tau tau)
  let adev := if l.na = 0 then quietNan else f64Sqrt (f64Div (f64Mul l.sa u2) (f64Mul tt (f64OfInt l.na)))
  let mdev := if l.nm = 0 then quietNan
    else f64Sqrt (f64Div (f64Mul l.sm u2) (f64Mul (f64Mul tt (f64Mul m m)) (f64OfInt l.nm)))
  let tdev := if l.nm = 0 then quietNan else f64Div (f64Mul tau mdev) (f64Sqrt (f64OfInt 3))
  (adev, mdev, tdev)

/-- The 67 values of a set (R213). -/
def DevSet.values (d : DevSet) : List Word :=
  let tau0 := f64Div (f64OfInt (d.period * d.dUsed : Nat)) (f64OfInt secQ)
  let ls := if d.levels = [] then List.replicate 21 {} else d.levels
  let r := (List.range ls.length).map fun k => devReportLevel d.unit tau0 k ((ls[k]?).getD {})
  [BitVec.ofNat 64 d.inputs, BitVec.ofNat 64 d.held, BitVec.ofNat 64 d.range, BitVec.ofNat 64 d.segments] ++
    r.map (·.1) ++ r.map (·.2.1) ++ r.map (·.2.2)

/-! ### Histograms (R204 to R207) -/

/-- The bin of a value (R205). -/
def Histo.binOf (h : Histo) (u : Int) : Nat :=
  if u < h.origin then 0
  else if h.origin + 1022 * (2 ^ h.w : Nat) ≤ u then 1023
  else 1 + ((u - h.origin) / (2 ^ h.w : Nat)).toNat

/-- Bins a value of time `t`. -/
def Histo.put (h : Histo) (u : Int) (held : Bool) (t : Nat) (fl : BitVec 10) : Histo :=
  let b := h.binOf u
  let n := tget 0 h.bins b
  { h with bins := if n = 2 ^ 32 - 1 then h.bins else tput h.bins b (n + 1)
           satBins := if n + 1 = 2 ^ 32 - 1 then h.satBins + 1 else h.satBins
           binned := h.binned + 1, held := h.held + b2n held
           first := if h.binned = 0 then t else h.first, last := t, flags := h.flags ||| fl }

/-- Cleared, with its settings kept; AUTO periods begin at `began`. -/
def Histo.clear (h : Histo) (began : Nat) : Histo :=
  { auto := h.auto, mode := h.mode, w := h.w, hq := h.hq, origin := h.origin, target := h.target, stop := h.stop
    began := began, bank := h.bank, bank2 := h.bank2 }

/-- The 516 values of a HISTO_DONE (R214). -/
def Histo.values (h : Histo) (no : Nat) (reasons : Nat) : List Word :=
  [BitVec.ofNat 64 (h.binned % 2 ^ 48), BitVec.ofNat 64 (h.skipped % 2 ^ 48), BitVec.ofNat 64 (h.held % 2 ^ 48),
   BitVec.ofNat 64 (packBits [(0, 6, reasons), (6, 2, no), (8, 3, h.mode), (11, 1, b2n h.auto), (16, 12, h.satBins),
     (32, 32, min (2 ^ 32 - 1) h.after)])] ++
    (List.range 512).map fun i => BitVec.ofNat 64 (tget 0 h.bins (2 * i) + 2 ^ 32 * tget 0 h.bins (2 * i + 1))

/-! ### Reports (R213, R214) -/

/-- The reasons of a STATS record (R364). -/
inductive Reason where
  | read | auto | restart | release | retire
  deriving DecidableEq, Repr

def Reason.code : Reason → Nat
  | .read => 1 | .auto => 2 | .restart => 3 | .release => 4 | .retire => 5

/-- An engine completes event equivalents (R221). -/
def State.engineWork (s : State) (e k : Nat) : State :=
  { s with plc := { s.plc with workNow := tmod 0 s.plc.workNow e (· + k) }
           flt := { s.flt with engWork := tmod 0 s.flt.engWork e fun x => (x + k) % 2 ^ 48 } }

/-- Adds event equivalents (R194, R215): to the channel's figure and its engine's; a twin runs the same on its own engine (R218,
R221). -/
def State.addWork (s : State) (c k : Nat) : State :=
  let p := (s.chan c).place
  let s1 := (s.modChan c fun ch => { ch with place :=
    { p with work := p.work + k, twinWork := if p.twin.isSome then p.twinWork + k else 0 } }).engineWork p.engine k
  match p.twin with
  | some x => s1.engineWork x k
  | none => s1

/-- Puts out a STATS record with the parts that are given: one event equivalent for each value (R213, R215). -/
def State.statsRecord (s : State) (c : Nat) (reason : Reason) (line : Option StatLine) (dev : Option DevSet) : State :=
  let ch := s.chan c
  let body := (match line with | some l => l.values | none => []) ++ (match dev with | some d => d.values | none => [])
  let sat := match line with | some l => l.sat | none => false
  let restored := (match line with | some l => l.restored | none => false) ||
    (match dev with | some d => d.restored | none => false)
  let firsts := (match line with | some l => if l.n = 0 then [] else [l.first] | none => []) ++
    (match dev with | some d => if d.inputs = 0 then [] else [d.first] | none => [])
  let lasts := (match line with | some l => [l.last] | none => []) ++ (match dev with | some d => [d.last] | none => [])
  let fst := firsts.foldl min (firsts.headD 0)
  let fl := (match line with | some l => l.flags | none => 0) ||| (match dev with | some d => d.flags | none => 0)
  (s.addWork c body.length).chanRec c ch.decl
    { type := 9, flags := fl, aux := b2n line.isSome + 2 * b2n dev.isSome + 4 * b2n sat, time := lasts.foldl max 0
      code := if restored then 6 else reason.code, spec0 := fst % 2 ^ 32, spec1 := fst / 2 ^ 32, body := body }
    [] { time := 0, count := 0, phase := 0 }

/-- Puts out a HISTO_DONE of histogram `no` as it stands, for the reasons in the mask. -/
def State.histoRecord (s : State) (c no : Nat) (h : Histo) (reasons : Nat) : State :=
  let r := reasons ||| (if h.restored then 32 else 0)
  (s.addWork c 516).chanRec c (s.chan c).decl
    { type := 10, flags := h.flags, aux := no, time := h.last, spec0 := h.first % 2 ^ 32, spec1 := h.first / 2 ^ 32
      body := h.values no r }
    [] { time := 0, count := 0, phase := 0 }

/-- An automatic report that is due (R208, R211). -/
def State.devReportDue (s : State) (c : Nat) : State :=
  match (s.chan c).dev with
  | some d =>
    if d.due then
      let s1 := s.statsRecord c .auto none (some d)
      s1.modChan c fun ch => { ch with dev := some { d with due := false, restored := false } }
    else s
  | none => s

/-- Delivers a completion of a ONE_SHOT histogram that has still to be delivered (R206). -/
def State.histoDue (s : State) (c no : Nat) : State :=
  match tget? (s.chan c).histos no with
  | some h =>
    if h.reasons ≠ 0 && !h.auto then
      let s1 := s.histoRecord c no h h.reasons.toNat
      s1.modChan c fun ch => { ch with histos := tput ch.histos no { h with reasons := 0, restored := false } }
    else s
  | none => s

/-- Ends the present AUTO period for the reasons of the mask; the next begins at `began` (R207). -/
def State.histoPeriod (s : State) (c no reasons began : Nat) : State :=
  match tget? (s.chan c).histos no with
  | some h =>
    let s1 := (s.histoRecord c no h reasons).addWork c 64
    s1.modChan c fun ch => { ch with histos := tput ch.histos no (h.clear began) }
  | none => s

/-- Delivers what a histogram has still to deliver before anything else happens to it. -/
def State.histoFlush (s : State) (c no : Nat) : State :=
  match tget? (s.chan c).histos no with
  | some h => if h.auto && h.reasons ≠ 0 then s.histoPeriod c no 1 h.began else s.histoDue c no
  | none => s

/-- Ends the AUTO periods that a value of time `t` has left behind. -/
def State.histoCatchUp : Nat → State → Nat → Nat → Nat → State
  | 0, s, _, _, _ => s
  | k + 1, s, c, no, t =>
    match tget? (s.chan c).histos no with
    | some h =>
      if h.auto && h.reasons ≠ 0 then State.histoCatchUp k (s.histoPeriod c no 1 h.began) c no t
      else if h.auto && h.stop ≠ 0 && h.began + h.stop ≤ t then
        State.histoCatchUp k (s.histoPeriod c no 2 (h.began + h.stop)) c no t
      else s
    | none => s

/-- Fuel for the periods up to `t`. -/
def State.periodsTo (s : State) (c no t : Nat) : Nat :=
  match tget? (s.chan c).histos no with
  | some h => if h.stop = 0 then 2 else (t - h.began) / h.stop + 3
  | none => 0

/-- What a histogram has still to deliver, and the AUTO periods that have ended by `t`, come before a read, a release or a final
report at `t` (R207, R210). -/
def State.histoSettle (s : State) (c no t : Nat) : State :=
  (State.histoCatchUp (s.periodsTo c no t) s c no t).histoFlush c no

/-- A value of time `t` reaches histogram `no` (R205 to R207); in the interval modes it costs one event equivalent (R215). -/
def State.histoFeed (s : State) (c no : Nat) (u : Int) (held : Bool) (t : Nat) (fl : BitVec 10) : State :=
  let s1 := (State.histoCatchUp (s.periodsTo c no t) s c no t).histoDue c no
  match tget? (s1.chan c).histos no with
  | none => s1
  | some h =>
    let put (h1 : Histo) : State :=
      let s2 := s1.modChan c fun ch => { ch with histos := tput ch.histos no h1 }
      if h.mode ≠ 0 && h1.binned ≠ h.binned then s2.addWork c 1 else s2
    if h.done then put { h with after := h.after + 1 }
    else
      let full := h.target ≠ 0 && h.binned + 1 = h.target
      let ended := !h.auto && h.stop ≠ 0 && h.stop ≤ t
      if h.auto then
        let h1 := h.put u held t fl
        -- the period that a value completes by count ends there; the next begins at its time
        put (if full then { h1 with reasons := 1, began := t } else h1)
      else if full then put { h.put u held t fl with done := true, reasons := if ended then 3 else 1 }
      else if ended then put { h with done := true, reasons := 2 }
      else put (h.put u held t fl)

/-- An interval-mode histogram skips `k` intervals (R204, R215). -/
def State.histoSkip (s : State) (c no k t : Nat) : State :=
  let s1 := (State.histoCatchUp (s.periodsTo c no t) s c no t).histoDue c no
  match tget? (s1.chan c).histos no with
  | none => s1
  | some h =>
    if h.done then s1
    else (s1.modChan c fun ch => { ch with histos := tput ch.histos no { h with skipped := h.skipped + k } }).addWork c k

/-- The histograms of a channel in a mode. -/
def Chan.histosIn (ch : Chan) (mode : Nat) : List Nat := (ch.histos.filter fun x => x.2.mode == mode).map Prod.fst

/-! ### Statistics descriptors take effect (R210) -/

/-- The bank of a new target: the serving engine's, or, when that is full, the one with the most free room (R219, R223 step 4). -/
def freeBank (used : List Nat) (per engine : Nat) : Nat :=
  let room (b : Nat) : Nat := per - (used.filter (· == b)).length
  if 0 < room engine then engine
  else ((List.range 16).foldl (fun best b => if room best < room b then b else best) 0)

/-- The banks of a histogram's entries: an AUTO histogram holds two (R207). -/
def Histo.banks (h : Histo) : List Nat := if h.auto then [h.bank, h.bank2] else [h.bank]

/-- The banks that the sets and the histogram entries lie in, those with the room that a target move under way has reserved. -/
def State.devBanks (s : State) : List Nat :=
  (s.chans.filterMap fun x => x.2.dev.map (·.bank)) ++
    s.plc.castlings.filterMap fun k => if k.move.target = some 4 then some k.move.toEngine else none
def State.histoBanks (s : State) : List Nat :=
  (s.chans.flatMap fun x => x.2.histos.flatMap fun h => h.2.banks) ++
    s.plc.castlings.flatMap fun k => match k.move.target with
      | some t => (match tget? (s.chan k.move.chan).histos t with
          | some h => (h.banks.filter (· != k.move.toEngine)).map fun _ => k.move.toEngine
          | none => [])
      | none => []

/-- A histogram goes at `t`, with its final report. -/
def State.histoRelease (s : State) (c no t : Nat) : State :=
  let s1 := s.histoSettle c no t
  match tget? (s1.chan c).histos no with
  | some h => (s1.histoRecord c no h 8).modChan c fun ch => { ch with histos := tdel ch.histos no }
  | none => s1

/-- A statistics descriptor takes effect at t_q. -/
def State.targetApply (s : State) (c : Nat) (op : TargetOp) (tq : Nat) : State :=
  let eng := (s.chan c).place.engine
  match op with
  | .dev release y dq unit n tag _ _ =>
    let s0 := s.devReportDue c
    let s1 := match (s0.chan c).dev with
      | some d => (s0.statsRecord c .release none (some d)).modChan c fun ch => { ch with dev := none }
      | none => s0
    let d1 : DevSet := { modeY := y, dq := dq, unit := unit, reportN := n, bank := freeBank s1.devBanks 512 eng }
    let s2 := if release then s1 else s1.modChan c fun ch => { ch with dev := some d1 }
    s2.imageChanged.chanAck c 9 tag tq []
  | .histo release no h tag _ _ =>
    let s1 := s.histoRelease c no tq
    let b1 := freeBank s1.histoBanks 256 eng
    let h1 := { h with bank := b1, bank2 := if h.auto then freeBank (b1 :: s1.histoBanks) 256 eng else 0, began := tq }
    let s2 := if release then s1 else s1.modChan c fun ch => { ch with histos := tput ch.histos no h1 }
    s2.imageChanged.chanAck c 10 tag tq []
  | .read line dev histos clear _ _ =>
    let s0 := s.devReportDue c
    let ch := s0.chan c
    let s1 := if line || dev then
        let r := s0.statsRecord c .read (if line then some ch.line else none) (if dev then ch.dev else none)
        r.modChan c fun ch => { ch with
          line := if line then (if clear then {} else { ch.line with restored := false }) else ch.line
          dev := if dev then (ch.dev.map fun d => if clear then d.clear else { d with restored := false }) else ch.dev }
      else s0
    ((tkeys ch.histos).filter fun no => histos.getLsbD no).foldl (fun s no =>
      let s1 := s.histoSettle c no tq
      match tget? (s1.chan c).histos no with
      | some h =>
        let s2 := s1.histoRecord c no h 4
        let h1 := if clear then h.clear tq else { h with done := h.done || !h.auto, restored := false }
        s2.modChan c fun ch => { ch with histos := tput ch.histos no h1 }
      | none => s1) s1

/-- A statistics descriptor concerns a histogram in an interval mode: it takes effect with the first stamp at or after t_q.
The part of a read that concerns other targets stays. -/
def State.splitTarget (s : State) (c : Nat) : TargetOp → Option TargetOp × Option TargetOp
  | .dev r y q u n tag a b => (none, some (.dev r y q u n tag a b))
  | .histo r no h tag a b =>
    let old := match tget? (s.chan c).histos no with | some x => x.mode | none => 0
    if (if r then old else h.mode) = 0 then (none, some (.histo r no h tag a b)) else (some (.histo r no h tag a b), none)
  | .read l d hs cl a b =>
    let iv := (s.chan c).histos.foldl (fun (m : BitVec 4) x => if x.2.mode = 0 then m else m ||| (1#4 <<< x.1)) 0
    let now := hs &&& iv
    let rest := hs &&& ~~~iv
    (if now = 0 then none else some (.read false false now cl a b),
     if l || d || rest != 0 then some (.read l d rest cl a b) else none)

/-- The descriptors whose t_q is at or before stamp `t` take effect on the interval-mode histograms (R210). -/
def State.intervalTargets (s : State) (c t : Nat) : State :=
  (s.chan c).targets.foldl (fun s o =>
    match o.2 with
    | some tq =>
      if tq ≤ t then
        let (now, rest) := s.splitTarget c o.1
        let s1 := s.modChan c fun ch => { ch with targets := ch.targets ++ (rest.map (·, some tq)).toList }
        match now with
        | some op => s1.targetApply c op tq
        | none => s1
      else s.modChan c fun ch => { ch with targets := ch.targets ++ [o] }
    | none => s.modChan c fun ch => { ch with targets := ch.targets ++ [o] })
    (s.modChan c fun ch => { ch with targets := [] })

/-- An interval of `mode` closes at stamp `t` with its corrected length (R204): it began at `t0`. -/
def State.interval (s : State) (c mode : Nat) (len : Int) (t0 t : Nat) : State :=
  let s0 := s.intervalTargets c t
  ((s0.chan c).histosIn mode).foldl (fun s no => s.histoFeed c no len false t (s.timeFlags [t0, t])) s0

/-- `k` intervals of `mode` are skipped at stamp `t` (R204). -/
def State.intervalSkip (s : State) (c mode k t : Nat) : State :=
  let s0 := s.intervalTargets c t
  ((s0.chan c).histosIn mode).foldl (fun s no => s.histoSkip c no k t) s0

/-- A STATS stage feeds its targets (R187, R196): `g` the grid number, `ds` the decimation before the stage, `p` the period. -/
def State.statsFeed (s : State) (c : Nat) (v : Stream) (held : Bool) (toLine toDev toHisto : Bool) (g : Int) (ds p t : Nat)
    (fl : BitVec 10) : State :=
  let s1 := if toLine then s.modChan c fun ch => { ch with line := ch.line.feed v.toReal held t fl } else s
  let s2 := if toDev then
      let s0 := s1.devReportDue c
      s0.modChan c fun ch => { ch with dev := ch.dev.map fun d => d.feed v held g ds p t fl }
    else s1
  if toHisto then
    ((s2.chan c).histosIn 0).foldl (fun s no =>
      match tget? (s.chan c).histos no with
      | some h => s.histoFeed c no (v.toUnits h.hq) held t fl
      | none => s) s2
  else s2

/-- A change of τ0 restarts the set, with a report of the inputs before it (R203). -/
def State.devRestart (s : State) (c : Nat) : State :=
  match (s.chan c).dev with
  | some d =>
    let s1 := (s.devReportDue c).statsRecord c .restart none (some { d with due := false })
    s1.modChan c fun ch => { ch with dev := some d.clear }
  | none => s

/-- A write of CAD_PERIOD has changed τ0: the set restarts once every input of the old grid has reached it (R203). -/
def State.gridRestart (s : State) (c : Nat) : State :=
  let ch := s.chan c
  match ch.gridCut with
  | some w =>
    if ch.instants.any (fun t => decide (t ≤ w)) then s else (s.devRestart c).modChan c fun ch => { ch with gridCut := none }
  | none => s

/-- The channel is retired at `t`: final reports of the line, the set and every histogram, which are then freed (R212). -/
def State.finalReports (s : State) (c t : Nat) : State :=
  let s1 := s.devReportDue c
  let ch := s1.chan c
  let s2 := (tkeys ch.histos).foldl (fun s no => s.histoSettle c no t) s1
  let s3 := s2.statsRecord c .retire (some (s2.chan c).line) (s2.chan c).dev
  let s4 := (tkeys ch.histos).foldl (fun s no =>
    match tget? (s.chan c).histos no with
    | some h => s.histoRecord c no h 16
    | none => s) s3
  s4.modChan c fun ch => { ch with dev := none, histos := [] }

end Sys2Proof.Machine
end

