-- ==== Sys2Proof/Machine/Recipe.lean ====
section
/-! DEFINITION. Recipes and filters (07): images, banks and their checks, the stages, and the run of a recipe at a resolved
instant. -/

namespace Sys2Proof.Machine

/-! ### Images and banks (R172 to R174, R179) -/

/-- The image of a recipe slot and the contents of a bank, as dwords. -/
def State.recipe (s : State) (slot : Nat) : List Dword := tget [] s.recipes slot
def State.bank (s : State) (b : Nat) : List Dword := tget [] s.banks b

/-- A dword of an image, zero beyond its end. -/
def dwordAt (l : List Dword) (i : Nat) : Nat := ((l[i]?).getD 0).toNat

/-- A number of `n` dwords. -/
def dwordsAt (l : List Dword) (i : Nat) : Nat → Nat
  | 0 => 0
  | n + 1 => dwordAt l i + 2 ^ 32 * dwordsAt l (i + 1) n

/-- Stages of an image, at most 12, and its tag. -/
def stageCount (img : List Dword) : Nat := min 12 (dwordAt img 0 % 16)
def recipeTag (img : List Dword) : Nat := dwordAt img 1

/-- The 32 bytes of stage entry k as a number. -/
def stageEntry (img : List Dword) (k : Nat) : Nat := dwordsAt img (8 + 8 * k) 8

/-- A field of a stage entry: byte offset, low bit, width. -/
def sf (e off lo w : Nat) : Nat := fieldOf e (8 * off + lo) w

/-- The stage types of R173. -/
inductive StageType where
  | derive | cic | fir | biquad | scale | poly | window | stats | emit
  deriving DecidableEq, Repr

/-- The type of a stage entry; none for a reserved code. -/
def stageType (e : Nat) : Option StageType :=
  match sf e 0 0 4 with
  | 1 => some .derive | 2 => some .cic | 3 => some .fir | 4 => some .biquad | 5 => some .scale | 6 => some .poly
  | 7 => some .window | 8 => some .stats | 9 => some .emit | _ => none

/-- Taps of a FIR stage (R182). -/
def firLength (e : Nat) : Nat :=
  let k := sf e 0 24 7 + 1
  match sf e 0 16 2 with | 1 => 2 * k - 1 | 2 => 2 * k | _ => k

/-- Decimation ratio of a stage. -/
def stageRatio (e : Nat) : Nat :=
  match stageType e with
  | some .cic => sf e 0 16 16 + 1
  | some .fir => sf e 4 0 8 + 1
  | _ => 1

/-- Group delay of a stage in 1/256 of its input periods (R181 to R185). -/
def stageDelay (e : Nat) : Nat :=
  match stageType e with
  | some .cic => sf e 0 8 3 * sf e 0 16 16 * 128
  | some .fir => if sf e 0 16 2 = 0 then sf e 8 0 32 else (firLength e - 1) * 128
  | some .biquad => sf e 8 0 32
  | _ => 0

/-- Bytes of state of a stage (R192). -/
def stageBytes (e : Nat) : Nat :=
  match stageType e with
  | some .derive => 20
  | some .cic => 36 * sf e 0 8 3 + 8
  | some .fir => 8 * firLength e + 8
  | some .biquad => 36
  | some .scale | some .poly | some .stats => 4
  | some .window | some .emit => 8
  | none => 0

/-- The entries of an image's stages. -/
def stageEntries (img : List Dword) : List Nat := (List.range (stageCount img)).map (stageEntry img)

/-- State lines of a recipe (R192). -/
def recipeLines (img : List Dword) : Nat :=
  if stageCount img = 0 then 0 else ceilDiv (16 + ((stageEntries img).map stageBytes).sum) 64

/-- The product of the decimation ratios of stages. -/
def ratioOf (es : List Nat) : Nat := es.foldl (fun d e => d * stageRatio e) 1

/-! ### Checks of an image (R173, R176) -/

/-- Bits a stage entry may have set. -/
def stageMask (e : Nat) : Nat :=
  let all (l : List (Nat × Nat × Nat)) : Nat := packBits ((0, 4, 15) :: l.map fun (off, lo, w) => (8 * off + lo, w, 2 ^ w - 1))
  match stageType e with
  | some .derive => all [(0, 8, 3), (0, 12, 2), (0, 16, 6), (8, 0, 64)]
  | some .cic => all [(0, 8, 3), (0, 16, 16)]
  | some .fir => all ([(0, 8, 6), (0, 16, 2), (0, 24, 7), (4, 0, 8)] ++ if sf e 0 16 2 = 0 then [(8, 0, 32)] else [])
  | some .biquad => all [(0, 8, 6), (0, 16, 2), (4, 0, 16), (8, 0, 32)]
  | some .scale => all [(8, 0, 64), (16, 0, 64)]
  | some .poly => all [(0, 8, 6), (0, 16, 3)]
  | some .window => all [(0, 8, 1), (0, 16, 8), (8, 0, 64), (16, 0, 64)]
  | some .stats => all [(0, 8, 3)]
  | some .emit => all ([(0, 8, 1), (0, 16, 8)] ++ if sf e 0 8 1 = 1 then [(4, 0, 12)] else [])
  | none => 0

/-- A stage moves the stream into the binary64 domain (R167). -/
def entersReal (e : Nat) : Bool :=
  match stageType e with
  | some .biquad | some .scale | some .poly => true
  | _ => false

/-- The stream is binary64 at the input of the stage behind these. -/
def isReal (before : List Nat) : Bool := before.any entersReal

/-- Ones in a mask of 8 bits. -/
def popcount8 (v : Nat) : Nat := ((List.range 8).map fun i => v / 2 ^ i % 2).sum

/-- Outputs of a PARCEL stage, and values of an output (R188). -/
def emitOutputs (e : Nat) : Nat := if sf e 4 0 12 = 0 then 4096 else sf e 4 0 12
def emitValues (e : Nat) : Nat := 1 + popcount8 (sf e 0 16 8)

/-- Check 1 of R176 on a stage. -/
def stageFieldOk (before : List Nat) (e : Nat) : Bool :=
  (stageType e).isSome && (e &&& stageMask e) == e &&
    (match stageType e with
     | some .derive => decide (sf e 0 12 2 ≤ 1)
     | some .fir => sf e 0 16 2 != 3
     | some .scale => f64Finite (BitVec.ofNat 64 (sf e 8 0 64)) && f64Finite (BitVec.ofNat 64 (sf e 16 0 64))
     | some .window => !isReal before ||
        (f64Finite (BitVec.ofNat 64 (sf e 8 0 64)) && f64Finite (BitVec.ofNat 64 (sf e 16 0 64)))
     | _ => true)

/-- Check 2 of R176 on a stage. -/
def stageRangeOk (before : List Nat) (e : Nat) : Bool :=
  match stageType e with
  | some .derive => decide (sf e 0 16 6 ≤ 48)
  | some .cic => decide (1 ≤ sf e 0 8 3 ∧ sf e 0 8 3 ≤ 5 ∧ 1 ≤ sf e 0 16 16)
  | some .fir => decide (sf e 0 16 2 ≠ 2 ∨ sf e 0 24 7 ≤ 126)
  | some .poly => decide (1 ≤ sf e 0 16 3 ∧ sf e 0 16 3 ≤ 5)
  | some .window => decide (1 ≤ sf e 0 16 8) &&
      (if isReal before then f64Le (BitVec.ofNat 64 (sf e 8 0 64)) (BitVec.ofNat 64 (sf e 16 0 64))
       else decide (sx 64 (sf e 8 0 64) ≤ sx 64 (sf e 16 0 64)))
  | some .emit => sf e 0 8 1 = 0 || decide (emitOutputs e * emitValues e ≤ 4096)
  | _ => true

/-- Every stage passes a check, which sees the stages before it. -/
def stagesOk (f : List Nat → Nat → Bool) : List Nat → List Nat → Bool
  | _, [] => true
  | before, e :: r => f before e && stagesOk f (before ++ [e]) r

/-- The chain rules of R173. -/
def chainOk (img : List Dword) : Bool :=
  let es := stageEntries img
  let n (t : StageType) := (es.filter fun e => stageType e == some t).length
  es = [] || (
    (es.head?.map fun e => stageType e == some .derive) == some true && n .derive == 1 &&
    stagesOk (fun before e => (stageType e != some .cic && stageType e != some .fir) || !isReal before) [] es &&
    decide (n .biquad ≤ 4 ∧ n .window ≤ 2 ∧ n .stats ≤ 1 ∧ n .emit ≤ 4) &&
    decide (ratioOf es ≤ 16777216) && decide (recipeLines img ≤ 64))

/-- The first failing check of an image (R176): 1 FIELD, 2 LENGTH, 7 CHAIN. -/
def imageCheck (img : List Dword) : Option Nat :=
  let es := stageEntries img
  let n := dwordAt img 0 % 16
  if dwordAt img 0 / 16 ≠ 0 || dwordsAt img 2 6 ≠ 0 || dwordsAt img (8 + 8 * min 12 n) (8 * (12 - min 12 n)) ≠ 0 ||
      !stagesOk stageFieldOk [] es then some 1
  else if 12 < n || !stagesOk stageRangeOk [] es then some 2
  else if !chainOk img then some 7
  else none

/-! ### Filters -/

/-- n (n−1) … (n−k+1) / k!. -/
def binom (n : Nat) : Nat → Nat
  | 0 => 1
  | k + 1 => binom n k * (n - k) / (k + 1)

/-- The integrators of a CIC after `n` inputs of x (R169, R181). -/
def cicInts (x : Int) (n : Nat) (order : Nat) : List Int := (List.range order).map fun k => x * (binom (n + k) (k + 1) : Nat)

/-- The combs' delays of a CIC in the steady state of a constant x: the k-th differences of the last integrator at the last
output. -/
def cicCombs (x : Int) (d order : Nat) : List Int :=
  (List.range order).map fun k =>
    ((List.range (k + 1)).map fun r =>
      (if r % 2 = 0 then 1 else -1) * (binom k r : Nat) * (x * (binom (d * (order - r) + order - 1) order : Nat))).sum

/-- The integrators take an input, each the new value of the one before it. -/
def cicStep (x : Int) : List Int → List Int
  | [] => []
  | a :: r => let y := (a + x) % (2 ^ 144); y :: cicStep y r

/-- The combs, each differencing by one output: the result and the new delays. -/
def cicComb (x : Int) : List Int → Int × List Int
  | [] => (x, [])
  | a :: r => let (y, q) := cicComb (x - a) r; (y, x :: q)

/-- A coefficient of a FIR: 24 bits, signed (R174). -/
def firCoef (bank : List Dword) (i : Nat) : Int := sx 24 (dwordAt bank i)

/-- Tap i of a FIR stage (R182). -/
def firTap (bank : List Dword) (e i : Nat) : Int :=
  if sf e 0 16 2 = 0 then firCoef bank i else firCoef bank (min i (firLength e - 1 - i))

/-- A binary64 of a bank at a byte offset. -/
def bankReal (bank : List Dword) (off : Nat) : Word := BitVec.ofNat 64 (dwordsAt bank (off / 4) 2)

/-- Horner's rule (R185) from coefficient k − 1 down. -/
def horner (bank : List Dword) (x : Word) : Nat → Word → Word
  | 0, y => y
  | k + 1, y => horner bank x k (f64Add (f64Mul y x) (bankReal bank (672 + 8 * k)))

/-! ### The run (R166 to R171, R189 to R191) -/

/-- The instant a recipe runs at. -/
structure RunAt where
  chan : Nat
  decl : Decl
  time : Nat
  /-- grid number and cadence period -/
  g : Nat
  period : Nat
  qs : Quantities
  /-- flags of the instant itself -/
  flags : BitVec 10
  /-- the instant has no previous one in its chain and its cadence's run (R163, R170) -/
  first : Bool
  /-- edges the instant was computed from -/
  used : Used
  where_ : At
  deriving DecidableEq, Repr

/-- The stream between two stages. -/
structure Run where
  v : Stream := .fixed 0 0
  held : Bool := false
  flags : BitVec 10 := 0
  /-- stages that saturated in this run -/
  sat : Nat := 0
  /-- product of the decimation ratios of the stages before, and their delay in 1/256 of the cadence period -/
  ratio : Nat := 1
  delay : Nat := 0
  /-- EMIT stages before -/
  emits : Nat := 0
  deriving DecidableEq, Repr

/-- The state of stage k of a channel. -/
def State.stage (s : State) (c k : Nat) : StageState := (((s.chan c).stages)[k]?).getD {}

/-- Replaces an element of a list, which is lengthened as needed. -/
def listSet (l : List StageState) : Nat → StageState → List StageState
  | 0, x => x :: l.tail
  | k + 1, x => l.headD {} :: listSet l.tail k x

def State.setStage (s : State) (c k : Nat) (x : StageState) : State :=
  s.modChan c fun ch => { ch with stages := listSet ch.stages k x }

/-- Support of a stage, in inputs (R189). -/
def stageSupport (e : Nat) : Nat :=
  match stageType e with
  | some .cic => sf e 0 8 3 * sf e 0 16 16 + 1
  | some .fir => firLength e
  | some .biquad => if sf e 4 0 16 = 0 then 64 else sf e 4 0 16
  | _ => 1

/-- The flag memory takes an input (R189): the flags of the output, and the memory after it. -/
def flagMemory (x : StageState) (support : Nat) (fl : BitVec 10) : BitVec 10 × StageState :=
  let m := x.memFlags ||| fl
  let c := if fl = 0 then x.memCount else max x.memCount support
  (m, { x with memCount := c - 1, memFlags := if c ≤ 1 then 0 else m })

/-- An output leaves a decimating stage at this instant (R171). -/
def outputs (g ratio : Nat) : Bool := g % ratio == ratio - 1

/-- DERIVE (R180, R168). Its flags cover its whole memory (R7, R189): a difference carries those of the previous quantity, a
hold those of the value it passes on again. -/
def State.runDerive (s : State) (a : RunAt) (e : Nat) : Option Run × State :=
  let x := s.stage a.chan 0
  let q := ((a.qs[sf e 0 8 3]?).getD none)
  let frac := sf e 0 16 6
  let diff := sf e 0 12 2 = 1
  let own := a.flags ||| (q.map (·.flags)).getD 0
  -- the value or its difference, as an exact fraction of 2^f0
  let val : Option (Int × Nat) := match q with
    | some q =>
      if !diff then some (q.v, q.frac)
      else if a.first then none
      else x.prev.map fun p => (q.v - p, q.frac)
    | none => none
  let x1 := { x with prev := q.map (·.v), prevFlags := own }
  match val with
  | some (v, f0) =>
    let ref := sx 64 (sf e 8 0 64)
    let u := rdiv ((v - ref * (2 ^ f0 : Nat)) * (2 ^ frac : Nat)) (2 ^ f0)
    let y := max (-(2 ^ 63 - 1)) (min (2 ^ 63 - 1) u)
    let fl0 := own ||| (if diff then x.prevFlags else 0)
    let (fl, x2) := flagMemory { x1 with hold := some y, holdFlags := fl0 } 1 fl0
    (some { v := .fixed y frac, flags := fl, sat := if y = u then 0 else 1 }, s.setStage a.chan 0 x2)
  | none =>
    match x.hold with
    | some y =>
      let (fl, x2) := flagMemory x1 1 (a.flags ||| x.holdFlags ||| fExtrap)
      (some { v := .fixed y frac, held := true, flags := fl }, s.setStage a.chan 0 x2)
    | none => (none, s.setStage a.chan 0 x1)

/-- CIC (R181). -/
def State.runCic (s : State) (a : RunAt) (k e : Nat) (r : Run) : Option Run × State :=
  let x := s.stage a.chan k
  let n := sf e 0 8 3
  let d := sf e 0 16 16 + 1
  let v := match r.v with | .fixed v _ => v | .real _ => 0
  let frac := match r.v with | .fixed _ f => f | .real _ => 0
  let i := a.g / r.ratio
  let ints := if x.primed then x.ints else cicInts v (i % d + d * n) n ++ cicCombs v d n
  let step := cicStep v (ints.take n)
  let (fl, x1) := flagMemory x (stageSupport e) r.flags
  let ratio := r.ratio * d
  let next := { r with flags := fl, ratio := ratio, delay := r.delay + stageDelay e * r.ratio }
  if outputs a.g ratio then
    let (y, combs) := cicComb (step.getLast?.getD 0) (ints.drop n)
    let z := sx 144 (y % (2 ^ 144)).toNat
    (some { next with v := .fixed (rdiv z (d ^ n)) frac }, s.setStage a.chan k { x1 with primed := true, ints := step ++ combs })
  else (none, s.setStage a.chan k { x1 with primed := true, ints := step ++ ints.drop n })

/-- FIR (R182). -/
def State.runFir (s : State) (a : RunAt) (k e : Nat) (r : Run) : Option Run × State :=
  let x := s.stage a.chan k
  let len := firLength e
  let v := match r.v with | .fixed v _ => v | .real _ => 0
  let frac := match r.v with | .fixed _ f => f | .real _ => 0
  let xs := (v :: (if x.primed then x.ints else List.replicate len v)).take len
  let (fl, x1) := flagMemory x (stageSupport e) r.flags
  let s1 := s.setStage a.chan k { x1 with primed := true, ints := xs }
  let ratio := r.ratio * (sf e 4 0 8 + 1)
  if outputs a.g ratio then
    let b := s.bank (sf e 0 8 6)
    let acc := ((List.range len).map fun i => firTap b e i * (xs[i]?).getD 0).sum
    let u := rdiv acc (2 ^ 22)
    let y := max (-(2 ^ 63 - 1)) (min (2 ^ 63 - 1) u)
    (some { r with v := .fixed y frac, flags := fl, sat := if y = u then r.sat else r.sat ||| 2 ^ k, ratio := ratio
                   delay := r.delay + stageDelay e * r.ratio }, s1)
  else (none, s1)

/-- A binary64 result is passed on where it is finite; otherwise the stage is reset and its bit is set (R168). Answers the
run, the stage's state, and whether the result passed. -/
def finish (r : Run) (k e : Nat) (y : Word) (fl : BitVec 10) (x : StageState) : Bool × Run × StageState :=
  if f64Finite y then (true, { r with v := .real y, flags := fl, delay := r.delay + stageDelay e * r.ratio }, x)
  else (false, { r with sat := r.sat ||| 2 ^ k }, {})

/-- BIQUAD (R183). -/
def runBiquad (x : StageState) (bank : List Dword) (k e : Nat) (r : Run) : Bool × Run × StageState :=
  let v := r.v.toReal
  let co (i : Nat) := bankReal bank (512 + 40 * sf e 0 16 2 + 8 * i)
  let den := f64Add (f64Add 0x3FF0000000000000 (co 3)) (co 4)
  let zero := den = 0 || den = 0x8000000000000000
  let y0 := f64Div (f64Mul v (f64Add (f64Add (co 0) (co 1)) (co 2))) den
  let st := if x.primed then x.reals else if zero then [0, 0, 0, 0] else [v, v, y0, y0]
  let at_ (i : Nat) := (st[i]?).getD 0
  let y := f64Sub (f64Sub (f64Add (f64Add (f64Mul (co 0) v) (f64Mul (co 1) (at_ 0))) (f64Mul (co 2) (at_ 1)))
    (f64Mul (co 3) (at_ 2))) (f64Mul (co 4) (at_ 3))
  let (fl, x1) := flagMemory x (stageSupport e) r.flags
  finish r k e y fl { x1 with primed := true, reals := [v, at_ 0, y, (at_ 2)] }

/-- SCALE (R184). -/
def runScale (x : StageState) (k e : Nat) (r : Run) : Bool × Run × StageState :=
  let (fl, x1) := flagMemory x 1 r.flags
  finish r k e (f64Add (f64Mul (BitVec.ofNat 64 (sf e 8 0 64)) r.v.toReal) (BitVec.ofNat 64 (sf e 16 0 64))) fl x1

/-- POLY (R185). -/
def runPoly (x : StageState) (bank : List Dword) (k e : Nat) (r : Run) : Bool × Run × StageState :=
  let n := sf e 0 16 3
  let (fl, x1) := flagMemory x 1 r.flags
  finish r k e (horner bank r.v.toReal n (bankReal bank (672 + 8 * n))) fl x1

/-- A stream value as it stands in a record. -/
def Stream.word : Stream → Word
  | .fixed v _ => wordOf v
  | .real w => w

/-- WINDOW (R186). -/
def State.runWindow (s : State) (a : RunAt) (k e tag : Nat) (r : Run) : State :=
  let x := s.stage a.chan k
  let lo := BitVec.ofNat 64 (sf e 8 0 64)
  let hi := BitVec.ofNat 64 (sf e 16 0 64)
  let inside := match r.v with
    | .fixed v _ => decide (lo.toInt ≤ v ∧ v ≤ hi.toInt)
    | .real w => f64Le lo w && f64Le w hi
  let alarmSide := if sf e 0 8 1 = 0 then !inside else inside
  let run := if alarmSide then min 255 (x.run + 1) else 0
  let fire := x.armed && alarmSide && sf e 0 16 8 ≤ run
  let s1 := s.setStage a.chan k { x with run := run, armed := if alarmSide then x.armed && !fire else true }
  if fire then
    s1.chanRec a.chan a.decl { type := 5, flags := r.flags, aux := k, time := a.time, code := 3, spec0 := tag, body := [r.v.word] }
      a.used a.where_
  else s1

/-- G of the stages before, to the nearest Q (R191), saturated at 47 bits. -/
def groupDelay (r : Run) (period : Nat) : Nat := min (2 ^ 47 - 1) ((2 * r.delay * period + 256) / 512)

/-- Closes the parcel of EMIT stage k, the `idx`-th EMIT stage of the recipe (R188). -/
def State.closeParcel (s : State) (c : Nat) (d : Decl) (k idx : Nat) : State :=
  let x := s.stage c k
  match x.parcelFrom with
  | none => s
  | some (t, n, ph) =>
    let s1 := s.setStage c k { x with parcel := [], parcelSat := 0, parcelFlags := 0, parcelFrom := none, parcelBlks := []
                                      outputs := 0 }
    s1.chanRec c d { type := 2, emit := true, flags := x.parcelFlags, aux := x.parcelSat.toNat, time := t, code := idx
                     spec0 := recipeTag (s.recipe d.recipe), spec1 := x.parcelG, body := x.parcel, blks := x.parcelBlks }
      [] { time := t, count := n, phase := ph }

/-- The EMIT stages of an image: stage number and index among them. -/
def emitStages (img : List Dword) : List (Nat × Nat) :=
  (((List.range (stageCount img)).filter fun k => stageType (stageEntry img k) == some .emit)).zipIdx

/-- Closes every open parcel of a channel (R188). -/
def State.closeParcels (s : State) (c : Nat) (d : Decl) : State :=
  if d.recipeEn then (emitStages (s.recipe d.recipe)).foldl (fun s p => s.closeParcel c d p.1 p.2) s else s

/-- A reset of R170: parcels close, and every hold, state and flag memory is cleared. The CFGCHG that a bank's load owes the next
output of an EMIT stage of the recipe is none of these (R178). -/
def State.resetStages (s : State) (c : Nat) (d : Decl) : State :=
  (s.closeParcels c d).modChan c fun ch => { ch with stages :=
    if d.recipeEn && ch.decl.recipeEn && d.recipe == ch.decl.recipe then ch.stages.map fun x => { cfgNext := x.cfgNext } else [] }

/-- The raw quantities of a mask, with the flags they bring (R188, R154). -/
def rawValues (qs : Quantities) (mask : Nat) : List Word × BitVec 10 :=
  (List.range 8).foldl (fun acc i =>
    if bitOf mask i then
      match (qs[i]?).getD none with
      | some q => (acc.1 ++ [q.word], acc.2 ||| q.flags)
      | none => (acc.1 ++ [noneWord], acc.2)
    else acc) ([], 0)

/-- Takes the holding space of an open parcel at its first output, or at a later one where there was none (R368, R374). -/
def State.parcelSpace (s : State) (c ring k values : Nat) : State :=
  let x := s.stage c k
  if x.parcelBlks ≠ [] || (s.ring ring).summary then s
  else match s.place ring (32 * (1 + ceilDiv values 4)) true with
    | some (bs, s1) => s1.setStage c k { x with parcelBlks := bs }
    | none => s

/-- EMIT (R188, R190). -/
def State.runEmit (s : State) (a : RunAt) (k e tag : Nat) (r : Run) : State :=
  let x := s.stage a.chan k
  let (raw, fl) := rawValues a.qs (sf e 0 16 8)
  let sat := x.sat ||| BitVec.ofNat 12 (r.sat % 2 ^ k)
  let flags := r.flags ||| fl ||| (if x.cfgNext then fCfg else 0)
  let g := groupDelay r a.period
  if sf e 0 8 1 = 0 then
    (s.setStage a.chan k { x with sat := 0, cfgNext := false }).chanRec a.chan a.decl
      { type := 1, emit := true, flags := flags, aux := sat.toNat, time := a.time, code := r.emits, spec0 := tag, spec1 := g
        body := r.v.word :: raw } a.used a.where_
  else
    let x1 := { x with sat := 0, cfgNext := false, parcel := x.parcel ++ r.v.word :: raw, parcelSat := x.parcelSat ||| sat
                       parcelFlags := x.parcelFlags ||| flags ||| (if (s.chan a.chan).inSpan a.used then fCfg else 0)
                       parcelFrom := some (x.parcelFrom.getD (a.time, a.where_.count, a.where_.phase))
                       parcelG := if x.parcelFrom.isSome then x.parcelG else g
                       outputs := x.outputs + 1 }
    let s1 := (s.setStage a.chan k x1).parcelSpace a.chan a.decl.ring k (emitOutputs e * emitValues e)
    if emitOutputs e ≤ x1.outputs then s1.closeParcel a.chan a.decl k r.emits else s1

/-- Event equivalents of a stage that runs (R194). -/
def stageCost (e : Nat) (out : Bool) : Nat :=
  match stageType e with
  | some .derive | some .scale | some .poly | some .window => 1
  | some .cic => sf e 0 8 3 * (if out then 2 else 1)
  | some .fir => 1 + (if out then ceilDiv (firLength e) 8 else 0)
  | some .biquad => 2
  | some .stats => 2 + 6 * sf e 0 9 1 + sf e 0 10 1
  | some .emit => 1
  | none => 0

/-- Runs one stage: the stream behind it, none where the run ends at it, the saturation so far, and the state. -/
def State.runStage (s : State) (a : RunAt) (k e tag : Nat) (r : Run) : Option Run × Nat × State :=
  let real (f : Bool × Run × StageState) : Option Run × Nat × State :=
    (if f.1 then some f.2.1 else none, f.2.1.sat, s.setStage a.chan k f.2.2)
  match stageType e with
  | some .derive => let (o, s1) := s.runDerive a e; (o, (o.map (·.sat)).getD 0, s1)
  | some .cic => let (o, s1) := s.runCic a k e r; (o, r.sat, s1)
  | some .fir => let (o, s1) := s.runFir a k e r; (o, (o.map (·.sat)).getD r.sat, s1)
  | some .biquad => real (runBiquad (s.stage a.chan k) (s.bank (sf e 0 8 6)) k e r)
  | some .scale => real (runScale (s.stage a.chan k) k e r)
  | some .poly => real (runPoly (s.stage a.chan k) (s.bank (sf e 0 8 6)) k e r)
  | some .window => (some r, r.sat, s.runWindow a k e tag r)
  | some .stats => (some r, r.sat, s.statsFeed a.chan r.v r.held (sf e 0 8 1 = 1) (sf e 0 9 1 = 1) (sf e 0 10 1 = 1) a.g
      r.ratio a.period a.time r.flags)
  | some .emit => (some { r with emits := r.emits + 1 }, r.sat, s.runEmit a k e tag r)
  | none => (none, r.sat, s)

/-- The EMIT stages at and behind stage k that a run did not reach keep its saturations (R190). -/
def State.keepSat (s : State) (c : Nat) (img : List Dword) (k sat : Nat) : State :=
  if sat = 0 then s
  else ((emitStages img).filter fun p => k ≤ p.1).foldl (fun s p =>
    let x := s.stage c p.1
    s.setStage c p.1 { x with sat := x.sat ||| BitVec.ofNat 12 (sat % 2 ^ p.1) }) s

/-- Runs the stages from k on. -/
def State.runFrom (a : RunAt) (img : List Dword) (tag : Nat) : Nat → List Nat → Run → State → State
  | _, [], _, s => s
  | k, e :: es, r, s =>
    let (o, sat, s1) := s.runStage a k e tag r
    let s2 := s1.addWork a.chan (stageCost e (o.isSome))
    match o with
    | some r1 => State.runFrom a img tag (k + 1) es r1 s2
    | none => s2.keepSat a.chan img (k + 1) sat

/-- Runs the channel's recipe at a resolved instant (R166). An instant of an old declaration that resolves after its slot has been
loaded again runs the new image (log entry 63). -/
def State.runRecipe (s : State) (a : RunAt) : State :=
  let img := s.recipe a.decl.recipe
  State.runFrom a img (recipeTag img) 0 (stageEntries img) {} s

end Sys2Proof.Machine
end

