-- ==== Sys2Proof/Machine/Measure.lean ====
section
/-! DEFINITION. From the mailbag to the sample: routing (04 R107, R109; 05 R115, R116), the engine's edge (06), quadrature
decisions (05 R119), and the resolution of instants (06 R146 to R163). -/

namespace Sys2Proof.Machine

/-! ### Routing -/

/-- The declaration an edge of this stamp belongs to: from t_r on that of a REDECLARE (R124, R126). -/
def Chan.declFor (c : Chan) (stamp : Nat) : Decl :=
  match c.op, c.opAt with
  | some (.redeclare d _ _ _), some r => if r ≤ stamp then d else c.decl
  | _, _ => c.decl

/-- The declaration an instant belongs to (R124, R126). -/
def Chan.declAt (c : Chan) (t : Nat) : Decl :=
  match c.old with
  | some (r, d) => if t ≤ r then d else c.decl
  | none => c.decl

/-- The declaration in force and one accepted behind it: until t_r a channel counts under both. -/
def Chan.decls (c : Chan) : List Decl :=
  match c.op with
  | some (.redeclare d _ _ _) => [c.decl, d]
  | _ => [c.decl]

/-- The declaration that the stages, and an open parcel, belong to: that of before t_r until its instants are resolved (R188). -/
def Chan.stagesDecl (c : Chan) : Decl := match c.old with | some (_, d) => d | none => c.decl

/-- The uses of a source by a declaration: 0 A, 1 B, 2 X (R115). -/
def Decl.usesOf (d : Decl) (src : Source) : List Nat :=
  (if d.srcA == src then [0] else []) ++ (if d.srcB == src then [1] else []) ++ (if d.srcX == src then [2] else [])

/-- A channel holds a binding (R121). -/
def Chan.bound? (c : Chan) : Bool :=
  match c.st with | .declared | .live | .castling | .paused => true | .vacant | .retired => false

/-- Edges that an item stands for. -/
def Item.edges (i : Item) : Nat :=
  match i.kind with | .edge => 1 + i.thin + i.ovfl | .count => i.rises + i.falls | .est | .lost => 0

/-- A castling of a channel's context or of a target of it, behind its seal (R227 step 2): no engine touches the channel (R230).
The move of a twin leaves the primary at work (R218). -/
def State.sealedCastling (s : State) (c : Nat) : Option Castling :=
  s.plc.castlings.find? fun k => k.move.chan == c && !k.move.twin && k.sealed

/-- A diversion queue's words and instant tokens (R228, R230). -/
def State.divertedOf (s : State) (k : Castling) : Nat :=
  k.diverted.length + if k.move.twin then 0 else ((s.chan k.move.chan).instants.filter fun t => decide (k.sealAt < t)).length

/-- Adds to a ledger point, modulo 2^48 (R452). -/
def ledgerAdd (x k : Nat) : Nat := (x + k) % 2 ^ 48

def State.addUnbound (s : State) (k : Nat) : State := { s with flt := { s.flt with unbound := ledgerAdd s.flt.unbound k } }
def State.addCounted (s : State) (e k : Nat) : State :=
  { s with flt := { s.flt with counted := ledgerAdd s.flt.counted k, engCounted := tmod 0 s.flt.engCounted e (ledgerAdd · k) } }

/-- Hands a word's items for a channel to its engine, or behind the seal to the diversion queue, which holds 32 words and tokens;
a copy that finds it full is held at the arbiter (R228). A twin that castles has its own copy diverted. -/
def State.hand (s : State) (c : Nat) (word : List (Nat × Item)) : State :=
  let divert (k : Castling) : Castling :=
    if !(k.sealed && k.move.chan == c) then k
    else if s.divertedOf k < 32 && k.waiting == [] then { k with diverted := k.diverted ++ [word] }
    else { k with waiting := k.waiting ++ [word] }
  let s1 : State := { s with plc := { s.plc with castlings := s.plc.castlings.map divert } }
  if (s.sealedCastling c).isSome then s1 else s1.modChan c fun ch => { ch with inbox := ch.inbox ++ word }

/-- The channels and uses an item of a source goes to. -/
def State.users (s : State) (src : Source) (stamp : Nat) : List (Nat × Nat) :=
  s.chans.flatMap fun (c, ch) => if ch.bound? then ((ch.declFor stamp).usesOf src).map (c, ·) else []

/-- The ledger points of a routed item with `uses` uses (R116, R452). -/
def State.routeCount (s : State) (i : Item) (uses : Nat) : State :=
  let s1 : State := { s with flt := { s.flt with routed := ledgerAdd s.flt.routed i.edges
                                                 copies := ledgerAdd s.flt.copies (i.edges * max 1 uses) } }
  if uses = 0 then s1.addUnbound i.edges else s1

/-- The sorting office routes the items of one word of a source to every channel that uses it (R115, R116, R452). -/
def State.route (s : State) (src : Source) (word : List Item) : State :=
  let uses := word.flatMap fun i => (s.users src i.stamp).map fun u => (u.1, u.2, i)
  let s1 := word.foldl (fun (x : State) i => x.routeCount i (s.users src i.stamp).length) s
  ((uses.map Prod.fst).dedup).foldl (fun (x : State) c =>
    x.hand c ((uses.filter fun u => u.1 == c).map Prod.snd)) s1

/-- The arbiter holds a source: its only channel's diversion queue is full (R228). One that serves several channels is held only as
far as the castling channel's copy. -/
def State.arbiterHeld (s : State) (src : Source) : Bool :=
  let uses (ch : Chan) : Bool := ch.bound? && ch.decls.any fun d => d.usesOf src != []
  s.plc.castlings.any fun k => k.sealed && !k.move.twin && decide (32 ≤ s.divertedOf k) && uses (s.chan k.move.chan) &&
    s.chans.all fun x => x.1 == k.move.chan || !uses x.2

/-- The fabric pops a mailbag word (R109): NOT_VALID takes nothing from the FIFO; the sorting office checks the sequence (R107) and
routes what the word holds. -/
def execMailbagPop (t : Nat) (n : Fin 256) (s : State) : Host.Outcome State Fault Refusal :=
  atMoment t s fun s =>
    let x := s.input n
    match x.fifo with
    | [] => (s.alarmSettle n).modInput n fun x => { x with popped := some (x.notValid n) }
    | w :: rest =>
      if s.arbiterHeld (.local n) then s
      -- the newest head may still merge: the pop has won over the closing of its word (R74, R111)
      else if rest = [] && s.mayMerge n && x.openFrags = [] then s.modInput n fun x => { x with popped := some (x.notValid n) }
      else
        let s0 := s.alarmSettle n
        let s1 := s0.setInput n ({ s0.input n with fifo := rest, routerSeq := w.seq + 1, popped := some (w.out n) }.closeFull)
        let s2 := if w.seq = x.routerSeq then s1 else s1.raise .mailbagSeq n.val
        s2.route (.local n) w.items

/-! ### STAMP records (R156, R514) -/

/-- The phase at a device time as a record states it, NONE where the chain has none (R150). -/
def Side.phaseWord (x : Side) (d : Decl) (t : Nat) : Word :=
  match (x.phase t (waitC (x.wait d))).phi with | some p => wordOf p | none => noneWord

/-- An edge of this stamp lies in a LIVE period of the channel: not below a RESUME, not at or behind a PAUSE that is to be applied
(R126, R127). -/
def Chan.liveAt (c : Chan) (stamp : Nat) : Bool :=
  let paused := match c.op, c.opAt with | some (.pause _ _ _ _), some p => decide (p ≤ stamp) | _, _ => false
  c.samples && decide (c.stampFrom ≤ stamp) && !paused

/-- A STAMP record of a stamped selected edge of source `src`; `n` is the totaliser after it, `before` that below it. -/
def State.stampRec (s : State) (c : Nat) (src : Source) (stamp : Nat) (rising : Bool) (n before : Nat) : State :=
  let ch := s.chan c
  if ch.decl.stamps && ch.liveAt stamp then
    s.chanRec c ch.decl { type := 4, flags := s.timeFlags [stamp], aux := if rising then 1 else 2, time := stamp
                          spec0 := n % 2 ^ 32, spec1 := n / 2 ^ 32 } (usedOf src [stamp])
      { time := stamp, count := before, phase := ch.a.phaseWord ch.decl stamp }
  else s

/-! ### Counting kinds (R118, R142 to R149) -/

def Chan.side (c : Chan) (onB : Bool) : Side := if onB then c.b else c.a
def Chan.setSide (c : Chan) (onB : Bool) (x : Side) : Chan := if onB then { c with b := x } else { c with a := x }

/-- The rising ones of an edge item's unstamped edges. -/
def Item.unstampedRises (i : Item) : Nat := i.thinRise + i.ovflRise

/-- How many of the unstamped edges before a head the selection takes, and how many are phase edges (R142, R143): their directions
are exact in both modes. -/
def Item.share (i : Item) (sel : EdgeSel) : Nat × Nat :=
  sel.share (i.zone != .unresolved) i.unstampedRises (i.thin + i.ovfl - i.unstampedRises)

/-- An edge item enters side A or B of a channel: its unstamped edges, then the head. -/
def State.sideEdge (s : State) (c : Nat) (onB : Bool) (i : Item) : State :=
  let d := (s.chan c).decl
  let sel := if onB then d.selB else d.selA
  let (k, p) := i.share sel
  let ch := s.chan c
  let u := i.thin + i.ovfl
  let win := i.zone != .unresolved
  let took := sel.takes i.rising
  let phase := took && (sel != .both || win || i.rising)
  let timed := i.resync != .blankEnd
  let n := if onB then ch.count else (ch.count + k + b2n took) % 2 ^ 48
  let x0 := (ch.side onB).unstamped u p
  let zone := if win then i.zone else if i.rising then .high else .low
  let behind := decide (i.stamp < ch.resolved)
  let x1 := if took then x0.edge i.stamp n i.rising phase timed behind i.zone else x0
  let x := if d.kind == .window then { x1 with zones := (i.stamp, zone) :: x1.zones } else x1
  let late := (behind && (took || 0 < k)) || (x0.expired && phase && timed)
  let ch1 := ({ ch with count := n, late := ch.late || late } : Chan).setSide onB
    { x with expired := x.expired && !(phase && timed) }
  let s1 := (s.setChan c ch1).addCounted ch.place.engine (k + b2n took)
  let s2 := (s1.addUnbound (u - k + b2n (!took))).addWork c (u + 1)
  if took && timed then
    s2.stampRec c (if onB then d.srcB else d.srcA) i.stamp i.rising n (if onB then n else (n + 2 ^ 48 - 1) % 2 ^ 48)
  else s2

/-- A COUNT item: edges without stamps (R279, R396); one of a WINDOW-mode input bears its zone. -/
def State.sideCount (s : State) (c : Nat) (onB : Bool) (i : Item) : State :=
  let ch := s.chan c
  let sel := if onB then ch.decl.selB else ch.decl.selA
  let (k, p) := sel.share (i.zone != .unresolved) i.rises i.falls
  let n := if onB then ch.count else (ch.count + k) % 2 ^ 48
  let x := (ch.side onB).unstamped (i.rises + i.falls) p
  let ch1 := ({ ch with count := n } : Chan).setSide onB { x with counted := x.counted ++ [(i.stamp, n)] }
  (((s.setChan c ch1).addCounted ch.place.engine k).addUnbound (i.rises + i.falls - k)).addWork c (i.rises + i.falls)

/-! ### Interval-mode histograms of EDGE and REMOTE (R204) -/

/-- The period that a phase edge `e` closes behind the phase edge `a` (R204): binned where both are stamped and consecutive, and
else every period between them is skipped; one where a chain has started between them. -/
def State.periodHisto (s : State) (c : Nat) (a e : Edge) : State :=
  if a.chain != e.chain then s.intervalSkip c 1 1 e.stamp
  else if a.timed && e.timed && e.m = a.m + 1 then s.interval c 1 (s.refSpan a.stamp e.stamp) a.stamp e.stamp
  else s.intervalSkip c 1 (e.m - a.m).toNat e.stamp

/-- The widths that an edge `e` closes behind the edge `a` (R204): `u` unstamped edges between them alternate, and every width of
theirs is skipped; the one width that spans the start of a chain is skipped. -/
def State.widthHistos (s : State) (c : Nat) (a e : Edge) : State :=
  let mode (high : Bool) : Nat := if high then 2 else 3
  let u := (e.c + 2 ^ 48 - 1 - a.c) % 2 ^ 48
  if a.chain != e.chain then s.intervalSkip c (mode a.rising) 1 e.stamp
  else if u = 0 then
    if a.rising == e.rising then s
    else if a.timed && e.timed then s.interval c (mode a.rising) (s.refSpan a.stamp e.stamp) a.stamp e.stamp
    else s.intervalSkip c (mode a.rising) 1 e.stamp
  else (s.intervalSkip c (mode a.rising) ((u + 2) / 2) e.stamp).intervalSkip c (mode (!a.rising)) ((u + 1) / 2) e.stamp

/-- The intervals that the last edge of the side of A closes: PERIOD, WIDTH_HIGH and WIDTH_LOW. -/
def State.edgeHistos (s : State) (c : Nat) : State :=
  let ch := s.chan c
  match ch.a.edges.getLast? with
  | none => s
  | some e =>
    let before := ch.a.edges.dropLast
    let s1 := match (before.filter (·.phase)).getLast? with
      | some a => if e.phase then s.periodHisto c a e else s
      | none => s
    match before.getLast? with
    | some a => if ch.decl.selA == .both then s1.widthHistos c a e else s1
    | none => s1

/-! ### PAIR in INTERVAL mode (R156) -/

/-- An edge joins those to be paired, in the order of the stamps; of equal ones A first. -/
def pairInsert (e : PairEdge) : List PairEdge → List PairEdge
  | [] => [e]
  | x :: r => if e.stamp < x.stamp || (e.stamp = x.stamp && !e.onB && x.onB) then e :: x :: r else x :: pairInsert e r

/-- Pairing is dropped at an unstamped edge. -/
def PairState.drop (p : PairState) (stamp : Nat) (onB : Bool) : PairState :=
  { p with start := none, dropped := true, lost := stamp :: (p.start.toList ++ p.lost)
           bWait := p.bWait || onB, bClear := if onB then none else p.bClear }

/-- A stamped edge is paired: the new state, and the start of the interval it closes. -/
def PairState.take (p : PairState) (stamp : Nat) (onB : Bool) : PairState × Option Nat :=
  if onB then
    if p.dropped then
      ({ p with lost := stamp :: p.lost, bClear := if p.bWait && p.bClear.isNone then some stamp else p.bClear }, none)
    else match p.start with
      | some a => ({ p with start := none, dead := false }, some a)
      | none => (p, none)
  else if p.dropped then
    let clear := !p.bWait || (match p.bClear with | some b => decide (b < stamp) | none => false)
    if clear then ({ p with dropped := false, bWait := false, bClear := none, start := some stamp, dead := false }, none)
    else ({ p with lost := stamp :: p.lost }, none)
  else
    let replaced := p.start.isSome && !p.dead
    ({ p with start := some stamp, dead := false, unmatched := if replaced then stamp :: p.unmatched else p.unmatched }, none)

/-- The interval of an open start spans a break (R204). -/
def PairState.cut (p : PairState) : PairState := { p with dead := p.start.isSome }

/-- Pairs one edge, and bins the interval that it closes (R204). -/
def State.pairOne (s : State) (c : Nat) (e : PairEdge) : State :=
  let ch := s.chan c
  let open_ := ch.pair.start.isSome
  let p0 := if e.unstamped then ch.pair.drop e.stamp e.onB else ch.pair
  if e.cut then s.setChan c { ch with pair := ch.pair.cut }
  else if e.timed then
    let (p1, closed) := p0.take e.stamp e.onB
    match closed with
    | some a =>
      let len := s.refSpan a e.stamp
      if p0.dead then (s.setChan c { ch with pair := p1 }).intervalSkip c 4 1 e.stamp
      else
        let s1 := s.setChan c { ch with pair := { p1 with done := p1.done ++ [{ start := a, stop := e.stamp, length := len.toNat }] } }
        s1.interval c 4 len a e.stamp
    | none =>
      let s1 := s.setChan c { ch with pair := p1 }
      if e.unstamped && open_ then s1.intervalSkip c 4 1 e.stamp else s1
  else
    let s1 := s.setChan c { ch with pair := p0.drop e.stamp e.onB }
    if open_ then s1.intervalSkip c 4 1 e.stamp else s1

/-- The lane's receive buffer still holds an item of a remote index at or below a device time. -/
def Lane.keeps (l : Lane) (index t : Nat) : Bool :=
  l.buffer.any fun b => match b with | some (j, i) => j == index && decide (i.stamp ≤ t) | none => false

/-- No edge of a source at or below stamp `t` can still arrive: of a local source after 0.70 µs (R146), of a remote one
behind the lane's horizon (R283), or as a local one while its lane is not ACTIVE and it is UNRESOLVED (R285). -/
def State.passed (s : State) (src : Source) (t : Nat) : Bool :=
  let late := decide (t + settleQ ≤ s.devTime)
  match src with
  | .remote l i =>
    if (s.lane l).st != .active && (s.remoteSrc l i).zone == .unresolved then late
    else decide (t < (s.lane l).horizon) && !(s.lane l).keeps i t
  | _ => late

/-- Pairs every edge whose place among the other source's edges is known: one of the other source stands behind it, or no
earlier one can still arrive (R146). -/
def State.pairRun : Nat → State → Nat → State
  | 0, s, _ => s
  | k + 1, s, c =>
    let ch := s.chan c
    match ch.pair.todo with
    | [] => s
    | e :: rest =>
      if s.passed (if e.onB then ch.decl.srcA else ch.decl.srcB) e.stamp || rest.any (fun x => x.onB != e.onB) then
        State.pairRun k ((s.setChan c { ch with pair := { ch.pair with todo := rest } }).pairOne c e) c
      else s

/-- A chain restart takes its place among the edges to be paired (R204). -/
def State.pairBreak (s : State) (c : Nat) (onB : Bool) (t : Nat) : State :=
  s.modChan c fun ch => { ch with pair := { ch.pair with
    todo := pairInsert { stamp := t, onB := onB, timed := false, unstamped := false, cut := true } ch.pair.todo } }

/-- Pairs every edge that can be paired now. -/
def State.pairAll (s : State) (c : Nat) : State := State.pairRun ((s.chan c).pair.todo.length) s c

/-- An item enters a PAIR channel in INTERVAL mode. -/
def State.pairItem (s : State) (c : Nat) (onB : Bool) (i : Item) : State :=
  let d := (s.chan c).decl
  let sel := if onB then d.selB else d.selA
  let add (s : State) (e : PairEdge) : State :=
    s.modChan c fun ch => { ch with pair := { ch.pair with todo := pairInsert e ch.pair.todo } }
  let s1 := match i.kind with
    | .count =>
      let s0 := s.sideCount c onB i
      if 0 < (sel.share false i.rises i.falls).1 then
        add s0 { stamp := i.stamp, onB := onB, timed := false, unstamped := true } else s0
    | _ =>
      let s0 := s.sideEdge c onB i
      let u := decide (0 < (i.share sel).1)
      if sel.takes i.rising || u then
        add s0 { stamp := i.stamp, onB := onB, timed := sel.takes i.rising && i.resync != Resync.blankEnd, unstamped := u } else s0
  s1.pairAll c

/-! ### QUAD (R119, R158) -/

/-- The place of a pair of zones (A, B) in the sequence LOW LOW, HIGH LOW, HIGH HIGH, LOW HIGH. -/
def quadIndex (a b : Zone) : Nat :=
  match a == .low, b == .low with
  | true, true => 0
  | false, true => 1
  | false, false => 2
  | true, false => 3

/-- The step a change makes in a decoding, given the zone of the other input (R119). -/
def quadStep (decode : Nat) (onB rising : Bool) (other : Zone) : Int :=
  let low := other == .low
  if onB then
    if decode = 2 then (if rising then (if low then -1 else 1) else (if low then 1 else -1)) else 0
  else if decode = 0 && !rising then 0
  else if rising then (if low then 1 else -1)
  else (if low then -1 else 1)

/-- Counted transitions among unstamped ones of an input (R158). -/
def quadCovered (decode : Nat) (q : QuadChange) : Nat :=
  if decode = 2 then q.unstamped else if q.onB then 0 else if decode = 1 then q.unstamped else q.rises

/-- Both inputs are established for the channel. -/
def QuadState.ready (q : QuadState) : Bool := q.zoneA != .unresolved && q.zoneB != .unresolved

/-- Changes in the order of their stamps. -/
def quadInsert (e : QuadChange) : List QuadChange → List QuadChange
  | [] => [e]
  | x :: r => if e.stamp < x.stamp then e :: x :: r else x :: quadInsert e r

/-- The members of the first cluster: each within 400 ps of a change of the other input in it (R119). An establishment, and edges
that no head follows, stand alone. -/
def quadCluster : List QuadChange → List QuadChange → List QuadChange × List QuadChange
  | acc, [] => (acc, [])
  | acc, e :: r =>
    if acc ≠ [] && (e.est.isSome || e.headless || acc.any fun x => x.est.isSome || x.headless) then (acc, e :: r)
    else if acc = [] || acc.any (fun x => x.onB != e.onB && decide (e.stamp ≤ x.stamp + 491)) then quadCluster (acc ++ [e]) r
    else (acc, e :: r)

/-- A change may be decided (R119): no change of the other input can lie within 400 ps of it. -/
def decidable? (now : Nat) (all : List QuadChange) (e : QuadChange) : Bool :=
  decide (e.stamp + 860652 ≤ now) || all.any fun x => x.onB != e.onB && decide (e.stamp + 492 ≤ x.stamp)

/-- Puts the position into the totaliser (R119). -/
def Chan.setPosition (c : Chan) (q : QuadState) : Chan := { c with quad := q, count := toField 48 q.position }

def QuadState.setZone (q : QuadState) (onB rising : Bool) : QuadState :=
  let z := if rising then Zone.high else Zone.low
  if onB then { q with zoneB := z } else { q with zoneA := z }

/-- The unstamped transitions before a change count in the last direction (R158). Answers whether the zones disagree. -/
def QuadState.cover (q : QuadState) (decode : Nat) (e : QuadChange) : Bool × QuadState :=
  if e.unstamped = 0 then (false, q)
  else if !q.ready then (false, { q with spans := e.stamp :: q.spans })
  else
    let dir : Int := if q.up then 1 else -1
    let expect := ((quadIndex q.zoneA q.zoneB : Int) + dir * e.unstamped) % 4
    -- the zone of the input before its head
    let q1 := q.setZone e.onB (!e.rising)
    (decide (expect ≠ quadIndex q1.zoneA q1.zoneB),
      { q1 with position := q.position + dir * quadCovered decode e, spans := e.stamp :: q.spans })

/-- An establishment, and edges that no head follows: the zones they leave, and a skip where those disagree with what the edges
should have made of them (R119, R158). -/
def State.quadQuiet (s : State) (c : Nat) (e : QuadChange) : State :=
  let ch := s.chan c
  match e.est with
  | some z => s.setChan c { ch with quad := if e.onB then { ch.quad with zoneB := z } else { ch.quad with zoneA := z } }
  | none =>
    let (skip, q) := ch.quad.cover ch.decl.decode e
    let q1 : QuadState := { q with stepLog := { stamp := e.stamp, before := q.position, after := q.position } :: q.stepLog }
    let s1 := s.setChan c (ch.setPosition q1)
    if skip then s1.quadAlarm c e.stamp else s1

/-- The STAMP record of a decided change. -/
def State.quadStamp (s : State) (c : Nat) (e : QuadChange) (n before : Nat) : State :=
  let d := (s.chan c).decl
  s.stampRec c (if e.onB then d.srcB else d.srcA) e.stamp e.rising n before

/-- Decides one change that stands alone, and emits its STAMP. -/
def State.quadSingle (s : State) (c : Nat) (e : QuadChange) : State :=
  let ch := s.chan c
  let (skip, q0) := ch.quad.cover ch.decl.decode e
  let other := if e.onB then q0.zoneA else q0.zoneB
  let k := if q0.ready then quadStep ch.decl.decode e.onB e.rising other else 0
  let q1 := q0.setZone e.onB e.rising
  let q2 : QuadState := { q1 with position := q0.position + k, up := if k = 0 then q0.up else decide (0 < k)
                                  stepLog := { stamp := e.stamp, before := q0.position, after := q0.position + k } :: q0.stepLog }
  let late := decide (e.stamp < ch.resolved) || (ch.a.expired && k ≠ 0)
  let s1 := s.setChan c { ch.setPosition q2 with late := ch.late || late
                                                 a := { ch.a with expired := ch.a.expired && k = 0 } }
  let s2 := if skip then s1.quadAlarm c e.stamp else s1
  if e.timed then s2.quadStamp c e (toField 48 q2.position) (toField 48 q0.position) else s2

/-- Changes of both inputs closer than 400 ps: none is a step; one skip, and the new pair of zones (R119). -/
def State.quadSkip (s : State) (c : Nat) (es : List QuadChange) : State :=
  let ch := s.chan c
  let ready := ch.quad.ready
  let q := es.foldl (fun q e => ((q.cover ch.decl.decode e).2).setZone e.onB e.rising) ch.quad
  let last := es.foldl (fun m e => max m e.stamp) 0
  let q1 : QuadState := { q with stepLog := { stamp := last, before := q.position, after := q.position } :: q.stepLog }
  let s1 := s.setChan c { ch.setPosition q1 with late := ch.late || es.any fun e => decide (e.stamp < ch.resolved) }
  let s2 := if ready then s1.quadAlarm c last else s1
  es.foldl (fun s e => if e.timed then s.quadStamp c e (toField 48 q1.position) (toField 48 q1.position) else s) s2

/-- Decides every change that may be decided at device time `now`. -/
def State.quadRun : Nat → State → Nat → Nat → State
  | 0, s, _, _ => s
  | k + 1, s, c, now =>
    let ch := s.chan c
    let (es, rest) := quadCluster [] ch.quad.todo
    if es ≠ [] && es.all (decidable? now ch.quad.todo) then
      let s1 := s.setChan c { ch with quad := { ch.quad with todo := rest } }
      State.quadRun k (match es with
        | [e] => if e.est.isSome || e.headless then s1.quadQuiet c e else s1.quadSingle c e
        | _ => s1.quadSkip c es) c now
    else s

def State.quadAll (s : State) (c : Nat) : State := State.quadRun ((s.chan c).quad.todo.length) s c s.devTime

/-- The zone of an input of a QUAD channel behind the changes that are not decided yet. -/
def QuadState.lastZone (q : QuadState) (onB : Bool) : Zone :=
  q.todo.foldl (fun z e =>
    if e.onB != onB then z
    else match e.est with
      | some z => z
      | none => if e.rising then .high else .low) (if onB then q.zoneB else q.zoneA)

/-- Edges without stamps enter a QUAD channel: they count in the last direction, behind the changes before them (R158). The zone
they leave follows from their number (R73). -/
def State.quadUnstamped (s : State) (c use : Nat) (i : Item) : State :=
  let ch := s.chan c
  if use = 2 then s.addUnbound i.edges
  else
    let onB := use = 1
    let u := i.edges
    let z := ch.quad.lastZone onB
    let after := if u % 2 = 0 then z == .high else z != .high
    let e : QuadChange := { stamp := i.stamp, onB := onB, rising := !after, timed := false, unstamped := u, rises := i.rises
                            headless := true }
    let s1 := if ch.quad.ready then s.addCounted ch.place.engine u else s.addUnbound u
    (s1.modChan c fun ch => { ch with quad := { ch.quad with todo := quadInsert e ch.quad.todo } }).quadAll c

/-- An item enters a QUAD channel. -/
def State.quadItem (s : State) (c use : Nat) (i : Item) : State :=
  let ch := s.chan c
  if i.kind == .count then s.quadUnstamped c use i
  else if use = 2 then
    let took := ch.decl.selX.takes i.rising
    let s1 := (s.addCounted ch.place.engine (b2n took)).addUnbound (i.edges - b2n took)
    if took then s1.modChan c fun ch => { ch with quad := { ch.quad with marks := i.stamp :: ch.quad.marks } } else s1
  else
    let u := i.thin + i.ovfl
    let e : QuadChange := { stamp := i.stamp, onB := use = 1, rising := i.rising, timed := i.resync != .blankEnd
                            unstamped := u, rises := i.unstampedRises }
    let s1 := if ch.quad.ready then s.addCounted ch.place.engine i.edges else s.addUnbound i.edges
    ((s1.modChan c fun ch => { ch with quad := { ch.quad with todo := quadInsert e ch.quad.todo } }).addWork c i.edges).quadAll c

/-! ### The engine's edge (R23 step 6, R116, R127) -/

/-- The zone of a source has been established: a new chain (R144), and the state that needs a level, which a QUAD channel takes
in its place among the changes (R119). -/
def State.takeEst (s : State) (c use : Nat) (i : Item) : State :=
  if use = 2 then s
  else
    let onB := use = 1
    let s1 := if (s.chan c).decl.kind == .pair then (s.pairBreak c onB i.stamp).pairAll c else s
    let s2 := s1.modChan c fun ch =>
      let c1 := ch.restart onB i.stamp
      let c2 := c1.setSide onB { c1.side onB with zones := (i.stamp, i.zone) :: (c1.side onB).zones }
      if c2.decl.kind == .quad then
        { c2 with quad := { c2.quad with
          todo := quadInsert { stamp := i.stamp, onB := onB, rising := false, timed := false, est := some i.zone } c2.quad.todo } }
      else c2
    if (s2.chan c).decl.kind == .quad then s2.quadAll c else s2

/-- A channel takes an edge of this stamp: it is LIVE or counts while paused, and the edge belongs to that period (R126,
R127). -/
def Chan.takes (c : Chan) (stamp : Nat) : Bool :=
  let st := if c.st == .castling then c.back else c.st
  let ends := match c.op, c.opAt with
    | some (.pause countOnly _ _ _), some p => !countOnly && p ≤ stamp
    | some (.retire _ _ _ _), some x => decide (x ≤ stamp)
    | _, _ => false
  (st == .live || (st == .paused && c.countOnly)) && decide (c.tLive ≤ stamp) && !ends

/-- The front item waits: the channel is not LIVE yet, or a REDECLARE is to be applied first. -/
def Chan.waits (c : Chan) (stamp : Nat) : Bool :=
  let st := if c.st == .castling then c.back else c.st
  (st == .declared && decide (c.tLive ≤ stamp)) ||
    (match c.op, c.opAt with | some (.redeclare _ _ _ _), some r => decide (r ≤ stamp) | _, _ => false)

/-- An item that the channel takes. -/
def State.takeItem (s : State) (c use : Nat) (i : Item) : State :=
  let d := (s.chan c).decl
  match i.kind with
  | .est => s.takeEst c use i
  | .lost => s
  | .edge | .count =>
    match d.kind with
    | .quad => s.quadItem c use i
    | .pair =>
      if d.phaseDiff then (if i.kind == .count then s.sideCount c (use = 1) i else s.sideEdge c (use = 1) i)
      else s.pairItem c (use = 1) i
    | .edge | .window | .remote =>
      if i.kind == .count then s.sideCount c false i
      else
        let took := d.selA.takes i.rising
        let s1 := s.sideEdge c false i
        if took then s1.edgeHistos c else s1

/-- An engine takes the item at the front of a channel's inbox. -/
def State.engineTake (s : State) (c : Nat) : State :=
  let ch := s.chan c
  match ch.inbox with
  | [] => s
  | (use, i) :: rest =>
    let s1 := s.setChan c { ch with inbox := rest }
    -- a guarded channel counts until t_k (R396)
    let cut := match s.pst.endgame with
      | some e => if ch.decl.guarded then (match e.tK with | some k => decide (k ≤ i.stamp) | none => false)
          else decide (e.tCut ≤ i.stamp)
      | none => false
    if cut then { s1 with flt := { s1.flt with outage := ledgerAdd s1.flt.outage i.edges } }
    else if ch.takes i.stamp then s1.takeItem c use i
    else s1.addUnbound i.edges

/-- The owning engine applies the next item of a channel. -/
def State.engineEdge (s : State) (c : Nat) : State :=
  let ch := s.chan c
  match ch.inbox with
  | [] => s
  | (_, i) :: _ =>
    if s.engineHeld ch.place.engine || (s.sealedCastling c).isSome || ch.waits i.stamp then s else s.engineTake c

/-- The owning engine applies an edge to the channel's context. -/
def execEngineEdge (t : Nat) (chan : BitVec 20) (s : State) : Host.Outcome State Fault Refusal :=
  atMoment t s fun s => (s.engineEdge chan.toNat).coverCheck

/-- The quadrature changes that can be decided are decided (R119). -/
def execQuadDecide (t : Nat) (chan : BitVec 20) (s : State) : Host.Outcome State Fault Refusal :=
  atMoment t s fun s =>
    if s.engineHeld (s.chan chan.toNat).place.engine || (s.sealedCastling chan.toNat).isSome then s
    else (s.quadAll chan.toNat).coverCheck

end Sys2Proof.Machine
end

