-- ==== Sys2Proof/Machine/Resolve.lean ====
section
/-! DEFINITION. Resolving an instant (06 R146 to R163): the quantities of each kind, the sample, the recipe's run, and the
statistics descriptors that take effect at the instant (08 R210). -/

namespace Sys2Proof.Machine

/-! ### The quantities at an instant -/

/-- What an instant resolves to. -/
structure Solved where
  qs : Quantities := []
  flags : BitVec 10 := 0
  /-- the edges of the interval (R91) -/
  used : Used := []
  count : Nat := 0
  /-- φ of A, or of the QUAD position, and φ of B -/
  phiA : Option Int := none
  phiB : Option Int := none
  /-- the stamps behind them -/
  usedA : List Nat := []
  usedB : List Nat := []
  /-- the phase by R150 and R151, as a GAP or a summarised interval states it -/
  phase : Word := noneWord
  deriving DecidableEq, Repr

/-- COAST and SLEW of the edges behind a value (R40). -/
def State.usedFlags (s : State) (u : Used) : BitVec 10 := s.timeFlags (u.map Prod.snd)

/-- The instant is the first of a run of its cadence (R163). -/
def State.firstOfRun (s : State) (d : Decl) (p : PhaseAt) (t : Nat) : Bool :=
  let since := (s.cadence d.cadence).since
  decide (p.time < since) && decide (since ≤ t)

/-- The previous instant of the channel's run and chain: none at the first instant of a run of its cadence, or of a chain (R153,
R163). -/
def State.prevOf (s : State) (ch : Chan) (d : Decl) (t : Nat) : Option PhaseAt :=
  match ch.prev with
  | some p => if s.firstOfRun d p t || ch.restarts.any (fun x => decide (p.time < x) && decide (x ≤ t)) then none else some p
  | none => none

/-- An interval or bracket of a side holds an unstamped edge (R157): before a head, in a head whose stamp is not used, or in an
item that no head follows. -/
def Side.thinned (x : Side) (fr t : Nat) : Bool :=
  let lo := match x.bracketAt t with | (some a, _) => min a.stamp fr | _ => fr
  let hi := match x.bracketAt t with | (_, some b) => b.stamp | _ => t
  let inside (k : Nat) : Bool := decide (lo ≤ k) && decide (k ≤ hi)
  x.edges.any (fun e => (e.gap && decide (lo < e.stamp) && decide (e.stamp ≤ hi)) || (!e.timed && inside e.stamp)) ||
    x.counted.any fun p => inside p.1

/-- The edges of a side in [from, t). -/
def Side.stampsIn (x : Side) (fr t : Nat) : List Nat := (x.edges.filter fun e => e.within fr t).map (·.stamp)

/-- The latest stamped selected edge of a source below `t`, minus `t` (LAST). -/
def State.lastOf (s : State) (src : Source) (stamps : List Nat) (t : Nat) : Option Quantity :=
  match (stamps.filter fun x => decide (x < t)).foldl (fun m x => some (max x (m.getD 0))) (none : Option Nat) with
  | some x => some (qSigned 16 (((x : Int) - t) * 2 ^ 16) (s.timeFlags [x]) (usedOf src [x]))
  | none => none

/-- BOUND. -/
def State.qBound (s : State) (t : Nat) : Option Quantity := some (qSigned 16 ((s.boundAt t : Nat) * 2 ^ 16) 0 [])

/-- FREQ and PERIOD of A's chain (R153, R160): from the phases, or from a fit; they carry the flags of both phases' brackets
(R7). -/
def State.freqOf (s : State) (src : Source) (p : Option PhaseAt) (t : Nat) (x : Phased) : Option Quantity × Option Quantity :=
  match p with
  | some { time := tp, phi := some pp, usedA := ua, usedB := _ } =>
    match x.phi with
    | some phi =>
      let st := usedOf src (ua ++ x.stamps)
      let fl := s.timeFlags (tp :: (ua ++ x.stamps)) ||| (if x.extrap then fExtrap else 0)
      match x.fit with
      | some (bn, bd, ta, tb) =>
        -- b corrected: times span / (t_last − t_first)
        let n := bn * s.refSpan ta tb
        let k : Int := bd * ((tb : Int) - ta)
        if n ≤ 0 then (none, none)
        else (some (qFreq (rdiv (2 ^ 32 * (secQ : Int) * k) n.toNat) fl st),
              some (qSigned 16 (rdivInt (n * 2 ^ 16) k) fl st))
      | none => freqPer (phi - pp) (s.refSpan tp t) fl st
    | none => (none, none)
  | _ => (none, none)

/-- An instant inside a forward step (R57, R161). -/
def State.stepped (s : State) (t : Nat) : Bool := s.tb.forward.any fun f => decide (f.1 < t) && decide (t ≤ f.2)

/-- The fit of R152 does not serve an instant inside a forward step (R161), nor the first instant of a run of its cadence
(R163). -/
def State.fitServes (s : State) (ch : Chan) (d : Decl) (t : Nat) : Bool :=
  d.regress && !s.stepped t && !(match ch.prev with | some p => s.firstOfRun d p t | none => false)

/-- The estimator of a side that the declaration chooses (R150 to R152). -/
def Side.estimate (x : Side) (d : Decl) (fit : Bool) (fr t : Nat) (free : Int) : Phased :=
  let w := waitC (x.wait d)
  if fit then x.regress fr t w free else x.phase t w

/-- PHASE of an estimate. -/
def State.qPhaseOf (s : State) (src : Source) (x : Phased) : Option Quantity :=
  x.phi.map fun p => qPhase p (s.timeFlags x.stamps ||| (if x.extrap then fExtrap else 0)) (usedOf src x.stamps)

/-- Width and duty of the complete cycles of [from, t) (R156). -/
def State.widthDuty (s : State) (src : Source) (es : List Edge) (fr t : Nat) : Option Quantity × Option Quantity :=
  let cs := cycles fr t es
  let st := usedOf src (cs.flatMap fun c => [c.1, c.2.1, c.2.2])
  let fl := s.usedFlags st
  let w := cs.map fun c => (s.refSpan c.1 c.2.1, 1)
  let u := cs.map fun c => (s.refSpan c.1 c.2.1, (s.refSpan c.1 c.2.2).toNat)
  ((meanOf w 16).map fun x => qSigned 16 x fl st,
   (meanOf u 32).map fun x =>
     { qSigned 32 x fl st with word := BitVec.ofNat 64 (max 0 (min (2 ^ 32 - 1) x)).toNat })

/-- The start of the interval that ends at `t`: the last resolved instant, or the beginning. -/
def Chan.intervalFrom (ch : Chan) : Nat := (ch.prev.map (·.time)).getD 0

/-- LAST of the stamped selected edges of A. -/
def State.lastA (s : State) (ch : Chan) (d : Decl) (t : Nat) : Option Quantity :=
  s.lastOf d.srcA ((ch.a.edges.filter (·.timed)).map (·.stamp)) t

/-- The quantities of an EDGE or REMOTE channel. -/
def State.solveEdge (s : State) (ch : Chan) (d : Decl) (t : Nat) (unres : Bool) (free : Int) : Solved :=
  let p := s.prevOf ch d t
  let fr := (p.map (·.time)).getD 0
  let x := if unres then {} else ch.a.estimate d (s.fitServes ch d t) fr t free
  let y := if unres then {} else ch.a.phase t (waitC (ch.a.wait d))
  let (f, per) := s.freqOf d.srcA p t x
  let (w, u) := if p.isSome && !unres && d.selA == .both then s.widthDuty d.srcA ch.a.edges fr t else (none, none)
  let n := countAt ch.a ch.base ch.tLive t
  { qs := [some (qCount n), s.qPhaseOf d.srcA x, f, per, w, u, s.lastA ch d t, s.qBound t]
    flags := if ch.a.thinned ch.intervalFrom t then fThinned else 0
    used := usedOf d.srcA (ch.a.stampsIn ch.intervalFrom t), count := n, phiA := x.phi, usedA := x.stamps
    phase := match y.phi with | some v => wordOf v | none => noneWord }

/-- The quantities of a PAIR channel in PHASE_DIFF mode. -/
def State.solveDiff (s : State) (ch : Chan) (d : Decl) (t : Nat) (unres : Bool) (free : Int) : Solved :=
  let p := s.prevOf ch d t
  let fr := (p.map (·.time)).getD 0
  let fit := s.fitServes ch d t
  let x := if unres then {} else ch.a.estimate d fit fr t free
  let y := if unres then {} else ch.b.estimate d fit fr t free
  -- no instant of both chains has been resolved since one of them started
  let fresh := match ch.prev with
    | some q => (ch.a.starts ++ ch.b.starts).any fun f => decide (q.time < f) && decide (f ≤ t)
    | none => true
  let diff (x y : Phased) : Option Quantity := match x.phi, y.phi with
    | some a, some b =>
      if fresh then none
      else some (qPhase (b - a) (s.timeFlags (x.stamps ++ y.stamps) ||| (if x.extrap || y.extrap then fExtrap else 0))
        (usedOf d.srcA x.stamps ++ usedOf d.srcB y.stamps))
    | _, _ => none
  let x0 := if unres then {} else ch.a.phase t (waitC (ch.a.wait d))
  let y0 := if unres then {} else ch.b.phase t (waitC (ch.b.wait d))
  let n := countAt ch.a ch.base ch.tLive t
  let from_ := ch.intervalFrom
  { qs := [some (qCount n), diff x y, (s.freqOf d.srcA p t x).1, none, none, none, s.lastA ch d t, s.qBound t]
    flags := if ch.a.thinned from_ t || ch.b.thinned from_ t then fThinned else 0
    used := usedOf d.srcA (ch.a.stampsIn from_ t) ++ usedOf d.srcB (ch.b.stampsIn from_ t)
    count := n, phiA := x.phi, phiB := y.phi, usedA := x.stamps, usedB := y.stamps
    phase := match diff x0 y0 with | some q => q.word | none => noneWord }

/-- The quantities of a PAIR channel in INTERVAL mode. -/
def State.solvePair (s : State) (ch : Chan) (d : Decl) (t : Nat) : Solved :=
  let p := s.prevOf ch d t
  -- what an earlier instant has reported is gone: what is left below `t` is this interval's, late edges among it (R149)
  let inRange (x : Nat) : Bool := decide (x < t)
  let done := ch.pair.done.filter fun x => inRange x.stop
  let st := usedOf d.srcA (done.map (·.start)) ++ usedOf d.srcB (done.map (·.stop))
  let n := countAt ch.a ch.base ch.tLive t
  let per := (meanOf (done.map fun x => ((x.length : Int), 1)) 16).map fun x => qSigned 16 x (s.usedFlags st) st
  let stops := ch.pair.lastStop.toList ++ ch.pair.done.map (·.stop)
  let run (q : Option Quantity) : Option Quantity := if p.isSome then q else none
  let from_ := ch.intervalFrom
  { qs := [some (qCount n), none, none, run per, run (some (qCount done.length)),
           run (some (qCount (ch.pair.unmatched.filter inRange).length)), s.lastOf d.srcB stops t, s.qBound t]
    flags := if ch.a.thinned from_ t || ch.b.thinned from_ t || ch.pair.lost.any inRange then fThinned else 0
    used := usedOf d.srcA (ch.a.stampsIn from_ t) ++ usedOf d.srcB (ch.b.stampsIn from_ t), count := n }

/-- The quantities of a QUAD channel. -/
def State.solveQuad (s : State) (ch : Chan) (d : Decl) (t : Nat) (unres : Bool) : Solved :=
  let p := s.prevOf ch d t
  let base := sx 48 ch.base
  let n := quadCount ch.quad base t
  let (pos, ext, st) := quadAt ch.quad base t
  let none? := unres || !ch.quad.ready
  let fl := s.timeFlags st ||| (if ext then fExtrap else 0)
  let both (l : List Nat) : Used := usedOf d.srcA l ++ usedOf d.srcB l
  let vel : Option Quantity := match p with
    | some { time := tp, phi := some pp, usedA := ua, usedB := _ } =>
      let span := s.refSpan tp t
      if none? || span ≤ 0 then none
      else some (qSigned 32 (rdiv ((pos - pp) * secQ) span.toNat) (fl ||| s.timeFlags (tp :: ua)) (both (ua ++ st)))
    | _ => none
  let mark := (ch.quad.marks.filter fun x => decide (x < t)).foldl (fun m x => some (max x (m.getD 0))) (none : Option Nat)
  let latched := match mark with | some x => some (quadCount ch.quad base x) | none => ch.quad.latched
  let signed (v : Int) : Quantity := { v := sx 48 (toField 48 v), frac := 0, word := wordOf (sx 48 (toField 48 v)) }
  let from_ := ch.intervalFrom
  -- the bracket ends at the first step at or behind `t` (R157)
  let hi := st.foldl max t
  let thin := ch.quad.spans.any fun x => decide (from_ ≤ x) && decide (x ≤ hi)
  { qs := [if ch.quad.ready then some (signed n) else none, if none? then none else some (qSigned 32 pos fl (both st)), vel, none,
           latched.map signed, none,
           s.lastOf d.srcA ((ch.quad.stepLog.filter fun x => x.before ≠ x.after).map (·.stamp)) t, s.qBound t]
    flags := if thin then fThinned else 0
    used := both ((ch.quad.stepLog.map (·.stamp)).filter fun x => decide (from_ ≤ x) && decide (x < t))
    count := toField 48 n, phiA := if none? then none else some pos, usedA := st
    phase := if none? then noneWord else code64 pos }

/-- The quantities of a WINDOW channel. -/
def State.solveWindow (s : State) (ch : Chan) (d : Decl) (t : Nat) (unres : Bool) : Solved :=
  let n := countAt ch.a ch.base ch.tLive t
  let z := if unres then Zone.unresolved
    else match ch.a.zones.find? (fun x => decide (x.1 < t)) with | some x => x.2 | none => .unresolved
  { qs := [some (qCount n), some (qCount z.code), none, none, none, none,
           s.lastA ch d t, s.qBound t]
    flags := if ch.a.thinned ch.intervalFrom t then fThinned else 0
    used := usedOf d.srcA (ch.a.stampsIn ch.intervalFrom t), count := n, phase := BitVec.ofNat 64 z.code }

/-- The quantities of an instant. -/
def State.solve (s : State) (ch : Chan) (d : Decl) (t : Nat) (free : Int) : Solved :=
  let unres := s.unresolved d t
  let x := match d.kind with
    | .edge | .remote => s.solveEdge ch d t unres free
    | .pair => if d.phaseDiff then s.solveDiff ch d t unres free else s.solvePair ch d t
    | .quad => s.solveQuad ch d t unres
    | .window => s.solveWindow ch d t unres
  { x with flags := x.flags ||| s.timeFlags [t] ||| (if ch.late then fLate else 0) }

/-! ### When an instant may be resolved (R146, R147, R159) -/

/-- The bracket of a side is known. -/
def Side.known (x : Side) (t : Nat) : Bool := (x.bracketAt t).2.isSome

/-- The wait of a side has expired at device time `now`. -/
def Side.overdue (x : Side) (d : Decl) (t now : Nat) : Bool :=
  decide (max (t + ceilDiv (x.wait d).1 (x.wait d).2) (t + settleQ) ≤ now)

/-- The bracket of the instant is known, or not needed. -/
def State.bracketReady (s : State) (ch : Chan) (d : Decl) (t : Nat) : Bool :=
  !d.waits || s.unresolved d t ||
    (match d.kind with
     | .quad => ch.quad.stepLog.any fun x => decide (t ≤ x.stamp) && x.before != x.after
     | .pair => ch.a.known t && ch.b.known t
     | _ => ch.a.known t)

/-- Every side that lacks its bracket has used up its wait. -/
def Chan.allOverdue (ch : Chan) (d : Decl) (t now : Nat) : Bool :=
  match d.kind with
  | .pair => (ch.a.known t || ch.a.overdue d t now) && (ch.b.known t || ch.b.overdue d t now)
  | _ => ch.a.overdue d t now

/-! ### Statistics descriptors take effect (R210) -/

/-- The descriptors at the front of the channel's list whose t_q is at or before `t` take effect. -/
def State.targetsDue : Nat → State → Nat → Nat → State
  | 0, s, _, _ => s
  | k + 1, s, c, t =>
    match (s.chan c).targets with
    | (op, some tq) :: rest =>
      if tq ≤ t then
        State.targetsDue k ((s.modChan c fun ch => { ch with targets := rest }).targetApply c op tq) c t
      else s
    | _ => s

def State.applyTargets (s : State) (c t : Nat) : State := State.targetsDue ((s.chan c).targets.length) s c t

/-! ### The sample (R146, R148) -/

/-- Keeps what later instants need of a side: back to the latest phase edge, selected edge and rising edge below `t`. -/
def Side.prune (x : Side) (t : Nat) : Side :=
  let last (f : Edge → Bool) : Nat :=
    match (x.edges.filter fun e => f e && decide (e.stamp < t)).getLast? with | some e => e.stamp | none => t
  let lim := min (last Edge.usable) (min (last (·.timed)) (min (last fun e => e.rising && e.timed) (last (·.phase))))
  let below := x.counted.filter fun p => decide (p.1 < t)
  { x with edges := (x.edges.filter fun e => decide (lim ≤ e.stamp)).map fun e => { e with late := e.late && decide (t ≤ e.stamp) }
           counted := below.getLast?.toList ++ x.counted.filter fun p => decide (t ≤ p.1)
           starts := x.starts.filter fun f => decide (t < f)
           zones := match x.zones.filter (fun z => decide (t ≤ z.1)), x.zones.find? (fun z => decide (z.1 < t)) with
             | l, some z => l ++ [z]
             | l, none => l }

/-- The highest integer phase reported (R144). -/
def Side.reported (x : Side) (phi : Option Int) : Side :=
  match phi with
  | some p => { x with highM := some (match x.highM with | some h => max h (p / 2 ^ 32) | none => p / 2 ^ 32) }
  | none => x

/-- The channel's bookkeeping after an instant has been resolved. -/
def Chan.after (ch : Chan) (t : Nat) (v : Solved) (fr : Nat) (expA expB : Bool) : Chan :=
  -- a guarded channel keeps what the votes of R420 look back to
  let keep0 := if ch.decl.guarded then t - 700 * usQ else t
  let side (x : Side) (phi : Option Int) (e : Bool) : Side :=
    (({ x with pest := x.newPest fr t, expired := e } : Side).reported phi).prune keep0
  let q := ch.quad
  let keep := match q.stepLog.find? (fun x => decide (x.stamp < keep0)) with | some x => x.stamp | none => 0
  let steps := match (q.stepLog.filter fun x => x.before ≠ x.after).find? (fun x => decide (x.stamp < keep0)) with
    | some x => min keep x.stamp | none => keep
  let a := side ch.a (if ch.decl.kind == .quad then none else v.phiA) expA
  { ch with prev := some { time := t, phi := v.phiA, usedA := v.usedA, usedB := v.usedB }, resolved := t, late := false
            restarts := ch.restarts.filter fun x => decide (t < x)
            a := if ch.decl.kind == .quad then { a with pest := q.newPest ch.a.pest fr t } else a
            b := side ch.b v.phiB expB
            pair := { ch.pair with
              lastStop := (ch.pair.lastStop.toList ++ (ch.pair.done.filter fun x => decide (x.stop < t)).map (·.stop)).getLast?
              done := ch.pair.done.filter fun x => decide (t ≤ x.stop)
              unmatched := ch.pair.unmatched.filter fun x => decide (t ≤ x)
              lost := ch.pair.lost.filter fun x => decide (t ≤ x) }
            quad := { q with
              stepLog := q.stepLog.filter fun x => decide (steps ≤ x.stamp)
              latched := match (v.qs[4]?).getD none with | some x => if ch.decl.kind == .quad then some x.v else none | none => q.latched
              marks := q.marks.filter fun x => decide (t ≤ x), spans := q.spans.filter fun x => decide (t ≤ x) }
            instants := ch.instants.filter (· != t) }

/-- The GAP_SUMMARY that closes a withheld interval at `t` (R377). -/
def State.closeWithheld (s : State) (c : Nat) (d : Decl) (t count : Nat) (phase : Word) (fl : BitVec 10) : State :=
  let ch := s.chan c
  match ch.withheld with
  | some w =>
    let s1 := (s.setChan c { ch with withheld := none }).bump Reg.FLT_CNT_SUMMARY 0 48
    (s1.chanRec c d
      { type := 14, flags := fl ||| s.timeFlags [w.from_, t], time := w.from_, code := 4
        body := [BitVec.ofNat 64 t, BitVec.ofNat 64 (t / 2 ^ 64), BitVec.ofNat 64 w.count, BitVec.ofNat 64 count, w.phase,
                 phase, BitVec.ofNat 64 (w.records % 2 ^ 48), BitVec.ofNat 64 (w.stamps % 2 ^ 48)] }
      [] { time := t, count := count, phase := phase }).modChan c fun ch => { ch with gapFlag := true }
  | none => s

/-- At an instant the withheld interval closes once the ring has left summary mode (R377). -/
def State.gapSummary (s : State) (c : Nat) (d : Decl) (t count : Nat) (phase : Word) (fl : BitVec 10) : State :=
  if (s.ring d.ring).summary then s else s.closeWithheld c d t count phase fl

/-- The edges behind the quantities of a mask (R91). -/
def maskUsed (qs : Quantities) (mask : Nat) : Used :=
  (List.range 8).flatMap fun i => if bitOf mask i then (match (qs[i]?).getD none with | some q => q.used | none => []) else []

/-- The SAMPLE record of an instant (R154). -/
def State.sampleRec (s : State) (c : Nat) (d : Decl) (t : Nat) (v : Solved) : State :=
  if d.samples then
    let (vals, fl) := rawValues v.qs d.mask
    s.chanRec c d { type := 1, flags := v.flags ||| fl, time := t, body := vals } (v.used ++ maskUsed v.qs d.mask)
      { time := t, count := v.count, phase := v.phase }
  else s

/-- The instants of an old declaration are all resolved: its set restarts where τ0 changes (R203), and every stage is reset
(R170). -/
def State.finishRedeclare (s : State) (c : Nat) : State :=
  let ch := s.chan c
  match ch.old with
  | some (r, d) =>
    if ch.instants.any (fun t => decide (t ≤ r)) then s
    else
      let tau := d.cadence != ch.decl.cadence || d.recipe != ch.decl.recipe || d.recipeEn != ch.decl.recipeEn
      let s1 := if tau then s.devRestart c else s
      (s1.resetStages c d).modChan c fun ch => { ch with old := none }
  | none => s

/-- Resolves instant `t`, the first the channel holds; `late` tells that the wait has run out. -/
def State.resolveAt (s : State) (c t : Nat) : State :=
  let s1 := ((s.quadAll c).pairAll c).applyTargets c t
  let ch := s1.chan c
  let d := ch.declAt t
  let (fv, s2) := if d.regress then s1.free else (0, s1)
  let v := s2.solve ch d t fv.toInt
  let fr := ((s2.prevOf ch d t).map (·.time)).getD 0
  let waits := d.waits && !s2.unresolved d t
  let expA := waits && (if d.kind == .quad then !s2.bracketReady ch d t else !ch.a.known t)
  let expB := waits && d.kind == .pair && !ch.b.known t
  let s3 := s2.gapSummary c d t v.count v.phase v.flags
  -- what the recipe's input carries of a configuration change (R189)
  let cfg := if ch.cfg || ch.inSpan (v.used ++ maskUsed v.qs 0xFF) then fCfg else 0
  let s4 := s3.sampleRec c d t v
  -- g and P of the grid that the instant lies on (R137, R171)
  let (p, ph) := s4.gridAt d.cadence t
  let s5 := if d.recipeEn then
      s4.runRecipe { chan := c, decl := d, time := t, g := if p = 0 then 0 else (t - ph) / p, period := p
                     first := (s2.prevOf ch d t).isNone
                     qs := v.qs, flags := v.flags ||| cfg ||| s4.hubFlags ||| s4.guardUncertain d, used := v.used ++ maskUsed v.qs 0xFF
                     where_ := { time := t, count := v.count, phase := v.phase } }
    else s4
  ((s5.modChan c fun ch => ch.after t v fr expA expB).finishRedeclare c).gridRestart c

/-- An instant is settled for a source: in device time (R146), or for a remote source behind the lane's horizon (R284,
R285). -/
def State.settledFor (s : State) (d : Decl) (t : Nat) (src : Source) : Bool :=
  let byTime := decide (t + d.settle ≤ s.devTime)
  match src with
  | .remote l i =>
    if (s.lane l).st != .active && (s.remoteSrc l i).zone == .unresolved then byTime
    else decide (t ≤ (s.lane l).horizon) && !(s.lane l).keeps i t
  | _ => byTime

/-- An instant is settled (R146, R284). -/
def State.settled (s : State) (d : Decl) (t : Nat) : Bool :=
  s.settledFor d t d.srcA && (d.srcB == .none || s.settledFor d t d.srcB)

/-- An instant behind t_r waits until the REDECLARE has been applied. -/
def Chan.awaitsRedeclare (c : Chan) (t : Nat) : Bool :=
  match c.op, c.opAt with | some (.redeclare _ _ _ _), some r => decide (r < t) | _, _ => false

/-- Remote items at or below `t` wait for the engine: their dispatch has not completed step 6 of R23 (R284). -/
def Chan.itemsWait (c : Chan) (t : Nat) : Bool :=
  (c.decls.any fun d => match d.srcA, d.srcB with | .remote _ _, _ => true | _, .remote _ _ => true | _, _ => false) &&
    match c.inbox with
    | (_, i) :: _ => !c.waits i.stamp && c.inbox.any fun x => decide (x.2.stamp ≤ t)
    | [] => false

/-- A GAP is owed before an instant: of a RESUME (R127), or of a new session of the lane (R285). -/
def Chan.owesGap (c : Chan) (t : Nat) : Bool :=
  c.gap.isSome || match c.laneGap with
    | some g => (g.startOwed && decide (g.from_ < t)) || (!g.endOwed && decide (g.to_ < t))
    | none => false

/-- The first instant of a channel, when it may be resolved now: settled, nothing before it owed, and its engine free. -/
def State.dueInstant (s : State) (c : Nat) : Option Nat :=
  let ch := s.chan c
  match ch.instants with
  | t :: _ =>
    if ch.owesGap t || ch.itemsWait t || s.engineHeld ch.place.engine || (s.sealedCastling c).isSome ||
        !s.settled (ch.declAt t) t || ch.awaitsRedeclare t then none
    else some t
  | [] => none

/-- The changes of a QUAD channel that can be decided are decided, unless a castling's seal keeps every engine off it (R119, R230). -/
def State.quadNow (s : State) (c : Nat) : State := if (s.sealedCastling c).isSome then s else s.quadAll c

/-- A settled instant whose bracket is known or not needed. -/
def execInstantResolve (t : Nat) (chan : BitVec 20) (s : State) : Host.Outcome State Fault Refusal :=
  atMoment t s fun s =>
    let s0 := s.quadNow chan.toNat
    match s0.dueInstant chan.toNat with
    | some i =>
      let ch := s0.chan chan.toNat
      if s0.bracketReady ch (ch.declAt i) i then s0.resolveAt chan.toNat i else s
    | none => s

/-- The bracket wait of the first instant expires (R147, R151). -/
def execBracketWaitExpiry (t : Nat) (chan : BitVec 20) (s : State) : Host.Outcome State Fault Refusal :=
  atMoment t s fun s =>
    let s0 := s.quadNow chan.toNat
    match s0.dueInstant chan.toNat with
    | some i =>
      let ch := s0.chan chan.toNat
      if !s0.bracketReady ch (ch.declAt i) i && ch.allOverdue (ch.declAt i) i s0.devTime then s0.resolveAt chan.toNat i else s
    | none => s

/-- A statistics descriptor takes effect at t_q, once every earlier input has been fed: every instant below t_q, and every edge
stamped below it (R210). A channel that is CASTLING behind its seal changes nothing (R230). -/
def execStatsTargetApply (t : Nat) (chan : BitVec 20) (s : State) : Host.Outcome State Fault Refusal :=
  atMoment t s fun s =>
    let c := chan.toNat
    let ch := s.chan c
    match ch.targets with
    | (op, q) :: rest =>
      -- a cadence that has been disabled leaves no grid instant to wait for (log entry 65)
      let tq := match q with
        | some x => some x
        | none => if ch.decl.cadence ≤ 15 && s.bit (Reg.CAD_CTRL ch.decl.cadence) 0 then none else some s.devTime
      match tq with
      | some x =>
        let s1 := s.pairAll c
        if s.settled ch.decl x && !ch.instants.any (fun i => decide (i < x)) && !ch.inbox.any (fun i => decide (i.2.stamp < x)) &&
            !(s1.chan c).pair.todo.any (fun e => decide (e.stamp < x)) && !s.engineHeld ch.place.engine &&
            (s.sealedCastling c).isNone then
          (s1.modChan c fun ch => { ch with targets := rest }).targetApply c op x
        else s
      | none => s
    | [] => s

/-- An automatic report of a deviation set (R208). -/
def execDevReport (t : Nat) (chan : BitVec 20) (s : State) : Host.Outcome State Fault Refusal :=
  atMoment t s fun s => if (s.sealedCastling chan.toNat).isSome then s else s.devReportDue chan.toNat

/-- A ONE_SHOT histogram has completed (R206). -/
def execHistoComplete (t : Nat) (chan : BitVec 20) (hist : Fin 4) (s : State) : Host.Outcome State Fault Refusal :=
  atMoment t s fun s => if (s.sealedCastling chan.toNat).isSome then s else s.histoDue chan.toNat hist.val

/-- An AUTO period has ended (R207): by count, or by time once every input before its end has been fed. -/
def execAutoPeriodEnd (t : Nat) (chan : BitVec 20) (hist : Fin 4) (s : State) : Host.Outcome State Fault Refusal :=
  atMoment t s fun s =>
    let ch := s.chan chan.toNat
    match tget? ch.histos hist.val with
    | some h =>
      if (s.sealedCastling chan.toNat).isSome then s
      else if h.auto && h.reasons ≠ 0 then s.histoPeriod chan.toNat hist.val 1 h.began
      else if h.auto && h.stop ≠ 0 && h.began + h.stop + 860652 ≤ s.devTime &&
          !ch.instants.any (fun i => decide (i < h.began + h.stop)) then
        s.histoPeriod chan.toNat hist.val 2 (h.began + h.stop)
      else s
    | none => s

end Sys2Proof.Machine
end

