-- ==== Sys2Proof/Machine/RingOps.lean ====
section
/-! DEFINITION. What the descriptor rows share (14 R338 to R346, R351 to R353, R357): ring positions, the status block,
a ring's message, and the consumption, acceptance and rejection of the descriptor at the head of a submission ring. -/

namespace Sys2Proof.Machine

/-! ### Positions and the status block (R340, R346) -/

/-- d of ring n (R338). -/
def State.depth (s : State) (n : Nat) : Nat := 2 ^ s.fld (Reg.RING_CFG n) 2 5

/-- The ring is enabled, and a delivery ring. -/
def State.ringOn (s : State) (n : Nat) : Bool := s.bit (Reg.RING_CFG n) 0
def State.isDelivery (s : State) (n : Nat) : Bool := s.bit (Reg.RING_CFG n) 1

/-- A position in the layout of R340. -/
def posField (d p : Nat) : Nat := p % d + 2 ^ 24 * (p / d)

/-- The distance of R340. -/
def posDist (d p2 p1 : Nat) : Nat := (p2 + 2 * d - p1) % (2 * d)

def RingState.code : RingState → Nat
  | .disabled => 0 | .active => 1 | .stopped => 2 | .stopping => 3

/-- The status block of a ring as it stands, `updates` being this write's number since enable (R346). -/
def State.statusBits (s : State) (n updates : Nat) : BitVec 512 :=
  let r := s.ring n
  let d := s.depth n
  BitVec.ofNat 512 (packBits [(0, 25, posField d r.pos), (32, 25, posField d r.lb), (64, 48, s.fld (Reg.RING_SEQ n) 0 48),
    (128, 64, s.devTime), (192, 8, s.devTime / 2 ^ 64), (200, 2, r.st.code), (202, 1, b2n r.summary),
    (203, 1, b2n (r.held != [])), (224, 32, updates)])

/-- Writes the status block. -/
def State.writeStatus (s : State) (n : Nat) : State :=
  let u := ((s.ring n).updates + 1) % 2 ^ 32
  (s.modRing n fun r => { r with updates := u }).out (.status (s.reg (Reg.RING_STATUS_ADDR n)).toNat (s.statusBits n u))

/-- Writes the status block, while the ring is not DISABLED (R346). -/
def State.statusBlock (s : State) (n : Nat) : State := if (s.ring n).st == .disabled then s else s.writeStatus n

/-- `k` entries of a ring have become visible (R357). -/
def State.entries (s : State) (n k : Nat) : State :=
  s.modRing n fun r => { r with pendingAt := if r.pendingEntries = 0 then s.now else r.pendingAt
                                pendingEntries := r.pendingEntries + k }

/-- Sends the ring's message when the pending entries number at least c (R357). -/
def State.ringMessage (s : State) (n : Nat) : State :=
  let c := max 1 (s.fld (Reg.RING_MOD n) 16 12)
  if s.bit (Reg.RING_CFG n) 14 && decide (c ≤ (s.ring n).pendingEntries) then
    (s.modRing n fun r => { r with pendingEntries := 0 }).message n
  else s

/-! ### Descriptors (R351 to R353) -/

/-- A field of a descriptor: byte offset, low bit, width. -/
def df (d : Desc) (off lo w : Nat) : Nat := fieldOf d.toNat (8 * off + lo) w

/-- Type, ret_ring and tag of the common header (R351). -/
def descType (d : Desc) : Nat := df d 0 0 8
def descRet (d : Desc) : Nat := df d 0 8 6
def descTag (d : Desc) : Dword := BitVec.ofNat 32 (df d 4 0 32)

/-- The type codes of R352. -/
def descTypes : List Nat :=
  [0x01, 0x10, 0x11, 0x12, 0x13, 0x14, 0x20, 0x21, 0x30, 0x31, 0x32, 0x40, 0x41, 0x50, 0x60, 0x61]

/-- The header check of R353. -/
def headerOk (d : Desc) : Bool := descTypes.contains (descType d) && df d 0 14 18 == 0

/-- Every bit outside the header and these fields (byte offset, low bit, width) is zero. -/
def descOnly (d : Desc) (fields : List (Nat × Nat × Nat)) : Bool :=
  let m := packBits ((0, 14, 2 ^ 14 - 1) :: (32, 32, 2 ^ 32 - 1) :: fields.map fun (o, l, w) => (8 * o + l, w, 2 ^ w - 1))
  d.toNat &&& m == d.toNat

/-- The reason of the first check that fails, in the order given. -/
def firstFail : List (Nat × Bool) → Option Nat
  | [] => none
  | (r, fails) :: rest => if fails then some r else firstFail rest

/-- The hub takes descriptors: it is in RUN, outside an Endgame (R396, R397). -/
def State.takesDescs (s : State) : Bool := s.pwr.st == .run && s.pst.endgame.isNone

/-- The head descriptor of ring n is consumed (R341): h advances, RING_SEQ counts, the status block is written, and the
ring's message follows it. -/
def State.consume (s : State) (n : Nat) : State :=
  let d := s.depth n
  let s1 := s.modRing n fun r => { r with pos := (r.pos + 1) % (2 * d), fetched := r.fetched.tail }
  (((s1.bump (Reg.RING_SEQ n) 0 48).entries n 1).statusBlock n).ringMessage n

/-- The head descriptor is rejected whole (R353): the RETURN, RING_REJ, and nothing else changes. -/
def State.rejectHead (s : State) (n : Nat) (d : Desc) (reason : Nat) : State :=
  let s1 := s.sendReturn (descRet d) n reason (descTag d) (descType d) (posField (s.depth n) (s.ring n).pos) 0 1
  (s1.bump (Reg.RING_REJ n) 0 32).consume n

/-- Head descriptors whose header fails its check are rejected with FIELD before anything else (R353). -/
def State.rejectBad : Nat → State → Nat → State
  | 0, s, _ => s
  | k + 1, s, n =>
    match (s.ring n).fetched with
    | d :: _ => if headerOk d then s else State.rejectBad k (s.rejectHead n d 1) n
    | [] => s

/-- Behind a consumed descriptor, the next ones whose headers fail. -/
def State.nextDesc (s : State) (n : Nat) : State := State.rejectBad ((s.ring n).fetched.length) s n

/-- The head descriptor of ring n, when it is of type `ty` and the hub takes it. -/
def State.head (s : State) (n ty : Nat) : Option Desc :=
  match (s.ring n).fetched with
  | d :: _ => if s.takesDescs && (descType d) == ty then some d else none
  | [] => none

/-- The head descriptor is judged: rejected for a reason, or accepted with its effect. -/
def State.judge (s : State) (n : Nat) (d : Desc) (fail : Option Nat) (effect : State → State) : State :=
  match fail with
  | some r => (s.rejectHead n d r).nextDesc n
  | none => ((effect s).consume n).nextDesc n

/-- The form of a descriptor row: the head descriptor of the ring, when it is of the row's type; anything else leaves the
hub as it is. -/
def onHead (t : Nat) (ring : Fin 64) (ty : Nat) (s : State) (f : State → Desc → State) :
    Host.Outcome State Fault Refusal :=
  atMoment t s fun s => match s.head ring.val ty with | some d => f s d | none => s

/-! ### Fetching (R341, R343) -/

/-- Descriptors that a letterbox covers and that have not been fetched. -/
def State.unfetched (s : State) (n : Nat) : Nat :=
  let r := s.ring n
  posDist (s.depth n) r.lb r.pos - r.fetched.length

/-- The ring is fetched from (R339, R342; R333 in D3hot). -/
def State.fetches (s : State) (n : Nat) : Bool :=
  s.takesDescs && !s.pcie.d3hot && s.ringOn n && !s.isDelivery n && (s.ring n).st == .active

/-- The hub reads descriptors of a submission ring. -/
def execDescriptorFetch (t : Nat) (ring : Fin 64) (descs : List Desc) (s : State) : Host.Outcome State Fault Refusal :=
  if descs.length < 1 || 8 < descs.length then .fault .illFormed
  else atMoment t s fun s =>
    if s.fetches ring && decide (descs.length ≤ s.unfetched ring) then
      (s.modRing ring fun r => { r with fetched := r.fetched ++ descs }).nextDesc ring
    else s

/-- A read of descriptors fails: those before the failed one are kept, the ring stops (R343), DMA_READ is raised (R335). -/
def execFetchFailed (t : Nat) (ring : Fin 64) (descs : List Desc) (s : State) : Host.Outcome State Fault Refusal :=
  if 7 < descs.length then .fault .illFormed
  else atMoment t s fun s =>
    if s.fetches ring && decide (descs.length < s.unfetched ring) then
      let s1 := s.modRing ring fun r => { r with fetched := r.fetched ++ descs, st := .stopped }
      ((s1.raise .dmaRead ring.val).statusBlock ring).nextDesc ring
    else s

end Sys2Proof.Machine
end

