-- ==== Sys2Proof/Machine/Places.lean ====
section
/-! DEFINITION. Places and placement (09 R216 to R223, R237, R238): squares and home blocks, the measure of load, the placing
of a declared channel, and the PLACEMENT record. -/

namespace Sys2Proof.Machine

/-! ### Squares (R19, R216, R218) -/

/-- The four squares of an engine's home block. -/
def homeSquares (e : Nat) : List Nat :=
  let s := 16 * (e / 4) + 2 * (e % 4)
  [s, s + 1, s + 8, s + 9]

/-- The engine whose home block holds a square. -/
def homeOf (sq : Nat) : Nat := 4 * (sq / 16) + sq % 8 / 2

/-- Free places of a square. -/
def freeIn (used : Table Nat) (sq : Nat) : Nat := 16384 - tget 0 used sq

/-- The first element of a list with the largest value; the first with the smallest. -/
def argMax (f : Nat → Nat) (l : List Nat) : Option Nat :=
  l.foldl (fun best x => match best with | some y => if f y < f x then some x else best | none => some x) none
def argMin (f : Nat → Nat) (l : List Nat) : Option Nat :=
  l.foldl (fun best x => match best with | some y => if f x < f y then some x else best | none => some x) none

/-- Squares for `k` places, each filled before `pick` names the next. -/
def fillSquares (pick : Table Nat → Option Nat) : Nat → Nat → Table Nat → List Nat
  | 0, _, _ => []
  | f + 1, k, used =>
    match pick used with
    | some sq =>
      let n := min k (freeIn used sq)
      if n = 0 then [] else List.replicate n sq ++ fillSquares pick f (k - n) (tmod 0 used sq (· + n))
    | none => []

/-- Squares for `k` places: in square `first` while it has room, the others in the square with the most free places anywhere (R223
step 2). -/
def placeSquares (first k : Nat) (used : Table Nat) : List Nat :=
  let n := min k (freeIn used first)
  List.replicate n first ++
    fillSquares (fun u => argMax (freeIn u) (List.range 64)) 64 (k - n) (tmod 0 used first (· + n))

/-- Squares for `k` places in an engine's home block, the one with the most free places first (R225). -/
def homePlaces (e k : Nat) (used : Table Nat) : List Nat := fillSquares (fun u => argMax (freeIn u) (homeSquares e)) 4 k used

/-- Frees places. -/
def freePlaces (used : Table Nat) (l : List (Nat × Nat)) : Table Nat := l.foldl (fun u p => tmod 0 u p.1 (· - 1)) used

/-- The squares of a channel's places, that of its context first; the context's place; its lines. -/
def Placed.squares (p : Placed) : List Nat := p.places.map Prod.fst
def Placed.square (p : Placed) : Nat := (p.places.headD (0, 0)).1
def Placed.index (p : Placed) : Nat := (p.places.headD (0, 0)).2
def Placed.lines (p : Placed) : List (Nat × Nat) := p.places.tail

/-- Lines outside the home block of the serving engine. -/
def Placed.outside (p : Placed) : Nat := (p.lines.filter fun x => homeOf x.1 != p.engine).length

/-- The place indices of a square that are taken: by channels, and by castlings' destinations. -/
def State.takenIn (s : State) (sq : Nat) : List Nat :=
  let idx (l : List (Nat × Nat)) : List Nat := (l.filter fun p => p.1 == sq).map Prod.snd
  (s.chans.flatMap fun x => idx x.2.place.places) ++ s.plc.castlings.flatMap fun k => idx k.dest

/-- The first index at or behind `v`, in a circle, that is not taken. -/
def freshIndex (taken : List Nat) : Nat → Nat → Nat
  | 0, v => v % 16384
  | f + 1, v => if taken.contains (v % 16384) then freshIndex taken f (v + 1) else v % 16384

/-- Allots places in the squares named: which free place of a square is the sorting office's free choice (R216; log entry 13). -/
def State.allot : List Nat → State → List (Nat × Nat) → List (Nat × Nat) × State
  | [], s, got => (got, s)
  | sq :: r, s, got =>
    let (v, s1) := s.free
    let taken := s1.takenIn sq ++ (got.filter fun p => p.1 == sq).map Prod.snd
    let p := (sq, freshIndex taken taken.length v.toNat)
    State.allot r { s1 with plc := { s1.plc with used := tmod 0 s1.plc.used sq (· + 1) } } (got ++ [p])

/-! ### Load (R221, R222), in units of 2^-40 -/

/-- A load window. -/
def windowQ : Nat := 12288000000

/-- The busy fraction b_e of the last window. -/
def State.busyOf (s : State) (e : Nat) : Nat := tget 0 s.plc.busy e * 2 ^ 40 / windowQ

/-- `n` event equivalents divided by c_e × 0.01 s; 480,000,000 per second for an engine idle in the last window. -/
def State.share (s : State) (e n : Nat) : Nat :=
  let b := tget 0 s.plc.busy e
  let w := tget 0 s.plc.work e
  if b = 0 || w = 0 then n * 2 ^ 40 / 4800000 else n * b * 2 ^ 40 / (w * windowQ)

/-- The banks of a channel's targets. -/
def Chan.banks (c : Chan) : List Nat := (c.dev.toList.map (·.bank)) ++ c.histos.flatMap fun h => h.2.banks

/-- d of R222 for `w` event equivalents, `out` of `all` places and targets outside the engine's home block or banks. -/
def State.loadOf (s : State) (e w out all : Nat) : Nat :=
  s.share e (w * (16 * all + s.fld Reg.PLC_POLICY 24 8 * out)) / (16 * max 1 all)

/-! ### Placing a channel (R218, R223, R237) -/

/-- A channel's pin and hint. -/
def State.wish (s : State) (c : Nat) : Wish := tget {} s.plc.wishes c

/-- Guard places in use on an engine. -/
def State.guardUsed (s : State) (e : Nat) : Nat := tget 0 s.plc.guardUsed e

/-- The predicted busy fraction of an engine (R223 step 1). -/
def State.predictedOf (s : State) (e : Nat) : Nat := s.busyOf e + tget 0 s.plc.predicted e

/-- The share predicted of a channel without a history: its hinted rate, or 1,000 events/s. -/
def State.hintShare (s : State) (c e : Nat) : Nat :=
  let r := (s.wish c).rate
  s.share e (if r = 0 then 1000 else r) / 100

/-- The ceiling of R224. -/
def State.ceiling (s : State) : Nat := s.fld Reg.PLC_POLICY 0 8 * 2 ^ 32

/-- The engine that serves channel `c` once the moves `done` have been made. -/
def Chan.engineAfter (ch : Chan) (c : Nat) (done : List Move) : Nat :=
  match done.find? fun m => m.chan == c && m.target.isNone && !m.twin with | some m => m.toEngine | none => ch.place.engine

/-- Channels of a group that an engine serves once the moves `done` have been made, but for channel `c`. -/
def State.groupOn (s : State) (done : List Move) (g c e : Nat) : Nat :=
  (s.chans.filter fun (k, ch) => k != c && ch.bound? && ch.engineAfter k done == e && (s.wish k).group == g).length

/-- The engine of a channel (R223 step 1, R237), of those in the list. -/
def State.chooseEngine (s : State) (c : Nat) (among : List Nat) : Nat :=
  let w := s.wish c
  let best (l : List Nat) : Nat := (argMin s.predictedOf l).getD 0
  if w.group ≠ 0 && w.groupMode = 1 then
    match argMax (s.groupOn [] w.group c) among with
    | some e => if 0 < s.groupOn [] w.group c e && s.predictedOf e + s.hintShare c e ≤ s.ceiling then e else best among
    | none => best among
  else if w.group ≠ 0 && w.groupMode = 2 then
    let l := among.filter fun e => s.groupOn [] w.group c e = 0
    if l = [] then best among else best l
  else best among

/-- The places a declaration takes: its context and the lines of its recipe (R193). -/
def State.placesOf (s : State) (d : Decl) : Nat := 1 + (if d.recipeEn then recipeLines (s.recipe d.recipe) else 0)

/-- The square a pin names. -/
def Wish.pinSquare (w : Wish) : Option Nat := if w.pinned then w.square else none

/-- The square a channel's places go to first: the pinned one, else that of the home block with the most free places. -/
def State.chooseSquare (s : State) (c e : Nat) : Nat :=
  ((s.wish c).pinSquare).getD ((argMax (freeIn s.plc.used) (homeSquares e)).getD 0)

/-- The twin engine of a guarded channel: another engine with room for `k` places in its guard buffer. -/
def State.chooseTwin (s : State) (c primary k : Nat) : Nat :=
  s.chooseEngine c ((List.range 16).filter fun e => e != primary && decide (s.guardUsed e + k ≤ 512))

/-- Guard places of an engine taken and given back. -/
def State.takeGuard (s : State) (e n : Nat) : State := { s with plc := { s.plc with guardUsed := tmod 0 s.plc.guardUsed e (· + n) } }
def State.giveGuard (s : State) (e n : Nat) : State := { s with plc := { s.plc with guardUsed := tmod 0 s.plc.guardUsed e (· - n) } }

/-- The share predicted of a channel placed in the present window (R223 step 1). -/
def State.predict (s : State) (c e : Nat) : State :=
  { s with plc := { s.plc with predicted := tmod 0 s.plc.predicted e (· + s.hintShare c e) } }

/-- Places a channel under its declaration (R223). -/
def State.placeChan (s : State) (c : Nat) (d : Decl) : State :=
  let w := s.wish c
  let k := s.placesOf d
  let e := if w.pinned then w.engine else s.chooseEngine c (List.range 16)
  let (ps, s1) := State.allot (placeSquares (s.chooseSquare c e) k s.plc.used) (s.predict c e) []
  let twin := if d.guarded then some (s1.chooseTwin c e k) else none
  let s2 := match twin with | some x => (s1.takeGuard x k).predict c x | none => s1
  s2.modChan c fun ch => { ch with place := { engine := e, places := ps, twin := twin, placedIn := s.plc.windowNo } }

/-- Frees the places of a channel. -/
def State.unplace (s : State) (c : Nat) : State :=
  let p := (s.chan c).place
  let s1 : State := { s with plc := { s.plc with used := freePlaces s.plc.used p.places } }
  let s2 := match p.twin with | some x => s1.giveGuard x p.places.length | none => s1
  s2.modChan c fun ch => { ch with place := {} }

/-- A twin grows to `k` places: where its guard buffer lacks the room, it goes to an engine that has it (R218; log entry 69). -/
def State.growTwin (s : State) (c k : Nat) : State :=
  let p := (s.chan c).place
  match p.twin with
  | some x =>
    let s0 := s.giveGuard x p.places.length
    let y := if s0.guardUsed x + k ≤ 512 then x else s0.chooseTwin c p.engine k
    (s0.takeGuard y k).modChan c fun ch => { ch with place := { p with twin := some y } }
  | none => s

/-- A channel's lines change with its recipe: those it needs no more are freed, and those it lacks are taken as at a DECLARE
(R192, R193; log entry 69). -/
def State.changeLines (s : State) (c : Nat) (d : Decl) : State :=
  let k := s.placesOf d
  let s1 := s.growTwin c k
  let p := (s1.chan c).place
  let n := p.places.length
  if k ≤ n then
    ({ s1 with plc := { s1.plc with used := freePlaces s1.plc.used (p.places.drop k) } } : State).modChan c fun ch =>
      { ch with place := { p with places := p.places.take k } }
  else
    let (ps, s2) := State.allot (placeSquares (s1.chooseSquare c p.engine) (k - n) s1.plc.used) s1 []
    s2.modChan c fun ch => { ch with place := { p with places := p.places ++ ps } }

/-! ### The PLACEMENT record (R238, R364) -/

def ChanState.code : ChanState → Nat
  | .vacant => 0 | .declared => 1 | .live => 2 | .castling => 3 | .paused => 4 | .retired => 5

/-- GUARD of a guarded channel (R134). -/
def State.guardFlag (s : State) (c : Nat) : BitVec 10 :=
  if (s.chan c).bound? && (s.chan c).decl.guarded then fGuard else 0

/-- A PLACEMENT record of a channel as it is placed now. -/
def State.placeRecord (s : State) (dest c reason : Nat) : State :=
  let ch := s.chan c
  let w := s.wish c
  let p := ch.place
  let r : Record :=
    if ch.bound? then
      { type := 12, chan := c, flags := s.guardFlag c, time := s.devTime, code := reason
        aux := packBits [(0, 3, ch.st.code), (3, 4, p.engine), (7, 4, p.twin.getD 0), (11, 1, b2n p.twin.isSome)]
        spec0 := packBits [(0, 6, p.square), (6, 14, p.index), (20, 7, p.lines.length)]
        spec1 := packBits [(0, 7, p.outside), (7, 1, b2n w.pinned), (8, 16, w.group), (24, 16, p.castles.toNat)] }
    else { type := 12, chan := c, time := s.devTime, code := reason, aux := ch.st.code }
  s.push dest 1 none r

/-- An automatic PLACEMENT record, when PLC_CTRL.report is 1. -/
def State.placeReport (s : State) (c reason : Nat) : State :=
  if s.bit Reg.PLC_CTRL 1 then s.placeRecord (s.fld Reg.PLC_CTRL 8 6) c reason else s

end Sys2Proof.Machine
end

