-- ==== Sys2Proof/Machine/Channel.lean ====
section
/-! DEFINITION. The channel descriptors and the moments at which they apply (05 R113 to R134). -/

namespace Sys2Proof.Machine

/-! ### DECLARE and REDECLARE as posted (R128, R129) -/

/-- An edge selection's code. -/
def EdgeSel.code : EdgeSel → Nat
  | .rising => 0 | .falling => 1 | .both => 2

def selOf (v : Nat) : EdgeSel := match fieldOf v 22 2 with | 1 => .falling | 2 => .both | _ => .rising

/-- A source field (R129). -/
def sourceOf (v : Nat) : Source :=
  match fieldOf v 20 2 with
  | 1 => .local (fieldOf v 0 16)
  | 2 => .remote (fieldOf v 16 4) (fieldOf v 0 16)
  | _ => .none

/-- A source field holds no reserved bit or code (R129). -/
def sourceFieldOk (v : Nat) : Bool :=
  match fieldOf v 20 2 with
  | 0 => v == 0
  | 1 => fieldOf v 8 12 == 0 && fieldOf v 24 8 == 0 && fieldOf v 22 2 != 3
  | 2 => fieldOf v 24 8 == 0 && fieldOf v 22 2 != 3
  | _ => false

def kindOf : Nat → Kind
  | 1 => .pair | 2 => .quad | 3 => .window | 4 => .remote | _ => .edge

/-- The declaration a descriptor carries. -/
def declOf (d : Desc) : Decl :=
  { kind := kindOf (df d 8 20 3), guarded := df d 8 23 1 = 1, cls := df d 8 24 2, ring := df d 8 26 6
    srcA := sourceOf (df d 0xC 0 32), selA := selOf (df d 0xC 0 32)
    srcB := sourceOf (df d 0x10 0 32), selB := selOf (df d 0x10 0 32)
    srcX := sourceOf (df d 0x14 0 32), selX := selOf (df d 0x14 0 32)
    cadence := df d 0x18 0 5, samples := df d 0x18 5 1 = 1, stamps := df d 0x18 6 1 = 1, recipeEn := df d 0x18 7 1 = 1
    recipe := df d 0x18 8 8, qty := df d 0x18 16 8, regress := df d 0x18 24 1 = 1, wait := df d 0x1C 0 20
    start := df d 0x20 0 64 + 2 ^ 64 * df d 0x28 0 8, keeper := df d 0x28 8 6, decode := df d 0x2C 0 2
    phaseDiff := df d 0x2C 2 1 = 1, countInit := df d 0x30 0 48 }

/-- The channel a descriptor names. -/
def descChan (d : Desc) : Nat := df d 8 0 20

/-- Check 1 of R123 for DECLARE and REDECLARE; a bit of qty that the kind does not define is reserved (R154). -/
def declFieldOk (d : Desc) : Bool :=
  let k := df d 8 20 3
  descOnly d ([(8, 0, 32), (0xC, 0, 32), (0x10, 0, 32), (0x14, 0, 32), (0x18, 0, 25), (0x1C, 0, 20), (0x20, 0, 64),
      (0x28, 0, 14), (0x30, 0, 48)] ++ (if k = 2 then [(0x2C, 0, 2)] else []) ++ (if k = 1 then [(0x2C, 2, 1)] else [])) &&
    (declOf d).qty &&& (declOf d).undefinedQty == 0 &&
    decide (k ≤ 4) && df d 8 24 2 != 3 && (decide (df d 0x18 0 5 ≤ 15) || df d 0x18 0 5 == 31) && df d 0x2C 0 2 != 3 &&
    sourceFieldOk (df d 0xC 0 32) && sourceFieldOk (df d 0x10 0 32) && sourceFieldOk (df d 0x14 0 32)

/-- Check 2. -/
def declRangeOk (d : Desc) : Bool := decide (df d 0x1C 0 20 ≤ 1000000)

/-- A source is local; is remote on a lane outside peer mode (R129). -/
def Source.isLocal : Source → Bool
  | .local _ => true
  | _ => false
def State.remoteOk (s : State) : Source → Bool
  | .remote l _ => !s.bit (Reg.COU_CTRL l) 1
  | _ => false
def State.sourceOk (s : State) (x : Source) : Bool := x.isLocal || s.remoteOk x

/-- Check 4: the sources suit the kind (R117, R118). -/
def State.bindOk (s : State) (d : Decl) : Bool :=
  match d.kind with
  | .edge => s.sourceOk d.srcA && d.srcB == .none && d.srcX == .none
  | .pair => s.sourceOk d.srcA && s.sourceOk d.srcB && d.srcX == .none
  | .quad => d.srcA.isLocal && d.srcB.isLocal && (d.srcX == .none || d.srcX.isLocal) && d.selA == .both && d.selB == .both
  | .window => d.srcA.isLocal && d.srcB == .none && d.srcX == .none
  | .remote => s.remoteOk d.srcA && d.srcB == .none && d.srcX == .none

/-! ### Check 5 (R115, R131, R133, R193, R236, R392) -/

/-- The channels that hold a binding, but for `c`. -/
def State.others (s : State) (c : Nat) : List (Nat × Chan) := s.chans.filter fun (k, ch) => k != c && ch.bound?

/-- Uses of a source by the other channels. -/
def State.usesBy (s : State) (c : Nat) (src : Source) : Nat :=
  ((s.others c).map fun (_, ch) => (ch.decls.map fun d => (d.usesOf src).length).foldl max 0).sum

/-- The limit of R115 on a source. -/
def State.useOk (s : State) (c : Nat) (d : Decl) (src : Source) : Bool :=
  match src with
  | .none => true
  | .local _ => decide (s.usesBy c src + (d.usesOf src).length ≤ 8)
  | .remote _ _ => decide (s.usesBy c src + (d.usesOf src).length ≤ 4)

/-- The profile of a declaration (R392). -/
def Decl.profile (d : Decl) : Decl :=
  let z : Source → Source
    | .none => .none
    | .local _ => .local 0
    | .remote l _ => .remote l 0
  { d with srcA := z d.srcA, srcB := z d.srcB, srcX := z d.srcX, countInit := 0 }

def Source.index : Source → Nat
  | .none => 0
  | .local n => n
  | .remote _ i => i

/-- A declaration continues the run of the one before it (R392). -/
def Decl.follows (d p : Decl) : Bool :=
  let next (x y : Source) : Bool := x == .none || x.index == y.index + 1
  d.profile == p.profile && next d.srcA p.srcA && next d.srcB p.srcB && next d.srcX p.srcX

/-- Runs of a list of declarations in ID order. -/
def runsOf : Option (Nat × Decl) → List (Nat × Decl) → Nat
  | _, [] => 0
  | prev, (i, d) :: r =>
    (match prev with | some (j, p) => if i = j + 1 && d.follows p then 0 else 1 | none => 1) + runsOf (some (i, d)) r

/-- The profiles and runs that the configuration image uses (R392, PST_IMG). -/
def imageUse (l : List (Nat × Decl)) : Nat × Nat := (((l.map fun x => x.2.profile).dedup).length, runsOf none l)

/-- The declarations of the channels that are not VACANT. -/
def State.imageDecls (s : State) : Table Decl :=
  s.chans.filterMap fun (k, ch) => if ch.st == .vacant then none else some (k, ch.decl)

/-- Check 5. -/
def State.capacityOk (s : State) (c : Nat) (d : Decl) : Bool :=
  let o := s.others c
  let express := (o.filter fun x => x.2.decls.any fun d => d.cls == 0).length
  let guarded := (o.filter fun x => x.2.decl.guarded).length
  let places := (o.map fun x => (x.2.decls.map s.placesOf).foldl max 0).sum
  let (p, r) := imageUse (tput s.imageDecls c d)
  s.useOk c d d.srcA && s.useOk c d d.srcB && s.useOk c d d.srcX &&
    decide ((d.cls ≠ 0 ∨ express < 4096) ∧ (d.guarded = false ∨ guarded < 64) ∧ places + s.placesOf d ≤ 1048576 ∧
      p ≤ 1024 ∧ r ≤ 12032)

/-- A pinned square has room for a DECLARE (R236). -/
def State.pinRoom (s : State) (c : Nat) (d : Decl) : Bool :=
  match (s.wish c).pinSquare with
  | some sq => decide (s.placesOf d ≤ freeIn s.plc.used sq)
  | none => true

/-! ### Check 6 (R134, R423) -/

/-- The keeper's configuration matches a declaration (R423). -/
def State.keeperMatches (s : State) (d : Decl) : Bool :=
  let a := Reg.KPR_IN_CFG d.keeper
  let quad := d.kind == .quad
  s.farFld a 0 1 == 1 && s.farFld a 1 1 == b2n quad && s.farFld a 2 2 % 3 == d.selA.code &&
    (!quad || s.farFld a 4 2 == d.decode)

/-- The keeper inputs a guarded declaration uses. -/
def Decl.keeperInputs (d : Decl) : List Nat := if d.kind == .quad then [d.keeper, d.keeper + 1] else [d.keeper]

/-- The guarded rules of R134. -/
def State.guardOk (s : State) (c : Nat) (d : Decl) : Bool :=
  !d.guarded ||
    ((match d.kind, d.srcA, d.srcB with
      | .edge, .local k, _ => decide (k < 64) && k == d.keeper
      | .quad, .local a, .local b => decide (a < 64) && a % 2 == 0 && b == a + 1 && d.keeper == a
      | _, _, _ => false) &&
     s.keeperMatches d &&
     !(s.others c).any fun x => x.2.decls.any fun e => e.guarded && e.keeperInputs.any d.keeperInputs.contains)

/-! ### Entering LIVE (R124, R126) -/

/-- A channel takes the zones `z` of A and B as its state from `at_` on (R119). -/
def Chan.takeZones (ch : Chan) (at_ : Nat) (z : Zone × Zone) : Chan :=
  match ch.decl.kind with
  | .quad => { ch with quad := { ch.quad with zoneA := z.1, zoneB := z.2 } }
  | .window => if z.1 == .unresolved then ch else { ch with a := { ch.a with zones := (at_, z.1) :: ch.a.zones } }
  | _ => ch

/-- The sides' state at the start of a LIVE or resumed period that takes its zones as they are (R119). -/
def State.zonesNow (s : State) (c at_ : Nat) : State :=
  s.modChan c fun ch => ch.takeZones at_ (s.srcZone ch.decl.srcA, s.srcZone ch.decl.srcB)

/-- Both chains of a channel start, with the instants from `at_` on (R144). -/
def Chan.restartBoth (ch : Chan) (at_ : Nat) : Chan := (ch.restart false at_).restart true at_

/-- The instants of a channel's cadence from `fr` on that have been issued, each on the grid that it lies on (R137). -/
def State.issuedFrom (s : State) (k fr : Nat) : List Nat :=
  let x := s.cadence k
  if x.running then pointsOf (max fr x.since) (s.grids k) x.next else []

/-- The channel becomes LIVE at `tLive`: a start of its chains as R144 lists it, so that the first sample's phase difference
is NONE. -/
def State.enterLive (s : State) (c tLive : Nat) (tag : Dword) : State :=
  let s1 := s.modChan c fun ch => { ch.restartBoth tLive with
    st := .live, tLive := tLive, sampleFrom := tLive, stampFrom := tLive, stages := []
    instants := s.issuedFrom ch.decl.cadence tLive }
  (s1.zonesNow c 0).imageChanged.chanAck c 2 tag tLive []

/-! ### The rows -/

/-- A descriptor for a channel waits: the channel's previous one has not been applied (R125), or it is CASTLING (R121). -/
def Chan.waitsDesc (ch : Chan) : Bool := ch.op.isSome || ch.targets != [] || ch.st == .castling

/-- A declaration names a slot with a load accepted before it (R177). -/
def State.slotLoading (s : State) (d : Decl) : Bool :=
  d.recipeEn && s.loads.any fun l => match l with | .recipe slot _ _ _ _ => slot == d.recipe | .bank _ _ _ _ _ _ => false

/-- CONFIG_ACK PIN, owed since a PIN of the channel (R236). -/
def State.payPin (s : State) (c : Nat) : State :=
  let w := s.wish c
  if w.pinOwed then
    ({ s with plc := { s.plc with wishes := tset {} s.plc.wishes c { w with pinOwed := false } } } : State).push w.pinRing 1 none
      { type := 11, chan := c, flags := s.guardFlag c, time := s.devTime, code := 11, spec0 := w.pinTag.toNat }
  else s

/-- The effect of an accepted DECLARE (R124, R385). -/
def State.declare (s : State) (c : Nat) (d : Decl) (tag : Dword) : State :=
  let td := s.devTime
  let s1 := s.setChan c
    { st := .declared, decl := d, tag := tag, tB := td, tLive := max td d.start, sampleFrom := max td d.start
      count := d.countInit, base := d.countInit
      quad := { position := sx 48 d.countInit }
      image := if d.guarded then none else some (d.countInit, 0, td) }
  let s2 : State := { s1 with pst := { s1.pst with
    records := tput s1.pst.records c { count := d.countInit, pass := s1.fld Reg.PST_PASS 0 14, state := 1, phase := 0 } } }
  (((((s2.placeChan c d).chanAck c 1 tag td []).placeReport c 0).payPin c).imageChanged).coverCheck

/-- A DECLARE at the head of a ring. -/
def execDeclare (t : Nat) (ring : Fin 64) (s : State) : Host.Outcome State Fault Refusal :=
  onHead t ring 0x10 s fun s d =>
    let c := descChan d
    let ch := s.chan c
    let x := declOf d
    if ch.waitsDesc || s.slotLoading x then s
    else
      let fail := firstFail [(1, !declFieldOk d), (2, !declRangeOk d), (3, ch.st != .vacant), (4, !s.bindOk x),
        (5, !(s.capacityOk c x && s.pinRoom c x)), (6, !s.guardOk c x)]
      s.judge ring d fail fun s => s.declare c x (descTag d)

/-- The instant a descriptor is applied at, where it is known at t_d: a channel with no cadence or whose cadence is
disabled takes t_d (R124). -/
def State.applyAt (s : State) (ch : Chan) : Option Nat :=
  if ch.decl.cadence ≤ 15 && s.bit (Reg.CAD_CTRL ch.decl.cadence) 0 then none else some s.devTime

/-- An accepted descriptor waits for the instant it applies at; a REDECLARE that applies at t_d takes the zones of its sources
there (R119). -/
def State.acceptOp (s : State) (c : Nat) (op : ChanOp) (at_ : Option Nat) : State :=
  s.modChan c fun ch => s.noteZones { ch with op := some op, opAt := at_, zonesAt := none }

/-- A REDECLARE at the head of a ring. -/
def execRedeclare (t : Nat) (ring : Fin 64) (s : State) : Host.Outcome State Fault Refusal :=
  onHead t ring 0x11 s fun s d =>
    let c := descChan d
    let ch := s.chan c
    let x := { declOf d with start := ch.decl.start, countInit := ch.decl.countInit }
    if ch.waitsDesc || s.slotLoading x then s
    else
      let fail := firstFail [(1, !declFieldOk d), (2, !declRangeOk d), (3, ch.st != .live && ch.st != .paused),
        (4, !s.bindOk x || x.kind != ch.decl.kind || x.guarded != ch.decl.guarded), (5, !s.capacityOk c x), (6, !s.guardOk c x)]
      s.judge ring d fail fun s =>
        s.acceptOp c (.redeclare x (descTag d) s.devTime ring) (s.applyAt ch)

/-- A change of binding (R144). -/
def Decl.rebinds (d e : Decl) : Bool :=
  d.srcA != e.srcA || d.selA != e.selA || d.srcB != e.srcB || d.selB != e.selB || d.srcX != e.srcX || d.selX != e.selX

/-- The time at which an accepted descriptor applies: as fixed, or now where the cadence has been disabled since (log entry 65);
every instant up to it has been issued (R126). -/
def State.opTime (s : State) (ch : Chan) : Option Nat :=
  match ch.opAt with
  | some x =>
    let k := s.cadence ch.decl.cadence
    if x ≤ s.devTime && !(decide (ch.decl.cadence ≤ 15) && k.running && decide (k.next ≤ x)) then some x else none
  | none => s.applyAt ch

/-- Every edge of a channel stamped below `t` has reached its totaliser: settled, taken, and its place among the other source's
decided (R119, R124). -/
def State.drained (s : State) (c t : Nat) : Bool :=
  let ch := s.chan c
  s.settled ch.decl t && (ch.decl.srcX == .none || s.settledFor ch.decl t ch.decl.srcX) &&
    !ch.inbox.any (fun x => decide (x.2.stamp < t)) && !ch.quad.todo.any (fun e => decide (e.stamp < t)) &&
    !ch.pair.todo.any fun e => decide (e.stamp < t)

/-- At t_r the new declaration applies, once every edge of the old one is in (R124); a change of binding starts a new chain behind
the sample at t_r (R144, R162), and an interval open across it is skipped (R204). The stages are reset once every instant of the
old declaration is resolved. -/
def execRedeclareApply (t : Nat) (chan : BitVec 20) (s : State) : Host.Outcome State Fault Refusal :=
  atMoment t s fun s =>
    let c := chan.toNat
    let s0 := (s.quadAll c).pairAll c
    let ch := s0.chan c
    match ch.op, s0.opTime ch with
    | some (.redeclare d _ _ _), some tr =>
      -- instants of a declaration before this one, or edges of the old binding on their way
      if ch.old.isSome || !s0.drained c tr || (s0.sealedCastling c).isSome then s
      else
        let rebinds := ch.decl.rebinds d
        let ch1 : Chan := if rebinds then { ch.restartBoth (tr + 1) with pair := ch.pair.cut } else ch
        let ch2 : Chan := { ch1 with
          decl := d, op := none, opAt := none, zonesAt := none, old := some (tr, ch.decl)
          since := if rebinds then ch.since ++ [ch.decl.srcA, ch.decl.srcB, ch.decl.srcX] else ch.since
          guard := if rebinds || d.keeper != ch.decl.keeper then { ch1.guard with off := none } else ch1.guard }
        let ch3 := if rebinds then ch2.takeZones tr (ch.zonesAt.getD (s.srcZone d.srcA, s.srcZone d.srcB)) else ch2
        (((s0.setChan c ch3).changeLines c d).imageChanged).finishRedeclare c
    | _, _ => s

/-- The bits of a PAUSE, RESUME or RETIRE (R130). -/
def shortOk (d : Desc) (bit20 : Bool) : Bool := descOnly d [(8, 0, if bit20 then 21 else 20)]

/-- A PAUSE at the head of a ring. -/
def execPause (t : Nat) (ring : Fin 64) (s : State) : Host.Outcome State Fault Refusal :=
  onHead t ring 0x12 s fun s d =>
    let c := descChan d
    let ch := s.chan c
    if ch.waitsDesc then s
    else s.judge ring d (firstFail [(1, !shortOk d true), (3, ch.st != .live)]) fun s =>
      s.acceptOp c (.pause (df d 8 20 1 = 1) (descTag d) s.devTime ring) (s.applyAt ch)

/-- Every instant up to `t` is resolved, and every edge below it has reached the totaliser. -/
def State.caughtUp (s : State) (c t : Nat) : Bool :=
  !(s.chan c).instants.any (fun i => decide (i ≤ t)) && s.drained c t

/-- The count and the phase at a device time, by R145 and the bracketing of R150 and R151. -/
def State.solveAt (s : State) (c t : Nat) : Solved := let ch := s.chan c; s.solve ch { ch.decl with regress := false } t 0

/-- The bracket of `t` is known or its wait has expired. -/
def State.bracketDone (s : State) (c t : Nat) : Bool :=
  let ch := s.chan c
  s.bracketReady ch ch.decl t || ch.allOverdue ch.decl t s.devTime

/-- EXTRAP where the phase of a solved time was extrapolated. -/
def Solved.extrap (v : Solved) : BitVec 10 :=
  (match (v.qs[1]?).getD none with | some q => q.flags &&& fExtrap | none => 0)

/-- At t_p the channel enters PAUSED, the sample at t_p having been emitted (R124, R127, R188, R377). -/
def execPauseApply (t : Nat) (chan : BitVec 20) (s : State) : Host.Outcome State Fault Refusal :=
  atMoment t s fun s =>
    let c := chan.toNat
    let s0 := (s.quadAll c).pairAll c
    let ch := s0.chan c
    match ch.op, s0.opTime ch with
    | some (.pause countOnly tag _ _), some tp =>
      if ch.st == .live && ch.gap.isNone && s0.caughtUp c tp && (!countOnly || ch.resolved = tp || s0.bracketDone c tp) then
        let v := s0.solveAt c tp
        let s1 := (s0.closeParcels c ch.decl).closeWithheld c ch.decl tp v.count v.phase v.flags
        let gap : GapOwed := { code := 1, from_ := tp, to_ := 0, count := v.count, phase := v.phase, frozen := !countOnly
                               flags := v.extrap }
        -- the GAP will report the phase at t_p (R144)
        let s2 := s1.modChan c fun ch => { ch with st := .paused, countOnly := countOnly, op := none, opAt := none
                                                   gap := some gap, a := ch.a.reported v.phiA, b := ch.b.reported v.phiB }
        (s2.chanAck c 3 tag tp []).imageChanged
      else s
    | _, _ => s

/-- A RESUME at the head of a ring: applied at t_d. -/
def execResume (t : Nat) (ring : Fin 64) (s : State) : Host.Outcome State Fault Refusal :=
  onHead t ring 0x13 s fun s d =>
    let c := descChan d
    let ch := s.chan c
    if ch.waitsDesc then s
    else s.judge ring d (firstFail [(1, !shortOk d false), (3, ch.st != .paused)]) fun s =>
      let td := s.devTime
      let ch1 : Chan := { ch with st := .live, countOnly := false, sampleFrom := td + 1, stampFrom := td
                                  gap := ch.gap.map fun g => { g with to_ := td } }
      let ch2 : Chan := if ch.countOnly then ch1
        else { ch1.restartBoth td with tLive := td, pair := ch.pair.cut, guard := { ch.guard with off := none } }
      let s1 := (s.setChan c ch2).resetStages c ch.decl
      ((if ch.countOnly then s1 else s1.zonesNow c td).chanAck c 4 (descTag d) td []).imageChanged

/-- A GAP record (R364). -/
def State.gapRec (s : State) (c : Nat) (g : GapOwed) (count : Nat) (phase : Word) (fl : BitVec 10) (extra : List Word) :
    State :=
  (s.chanRec c (s.chan c).decl
    { type := 13, flags := g.flags ||| fl ||| s.timeFlags [g.from_, g.to_], time := g.from_, code := g.code
      body := [BitVec.ofNat 64 g.to_, BitVec.ofNat 64 (g.to_ / 2 ^ 64), BitVec.ofNat 64 g.count, BitVec.ofNat 64 count, g.phase,
               phase] ++ extra }
    [] { time := g.to_, count := count, phase := phase }).modChan c fun ch => { ch with gapFlag := true }

/-- The OUTAGE GAP of a restored channel (R402): its counts are c, its phases NONE, and b is stated where it is not 0. -/
def State.outageGap (s : State) (c tLive : Nat) : State :=
  let ch := s.chan c
  let n := ch.count
  let b := ch.bound
  s.gapRec c { code := 3, from_ := s.pst.outFrom, to_ := tLive, count := n, phase := noneWord } n noneWord
    (if b = 0 then 0 else fUncertain) (if b = 0 then [] else [BitVec.ofNat 64 b])

/-- A restored channel enters its state at `tLive` (R398 step 6, R402). A guarded one that owes a merge takes edges and
instants from that on (R401). -/
def State.reenter (s : State) (c tLive : Nat) (st : ChanState) : State :=
  -- an AUTO histogram that was restored begins its period here (R207)
  let s0 := s.modChan c fun ch => { ch with
    restoring := none, histos := ch.histos.map fun h => (h.1, { h.2 with began := tLive }) }
  let ch := s0.chan c
  let gap := ch.guard.merge.isNone
  if st == .live then
    let s1 := s0.enterLive c tLive 0
    if gap then s1.outageGap c tLive
    else s1.modChan c fun ch => { ch with tLive := spanMax + 1, sampleFrom := spanMax + 1, instants := [] }
  else
    let owed : GapOwed := { code := 1, from_ := tLive, to_ := 0, count := ch.count, phase := noneWord, frozen := !ch.countOnly }
    let s1 := s0.setChan c { ch with st := .paused, gap := some owed
                                     tLive := if ch.guard.merge.isSome then spanMax + 1 else tLive }
    let s2 := (s1.zonesNow c 0).chanAck c 3 0 tLive []
    if ch.countOnly && gap then s2.outageGap c tLive else s2

/-- At t_live = max(t_b, start) the declared channel becomes LIVE; t_b is the command's moment, at most 10 µs after t_d. A
restored channel enters its state so once a line is live; its binding is ready at the command's moment (R398). -/
def execChannelLive (t : Nat) (chan : BitVec 20) (s : State) : Host.Outcome State Fault Refusal :=
  atMoment t s fun s =>
    let c := chan.toNat
    let ch := s.chan c
    let tLive := max (min s.devTime (ch.tB + 10 * usQ)) ch.decl.start
    if ch.st == .declared && ch.op.isNone && decide (ch.decl.start ≤ s.devTime) then
      match ch.restoring with
      | none => s.enterLive c tLive ch.tag
      | some st => if s.tb.st.live then s.reenter c (max s.devTime ch.decl.start) st else s
    else s

/-- An end of a lane's GAP is solved once its edges are in and its bracket is known or overdue (R285): the count, phase and flags
there, and the state in which the phase has been reported (R144). -/
def State.laneEnd (s : State) (c t : Nat) : Option (Solved × State) :=
  if s.caughtUp c t && s.bracketDone c t then
    let v := s.solveAt c t
    some (v, s.modChan c fun ch => { ch with a := ch.a.reported v.phiA, b := ch.b.reported v.phiB })
  else none

/-- The GAP of a new session of the lane (R285): its start, and then the record, once each end can be solved. -/
def State.payLaneGap (s : State) (c : Nat) : State :=
  let s0 := (s.quadAll c).pairAll c
  match (s0.chan c).laneGap with
  | some g =>
    if g.startOwed then
      match s0.laneEnd c g.from_ with
      | some (v, s1) => s1.modChan c fun ch => { ch with
          laneGap := some { g with startOwed := false, count := v.count, phase := v.phase, flags := v.flags ||| v.extrap } }
      | none => s
    else if g.endOwed then s
    else
      match s0.laneEnd c g.to_ with
      | some (v, s1) => (s1.gapRec c g v.count v.phase (v.extrap ||| v.flags) []).modChan c fun ch => { ch with laneGap := none }
      | none => s
  | none => s

/-- The GAP of a RESUME (R127): at once after a FREEZE, and once the phase at t_d is resolved after COUNT_ONLY. The row also
pays the GAP of a new session of the lane. -/
def execResumeGap (t : Nat) (chan : BitVec 20) (s : State) : Host.Outcome State Fault Refusal :=
  atMoment t s fun s =>
    let c := chan.toNat
    let ch := s.chan c
    match ch.gap with
    | some g =>
      if ch.st != .live || (s.sealedCastling c).isSome then s
      else
        let paid (s : State) : State := s.modChan c fun ch => { ch with gap := none }
        if g.frozen then paid (s.gapRec c g g.count noneWord 0 [])
        else
          let s0 := (s.quadAll c).pairAll c
          if s0.caughtUp c g.to_ && s0.bracketDone c g.to_ then
            let v := s0.solveAt c g.to_
            paid ((s0.modChan c fun ch => { ch with a := ch.a.reported v.phiA, b := ch.b.reported v.phiB }).gapRec c g v.count
              v.phase (v.extrap ||| v.flags) [])
          else s
    | none => if (s.sealedCastling c).isSome then s else s.payLaneGap c

/-- A RETIRE at the head of a ring. -/
def execRetire (t : Nat) (ring : Fin 64) (s : State) : Host.Outcome State Fault Refusal :=
  onHead t ring 0x14 s fun s d =>
    let c := descChan d
    let ch := s.chan c
    if ch.waitsDesc then s
    else
      let now := df d 8 20 1 = 1
      let fail := firstFail [(1, !shortOk d true), (3, ch.st != .declared && ch.st != .live && ch.st != .paused)]
      s.judge ring d fail fun s =>
        s.acceptOp c (.retire now (descTag d) s.devTime ring) (if now || ch.st != .live then some s.devTime else s.applyAt ch)

/-- The channel takes edges: LIVE, or PAUSED in COUNT_ONLY. -/
def Chan.counting (ch : Chan) : Bool := ch.st == .live || (ch.st == .paused && ch.countOnly)

/-- The pin and the hint of a channel go, with the moves planned for it (R236). -/
def State.dropWish (s : State) (c : Nat) : State :=
  { s with plc := { s.plc with wishes := tdel s.plc.wishes c, plan := s.plc.plan.filter fun m => m.chan != c } }

/-- At t_x the channel is retired: parcels and a withheld interval close, the final reports and CONFIG_ACK RETIRED go out,
binding, places, pin and hint are freed (R121, R124, R188, R212, R236, R377). -/
def execRetireApply (t : Nat) (chan : BitVec 20) (s : State) : Host.Outcome State Fault Refusal :=
  atMoment t s fun s =>
    let c := chan.toNat
    let s0 := (s.quadAll c).pairAll c
    let ch := s0.chan c
    match ch.op, s0.opTime ch with
    | some (.retire _ tag _ _), some tx =>
      if ch.st == .castling || (ch.gap.isSome && ch.st == .live) || (ch.counting && !s0.caughtUp c tx) then s
      else
        let v := s0.solveAt c tx
        let s1 := (s0.closeParcels c ch.decl).closeWithheld c ch.decl tx v.count v.phase v.flags
        let s2 := (s1.applyTargets c tx).finalReports c tx
        let n := (s2.chan c).count
        let s3 := s2.chanAck c 5 tag tx [BitVec.ofNat 64 n]
        let s4 := (s3.unplace c).modChan c fun ch => { ch with st := .retired, op := none, opAt := none, old := none, gap := none
                                                               instants := [], image := none }
        ((s4.dropWish c).imageChanged).coverCheck
    | _, _ => s

end Sys2Proof.Machine
end

