-- ==== Sys2Proof/Machine/Loads.lean ====
section
/-! DEFINITION. Loads of recipes and banks (07 R175 to R178), and the statistics descriptors (08 R208 to R210). -/

namespace Sys2Proof.Machine

/-! ### Loads -/

/-- Without trailing zeros, as slots and banks are kept. -/
def trimZeros (l : List Dword) : List Dword := (l.reverse.dropWhile (· == 0)).reverse

/-- A slot's users (R177). -/
def State.slotUsed (s : State) (slot : Nat) : Bool :=
  s.chans.any fun x => x.2.bound? && x.2.decls.any fun d => d.recipeEn && d.recipe == slot

/-- Judges a descriptor that names a buffer: a read that failed rejects it with DMA and raises DMA_READ (R335, R353);
`before` are the checks that need no buffer. DEDUCED (log entry 62): they come first, so that a buf_len below the image's size decides
the reason whatever the image holds. -/
def State.judgeBuf {α : Type} (s : State) (n : Nat) (d : Desc) (before : Option Nat) (buf : Option α)
    (after : α → Option Nat) (effect : α → State → State) : State :=
  match before, buf with
  | some r, _ => s.judge n d (some r) id
  | none, none => (s.raise .dmaRead n).judge n d (some 8) id
  | none, some b => s.judge n d (after b) (effect b)

/-- A RECIPE_LOAD at the head of a ring; `buf` is what the hub reads, none where a read failed. -/
def execRecipeLoad (t : Nat) (ring : Fin 64) (buf : Option (List Dword)) (s : State) : Host.Outcome State Fault Refusal :=
  onHead t ring 0x20 s fun s d =>
    let slot := df d 8 0 8
    let before := firstFail [(1, !descOnly d [(8, 0, 14), (0x10, 0, 64), (0x18, 0, 32)] || df d 0x10 0 3 != 0),
      (2, decide (df d 0x18 0 32 < 416))]
    s.judgeBuf ring d before (buf.map fun l => (l ++ List.replicate 104 0).take 104)
      (fun img => match imageCheck img with
        | some r => some r
        | none => if s.slotUsed slot then some 3 else none)
      fun img s => { s with loads := s.loads ++ [.recipe slot (df d 8 8 6) (descTag d) img ring] }

/-- A COEF_LOAD at the head of a ring. -/
def execCoefLoad (t : Nat) (ring : Fin 64) (buf : Option (List Dword)) (s : State) : Host.Outcome State Fault Refusal :=
  onHead t ring 0x21 s fun s d =>
    let off := df d 0xC 0 10
    let len := df d 0xC 16 11
    let ok := descOnly d [(8, 0, 6), (8, 8, 6), (0xC, 0, 10), (0xC, 16, 11), (0x10, 0, 64), (0x18, 0, 32)]
    let before := firstFail [(1, !ok || df d 0x10 0 2 != 0),
      (2, off % 4 != 0 || len % 4 != 0 || len == 0 || decide (1024 < off + len) || decide (df d 0x18 0 32 < len))]
    s.judgeBuf ring d before (buf.map fun l => (l ++ List.replicate 256 0).take (len / 4)) (fun _ => none)
      fun data s => { s with loads := s.loads ++ [.bank (df d 8 0 6) (df d 8 8 6) (descTag d) (off / 4) data ring] }

/-- A stage reads bank `b`. -/
def usesBank (b e : Nat) : Bool :=
  match stageType e with
  | some .fir | some .biquad | some .poly => sf e 0 8 6 == b
  | _ => false

/-- The next output of every EMIT stage behind a stage that uses bank `b` carries CFGCHG (R178). -/
def State.markBank (s : State) (b : Nat) : State :=
  s.chans.foldl (fun s (c, ch) =>
    if ch.bound? && ch.decl.recipeEn then
      let img := s.recipe ch.decl.recipe
      let es := stageEntries img
      ((emitStages img).filter fun p => (es.take p.1).any (usesBank b)).foldl (fun s p =>
        s.setStage c p.1 { s.stage c p.1 with cfgNext := true }) s
    else s) s

/-- The first accepted load is applied at t_c, whole (R178). -/
def execLoadApply (t : Nat) (s : State) : Host.Outcome State Fault Refusal :=
  atMoment t s fun s =>
    match s.loads with
    | [] => s
    | .recipe slot ack tag img _ :: rest =>
      ({ s with loads := rest, recipes := tset [] s.recipes slot (trimZeros img) } : State).sendAck ack 1 0xFFFFF slot 7 tag []
    | .bank b ack tag first data _ :: rest =>
      let old := (s.bank b ++ List.replicate 256 0).take 256
      let new := old.take first ++ data ++ old.drop (first + data.length)
      (({ s with loads := rest, banks := tset [] s.banks b (trimZeros new) } : State).markBank b).sendAck ack 1 0xFFFFF b 8 tag []

/-! ### Statistics descriptors (R208 to R210) -/

/-- A positive finite binary64. -/
def f64Positive (w : Word) : Bool := f64Finite w && !w.getLsbD 63 && w != 0

/-- Sets in use, with those of accepted DEV_SETUPs (R209). -/
def State.devUse (s : State) : Nat :=
  (s.chans.filter fun x => x.2.dev.isSome || x.2.targets.any fun p => match p.1 with
    | .dev r _ _ _ _ _ _ _ => !r
    | _ => false).length

/-- Entries of the histogram store in use: two for AUTO (R207), with those of accepted HISTO_SETUPs. -/
def State.histoUse (s : State) : Nat :=
  (s.chans.map fun x =>
    (x.2.histos.map fun h => if h.2.auto then 2 else 1).sum +
      (x.2.targets.map fun p => match p.1 with
        | .histo r _ h _ _ _ => if r then 0 else if h.auto then 2 else 1
        | _ => 0).sum).sum

/-- The channel is declared and not retired. -/
def Chan.holds (ch : Chan) : Bool := ch.st != .vacant && ch.st != .retired

/-- The channel takes an accepted statistics descriptor: t_q is the next grid instant, or t_d with no running cadence. -/
def State.addTarget (s : State) (c : Nat) (op : TargetOp) : State :=
  s.modChan c fun ch => { ch with targets := ch.targets ++
    [(op, if (s.cadence ch.decl.cadence).running then none else some s.devTime)] }

/-- The mode of a histogram suits the channel (R204). -/
def histoSuits (d : Decl) (mode : Nat) : Bool :=
  let one := d.kind == .edge || d.kind == .remote
  match mode with
  | 0 => true
  | 1 => one
  | 4 => d.kind == .pair && !d.phaseDiff
  | _ => one && d.selA == .both

/-- A DEV_SETUP at the head of a ring. -/
def execDevSetup (t : Nat) (ring : Fin 64) (s : State) : Host.Outcome State Fault Refusal :=
  onHead t ring 0x30 s fun s d =>
    let c := descChan d
    let ch := s.chan c
    if ch.waitsDesc then s
    else
      let release := df d 8 20 1 = 1
      let unit : Word := BitVec.ofNat 64 (df d 0x10 0 64)
      let dq := sx 8 (df d 0xC 0 8)
      let ok := if release then descOnly d [(8, 0, 21)]
        else descOnly d [(8, 0, 22), (0xC, 0, 8), (0x10, 0, 64), (0x18, 0, 32)] && f64Positive unit
      let fail := firstFail [(1, !ok), (2, decide (dq < -64 ∨ 63 < dq)), (3, !ch.holds || (release && ch.dev.isNone)),
        (5, !release && ch.dev.isNone && decide (8192 ≤ s.devUse))]
      s.judge ring d fail fun s =>
        (s.addTarget c (.dev release (df d 8 21 1 = 1) dq unit (df d 0x18 0 32) (descTag d) s.devTime ring)).imageChanged

/-- A HISTO_SETUP at the head of a ring. -/
def execHistoSetup (t : Nat) (ring : Fin 64) (s : State) : Host.Outcome State Fault Refusal :=
  onHead t ring 0x31 s fun s d =>
    let c := descChan d
    let ch := s.chan c
    if ch.waitsDesc then s
    else
      let release := df d 8 20 1 = 1
      let no := df d 8 25 2
      let h : Histo := { auto := df d 8 21 1 = 1, mode := df d 8 22 3, w := df d 0xC 0 6, hq := sx 7 (df d 0xC 8 7)
                         origin := sx 64 (df d 0x10 0 64), target := df d 0x18 0 32
                         stop := df d 0x20 0 64 + 2 ^ 64 * df d 0x28 0 8 }
      let ok := if release then descOnly d [(8, 0, 21), (8, 25, 2)]
        else descOnly d [(8, 0, 27), (0xC, 0, 6), (0xC, 8, 7), (0x10, 0, 64), (0x18, 0, 32), (0x20, 0, 64), (0x28, 0, 8)] &&
          decide (h.mode ≤ 4)
      let freed := match tget? ch.histos no with | some x => if x.auto then 2 else 1 | none => 0
      let stream := ch.histos.any fun x => x.2.mode == 0 && x.1 != no
      let fail := firstFail [(1, !ok), (2, !release && (decide (40 < h.w) || (h.auto && h.target == 0 && h.stop == 0))),
        (3, !ch.holds || (release && (tget? ch.histos no).isNone)), (4, !release && !histoSuits ch.decl h.mode),
        (5, !release && (decide (4096 < s.histoUse - freed + (if h.auto then 2 else 1)) || (h.mode == 0 && stream)))]
      s.judge ring d fail fun s => (s.addTarget c (.histo release no h (descTag d) s.devTime ring)).imageChanged

/-- A STATS_READ at the head of a ring. -/
def execStatsRead (t : Nat) (ring : Fin 64) (s : State) : Host.Outcome State Fault Refusal :=
  onHead t ring 0x32 s fun s d =>
    let c := descChan d
    let ch := s.chan c
    if ch.waitsDesc then s
    else
      let hs : BitVec 4 := BitVec.ofNat 4 (df d 8 22 4)
      let line := df d 8 20 1 = 1
      let dev := df d 8 21 1 = 1
      let missing := (dev && ch.dev.isNone) ||
        (List.range 4).any fun no => hs.getLsbD no && (tget? ch.histos no).isNone
      let fail := firstFail [(1, !descOnly d [(8, 0, 27)]), (2, !line && !dev && hs == 0), (3, !ch.holds || missing)]
      s.judge ring d fail fun s => s.addTarget c (.read line dev hs (df d 8 26 1 = 1) s.devTime ring)

end Sys2Proof.Machine
end

