-- ==== Sys2Proof/Machine/Lane.lean ====
section
/-! DEFINITION. The Courier lanes, physical layer (10 R240 to R263): the lane state machine, transmitter training, ALIGN and
the loop delay, RECOVER, adaptation and keep-alive; and what a lane sends of the protocol (11 R266 to R277) when its state
changes. Received blocks are counted from the commands: a training block stands for its frame of 32 blocks, an ALIGN block for
its 16 (R254, R257). A command of a timer that comes before its moment changes nothing but time (log entry 21). -/

namespace Sys2Proof.Machine

/-! ### Checks -/

/-- One bit of the CRC-8: polynomial x^8 + x^2 + x + 1 (R254). -/
def crc8Bits : Nat → BitVec 8 → BitVec 8
  | 0, c => c
  | k + 1, c => crc8Bits k (if c.getLsbD 7 then (c <<< 1) ^^^ 0x07 else c <<< 1)

/-- CRC-8 over bytes in order, initial value 0; DESIGN CHOICE (log entry 20): most significant bit first. -/
def crc8 (bytes : List Nat) : Nat := (bytes.foldl (fun c b => crc8Bits 8 (c ^^^ BitVec.ofNat 8 b)) (0 : BitVec 8)).toNat

/-- Payload bits [47:0] with their check in [55:48] (R254). -/
def withCheck (v : Nat) : Ctl := BitVec.ofNat 56 (v % 2 ^ 48 + crc8 (bytesOf 6 v) * 2 ^ 48)

/-- The check of a control block is good. -/
def checkOk (p : Ctl) : Bool := fieldOf p.toNat 48 8 == crc8 (bytesOf 6 p.toNat)

/-- A field of a control block's payload. -/
def cf (p : Ctl) (lo w : Nat) : Nat := fieldOf p.toNat lo w

/-! ### Sending blocks (R258, R266, R269) -/

/-- The lane is in peer mode (R263). -/
def State.isPeer (s : State) (n : Nat) : Bool := s.bit (Reg.COU_CTRL n) 1

/-- The lane is ACTIVE in satellite mode. -/
def State.carries (s : State) (n : Nat) : Bool := (s.lane n).st == .active && !s.isPeer n

/-- 64 payload bits through the self-synchronous scrambler x^58 + x^39 + 1 (R240): each line bit is the payload bit with the line
bits 39 and 58 before it added. Answers the last 58 line bits, the oldest in bit 0, and the 64 line bits. -/
def scramble (last : BitVec 58) (w : Word) : BitVec 58 × Word :=
  let h : BitVec 122 := last.setWidth 122
  let x : BitVec 122 := w.setWidth 122
  let a := (x ^^^ (h >>> 19) ^^^ h) &&& 0x7FFFFFFFFF#122
  let h1 := h ||| (a <<< 58)
  let b := ((x >>> 39) ^^^ (h1 >>> 58) ^^^ (h1 >>> 39)) &&& 0x1FFFFFF#122
  let h2 := h1 ||| (b <<< 97)
  ((h2 >>> 64).setWidth 58, (h2 >>> 58).setWidth 64)

/-- A block on the line: its sync header, 01 data or 10 control in order of transmission, and its scrambled payload (R240). -/
def Lane.line (l : Lane) (control : Bool) (payload : Word) : Lane :=
  let (s, w) := scramble l.scrambler payload
  { l with scrambler := s, lineBlock := (w.setWidth 66 <<< 2) ||| (if control then 1#66 else 2#66) }

/-- The payload of a control block: the block type is its first byte (R240). -/
def ctlWord (type : Nat) (p : Ctl) : Word := (p.setWidth 64 <<< 8) ||| BitVec.ofNat 64 (type % 256)

/-- Sends a control block. -/
def State.sendCtl (s : State) (n type : Nat) (p : Ctl) : State :=
  (s.out (.ctl n type p)).modLane n (·.line true (ctlWord type p))

/-- Sends a data block. -/
def State.sendData (s : State) (n : Nat) (w : Word) : State := (s.out (.data n w)).modLane n (·.line false w)

/-- `k` fill blocks on the line: payload zero before scrambling (R254). -/
def Lane.fills : Nat → Lane → Lane
  | 0, l => l
  | k + 1, l => Lane.fills k (l.line false 0)

/-- Sends fill blocks (R254, R257). -/
def State.sendFill (s : State) (n k : Nat) : State := (s.out (.fill n k)).modLane n (Lane.fills k)

/-- Credited places free in a lane's receive buffer (R273; COU_CRED_STATUS.rx_free). -/
def Lane.rxFree (l : Lane) : Nat := 512 - (l.buffer.length - l.reserve)

/-- Credit withheld is granted once the holding store is no longer under pressure (R274). -/
def State.grantLane (s : State) (n : Nat) : State :=
  if s.flt.pressure then s else s.modLane n fun l => { l with limitTx := l.limitTx + l.freed, freed := 0 }

/-- Sends an ACK block (R269, R271). -/
def State.ackLane (s : State) (n : Nat) (sync req : Bool) : State :=
  let s0 := (s.grantLane n).start (.lane .ack n)
  let s1 := if req then s0.start (.lane .syncReq n) else s0
  let l := s1.lane n
  (s1.modLane n fun l => { l with freedSinceAck := 0 }).sendCtl n 0xA5 (withCheck (packBits
    [(0, 16, l.rxNext.toNat), (16, 12, l.limitTx), (28, 12, l.accepted), (40, 1, b2n sync), (41, 1, b2n req)]))

/-- Sends the blocks of a dispatch (R266). -/
def State.sendDispatch (s : State) (n : Nat) (d : Dispatched) : State :=
  ((d.data.foldl (fun s w => s.sendData n w) (s.sendCtl n 0x87 d.head)).sendCtl n 0x99 d.tail).start (.lane .keepalive n)

/-- Retransmits dispatches; the replay timeout begins again (R272). -/
def State.resend (s : State) (n : Nat) (ds : List Dispatched) : State :=
  (ds.foldl (fun s d => (s.sendDispatch n d).bump (Reg.COU_REPLAY n) 0 16) s).start (.lane .replay n)

/-- Begins a credit resynchronisation (R276). -/
def State.startSync (s : State) (n : Nat) : State :=
  if (s.lane n).sync then s.ackLane n true true
  else (((s.modLane n fun l => { l with sync := true }).bump (Reg.COU_REPLAY n) 16 16).start (.lane .sync n)).ackLane n true true

/-! ### States (R247) -/

/-- The tap presets of R253: c−1, c0, c+1. -/
def tapPreset (k : Nat) : Nat × Nat × Nat :=
  ([(0, 40, 0), (0, 36, 4), (0, 32, 8), (0, 30, 10), (2, 34, 4), (2, 30, 8), (4, 32, 4), (3, 28, 9)][k]?).getD (0, 40, 0)

/-- The limits of R253. -/
def tapsOk (pre main post : Nat) : Bool :=
  decide (pre ≤ 6 ∧ 20 ≤ main ∧ main ≤ 40 ∧ post ≤ 12 ∧ pre + main + post ≤ 40)

/-- The hub's transmitter at COU_TRAIN.own_preset, nothing asked and nothing answered (R247). -/
def State.freshTaps (s : State) (n : Nat) : Training :=
  let p := tapPreset (s.fld (Reg.COU_TRAIN n) 3 3)
  { pre := p.1, main := p.2.1, post := p.2.2 }

/-- Vector 66 on a transition (R247). -/
def State.laneEvent (s : State) (n : Nat) : State := if s.bit (Reg.COU_CTRL n) 10 then s.event 66 else s

/-- A lane changes state: the limits of the state count from here, COU_LANE_CNT counts exits from ACTIVE and entries to TRAIN, and
vector 66 is raised. -/
def State.laneTo (s : State) (n : Nat) (st : LaneState) : State :=
  let old := (s.lane n).st
  let s1 := (s.start (.lane .state n)).modLane n fun l =>
    { l with st := st, probing := false, probed := false, backoff := false, alignRun := 0, echoAt := none, echoed := false
             loopNew := 0, frozen := false, kaMissing := false, nakOut := none }
  let s2 := if old == .active then s1.bump (Reg.COU_LANE_CNT n) 0 16 else s1
  let s3 := if st == .train then s2.bump (Reg.COU_LANE_CNT n) 16 16 else s2
  if old == st then s3 else s3.laneEvent n

/-- Block lock and the runs behind it are gone, and with it rx_ready and the count of step 5 (R256). -/
def Lane.unlock (l : Lane) : Lane :=
  { l with blockLock := false, validRun := 0, recentBad := []
           train := { l.train with rxReady := false, partnerReady := false, readyRx := 0, readyTx := 0 } }

/-- To OFF: the transmitter is idle and the receiver unpowered. -/
def State.laneToOff (s : State) (n : Nat) : State :=
  ((s.laneTo n .off).modLane n fun l =>
    { l.unlock with tokens := false, attempt := 0, partner := false, signal := false, eq := 0, train := s.freshTaps n })

/-- To DETECT with the attempt count at 0 (R247, R250 to R252). -/
def State.laneToDetect (s : State) (n : Nat) : State :=
  (s.laneTo n .detect).modLane n fun l => { l.unlock with tokens := false, attempt := 0, empty := 0 }

/-- To ABSENT, with LANE_ABSENT (R248, R249). -/
def State.laneToAbsent (s : State) (n : Nat) : State :=
  ((s.laneTo n .absent).modLane n fun l => { l.unlock with partnerSeen := false }).raise .laneAbsent n

/-- A failed attempt (R247, R248): counted, its cause recorded, all equalisation state discarded; DETECT in backoff, or ABSENT
after the 8th. -/
def State.laneFails (s : State) (n cause : Nat) : State :=
  let k := (s.lane n).attempt + 1
  let s1 := (s.setFld (Reg.COU_TRAIN_STATUS n) 17 3 cause).modLane n fun l =>
    { l with attempt := k, empty := 0, eq := 0, train := s.freshTaps n }
  if k = 8 then s1.laneToAbsent n
  else (s1.laneTo n .detect).modLane n fun l => { l.unlock with backoff := true }

/-- To TRAIN: from own_preset, or from the taps as they stand after RECOVER (R256, R259, R262). A lock that is kept asks for
req_preset at once. -/
def State.laneToTrain (s : State) (n : Nat) (kept : Bool) : State :=
  let l := s.lane n
  let t := l.train
  let t1 : Training := if kept then { pre := t.pre, main := t.main, post := t.post, ppre := t.ppre, pmain := t.pmain, ppost := t.ppost }
    else s.freshTaps n
  let asked := kept && l.blockLock
  let s1 := (s.laneTo n .train).modLane n fun l => { (if kept then l else l.unlock) with train := { t1 with preset := true, asked := asked } }
  (s1.setFld (Reg.COU_TRAIN_STATUS n) 0 8 (b2n asked)).start (.lane .request n)

/-! ### Training (R254 to R256) -/

def TapAnswer.code : TapAnswer → Nat
  | .notUpdated => 0 | .updated => 1 | .min => 2 | .max => 3
def answerOf : Nat → TapAnswer
  | 1 => .updated | 2 => .min | 3 => .max | _ => .notUpdated

/-- The hub's training block (R254). -/
def State.trainBits (s : State) (n : Nat) : Ctl :=
  let l := s.lane n
  let t := l.train
  let req (k : Nat) := match t.reqTap with | some (j, up) => if j = k then (if up then 1 else 2) else 0 | none => 0
  withCheck (packBits [(0, 2, req 0), (2, 2, req 1), (4, 2, req 2), (6, 1, b2n (t.preset && t.asked)),
    (7, 3, if t.preset then s.fld (Reg.COU_TRAIN n) 0 3 else 0), (10, 2, t.ansPre.code), (12, 2, t.ansMain.code),
    (14, 2, t.ansPost.code), (16, 1, b2n t.rxReady), (18, 4, n), (22, 4, l.attempt + 1), (32, 8, t.seq.toNat)])

/-- Sends a training frame: a training block and its 31 fill blocks (R254; log entry 21: one for each received). -/
def State.sendTraining (s : State) (n : Nat) : State :=
  ((s.sendCtl n 0x3C (s.trainBits n)).sendFill n 31).modLane n fun l =>
    { l with train := { l.train with seq := l.train.seq + 1, readyTx := if l.train.rxReady then l.train.readyTx + 1 else 0 } }

/-- The hub answers the partner's request for one tap: the tap and its answer (R255). -/
def answerTap (req tap : Nat) (ans : TapAnswer) (ok : Nat → Bool) : Nat × TapAnswer :=
  match req with
  | 1 => if ans != .notUpdated then (tap, ans) else if ok (tap + 1) then (tap + 1, .updated) else (tap, .max)
  | 2 => if ans != .notUpdated then (tap, ans) else if 0 < tap && ok (tap - 1) then (tap - 1, .updated) else (tap, .min)
  | _ => (tap, .notUpdated)

/-- The partner's requests, answered (R255); while preset_req is 1 the tap requests are ignored (R254). -/
def Training.answers (t : Training) (p : Ctl) : Training :=
  if cf p 6 1 = 1 then
    let q := tapPreset (cf p 7 3)
    { t with pre := q.1, main := q.2.1, post := q.2.2, ansPre := .updated, ansMain := .updated, ansPost := .updated }
  else
    let a := answerTap (cf p 0 2) t.pre t.ansPre fun x => tapsOk x t.main t.post
    let b := answerTap (cf p 2 2) t.main t.ansMain fun x => tapsOk a.1 x t.post
    let c := answerTap (cf p 4 2) t.post t.ansPost fun x => tapsOk a.1 b.1 x
    { t with pre := a.1, main := b.1, post := c.1, ansPre := a.2, ansMain := b.2, ansPost := c.2 }

/-- The partner's answers to the hub's own request end it; an UPDATED one moves the partner's taps as the hub knows them. -/
def Training.heard (t : Training) (p : Ctl) (presetNo : Nat) : Training :=
  let a := answerOf (cf p 10 2)
  let b := answerOf (cf p 12 2)
  let c := answerOf (cf p 14 2)
  if t.preset then
    if a != .notUpdated && b != .notUpdated && c != .notUpdated then
      let q := tapPreset presetNo
      { t with preset := false, ppre := if a == .updated then q.1 else t.ppre, pmain := if b == .updated then q.2.1 else t.pmain
               ppost := if c == .updated then q.2.2 else t.ppost }
    else t
  else match t.reqTap with
    | some (k, up) =>
      let x := if k = 0 then a else if k = 1 then b else c
      let move (v : Nat) := if up then v + 1 else v - 1
      if x == .notUpdated then t
      else if x == .updated then
        { t with reqTap := none, ppre := if k = 0 then move t.ppre else t.ppre, pmain := if k = 1 then move t.pmain else t.pmain
                 ppost := if k = 2 then move t.ppost else t.ppost }
      else { t with reqTap := none }
    | none => t

/-- The next tap step, while steps are wanted and every answer is NOT_UPDATED: which step improves the eye is open, a free
value (R256 step 3). -/
def State.nextTap (s : State) (n : Nat) (p : Ctl) : State :=
  let t := (s.lane n).train
  if t.preset || t.reqTap.isSome || t.rxReady || t.stepsDone || s.bit (Reg.COU_TRAIN n) 6 || cf p 10 6 ≠ 0 then s
  else
    let (v, s1) := s.free
    let k := v.toNat % 7
    if k = 6 then s1.modLane n fun l => { l with train := { l.train with stepsDone := true } }
    else ((s1.modLane n fun l => { l with train := { l.train with reqTap := some (k % 3, decide (k < 3)) } }).bumpSat
      (Reg.COU_TRAIN_STATUS n) 0 8).start (.lane .request n)

/-- Blocks with valid headers have arrived: block lock after 64 of them (R241). -/
def Lane.valid (l : Lane) (k : Nat) : Lane :=
  let v := min 64 (l.validRun + k)
  { l with signal := true, validRun := v, blockLock := l.blockLock || decide (64 ≤ v) }

/-- Sends an ALIGN block, and in data framing its 15 fill blocks (R257); in ACTIVE, where a data block outside a dispatch is a
keep-alive (R261), the block alone (log entry 73). -/
def State.sendAlign (s : State) (n : Nat) (req ans : Bool) (turn : Nat) : State :=
  let s1 := s.sendCtl n 0x5A (withCheck (packBits [(0, 4, n), (5, 1, b2n req), (6, 1, b2n ans), (16, 24, turn)]))
  if (s.lane n).st == .active then s1 else s1.sendFill n 15

/-- Sends an echo request (R257, R258). -/
def State.sendEcho (s : State) (n : Nat) : State :=
  ((s.sendAlign n true false 0).modLane n fun l => { l with echoAt := some s.nextCycle }).start (.lane .echo n)

/-- To ALIGN, with the echo of R257. -/
def State.laneToAlign (s : State) (n : Nat) : State := (s.laneTo n .align).sendEcho n

/-- The codes of the adaptation are open: free values in the layout of COU_RX_EQ. COU_ADAPT.hold freezes them (R260). -/
def State.adapt (s : State) (n : Nat) : State :=
  if s.bit (Reg.COU_ADAPT n) 8 then s
  else
    let (v, s1) := s.free
    s1.modLane n fun l => { l with eq := v &&& 0x3F3F3F3F3F1F }

/-- A training block that is discarded: a bad check, or a reserved code (R254). -/
def badTraining (p : Ctl) : Bool := !checkOk p || cf p 0 2 = 3 || cf p 2 2 = 3 || cf p 4 2 = 3

/-- A discarded training block is counted (R254). -/
def State.discardTraining (s : State) (n : Nat) : State :=
  (s.modLane n fun l => { l with train := { l.train with clean := 0, readyRx := 0 } }).bump (Reg.COU_ERR n) 0 16

/-- With block lock the preset is asked for, once (R256 step 2). -/
def State.askPreset (s : State) (n : Nat) : State :=
  let t := (s.lane n).train
  if t.preset && !t.asked then
    ((s.modLane n fun l => { l with train := { l.train with asked := true } }).bumpSat (Reg.COU_TRAIN_STATUS n) 0 8).start (.lane .request n)
  else s

/-- A training block in TRAIN. Once the partner has answered the preset, the fill blocks of a good frame adapt the receiver
(R256 step 3). -/
def State.trainingIn (s : State) (n : Nat) (p : Ctl) : State :=
  let s0 := s.modLane n fun l => l.valid 32
  if !(s0.lane n).blockLock then (if badTraining p then s0.discardTraining n else s0).sendTraining n
  else
    let s1 := s0.askPreset n
    if badTraining p then (s1.discardTraining n).sendTraining n
    else
      let ready := cf p 16 1 = 1
      let no := s.fld (Reg.COU_TRAIN n) 0 3
      let s2 := s1.modLane n fun l =>
        let t := (l.train.answers p).heard p no
        { l with train := { t with partnerReady := ready, readyRx := if ready then t.readyRx + 1 else 0, clean := t.clean + 32 } }
      let s3 := ((if (s2.lane n).train.preset then s2 else s2.adapt n).nextTap n p).sendTraining n
      let t := (s3.lane n).train
      if t.rxReady && 64 ≤ t.readyRx && 64 ≤ t.readyTx then s3.laneToAlign n else s3

/-- A violation by the partner is answered in `Protocol`; here only its count and its fault (R291): the counter's register, low
bit, and the RETURN reason with the sequence it names. -/
def State.laneReturn (s : State) (n reason seq count : Nat) : State :=
  s.push (s.fld (Reg.COU_PROTO_CTRL n) 16 6) 1 none
    { type := 8, aux := n, time := s.devTime, code := reason, body := [BitVec.ofNat 64 seq, BitVec.ofNat 64 count] }

/-- An occurrence of a RETURN reason (R292): at most one record per millisecond, none unreported. -/
def State.laneOccur (s : State) (n reason seq : Nat) : State :=
  let o := tget {} (s.lane n).occurs reason
  let put (o : Occur) (s : State) : State := s.modLane n fun l => { l with occurs := tset {} l.occurs reason o }
  if o.running then put { o with first := if o.count = 0 then seq else o.first, count := o.count + 1 } s
  else ((put { running := true } s).laneReturn n reason seq 1).start (.laneReturn n reason)

/-- The first violation after entry into ACTIVE raises PROTOCOL (R291). -/
def State.protocolFault (s : State) (n : Nat) : State :=
  if (s.lane n).protocolRaised then s else (s.modLane n fun l => { l with protocolRaised := true }).raise .protocol n

/-- Counts a violation: field at `lo` of COU_PROTO_ERR, or of COU_PROTO_ERR2, PROTOCOL, and the RETURN of `reason`. -/
def State.violation (s : State) (n : Nat) (second : Bool) (lo reason seq : Nat) : State :=
  ((s.bumpSat (if second then Reg.COU_PROTO_ERR2 n else Reg.COU_PROTO_ERR n) lo 8).protocolFault n).laneOccur n reason seq

/-- A block counted under FORMAT and ignored (R291). -/
def State.formatBlock (s : State) (n : Nat) : State := s.violation n false 16 13 (s.lane n).rxNext.toNat

/-- An agreement of step 5 behind the training limit is recorded (R30, R256). -/
def State.lateAgreement (s : State) (n : Nat) (p : Ctl) : State :=
  if s.fld (Reg.COU_TRAIN_STATUS n) 17 3 ≠ 2 then s
  else
    let k := if cf p 16 1 = 1 then (s.lane n).train.readyRx + 1 else 0
    let s1 := s.modLane n fun l => { l with train := { l.train with readyRx := k } }
    if 64 ≤ k && 64 ≤ (s.lane n).train.readyTx then s1.setFld (Reg.COU_TRAIN_STATUS n) 16 1 1 else s1

/-- A training block arrives; a discarded one is counted in every state in which the receiver is powered (R254). -/
def execTrainingBlock (t : Nat) (lane : Fin 16) (payload : Ctl) (s : State) : Host.Outcome State Fault Refusal :=
  atMoment t s fun s =>
    let n := lane.val
    let l := s.lane n
    match l.st with
    | .train => s.trainingIn n payload
    | .active =>
      let s1 := (if badTraining payload then s.discardTraining n else s).modLane n (·.valid 1)
      if s.isPeer n then s1 else s1.formatBlock n
    | .align | .credit | .recover => (if badTraining payload then s.discardTraining n else s).modLane n (·.valid 1)
    | .detect | .absent => if badTraining payload then s.discardTraining n else s.lateAgreement n payload
    | .off => s

/-- A request of the hub stays unanswered for 1 ms (R255): counted, HOLD is sent, the sequence goes on. -/
def execTapRequestTimeout (t : Nat) (lane : Fin 16) (s : State) : Host.Outcome State Fault Refusal :=
  atMoment t s fun s =>
    let l := s.lane lane
    if l.st == .train && ((l.train.preset && l.train.asked) || l.train.reqTap.isSome) && s.past (.lane .request lane) (1000 * usQ) then
      ((s.modLane lane fun l => { l with train := { l.train with preset := false, reqTap := none } }).bumpSat
        (Reg.COU_TRAIN_STATUS lane) 8 8).sendTraining lane
    else s

/-- 2^20 clean blocks and the margin set rx_ready (R256 step 4). -/
def execRxReady (t : Nat) (lane : Fin 16) (margin : Byte) (s : State) : Host.Outcome State Fault Refusal :=
  atMoment t s fun s =>
    let l := s.lane lane
    if l.st == .train && l.blockLock && !l.train.preset && 2 ^ 20 ≤ l.train.clean &&
        s.fld (Reg.COU_TRAIN lane) 8 8 ≤ margin.toNat then
      s.modLane lane fun l => { l with train := { l.train with rxReady := true, stepsDone := true, reqTap := none } }
    else s

/-- The 24 ms limit of R256. What the agreement stood at is kept, to tell a late one (R30). -/
def execTrainLimit (t : Nat) (lane : Fin 16) (s : State) : Host.Outcome State Fault Refusal :=
  atMoment t s fun s =>
    let tr := (s.lane lane).train
    if (s.lane lane).st == .train && s.past (.lane .state lane) (24000 * usQ) then
      (s.laneFails lane 2).modLane lane fun l => { l with train := { l.train with readyRx := tr.readyRx, readyTx := tr.readyTx } }
    else s

/-! ### ALIGN, RECOVER (R257 to R259) -/

/-- To CREDIT: the loop delay is shown (R258, R262), and the exchange starts afresh (R277, R296). -/
def State.laneToCredit (s : State) (n : Nat) : State :=
  ((s.setFld (Reg.COU_LOOP_DELAY n) 0 32 (s.lane n).loopNew).laneTo n .credit).modLane n fun l =>
    { l with initGood := false, initSeen := false }

/-- To ACTIVE: what is timed from the last block of a kind counts from here. -/
def State.laneToActive (s : State) (n : Nat) : State :=
  ([LaneTimer.data, .miss, .keepalive, .echo, .ack, .ackRx, .frame].foldl (fun (s : State) k => s.start (.lane k n))
    (s.laneTo n .active)).modLane n fun l => { l with protocolRaised := false, beacons := 0 }

/-- To RECOVER: the hub sends ALIGN blocks (R259). -/
def State.laneToRecover (s : State) (n : Nat) : State := (s.laneTo n .recover).sendAlign n false false 0

/-- Back to ACTIVE from RECOVER: the replay resumes, and a resynchronisation is asked for again (R259, R276). -/
def State.laneRecovered (s : State) (n : Nat) : State :=
  let s1 := s.laneToActive n
  let s2 := if s1.isPeer n then s1 else s1.resend n (s1.lane n).replay
  if (s2.lane n).sync then (s2.start (.lane .sync n)).ackLane n true true else s2

/-- An echo's answer: the loop delay, to a resolution of 48 Q (R258); in ALIGN the register takes it when ALIGN completes
(R262). -/
def State.echoAnswer (s : State) (n : Nat) (p : Ctl) : State :=
  match (s.lane n).echoAt with
  | some t0 =>
    let d : Int := ((s.devTime : Int) - t0) / 48 * 48 - 48 * (cf p 16 24 : Nat)
    let s1 := if (s.lane n).st == .align then s else s.setFld (Reg.COU_LOOP_DELAY n) 0 32 d.toNat
    s1.modLane n fun l => { l with echoAt := none, echoed := true, loopNew := d.toNat }
  | none => s

/-- The partner of a peer lane asks for an echo; the hub takes the partner's part (R256, R257, R263). -/
def State.echoReply (s : State) (n : Nat) : State := s.sendAlign n false true (ceilDiv (s.nextCycle - s.devTime) 48)

/-- The hub's next ALIGN block: the echo request again when the answer did not come within 10 µs. -/
def State.nextAlign (s : State) (n : Nat) : State :=
  let l := s.lane n
  match l.echoAt with
  | some t0 => if !l.echoed && t0 + 10 * usQ < s.devTime then s.sendEcho n else s.sendAlign n false false 0
  | none => s.sendAlign n false false 0

/-- An ALIGN block arrives (R257 to R259). -/
def execAlignBlock (t : Nat) (lane : Fin 16) (payload : Ctl) (s : State) : Host.Outcome State Fault Refusal :=
  atMoment t s fun s =>
    let n := lane.val
    let st := (s.lane n).st
    let good := checkOk payload
    let s0 := if st == .off || st == .absent || st == .detect then s else s.modLane n fun l => l.valid (if st == .active then 1 else 16)
    let asked := good && s0.isPeer n && cf payload 5 1 = 1
    let s1 := if asked && (st == .align || st == .active || st == .recover) then s0.echoReply n else s0
    let s2 := if good && cf payload 6 1 = 1 && (st == .align || st == .active) then s1.echoAnswer n payload else s1
    match st with
    | .align =>
      let s3 := s2.modLane n fun l => { l with alignRun := if good then l.alignRun + 1 else 0 }
      let l := s3.lane n
      if 64 ≤ l.alignRun && l.echoed then s3.laneToCredit n else s3.nextAlign n
    | .recover =>
      if !(s2.lane n).blockLock then s2.sendAlign n false false 0
      else
        let s3 := s2.modLane n fun l => { l with alignRun := if good then l.alignRun + 1 else 0 }
        if 64 ≤ (s3.lane n).alignRun then s3.laneRecovered n else s3.sendAlign n false false 0
    | .active =>
      -- a partner in RECOVER: in peer mode the hub follows it
      if s2.isPeer n && good && cf payload 5 2 = 0 then s2.laneToRecover n else s2
    | _ => s2

/-- The 2 ms ALIGN limit (R247, R262). -/
def execAlignLimit (t : Nat) (lane : Fin 16) (s : State) : Host.Outcome State Fault Refusal :=
  atMoment t s fun s => if (s.lane lane).st == .align && s.past (.lane .state lane) (2000 * usQ) then s.laneFails lane 3 else s

/-- Every second in ACTIVE the echo is repeated (R258). -/
def execLoopEcho (t : Nat) (lane : Fin 16) (s : State) : Host.Outcome State Fault Refusal :=
  atMoment t s fun s => if (s.lane lane).st == .active && s.past (.lane .echo lane) (1000000 * usQ) then s.sendEcho lane else s

/-- The 2 ms CREDIT limit (R247). -/
def execCreditLimit (t : Nat) (lane : Fin 16) (s : State) : Host.Outcome State Fault Refusal :=
  atMoment t s fun s => if (s.lane lane).st == .credit && s.past (.lane .state lane) (2000 * usQ) then s.laneFails lane 4 else s

/-- The 1 ms RECOVER limit: to TRAIN from the kept taps (R247, R248, R262). -/
def execRecoverLimit (t : Nat) (lane : Fin 16) (s : State) : Host.Outcome State Fault Refusal :=
  atMoment t s fun s =>
    if (s.lane lane).st == .recover && s.past (.lane .state lane) (1000 * usQ) then (s.laneToTrain lane true).setFld (Reg.COU_TRAIN_STATUS lane) 17 3 5 else s

/-- Loss of signal (R247, R250). -/
def execLossOfSignal (t : Nat) (lane : Fin 16) (s : State) : Host.Outcome State Fault Refusal :=
  atMoment t s fun s =>
    let n := lane.val
    let st := (s.lane n).st
    let s1 := s.modLane n fun l => { l with signal := false }
    match st with
    | .active | .recover => (s1.laneToDetect n).raise .laneDown n
    | .train | .align | .credit => s1.laneFails n 1
    | .off | .detect | .absent => s1

/-- An invalid sync header (R241): counted wherever the receiver is powered; block lock is lost when 16 of 64 consecutive blocks
have one. -/
def execInvalidSyncHeader (t : Nat) (lane : Fin 16) (s : State) : Host.Outcome State Fault Refusal :=
  atMoment t s fun s =>
    let n := lane.val
    let l := s.lane n
    match l.st with
    | .off => s
    | .detect | .absent => s.bump (Reg.COU_ERR n) 0 16
    | _ =>
      let recent := s.now :: l.recentBad.filter fun x => decide (s.now < x + 64 * 3168)
      let s1 := (s.modLane n fun l => { l with validRun := 0, recentBad := recent, train := { l.train with clean := 0 } }).bump
        (Reg.COU_ERR n) 0 16
      if l.blockLock && 16 ≤ recent.length then
        let s2 := (s1.modLane n (·.unlock)).bump (Reg.COU_ERR n) 16 16
        if l.st == .active then s2.laneToRecover n else s2
      else s1

/-! ### Adaptation and keep-alive (R260, R261) -/

/-- A data-bearing block in ACTIVE: adaptation runs again unless it is held, a run of misses ends, and the windows of R260 and R261
begin again. -/
def State.dataBlock (s : State) (n : Nat) : State :=
  (((s.start (.lane .data n)).start (.lane .miss n)).modLane n fun l => { l.valid 1 with frozen := false, kaMissing := false }).adapt n

/-- A keep-alive arrives: it moves the adaptation and is otherwise discarded (R261). -/
def execKeepaliveBlock (t : Nat) (lane : Fin 16) (_payload : Word) (s : State) : Host.Outcome State Fault Refusal :=
  atMoment t s fun s => if (s.lane lane).st == .active then s.dataBlock lane else s

/-- 1,024 consecutive blocks carried no data (R260). -/
def execAdaptFreeze (t : Nat) (lane : Fin 16) (s : State) : Host.Outcome State Fault Refusal :=
  atMoment t s fun s =>
    if (s.lane lane).st == .active && s.past (.lane .data lane) (1024 * 3168) then s.modLane lane fun l => { l with frozen := true } else s

/-- The hub's keep-alive on an idle lane: COU_ADAPT.ka_interval µs after the last one, the last dispatch or peer frame (R261). -/
def execKeepaliveSend (t : Nat) (lane : Fin 16) (s : State) : Host.Outcome State Fault Refusal :=
  atMoment t s fun s =>
    let l := s.lane lane
    if l.st == .active && s.past (.lane .keepalive lane) (s.fld (Reg.COU_ADAPT lane) 0 8 * usQ) then
      ((s.sendData lane l.kaCount).start (.lane .keepalive lane)).modLane lane fun l => { l with kaCount := l.kaCount + 1 }
    else s

/-- 64 µs without a data-bearing block (R261). -/
def execKeepaliveMiss (t : Nat) (lane : Fin 16) (s : State) : Host.Outcome State Fault Refusal :=
  atMoment t s fun s =>
    let l := s.lane lane
    if l.st == .active && s.past (.lane .miss lane) (64 * usQ) then
      let s1 := (s.bumpSat (Reg.COU_KA lane) 0 16).start (.lane .miss lane)
      if l.kaMissing then s1 else (s1.modLane lane fun l => { l with kaMissing := true }).raise .keepaliveMiss lane.val
    else s

/-! ### OFF, DETECT and the commands of COU_CTRL and COU_CMD (R247 to R251) -/

/-- COU_CTRL.enable has been set: in OFF and RUN the lane asks for its wake tokens (R247, R437). -/
def State.laneOn (s : State) (n : Nat) : State :=
  let l := s.lane n
  if l.st == .off && !l.tokens && s.pwr.st == .run then
    { s.modLane n (fun l => { l with tokens := true }) with pwr := { s.pwr with queue := s.pwr.queue ++ [.lane n] } }
  else s

/-- COU_CTRL.enable has been cleared: to OFF; a request that waits is withdrawn. -/
def State.laneOff (s : State) (n : Nat) : State :=
  let s1 := s.laneToOff n
  { s1 with pwr := { s1.pwr with queue := s1.pwr.queue.filter fun u => !decide (u = .lane n) } }

/-- A probe begins (R249): outside backoff, and while a line is live (R252). -/
def State.probe (s : State) (n : Nat) : State :=
  let l := s.lane n
  if l.st == .detect && !l.backoff && !l.probing && s.tb.st.live then
    ((s.modLane n fun l => { l with probing := true, probed := true }).bump (Reg.COU_PROBE n) 0 32).start (.lane .probe n)
  else s

/-- COU_CMD.retry (R251). -/
def State.laneRetry (s : State) (n : Nat) : State :=
  match (s.lane n).st with
  | .absent => (s.laneToDetect n).probe n
  | .detect => (s.modLane n fun l => { l with attempt := 0, empty := 0, backoff := false }).probe n
  | _ => s.raise .couCmdState n

/-- COU_CMD.retrain (R251). -/
def State.laneRetrain (s : State) (n : Nat) : State :=
  if (s.lane n).st == .active then s.laneToRecover n else s.raise .couCmdState n

/-- The lane probes for a partner termination: every 2 ms (R247). -/
def execLaneProbe (t : Nat) (lane : Fin 16) (s : State) : Host.Outcome State Fault Refusal :=
  atMoment t s fun s => if !(s.lane lane).probed || s.past (.lane .probe lane) (2000 * usQ) then s.probe lane else s

/-- A probe completes (R247, R249). -/
def execProbeDone (t : Nat) (lane : Fin 16) (found : Bool) (s : State) : Host.Outcome State Fault Refusal :=
  atMoment t s fun s =>
    let n := lane.val
    let l := s.lane n
    if l.st == .detect && l.probing then
      if found then (s.modLane n fun l => { l with partner := true, empty := 0 }).laneToTrain n false
      else
        let lim := s.fld (Reg.COU_CTRL n) 2 8
        let s1 := s.modLane n fun l => { l with partner := false, probing := false, empty := l.empty + 1 }
        if lim ≠ 0 && lim ≤ l.empty + 1 then s1.laneToAbsent n else s1
    else s

/-- How long the backoff after failed attempt k lasts: 2 ms × 2^(k−1) (R248). -/
def backoffQ (k : Nat) : Nat := 2000 * usQ * 2 ^ (k - 1)

/-- The backoff of a failed attempt ends: the probe runs (R248, R262). -/
def execBackoffEnd (t : Nat) (lane : Fin 16) (s : State) : Host.Outcome State Fault Refusal :=
  atMoment t s fun s =>
    if (s.lane lane).st == .detect && (s.lane lane).backoff && s.past (.lane .state lane) (backoffQ (s.lane lane).attempt) then
      (s.modLane lane fun l => { l with backoff := false, probed := false }).probe lane
    else s

/-- A signal appears on the receiver of a lane in ABSENT (R247). -/
def execPartnerSeen (t : Nat) (lane : Fin 16) (s : State) : Host.Outcome State Fault Refusal :=
  atMoment t s fun s =>
    if (s.lane lane).st == .absent then s.modLane lane fun l => { l with signal := true, partnerSeen := true } else s

end Sys2Proof.Machine
end

