-- ==== Sys2Proof/Machine/Protocol.lean ====
section
/-! DEFINITION. The Courier protocol (11 R265 to R294): dispatches, acknowledgement and replay, credits, sessions, remote
events, beacons and letters. -/

namespace Sys2Proof.Machine

/-! ### CRC-32C (R267) -/

/-- One bit of the reflected CRC-32C. -/
def crc32Bits : Nat → BitVec 32 → BitVec 32
  | 0, c => c
  | k + 1, c => crc32Bits k (if c.getLsbD 0 then (c >>> 1) ^^^ 0x82F63B78 else c >>> 1)

/-- CRC-32C over bytes in order: 0x1EDC6F41 reflected, initial value and final XOR of all ones. -/
def crc32c (bytes : List Nat) : Nat :=
  ((bytes.foldl (fun c b => crc32Bits 8 (c ^^^ BitVec.ofNat 32 b)) (0xFFFFFFFF : BitVec 32)) ^^^ 0xFFFFFFFF).toNat

/-- The CRC of a dispatch: the HEAD's 7 bytes, then the data blocks' 8 each. -/
def dispatchCrc (head : Ctl) (data : List Word) : Nat := crc32c (bytesOf 7 head.toNat ++ data.flatMap fun w => bytesOf 8 w.toNat)

/-! ### Acceptance (R270, R275, R291) -/

/-- Data blocks a HEAD announces: 0 means 64 (R266). -/
def headLen (h : Ctl) : Nat := if cf h 0 6 = 0 then 64 else cf h 0 6

/-- Sends a NAK with the expected sequence (R269, R272); a repeat for one sequence is counted, and after 64 the lane recovers
with REPLAY_STALL. -/
def State.nak (s : State) (n reason : Nat) : State :=
  let l := s.lane n
  let k := match l.nakOut with | some (q, k, _) => if q = l.rxNext then k + 1 else 1 | none => 1
  let s1 := (((s.modLane n fun l => { l with nakOut := some (l.rxNext, k, reason) }).bump (Reg.COU_NAK n) 0 16).sendCtl n 0xA6
    (withCheck (packBits [(0, 16, l.rxNext.toNat), (16, 4, reason)]))).start (.lane .nak n)
  if k = 64 then (s1.raise .replayStall n).laneToRecover n else s1

/-- A refused dispatch: its blocks are counted, the NAK and the RETURN go out (R291). -/
def State.refuse (s : State) (n blocks lo nakReason reason seq : Nat) : State :=
  ((s.modLane n fun l => { l with blocksRef := ledgerAdd l.blocksRef blocks }).nak n nakReason).violation n false lo reason seq

/-- A field of `w` bits in units of 64 Q, extended against R to device time (R281, R283). -/
def extend64 (r v w : Nat) : Int :=
  let m : Int := (2 ^ (w + 6) : Nat)
  let d := ((v * 64 : Nat) - (r : Int)) % m
  (r : Int) + (if d < m / 2 then d else d - m)

/-- What an accepted dispatch does not state by its items: the lane, the sequence, the device time R and the horizon before it. -/
structure Arrival where
  lane : Nat
  seq : Nat
  r : Nat
  horizon : Nat
  deriving DecidableEq, Repr

def State.setSrc (s : State) (n i : Nat) (x : RemoteSrc) : State := s.modLane n fun l => { l with sources := tset {} l.sources i x }

/-- Appends a block to the lane's receive buffer. -/
def State.toBuffer (s : State) (n : Nat) (b : LaneBlock) : State := s.modLane n fun l => { l with buffer := l.buffer ++ [b] }

/-- Admits an item (R280): its edges are counted at the ledger point in, and it waits in the receive buffer. -/
def State.takeIn (s : State) (a : Arrival) (i : Nat) (x : Item) : State :=
  (s.bumpBy (Reg.COU_CNT_EVENTS a.lane) 0 48 x.edges).toBuffer a.lane (some (i, x))

/-- An item set aside (R291 ITEM). -/
def State.discardItem (s : State) (a : Arrival) : State :=
  ((s.bump (Reg.COU_CNT_ITEM_DISC a.lane) 0 32).violation a.lane true 16 15 a.seq).toBuffer a.lane none

/-- One item of an EVENTS dispatch (R279 to R283). -/
def State.remoteItem (s : State) (a : Arrival) (w : Word) : State :=
  let v := w.toNat
  let i := fieldOf v 0 16
  let src := s.remoteSrc a.lane i
  let ti := extend64 a.r (fieldOf v 18 44) 44
  let time := ti.toNat
  let order := decide (time < src.last)
  let future := decide (a.r + 4194304 < time)
  let early (s : State) : State := if time < a.horizon then s.violation a.lane true 24 18 a.seq else s
  match fieldOf v 62 2 with
  | 0 =>
    if bitOf v 17 then s.discardItem a
    else
      let rising := !bitOf v 16
      if order || future then
        early <| (s.takeIn a i { kind := .count, stamp := src.last, rises := b2n rising, falls := b2n (!rising) }).violation a.lane true
          (if order then 0 else 8) (if order then 16 else 17) a.seq
      else early ((s.setSrc a.lane i { src with last := time }).takeIn a i { kind := .edge, stamp := time, rising := rising })
  | 1 =>
    let r := fieldOf v 16 16
    let f := fieldOf v 32 16
    if fieldOf v 48 14 ≠ 0 || (r = 0 && f = 0) then s.discardItem a
    else s.takeIn a i { kind := .count, stamp := src.last, rises := r, falls := f }
  | 2 =>
    let z := fieldOf v 16 2
    if z = 2 || order || future then s.discardItem a
    else
      let zone : Zone := if z = 1 then .low else if z = 3 then .high else .unresolved
      early ((s.setSrc a.lane i { src with last := time }).takeIn a i
        { kind := if z = 0 then .lost else .est, stamp := time, zone := zone })
  | _ => if fieldOf v 0 62 = 2 ^ 62 - 1 then s.toBuffer a.lane none else s.discardItem a

/-- The first horizon of a new session ends the GAP that its channels are owed (R285). -/
def State.endLaneGaps (s : State) (n h : Nat) : State :=
  { s with chans := tmap {} s.chans fun ch => match ch.laneGap with
      | some g => if g.endOwed && g.lane = n then { ch with laneGap := some { g with endOwed := false, to_ := max g.from_ h } } else ch
      | none => ch }

/-- The horizon of an accepted EVENTS dispatch (R283); one above R + 4,194,304 Q is counted as R291 names it (log entry 67). -/
def State.takeHorizon (s : State) (a : Arrival) (field : Nat) : State :=
  let h := (extend64 a.r field 32).toNat
  if a.r + 4194304 < h then s.violation a.lane true 8 17 a.seq
  else if h < (s.lane a.lane).horizon then s.violation a.lane true 24 18 a.seq
  else (((s.modLane a.lane fun l => { l with horizon := h }).setReg (Reg.COU_HORIZON_LO a.lane) (BitVec.ofNat 64 h)).setReg
    (Reg.COU_HORIZON_HI a.lane) (BitVec.ofNat 64 (h / 2 ^ 64))).endLaneGaps a.lane h

/-- A new upstream session (R278, R285): every remote source of the lane is UNRESOLVED from its horizon on, and each LIVE channel on
one is owed a GAP from the horizon at loss to the first horizon of the session. -/
def State.newUpstream (s : State) (n : Nat) (had : Bool) : State :=
  let h0 := (s.lane n).horizon
  let s1 := s.modLane n fun l => { l with sources := tmap {} l.sources fun x =>
    { x with zone := .unresolved, known := if x.zone == .unresolved then x.known else noteKnown x.known h0 false } }
  if !had then s1
  else
    let onLane (d : Decl) : Bool := [d.srcA, d.srcB].any fun x => match x with | .remote l _ => l == n | _ => false
    { s1 with chans := tmap {} s1.chans fun ch =>
        if ch.samples && onLane ch.decl && ch.laneGap.isNone then
          { ch with laneGap := some { code := 2, from_ := max h0 ch.tLive, to_ := 0, count := 0, phase := noneWord, lane := n
                                      startOwed := true, endOwed := true } }
        else ch }

/-- An upstream letter (R290). -/
def State.letterUp (s : State) (a : Arrival) (head : Ctl) (data : List Word) : State :=
  let bytes := cf head 24 10
  let s0 := data.foldl (fun s _ => s.toBuffer a.lane none) s
  if bytes ≤ 8 * (data.length - 1) || 8 * data.length < bytes || cf head 34 22 ≠ 0 then
    (s0.bump (Reg.COU_CNT_ITEM_DISC a.lane) 0 32).violation a.lane true 16 15 a.seq
  else if s.bit (Reg.COU_PROTO_CTRL a.lane) 22 then
    s0.push (s.fld (Reg.COU_PROTO_CTRL a.lane) 24 6) 1 none
      { type := 2, aux := a.lane, time := a.r, spec0 := bytes, body := data }
  else s0.bump (Reg.COU_LETTER_STATUS a.lane) 16 16

/-- A dispatch that has been accepted (R270): the expected sequence advances and its content takes effect. -/
def State.acceptDispatch (s : State) (n : Nat) (head : Ctl) (data : List Word) : State :=
  let seq := cf head 8 16
  let a : Arrival := { lane := n, seq := seq, r := s.devTime, horizon := (s.lane n).horizon }
  let s1 := (s.modLane n fun l => { l with rxNext := BitVec.ofNat 16 (seq + 1), nakOut := none
                                           blocksAcc := ledgerAdd l.blocksAcc data.length }).bump (Reg.COU_CNT_DISPATCH n) 0 48
  let s2 := if cf head 6 2 = 0 then (data.foldl (fun s w => s.remoteItem a w) s1).takeHorizon a (cf head 24 32)
    else s1.letterUp a head data
  s2.ackLane n false false

/-- The credit rules (R274, R275): what exceeds the limit goes into the violation reserve where that has room. -/
def State.creditDispatch (s : State) (n : Nat) (head : Ctl) (data : List Word) : State :=
  let l := s.lane n
  let k := data.length
  let r := l.limitTx - l.accepted
  if k ≤ r then (s.modLane n fun l => { l with accepted := l.accepted + k }).acceptDispatch n head data
  else
    let overrun (s : State) : State := ((s.nak n 4).startSync n).violation n false 24 14 (cf head 8 16)
    if k - r ≤ 64 - l.reserve then
      overrun ((s.modLane n fun l => { l with accepted := l.accepted + r, reserve := l.reserve + (k - r) }).acceptDispatch n head data)
    else overrun (s.bumpBy (Reg.COU_CNT_VIOL_BLOCKS n) 0 48 k)

/-- A dispatch whose form and CRC are good: its sequence (R270, R278). The first after INIT continues the session or begins a
new one. -/
def State.seqDispatch (s : State) (n : Nat) (head : Ctl) (data : List Word) : State :=
  let l := s.lane n
  let seq := BitVec.ofNat 16 (cf head 8 16)
  if l.firstDispatch then
    let s1 := s.modLane n fun l => { l with firstDispatch := false, session := true, resumed := l.session && seq == l.rxNext
                                            rxNext := seq }
    (if l.session && seq == l.rxNext then s1 else s1.newUpstream n l.session).creditDispatch n head data
  else if seq = l.rxNext then s.creditDispatch n head data
  else if (l.rxNext - seq).toNat ≤ 32768 then
    (s.modLane n fun l => { l with blocksDup := ledgerAdd l.blocksDup data.length }).ackLane n false false
  else s.refuse n data.length 8 2 12 seq.toNat

/-- A dispatch that ends in its TAIL is judged (R270, R291). `clean` tells that no block but ACK, NAK and beacons stood inside. -/
def execDispatch (t : Nat) (lane : Fin 16) (head : Ctl) (data : List Word) (tail : Ctl) (clean : Bool) (s : State) :
    Host.Outcome State Fault Refusal :=
  atMoment t s fun s =>
    let n := lane.val
    if !s.carries n then s
    else
      let k := data.length
      let seq := cf head 8 16
      let s1 := data.foldl (fun s _ => s.dataBlock n) s
      let s2 := s1.modLane n fun l => { l with blocksRx := ledgerAdd l.blocksRx k }
      if !clean || k ≠ headLen head || cf tail 32 16 ≠ seq then s2.refuse n k 16 3 13 seq
      else if cf tail 0 32 ≠ dispatchCrc head data then s2.refuse n k 0 1 11 seq
      else if 1 < cf head 6 2 then s2.refuse n k 16 3 13 seq
      else s2.seqDispatch n head data

/-! ### ACK, NAK, replay (R268 to R272) -/

/-- The letter of a dispatch has been acknowledged (R289). -/
def State.letterAck (s : State) (n : Nat) (d : Dispatched) : State := s.sendAck d.ackRing 1 0xFFFFF n 14 d.tag []

/-- A letter that is not delivered: RETURN LANE_DOWN (R289). -/
def State.letterDown (s : State) (n ackRing : Nat) (tag : Dword) (pos : Nat) : State :=
  s.sendReturn ackRing n 20 tag 0x50 pos 0 1

/-- The dispatches before next_seq leave the replay buffer, each with its CONFIG_ACK LETTER; an advance restarts the replay timeout
(R272). Answers none where next_seq lies beyond what the hub has sent. -/
def State.acked (s : State) (n : Nat) (next : BitVec 16) : Option State :=
  let l := s.lane n
  let j := (l.txNext - next).toNat
  if 32768 < j then none
  else
    let k := l.replay.length - j
    let s1 := if k = 0 then s else s.start (.lane .replay n)
    some ((l.replay.take k).foldl (fun s d => s.letterAck n d) (s1.modLane n fun l => { l with replay := l.replay.drop k }))

/-- An ACK or NAK that is not taken: counted under FORMAT; unless its check was bad, a resynchronisation begins (R291). -/
def State.badAck (s : State) (n : Nat) (check : Bool) : State :=
  if check then (s.startSync n).formatBlock n else s.formatBlock n

/-- An ACK block arrives (R269, R273, R276). -/
def execAckBlock (t : Nat) (lane : Fin 16) (payload : Ctl) (s : State) : Host.Outcome State Fault Refusal :=
  atMoment t s fun s =>
    let n := lane.val
    if !s.carries n then s
    else if !checkOk payload then s.badAck n false
    else match s.acked n (BitVec.ofNat 16 (cf payload 0 16)) with
      | none => s.badAck n true
      | some s1 =>
        let sync := cf payload 40 1 = 1
        let req := cf payload 41 1 = 1
        let s2 := (s1.start (.lane .ackRx n)).modLane n fun l =>
          { l.valid 1 with limitRx := cf payload 16 12, sent := if sync then cf payload 28 12 else l.sent
                           sync := l.sync && !(sync && !req) }
        if req then s2.ackLane n true false else s2

/-- A NAK block arrives: every unacknowledged dispatch from next_seq on is sent again (R272). -/
def execNakBlock (t : Nat) (lane : Fin 16) (payload : Ctl) (s : State) : Host.Outcome State Fault Refusal :=
  atMoment t s fun s =>
    let n := lane.val
    if !s.carries n then s
    else if !checkOk payload then s.badAck n false
    else
      let l := s.lane n
      let j := (l.txNext - BitVec.ofNat 16 (cf payload 0 16)).toNat
      if cf payload 16 4 = 0 || 4 < cf payload 16 4 || 32768 < j then s.badAck n true
      else ((s.modLane n (·.valid 1)).bump (Reg.COU_NAK n) 16 16).resend n (l.replay.drop (l.replay.length - j))

/-- 8 µs after the hub's last ACK (R271). -/
def execAckSendTimer (t : Nat) (lane : Fin 16) (s : State) : Host.Outcome State Fault Refusal :=
  atMoment t s fun s => if s.carries lane && s.past (.lane .ack lane) (8 * usQ) then s.ackLane lane false false else s

/-- The hub's replay timeout: no ACK has advanced for COU_PROTO_CTRL.replay_us (R272, R293). -/
def execReplayTimeout (t : Nat) (lane : Fin 16) (s : State) : Host.Outcome State Fault Refusal :=
  atMoment t s fun s =>
    if s.carries lane && !(s.lane lane).replay.isEmpty && s.past (.lane .replay lane) (s.fld (Reg.COU_PROTO_CTRL lane) 0 8 * usQ) then
      s.resend lane (s.lane lane).replay
    else s

/-- The NAKed dispatch has not arrived within 20 µs (R272). -/
def execNakRepeat (t : Nat) (lane : Fin 16) (s : State) : Host.Outcome State Fault Refusal :=
  atMoment t s fun s =>
    match (s.lane lane).nakOut with
    | some (_, _, reason) => if s.carries lane && s.past (.lane .nak lane) (20 * usQ) then s.nak lane reason else s
    | none => s

/-! ### Credits (R273 to R276) -/

/-- Credits left for downstream dispatches. -/
def Lane.txCredit (l : Lane) : Nat := (l.limitRx + 4096 - l.sent % 4096) % 4096

/-- Blocks of a letter. -/
def Letter.blocks (x : Letter) : Nat := ceilDiv x.bytes.length 8

/-- The credit watchdog (R276): the next downstream dispatch lacks credit, and no ACK has arrived for COU_PROTO_CTRL.watchdog × 8 µs.
A resynchronisation under way goes on. -/
def execCreditWatchdog (t : Nat) (lane : Fin 16) (s : State) : Host.Outcome State Fault Refusal :=
  atMoment t s fun s =>
    let l := s.lane lane
    match l.letters with
    | x :: _ =>
      if s.carries lane && !l.sync && l.txCredit < x.blocks &&
          s.past (.lane .ackRx lane) (8 * s.fld (Reg.COU_PROTO_CTRL lane) 8 8 * usQ) then s.startSync lane
      else s
    | [] => s

/-- An unanswered request is repeated every 16 µs (R276). -/
def execResyncRepeat (t : Nat) (lane : Fin 16) (s : State) : Host.Outcome State Fault Refusal :=
  atMoment t s fun s =>
    if s.carries lane && (s.lane lane).sync && s.past (.lane .syncReq lane) (16 * usQ) then s.ackLane lane true true else s

/-- No answer within 1 ms (R276, R291). -/
def execCreditSync (t : Nat) (lane : Fin 16) (s : State) : Host.Outcome State Fault Refusal :=
  atMoment t s fun s =>
    if s.carries lane && (s.lane lane).sync && s.past (.lane .sync lane) (1000 * usQ) then
      (((s.raise .creditSync lane.val).protocolFault lane).laneOccur lane 19 0).laneToRecover lane
    else s

/-- Bytes as 64-bit blocks, least significant first, the last padded with zeros (R289). -/
def blocksOf : Nat → List Byte → List Word
  | 0, _ => []
  | k + 1, bs =>
    BitVec.ofNat 64 ((bs.take 8).foldr (fun b acc => b.toNat + 256 * acc) 0) :: blocksOf k (bs.drop 8)

/-- The next letter goes out when credit and the replay buffer have room for it (R268, R273, R289). -/
def execDispatchSend (t : Nat) (lane : Fin 16) (s : State) : Host.Outcome State Fault Refusal :=
  atMoment t s fun s =>
    let n := lane.val
    let l := s.lane n
    match l.letters with
    | x :: rest =>
      let k := x.blocks
      if s.carries n && k ≤ l.txCredit && (l.replay.map fun d => d.data.length).sum + k ≤ 256 then
        let data := blocksOf k x.bytes
        let head : Ctl := BitVec.ofNat 56 (packBits [(0, 6, k), (6, 2, 1), (8, 16, l.txNext.toNat), (24, 10, x.bytes.length)])
        let tail : Ctl := BitVec.ofNat 56 (packBits [(0, 32, dispatchCrc head data), (32, 16, l.txNext.toNat)])
        let d : Dispatched := { head := head, data := data, tail := tail, ackRing := x.ackRing, tag := x.tag, pos := x.pos }
        let s1 := if l.replay.isEmpty then s.start (.lane .replay n) else s
        (s1.modLane n fun l => { l with letters := rest, replay := l.replay ++ [d], txNext := l.txNext + 1, sent := l.sent + k }).sendDispatch
          n d
      else s
    | [] => s

/-- A block leaves the receive buffer; its item goes to the sorting office, which sets the source's zone (R279, R280). -/
def State.routeRemote (s : State) (n i : Nat) (x : Item) : State :=
  let src := s.remoteSrc n i
  match x.kind with
  | .est =>
    let s1 := s.setSrc n i { src with
      zone := x.zone, known := if src.zone == .unresolved then noteKnown src.known x.stamp true else src.known }
    if src.zone == .unresolved then s1.route (.remote n i) [x] else s1
  | .lost =>
    (s.setSrc n i { src with
      zone := .unresolved, known := if src.zone == .unresolved then src.known else noteKnown src.known x.stamp false }).route
      (.remote n i) [x]
  | .edge =>
    let s1 := if src.zone == .unresolved then s else s.setSrc n i { src with zone := if x.rising then .high else .low }
    s1.route (.remote n i) [x]
  | .count => s.route (.remote n i) [x]

/-- Takes up to `k` blocks out of a lane's receive buffer, as long as no diversion queue holds the next (R228). -/
def State.drainLane : Nat → State → Nat → State
  | 0, s, _ => s
  | k + 1, s, n =>
    let l := s.lane n
    match l.buffer with
    | [] => s
    | b :: rest =>
      if (match b with | some (i, _) => s.arbiterHeld (.remote n i) | none => false) then s
      else
        let s1 := s.modLane n fun l =>
          if 0 < l.reserve then { l with buffer := rest, reserve := l.reserve - 1 }
          else { l with buffer := rest, freed := l.freed + 1, freedSinceAck := l.freedSinceAck + 1 }
        State.drainLane k (match b with | some (i, x) => s1.routeRemote n i x | none => s1) n

/-- Accepted blocks leave the receive buffer and limit is raised, unless credit is withheld; every 64 blocks freed send an ACK
(R271, R273, R274). -/
def execCreditRelease (t : Nat) (lane : Fin 16) (blocks : Nat) (s : State) : Host.Outcome State Fault Refusal :=
  atMoment t s fun s =>
    let n := lane.val
    let s1 := (State.drainLane (min blocks (s.lane n).buffer.length) s n).grantLane n
    if s1.carries n && 64 ≤ (s1.lane n).freedSinceAck then s1.ackLane n false false else s1

/-! ### Sessions (R277, R278) -/

/-- The credit exchange completes: ACTIVE, the counts from zero; the downstream session continues or a new one begins. -/
def State.initDone (s : State) (n : Nat) : State :=
  let l := s.lane n
  let j := (l.txNext - l.pRxNext).toNat
  let goesOn := l.pResume && 0 < j && j ≤ l.replay.length
  let s1 := (s.laneToActive n).modLane n fun l =>
    { l with attempt := 0, sent := 0, limitRx := l.pCredits, accepted := 0, limitTx := 512, freed := 0, freedSinceAck := 0
             reserve := l.buffer.length, sync := false, firstDispatch := true }
  if goesOn then
    let s2 := match s1.acked n l.pRxNext with | some x => x | none => s1
    s2.resend n (s2.lane n).replay
  else
    let s2 := l.replay.foldl (fun s d => s.letterDown n d.ackRing d.tag d.pos) s1
    let s3 := l.letters.foldl (fun s x => s.letterDown n x.ackRing x.tag x.pos) s2
    s3.modLane n fun l => { l with replay := [], letters := [] }

/-- An INIT block arrives (R277); in ACTIVE it is a violation (R291). -/
def execInitBlock (t : Nat) (lane : Fin 16) (payload : Ctl) (s : State) : Host.Outcome State Fault Refusal :=
  atMoment t s fun s =>
    let n := lane.val
    match (s.lane n).st with
    | .active => if s.isPeer n then s else (s.modLane n (·.valid 1)).formatBlock n
    | .credit =>
      if s.isPeer n || !checkOk payload then s
      else
        let p := payload
        let s1 := s.modLane n fun l =>
          { l.valid 1 with pCredits := cf p 0 12, pReplay := cf p 32 8, pVersion := cf p 45 3, pResume := cf p 13 1 = 1
                           pRxNext := BitVec.ofNat 16 (cf p 16 16) }
        if cf p 0 12 < 16 || cf p 32 8 < 8 || cf p 45 3 ≠ 1 || cf p 40 1 = 0 then s1.raise .satParam n
        else s1.modLane n fun l => { l with initGood := true, initSeen := l.initSeen || decide (cf p 12 1 = 1) }
    | _ => s

/-- The hub's INIT, every 1 µs in CREDIT; the exchange completes behind one with seen at 1 that followed the partner's (R277). -/
def execInitSend (t : Nat) (lane : Fin 16) (s : State) : Host.Outcome State Fault Refusal :=
  atMoment t s fun s =>
    let n := lane.val
    let l := s.lane n
    if l.st == .credit && !s.isPeer n && s.past (.lane .init n) usQ then
      let s1 := (s.start (.lane .init n)).sendCtl n 0xC3 (withCheck (packBits [(0, 12, 512), (12, 1, b2n l.initGood), (13, 1, b2n l.session),
        (16, 16, l.rxNext.toNat), (32, 8, 16), (41, 4, n), (45, 3, 1)]))
      if l.initGood && l.initSeen then s1.initDone n else s1
    else s

/-! ### Beacons (R286, R287) -/

/-- A FINE_BEACON, with the COARSE_BEACON before it where one is due: the first on entry into ACTIVE (log entry 21), each further one
COU_BEACON.interval µs behind the last. -/
def execFineBeacon (t : Nat) (lane : Fin 16) (s : State) : Host.Outcome State Fault Refusal :=
  atMoment t s fun s =>
    let n := lane.val
    let l := s.lane n
    let every := s.fld (Reg.COU_BEACON n) 0 16
    if s.carries n && s.tb.st.live && every ≠ 0 && (l.beacons = 0 || s.past (.lane .beacon n) (every * usQ)) then
      let tx := s.nextCycle
      let arrival : Nat := ((tx : Int) + ((s.fld (Reg.COU_LOOP_DELAY n) 0 32 + 1) / 2 : Nat) + sx 16 (s.fld (Reg.COU_ASYM n) 0 16)).toNat
      let k := l.beacons + 1
      let stepped := match l.lastBeacon with
        | some (before, _) => s.tb.forward.any fun x => decide (before < x.2)
        | none => false
      let coarse := k = 1 || k % 64 = 0 || (match l.lastBeacon with | some (_, a) => a / 2 ^ 54 != arrival / 2 ^ 54 | none => true)
      let coast := s.tb.st == .coasting || s.tb.st == .handover
      let s1 := (s.start (.lane .beacon n)).modLane n fun l => { l with beacons := k, lastBeacon := some (tx, arrival) }
      let s2 := if coarse then s1.sendCtl n 0x4D (BitVec.ofNat 56 (packBits [(0, 18, arrival / 2 ^ 54), (18, 16, every)])) else s1
      s2.sendCtl n 0x4B (BitVec.ofNat 56 (packBits [(0, 54, arrival), (54, 1, b2n coast), (55, 1, b2n stepped)]))
    else s

/-! ### Letters (R289), RETURN (R292) -/

/-- A LETTER_POST at the head of a ring (R289); the bytes are those read from its buffer. -/
def execLetterPost (t : Nat) (ring : Fin 64) (buf : Option (List Byte)) (s : State) : Host.Outcome State Fault Refusal :=
  onHead t ring 0x50 s fun s d =>
    let lane := df d 8 0 4
    let bytes := df d 8 16 10
    let l := s.lane lane
    let field := descOnly d [(8, 0, 4), (8, 8, 6), (8, 16, 10), (0x10, 0, 64), (0x18, 0, 32)] && df d 0x10 0 3 = 0
    let fail := firstFail [(1, !field), (2, bytes < 1 || 512 < bytes || df d 0x18 0 32 < bytes),
      (3, s.isPeer lane || l.st != .active), (5, decide (16 ≤ l.letters.length + l.replay.length))]
    let pos := posField (s.depth ring) (s.ring ring).pos
    s.judgeBuf ring d fail buf (fun _ => none) fun bs s => s.modLane lane fun l =>
      { l with letters := l.letters ++ [{ bytes := bs.take bytes ++ List.replicate (bytes - bs.length) 0, ackRing := df d 8 8 6
                                          tag := descTag d, pos := pos }] }

/-- The millisecond of a lane's RETURN reason ends: the occurrences since are reported (R292). -/
def execLaneReturnTimer (t : Nat) (lane : Fin 16) (reason : Fin 32) (s : State) : Host.Outcome State Fault Refusal :=
  atMoment t s fun s =>
    let n := lane.val
    let o := tget {} (s.lane n).occurs reason.val
    let put (o : Occur) (s : State) : State := s.modLane n fun l => { l with occurs := tset {} l.occurs reason.val o }
    if o.running && s.past (.laneReturn n reason) (1000 * usQ) then
      if 0 < o.count then ((put { running := true } s).laneReturn n reason o.first o.count).start (.laneReturn n reason) else put {} s
    else s

end Sys2Proof.Machine
end

