-- ==== Sys2Proof/Machine/Peer.lean ====
section
/-! DEFINITION. Peer links and the time domain (12 R295 to R307): the handshake, the two-way measurement, the choice of the
master, the corrections of a follower, loss, election and merge. -/

namespace Sys2Proof.Machine

/-- The hub takes part in its domain (PEER_CTRL.enable). -/
def State.peerOn (s : State) : Bool := s.bit Reg.PEER_CTRL 8

/-- A lane in peer mode and ACTIVE. -/
def State.peerActive (s : State) (n : Nat) : Bool := (s.lane n).st == .active && s.isPeer n

/-- The hub's rank. -/
def State.peerRank (s : State) : Nat := s.fld Reg.PEER_CTRL 0 8

/-- Vector 65 on a change of link or role (R303, R308). -/
def State.peerEvent (s : State) : State := if s.bit Reg.PEER_CTRL 9 then s.event 65 else s

def State.modPeer (s : State) (f : Peer → Peer) : State := { s with peer := f s.peer }

/-! ### The handshake (R296) -/

/-- A PEER_HELLO arrives in CREDIT. -/
def execPeerHello (t : Nat) (lane : Fin 16) (payload : Ctl) (s : State) : Host.Outcome State Fault Refusal :=
  atMoment t s fun s =>
    let n := lane.val
    let p := payload
    if (s.lane n).st == .credit && s.isPeer n && checkOk p && cf p 9 3 = 1 && cf p 12 1 = 0 then
      if cf p 0 8 = s.peerRank then s.raise .peerRankDup n
      else (s.modLane n fun l => { l.valid 1 with initGood := true, initSeen := l.initSeen || decide (cf p 8 1 = 1) }).modPeerLane n
        fun x => { x with rank := cf p 0 8 }
    else s

/-- The hub's PEER_HELLO, every 1 µs; the handshake completes as the exchange of R277 does. -/
def execPeerHelloSend (t : Nat) (lane : Fin 16) (s : State) : Host.Outcome State Fault Refusal :=
  atMoment t s fun s =>
    let n := lane.val
    let l := s.lane n
    if l.st == .credit && s.isPeer n && s.past (.lane .init n) usQ then
      let s1 := (s.start (.lane .init n)).sendCtl n 0x69 (withCheck (packBits [(0, 8, s.peerRank), (8, 1, b2n l.initGood), (9, 3, 1), (13, 4, n)]))
      if l.initGood && l.initSeen then (s1.laneToActive n).modLane n fun l => { l with attempt := 0 } else s1
    else s

/-! ### Frames (R297, R298) -/

/-- The CRC of a peer frame (R297). -/
def frameCrc (sync : Ctl) (d0 d1 d2 d3 : Word) : Nat :=
  crc32c (bytesOf 7 sync.toNat ++ bytesOf 8 d0.toNat ++ bytesOf 8 d1.toNat ++ bytesOf 8 d2.toNat ++ bytesOf 4 (d3.toNat / 2 ^ 32))

/-- Sends a peer frame on a lane. -/
def State.sendFrame (s : State) (n : Nat) : State :=
  let x := s.peerLane n
  let tx := s.nextCycle
  let own := s.tb.st.holds
  let parent := match s.peer.parent with | some l => some (s.peerLane l) | none => none
  let coast := own || (match parent with | some p => s.peerOn && p.coast | none => false)
  let bound := match parent with | some p => if s.peerOn then p.bound else s.boundAt s.devTime | none => s.boundAt s.devTime
  let sync := withCheck (packBits [(0, 8, x.seq.toNat), (8, 8, s.peerRank),
    (16, 8, if s.peerOn then s.peer.masterRank else s.peerRank), (24, 5, if s.peerOn then s.peer.hops else 31), (29, 1, b2n coast),
    (30, 1, b2n s.tb.aligned), (31, 1, b2n s.peer.part), (32, 16, s.peer.tde)])
  let (q, rx, ok) := match x.arrived with | some (q, a) => (q, a, true) | none => (0, 0, false)
  let d0 : Word := BitVec.ofNat 64 tx
  let d1 : Word := BitVec.ofNat 64 rx
  let d2 : Word := BitVec.ofNat 64 (packBits [(0, 8, tx / 2 ^ 64), (8, 8, rx / 2 ^ 64), (16, 8, q), (24, 1, b2n ok),
    (32, 32, min (2 ^ 32 - 1) (ceilDiv bound 64))])
  let hi : Word := BitVec.ofNat 64 (packBits [(32, 16, s.peer.seenTde)])
  let d3 := hi ||| BitVec.ofNat 64 (frameCrc sync d0 d1 d2 hi)
  let s1 := s.modPeerLane n fun x => { x with seq := x.seq + 1, sentAt := (x.seq.toNat, tx) :: x.sentAt.take 254 }
  ([d0, d1, d2, d3].foldl (fun s w => s.sendData n w) (s1.sendCtl n 0x66 sync)).start (.lane .keepalive n)

/-- A slot of the peer frames: 125 µs (R298). -/
def slotQ : Nat := 153600000

/-- At each multiple of 125 µs of device time a frame goes out on every ACTIVE peer lane (R298); a multiple that has had its frames
sends none again. -/
def execPeerSyncSend (t : Nat) (s : State) : Host.Outcome State Fault Refusal :=
  atMoment t s fun s =>
    let k := s.devTime / slotQ
    if s.tb.st.live && s.peer.slot < k then
      (List.range 16).foldl (fun s n => if s.peerActive n then s.sendFrame n else s) (s.modPeer fun p => { p with slot := k })
    else s

/-- A frame is missed (R298, R303): SUSPECT after 3 in a row. The next slot begins. -/
def State.frameMissed (s : State) (n : Nat) : State :=
  let s1 := ((s.start (.lane .frame n)).modPeerLane n fun x => { x with misses := x.misses + 1 }).bump (Reg.PEER_LANE_STAT n) 16 16
  let x := s1.peerLane n
  if x.link == .up && 3 ≤ x.misses then (s1.modPeerLane n fun x => { x with link := .suspect }).peerEvent else s1

/-! ### The choice of the master (R300, R304, R305) -/

/-- A candidate: master_rank, hops, lane. -/
structure PeerCand where
  rank : Nat
  hops : Nat
  lane : Option Nat
  deriving DecidableEq, Repr

/-- The smaller candidate of R300; the first on equality. -/
def PeerCand.best (a b : PeerCand) : PeerCand :=
  if b.rank < a.rank || (b.rank = a.rank && b.hops < a.hops) then b else a

/-- The candidates of the ACTIVE peer lanes, by lane number. -/
def State.peerCandidates (s : State) : List PeerCand :=
  (List.range 16).filterMap fun n =>
    let x := s.peerLane n
    let stale := match s.peer.stale with | some (r, h) => x.masterRank == r && decide (h ≤ x.hops + 1) | none => false
    if s.peerActive n && x.link == .up && x.hops ≤ 15 && !stale then some { rank := x.masterRank, hops := x.hops + 1, lane := some n }
    else none

/-- A master that has seen a higher epoch merges (R304); with auto_whole it clears part (R305). -/
def State.merge (s : State) : State :=
  if s.peerOn && s.peer.master && s.peer.tde < s.peer.seenTde then
    let e := (s.peer.seenTde + 1) % 65536
    (s.modPeer fun p => { p with tde := e, seenTde := e, part := p.part && !s.bit Reg.PEER_CTRL 10 }).bump Reg.PEER_CNT 16 16
  else s

/-- The hub chooses again (R300): a follower that becomes master begins a new epoch (R304); a new parent asks for a
correction (R301). -/
def State.peerChoose (s : State) : State :=
  if !s.peerOn then s
  else
    let c := s.peerCandidates.foldl PeerCand.best { rank := s.peerRank, hops := 0, lane := none }
    let old := s.peer
    let moved := c.lane.isSome && c.lane != old.parent
    let elected := c.lane.isNone && old.parent.isSome
    let e := (old.seenTde + 1) % 65536
    let s1 := s.modPeer fun p =>
      { p with master := c.lane.isNone, masterRank := c.rank, hops := c.hops, parent := c.lane
               fresh := moved || (p.fresh && c.lane.isSome), rejoin := p.rejoin || (moved && s.tb.aligned)
               trimRemain := if moved || c.lane.isNone then 0 else p.trimRemain
               tde := if elected then e else p.tde, seenTde := if elected then e else p.seenTde }
    let s2 := if elected then s1.bump Reg.PEER_CNT 0 16 else s1
    let s3 := match c.lane with
      | some l => s2.modPeer fun p => { p with tde := (s2.peerLane l).tde, seenTde := max p.seenTde (s2.peerLane l).tde }
      | none => s2
    let s4 := s3.merge
    if old.master != s4.peer.master || old.hops = 31 then s4.peerEvent else s4

/-! ### The measurement and its correction (R299, R301) -/

/-- The mean offset of a lane. -/
def PeerLane.mean (x : PeerLane) : Int := rdiv x.thetas.sum x.thetas.length

/-- A follower removes an offset by slew (R46); during a slew the remaining offset is replaced (R307). -/
def State.peerSlew (s : State) (off : Int) : State :=
  if off = 0 then s
  else if s.tb.st == .locked then s.correctBySlew off 3 off
  else ((s.setSlew off).timeRecord 3 off).slewDone

/-- A follower acts on the mean offset to its parent once a whole window of exchanges has been averaged; the window then
begins again (log entry 24). -/
def State.follow (s : State) (l : Nat) : State :=
  let x := s.peerLane l
  let win : Int := (s.fld Reg.PEER_TRIM 16 16 : Nat)
  let m := x.mean
  if s.peer.parent ≠ some l || !s.peerOn || x.link != .up || x.thetas.length < max 1 (s.fld Reg.PEER_CTRL 16 8) then s
  else if s.tb.st == .coasting then
    -- the coasted line's control word takes the offset to zero; by how much is open
    let (v, s1) := s.free
    let s2 := s1.modTb fun b => { b with steered := some (v.setWidth 32) }
    (if decide (m.natAbs ≤ win.toNat) && x.aligned && !s2.tb.aligned then s2.setAligned else s2).modPeerLane l fun x => { x with thetas := [] }
  else if s.tb.st != .locked && s.tb.st != .slewing then s
  else
    let first := !s.tb.aligned && !s.peer.rejoin
    let near := decide (m.natAbs ≤ win.toNat)
    let s1 := s.modPeer fun p => { p with fresh := false, trimRemain := 0 }
    let s2 := if first && !near then s1.correct m 1 3 4
      else if s.peer.fresh || (!s.tb.aligned && !near) then s1.peerSlew m
      else if near then s1.modPeer fun p => { p with trimRemain := m, trimT0 := s.devTime, trimN := 0 }
      else s1.peerSlew m
    let s3 := if near && x.aligned && !s2.tb.aligned then s2.setAligned else s2
    s3.modPeerLane l fun x => { x with thetas := [] }

/-- The exchange of a frame: theta and loop (R299). -/
def State.exchange (s : State) (n : Nat) (t2 t3 t4 : Nat) (echo : Nat) : State :=
  match (s.peerLane n).sentAt.find? fun p => p.1 == echo with
  | some (_, t1) =>
    let asym := sx 32 (s.fld (Reg.PEER_LANE_ASYM n) 0 32)
    let theta := rdiv (((t2 : Int) - t1) - ((t4 : Int) - t3) - asym) 2
    let loop : Int := ((t4 : Int) - t1) - ((t3 : Int) - t2)
    s.modPeerLane n fun x => { x with thetas := (theta :: x.thetas).take (max 1 (s.fld Reg.PEER_CTRL 16 8)), loop := loop }
  | none => s

/-- A peer frame arrives and is stamped (R297 to R305). -/
def execPeerSync (t : Nat) (lane : Fin 16) (sync : Ctl) (d0 d1 d2 d3 : Word) (s : State) : Host.Outcome State Fault Refusal :=
  atMoment t s fun s =>
    let n := lane.val
    if !s.peerActive n then s
    else
      let s0 := s.dataBlock n
      let hops := cf sync 24 5
      if !checkOk sync || fieldOf d3.toNat 0 32 ≠ frameCrc sync d0 d1 d2 d3 || (16 < hops && hops < 31) then s0.frameMissed n
      else
        let old := s0.peerLane n
        let seen := fieldOf d3.toNat 32 16
        let part := cf sync 31 1 = 1
        let s1 := ((s0.start (.lane .frame n)).start (.lane .good n)).modPeerLane n fun x =>
          { x with link := .up, misses := 0, rank := cf sync 8 8, masterRank := cf sync 16 8, hops := hops, coast := cf sync 29 1 = 1
                   aligned := cf sync 30 1 = 1, part := part, tde := cf sync 32 16, bound := 64 * fieldOf d2.toNat 32 32
                   arrived := some (cf sync 0 8, s0.devTime) }
        let s2 := if old.link == .up then s1 else s1.peerEvent
        let s3 := s2.modPeer fun p => { p with seenTde := max p.seenTde seen }
        let t3 := d0.toNat + 2 ^ 64 * fieldOf d2.toNat 0 8
        let t2 := d1.toNat + 2 ^ 64 * fieldOf d2.toNat 8 8
        let s4 := if bitOf d2.toNat 24 then s3.exchange n t2 t3 s0.devTime (fieldOf d2.toNat 16 8) else s3
        let s5 := s4.peerChoose.merge
        -- part spreads when a partner of the domain begins to advertise it, and goes when the parent clears it (R305)
        let s6 := if !s5.peerOn then s5
          else if part && !old.part && cf sync 16 8 = s5.peer.masterRank then s5.modPeer fun p => { p with part := true }
          else if !part && old.part && s5.peer.parent = some n then s5.modPeer fun p => { p with part := false }
          else s5
        s6.follow n

/-- No frame arrived within a slot (R303): 125 µs from the last frame or miss. Where no link stands, an ACTIVE peer lane misses
frames all the same. -/
def execPeerFrameMiss (t : Nat) (lane : Fin 16) (s : State) : Host.Outcome State Fault Refusal :=
  atMoment t s fun s =>
    if !s.past (.lane .frame lane) slotQ then s
    else match (s.peerLane lane).link with
      | .up | .suspect => s.frameMissed lane
      | .none | .lost => if s.peerActive lane then s.frameMissed lane else s

/-- 1 ms after the last good frame the link is LOST (R303 to R305). -/
def execPeerLinkLost (t : Nat) (lane : Fin 16) (s : State) : Host.Outcome State Fault Refusal :=
  atMoment t s fun s =>
    let n := lane.val
    let x := s.peerLane n
    if !s.past (.lane .good n) (1000 * usQ) then s
    else match x.link with
    | .none | .lost => s
    | .up | .suspect =>
      let s1 := (s.modPeerLane n fun x => { x with link := .lost, thetas := [] }).peerEvent
      let s2 := if s1.peerOn && x.masterRank = s1.peer.masterRank then s1.modPeer fun p => { p with part := true } else s1
      if s2.peerOn && s2.peer.parent = some n then
        let s3 := (s2.start .stale).modPeer fun p => { p with stale := some (p.masterRank, p.hops), rejoin := p.rejoin || s2.tb.aligned, trimRemain := 0 }
        (s3.modTb fun b => { b with aligned := false }).peerChoose
      else s2

/-- The 2 ms of R300 end. -/
def execPeerStaleHoldEnd (t : Nat) (s : State) : Host.Outcome State Fault Refusal :=
  atMoment t s fun s => if s.peer.stale.isSome && s.past .stale (2000 * usQ) then (s.modPeer fun p => { p with stale := none }).peerChoose else s

/-- The device time at which the next trim step is due: the schedule of R46 at PEER_TRIM.rate (R301). -/
def State.trimDue (s : State) : Nat := s.stepAfter s.peer.trimT0 s.peer.trimN (s.fld Reg.PEER_TRIM 0 16)

/-- One step of a follower's trim (R301), logged as a slew step (R160). -/
def execPeerTrimStep (t : Nat) (s : State) : Host.Outcome State Fault Refusal :=
  atMoment t s fun s =>
    let up := match s.peer.parent with | some l => (s.peerLane l).link == .up | none => false
    if s.peerOn && up && (s.tb.st == .locked || s.tb.st == .slewing) && s.peer.trimRemain != 0 &&
        decide (s.trimDue ≤ s.devTime) then
      let k : Int := max (-8) (min 8 s.peer.trimRemain)
      (s.fineStep k).modPeer fun p => { p with trimRemain := p.trimRemain - k, trimN := p.trimN + 1 }
    else s

/-- PEER_CTRL has been written: taking part begins with a choice, and ends as DISABLED. -/
def State.peerCtrlWritten (s : State) (was : Bool) : State :=
  if s.peerOn && !was then s.peerChoose
  else if !s.peerOn && was then
    (s.modPeer fun p => { p with master := false, masterRank := 0, hops := 31, parent := none, trimRemain := 0, stale := none
                                 fresh := false }).peerEvent
  else s

/-- PEER_CMD.whole (R305, R308). Answers whether the write is taken. -/
def State.peerWhole (s : State) : Bool × State :=
  if s.peerOn && s.peer.master then (true, s.modPeer fun p => { p with part := false }) else (false, s.raise .peerState 0)

end Sys2Proof.Machine
end

