-- ==== Sys2Proof/Machine/Placement.lean ====
section
/-! DEFINITION. The sorting office at work (09 R221 to R238): the plan of a load window, castling, its bucket, PLACE and
PLACE_READ. -/

namespace Sys2Proof.Machine

/-! ### When castlings may be planned and begun (R226, R330) -/

/-- No castling is planned or begun: freeze, the LEDGER class bit, ENDGAME, the safe state. -/
def State.castleHeld (s : State) : Bool :=
  s.bit Reg.PLC_CTRL 0 || s.flt.active.getLsbD 4 || s.pwr.st == .endgame || s.pst.endgame.isSome || s.gbl.safe

/-- A move of this channel's context is planned or under way. -/
def State.moving (s : State) (c : Nat) : Bool :=
  (s.plc.plan.any fun m => m.chan == c && m.target.isNone) || s.plc.castlings.any fun k => k.move.chan == c

/-- The channel may be moved by the plan of window `w` (R121, R224, R225): LIVE or PAUSED, and not castled within the last settle
windows. A pin bars its primary's moves alone (R236). -/
def State.movable (s : State) (c : Nat) (ch : Chan) (w : Nat) : Bool :=
  (ch.st == .live || ch.st == .paused) && !s.moving c &&
    (match ch.place.castledIn with | some x => decide (x + s.fld Reg.PLC_POLICY 16 8 < w) | none => true)

/-- w_ch of R221, the twin's own for a twin; until the channel's first complete window its hinted rate stands for it (R237). -/
def State.workOf (s : State) (c : Nat) (ch : Chan) (twin : Bool) : Nat :=
  let rate := (s.wish c).rate
  if rate ≠ 0 && s.plc.windowNo < ch.place.placedIn + 2 then rate / 100 else if twin then ch.place.twinLast else ch.place.lastWork

/-! ### The plan (R224) -/

/-- What the planning loop works on. -/
structure Planning where
  /-- predicted busy fractions, in 2^-40 -/
  b : List Nat
  tokens : Nat
  moves : List Move
  deriving DecidableEq, Repr

def Planning.at_ (p : Planning) (e : Nat) : Nat := (p.b[e]?).getD 0

/-- Adds to one engine's fraction and takes from another's. -/
def Planning.shift (p : Planning) (h l dh dl : Nat) : List Nat :=
  (p.b.zipIdx).map fun (x, e) => if e = h then x - dh else if e = l then x + dl else x

/-- A candidate of the loop: the channel, whether it is its twin that moves, d on h and d on l. -/
structure Candidate where
  chan : Nat
  twin : Bool
  dh : Nat
  dl : Nat
  deriving DecidableEq, Repr

/-- Entries of a target that lie outside bank `e`: target 4 the deviation set, 0 to 3 a histogram. -/
def Chan.entriesAway (ch : Chan) (target e : Nat) : Nat :=
  if target = 4 then (match ch.dev with | some d => b2n (d.bank != e) | none => 0)
  else match tget? ch.histos target with | some h => (h.banks.filter (· != e)).length | none => 0

/-- The targets of a channel outside the bank of engine `e`. -/
def Chan.farTargets (ch : Chan) (e : Nat) : List Nat :=
  (4 :: tkeys ch.histos).filter fun t => decide (0 < ch.entriesAway t e)

/-- Entries of engine e's bank, of sets or of histograms, that are free (R219). -/
def State.bankFree (s : State) (target e : Nat) : Nat :=
  if target = 4 then 512 - (s.devBanks.filter (· == e)).length else 256 - (s.histoBanks.filter (· == e)).length

/-- Free places of an engine's home block. -/
def State.homeFree (s : State) (e : Nat) : Nat := ((homeSquares e).map (freeIn s.plc.used)).sum

/-- Places that the moves planned take in the home block, or the guard buffer, of an engine. -/
def State.claimed (s : State) (done : List Move) (twin : Bool) (e : Nat) : Nat :=
  ((done.filter fun m => m.target.isNone && m.twin == twin && m.toEngine == e).map fun m => (s.chan m.chan).place.places.length).sum

/-- d(ch, h) where a channel lives now (R222). -/
def State.loadHere (s : State) (c : Nat) (ch : Chan) (h : Nat) : Nat :=
  let banks := ch.banks
  s.loadOf h (s.workOf c ch false) ((ch.place.squares.filter fun q => homeOf q != h).length + (banks.filter (· != h)).length)
    (ch.place.places.length + banks.length)

/-- d(ch, l) where it would live: in l's home block, with the targets that l's bank has no room for left outside (R222, R225; log entry
71). -/
def State.loadThere (s : State) (c : Nat) (ch : Chan) (l : Nat) : Nat :=
  let stay := ((ch.farTargets l).map fun t => if ch.entriesAway t l ≤ s.bankFree t l then 0 else ch.entriesAway t l).sum
  s.loadOf l (s.workOf c ch false) stay (ch.place.places.length + ch.banks.length)

/-- Group hints let a channel go from engine h to engine l (R237; log entry 68): a group kept together goes to the engine that serves
most of it, unless that takes that engine above the ceiling; one kept apart goes to an engine without it, where there is one. -/
def State.groupLets (s : State) (p : Planning) (c : Nat) (ch : Chan) (h l : Nat) : Bool :=
  let w := s.wish c
  let on := s.groupOn p.moves w.group c
  if w.group = 0 then true
  else if w.groupMode = 1 then
    match argMax on (List.range 16) with
    | some m => on m = 0 || l = m || decide (s.ceiling < p.at_ m + if m = h then 0 else s.loadThere c ch m)
    | none => true
  else if w.groupMode = 2 then on l = 0 || (List.range 16).all fun e => decide (0 < on e)
  else true

/-- The candidates on engine h for engine l (R218, R224, R225, R236, R237). A twin lies in its engine's own guard buffer. -/
def State.candidates (s : State) (w h l : Nat) (p : Planning) : List Candidate :=
  s.chans.flatMap fun (c, ch) =>
    if !s.movable c ch w || p.moves.any (fun m => m.chan == c) then []
    else
      let n := ch.place.places.length
      let wish := s.wish c
      let room := decide (n + s.claimed p.moves false l ≤ s.homeFree l)
      let guard := decide (s.guardUsed l + s.claimed p.moves true l + n ≤ 512)
      (if ch.place.engine = h && ch.place.twin ≠ some l && !wish.pinned && room && s.groupLets p c ch h l then
          [⟨c, false, s.loadHere c ch h, s.loadThere c ch l⟩] else []) ++
        (if ch.place.twin = some h && ch.place.engine ≠ l && !(wish.pinned && wish.engine == l) && guard then
          [⟨c, true, s.share h (s.workOf c ch true), s.share l (s.workOf c ch true)⟩] else [])

/-- The candidate with the largest d on h among those that leave l below h; of equal ones the lowest ID. -/
def bestOf (bh bl : Nat) (l : List Candidate) : Option Candidate :=
  (l.filter fun c => decide (bl + c.dl + c.dh < bh)).foldl (fun best c =>
    match best with | some x => if x.dh < c.dh then some c else best | none => some c) none

/-- The loop of R224. -/
def State.planLoop (s : State) (w : Nat) : Nat → Planning → Planning
  | 0, p => p
  | k + 1, p =>
    let h := (argMax p.at_ (List.range 16)).getD 0
    let l := (argMin p.at_ (List.range 16)).getD 0
    let spread := s.fld Reg.PLC_POLICY 8 8 * 2 ^ 32
    if p.at_ h ≤ s.ceiling && (p.at_ h - p.at_ l ≤ spread || 2 * p.at_ h ≤ s.ceiling) then p
    else match bestOf (p.at_ h) (p.at_ l) (s.candidates w h l p) with
      | none => p
      | some c =>
        if p.tokens = 0 then p
        else s.planLoop w k
          { b := p.shift h l c.dh c.dl, tokens := p.tokens - 1
            moves := p.moves ++ [{ chan := c.chan, twin := c.twin, toEngine := l, window := w }] }

/-- A target's move, where the bank has room beside what the moves before it claim there (R219, R225). -/
def State.addTarget? (s : State) (w c t e : Nat) (acc : List Move) : List Move :=
  let claimed := ((acc.filter fun m => m.toEngine == e && (match m.target with | some x => (x == 4) == (t == 4) | none => false)).map
    fun m => (s.chan m.chan).entriesAway (m.target.getD 4) e).sum
  if (s.chan c).entriesAway t e + claimed ≤ s.bankFree t e then
    acc ++ [{ chan := c, target := some t, toEngine := e, window := w }] else acc

/-- Target moves of the channels that the plan moves, where the receiving bank has room (R224, R225). -/
def State.targetMoves (s : State) (w : Nat) (moves : List Move) : List Move :=
  moves.foldl (fun acc m =>
    if m.twin then acc
    else ((s.chan m.chan).farTargets m.toEngine).foldl (fun acc t => s.addTarget? w m.chan t m.toEngine acc) acc) []

/-- Locality moves: places and targets outside the home of their engine go back once there is room (R224). -/
def State.localityMoves (s : State) (w : Nat) (done targets : List Move) : List Move :=
  (s.chans.foldl (fun (acc : List Move) (c, ch) =>
    let e := ch.place.engine
    if !s.movable c ch w || (s.wish c).pinned || done.any (fun m => m.chan == c) then acc
    else
      let away := ch.place.squares.any fun q => homeOf q != e
      let room := decide (ch.place.places.length + s.claimed (done ++ acc) false e ≤ s.homeFree e)
      let acc1 : List Move := if away && room then acc ++ [{ chan := c, toEngine := e, window := w }] else acc
      (ch.farTargets e).foldl (fun acc t => s.addTarget? w c t e acc) acc1) targets).drop targets.length

/-- Plans the moves of window `w`: pin moves keep their place in front, the rest of the last plan is dropped (R224, R233). -/
def State.plan (s : State) (w : Nat) : State :=
  let pins := s.plc.plan.filter (·.pin)
  let s0 : State := { s with plc := { s.plc with plan := pins } }
  if s.castleHeld then s0
  else
    let t0 := s.plc.tokens - pins.length
    let p := s0.planLoop w t0 { b := (List.range 16).map s.busyOf, tokens := t0, moves := [] }
    let targets := (s0.targetMoves w p.moves).take p.tokens
    let left := p.tokens - targets.length
    let loc := (s0.localityMoves w p.moves targets).take (left / 2)
    { s0 with plc := { s0.plc with plan := pins ++ p.moves ++ targets ++ loc } }

/-- Pinned work alone above the ceiling for 10 windows in a row (R226). -/
def State.pinLoad (s : State) (e : Nat) : State :=
  let work := (s.chans.map fun (c, ch) =>
    if ch.bound? && ch.place.engine = e && (s.wish c).pinned then ch.place.lastWork else 0).sum
  let run := if s.ceiling < s.share e work then min 11 (tget 0 s.plc.pinRuns e + 1) else 0
  let s1 : State := { s with plc := { s.plc with pinRuns := tset 0 s.plc.pinRuns e run } }
  if run = 10 then s1.raise .plcPinLoad e else s1

/-- What the hardware measured of engine `e`, and the event equivalents that it completed in the window (R221, R239). -/
def State.takeLoad (s : State) (e : Nat) (l : LoadSample) : State :=
  let s1 : State := { s with plc := { s.plc with
    busy := tset 0 s.plc.busy e l.busy, work := tset 0 s.plc.work e (tget 0 s.plc.workNow e) } }
  s1.setReg (Reg.PLC_ENGINE_LOAD e) (BitVec.ofNat 64
    (packBits [(0, 10, min 1023 (l.busy * 1024 / windowQ)), (10, 10, min 1023 l.xbar)]))

/-- A load window has ended (R221 to R226). -/
def execLoadWindowEnd (t : Nat) (loads : List LoadSample) (s : State) : Host.Outcome State Fault Refusal :=
  if loads.length ≠ 16 then .fault .illFormed
  else atMoment t s fun s =>
    let w := s.devTime / windowQ
    if w ≤ s.plc.windowNo then s
    else
      let s1 := (loads.zipIdx).foldl (fun s (l, e) => s.takeLoad e l) s
      let s2 : State := { s1 with
        chans := tmap {} s1.chans fun ch => { ch with place := { ch.place with
          lastWork := ch.place.work, work := 0, twinLast := ch.place.twinWork, twinWork := 0 } }
        -- PLC_CASTLE_RATE applies from this plan on (R239)
        plc := { s1.plc with windowNo := w, predicted := [], workNow := [], limit := s1.fld Reg.PLC_CASTLE_RATE 0 17
                             tokens := min s1.plc.tokens (ceilDiv (s1.fld Reg.PLC_CASTLE_RATE 0 17) 100) } }
      let s3 := (List.range 16).foldl State.pinLoad s2
      (s3.plan w).bump Reg.PLC_WINDOW 0 32

/-! ### Castling (R227 to R231) -/

/-- The engine that hands over: the twin's for its move, else the serving engine (R227, R233). -/
def State.moveFrom (s : State) (m : Move) : Nat :=
  let p := (s.chan m.chan).place
  if m.target.isNone && m.twin then p.twin.getD 0 else p.engine

/-- The squares that a context's move needs beside the places it keeps (R225, R236): the home block of the receiving engine; for a pin
the square it names, or any where that block is full. -/
def State.destSquares (s : State) (m : Move) : List Nat :=
  let p := (s.chan m.chan).place
  let n := p.places.length
  match m.toSquare with
  | some q => List.replicate (p.squares.filter (· != q)).length q
  | none => if m.pin then placeSquares ((argMax (freeIn s.plc.used) (homeSquares m.toEngine)).getD 0) n s.plc.used
      else homePlaces m.toEngine n s.plc.used

/-- A move's destination has room now (R218, R219, R225). -/
def State.destRoom (s : State) (m : Move) : Bool :=
  let ch := s.chan m.chan
  let n := ch.place.places.length
  match m.target with
  | some t => decide (0 < ch.entriesAway t m.toEngine ∧ ch.entriesAway t m.toEngine ≤ s.bankFree t m.toEngine)
  | none =>
    if m.twin then ch.place.twin.isSome && ch.place.engine != m.toEngine && decide (s.guardUsed m.toEngine + n ≤ 512)
    else ch.place.twin != some m.toEngine &&
      match m.toSquare with
      | some q => decide ((ch.place.squares.filter (· != q)).length ≤ freeIn s.plc.used q)
      | none => m.pin || decide (n ≤ s.homeFree m.toEngine)

/-- A move may begin now: the channel is LIVE or PAUSED, its source engine is free of castlings, at most 15 run, and no accepted
descriptor awaits application (R121, R226, R227 step 1, R231, R233). -/
def State.mayBegin (s : State) (m : Move) : Bool :=
  let ch := s.chan m.chan
  let from_ := s.moveFrom m
  (ch.st == .live || ch.st == .paused) && !ch.waitsDesc && decide (s.plc.castlings.length < 16) &&
    !(s.plc.castlings.any fun k => k.move.chan == m.chan || s.moveFrom k.move == from_) && s.destRoom m

/-- Takes the first element that a test admits. -/
def takeFirst {α : Type} (f : α → Bool) : List α → Option (α × List α)
  | [] => none
  | x :: r => if f x then some (x, r) else (takeFirst f r).map fun (y, l) => (y, x :: l)

/-- A castling's destination is reserved (R225): the places a context goes to, those it keeps among them, or a twin's guard places. -/
def State.reserve (s : State) (m : Move) : List (Nat × Nat) × State :=
  let p := (s.chan m.chan).place
  match m.target with
  | some _ => ([], s)
  | none =>
    if m.twin then ([], s.takeGuard m.toEngine p.places.length)
    else
      let (new, s1) := State.allot (s.destSquares m) s []
      match m.toSquare with
      | some q => ((p.places.foldl (fun (acc : List (Nat × Nat) × List (Nat × Nat)) x =>
          if x.1 = q then (acc.1 ++ [x], acc.2) else (acc.1 ++ acc.2.take 1, acc.2.drop 1)) ([], new)).1, s1)
      | none => (new, s1)

/-- The bucket's capacity (R232). -/
def State.castleCap (s : State) : Nat := ceilDiv s.plc.limit 100

/-- The next planned move begins against a token (R227 step 1, R232). -/
def execCastlingBegin (t : Nat) (s : State) : Host.Outcome State Fault Refusal :=
  atMoment t s fun s =>
    if s.castleHeld || s.plc.tokens = 0 then s
    else match takeFirst s.mayBegin s.plc.plan with
      | none => s
      | some (m, rest) =>
        let (dest, s0) := s.reserve m
        let s1 : State := { s0 with
          plc := { s0.plc with plan := rest, tokens := s.plc.tokens - 1, castlings := s.plc.castlings ++ [{ move := m, dest := dest }]
                               tokenAt := if s.plc.tokens = s.castleCap then s.now else s.plc.tokenAt }
          flt := { s.flt with begun := ledgerAdd s.flt.begun 1 } }
        if m.target.isNone then s1.modChan m.chan fun ch => { ch with back := ch.st, st := .castling } else s1

/-- The castling of a channel. -/
def State.castlingOf (s : State) (c : Nat) : Option Castling := s.plc.castlings.find? fun k => k.move.chan == c

/-- The seal stands behind the last item routed, and the engine has acknowledged it (R227 steps 2 and 3): what it has not
processed goes back, in order. -/
def execCastlingSealAck (t : Nat) (chan : BitVec 20) (s : State) : Host.Outcome State Fault Refusal :=
  atMoment t s fun s =>
    { s with plc := { s.plc with castlings := s.plc.castlings.map fun k =>
        if k.move.chan == chan.toNat && !k.sealed then { k with sealed := true, sealAt := s.devTime } else k } }

/-- Ends a castling: the returned items, and then what was diverted and what the arbiter held, are released in order; the recorded
state is restored (R227 step 6). A twin's copies were diverted beside the primary's, which has them. -/
def State.endCastling (s : State) (k : Castling) : State :=
  let s1 : State := { s with plc := { s.plc with castlings := s.plc.castlings.filter fun x => x.move.chan != k.move.chan } }
  s1.modChan k.move.chan fun ch =>
    { ch with inbox := if k.move.twin then ch.inbox else ch.inbox ++ (k.diverted ++ k.waiting).flatten
              st := if k.move.target.isNone then ch.back else ch.st }

/-- An abort frees the destination (R229). -/
def State.freeDest (s : State) (k : Castling) : State :=
  let p := (s.chan k.move.chan).place
  if k.move.target.isNone && k.move.twin then s.giveGuard k.move.toEngine p.places.length
  else { s with plc := { s.plc with used := freePlaces s.plc.used (k.dest.filter fun x => !p.places.contains x) } }

/-- The channel sits where its pin says (R236). -/
def State.sitsPinned (s : State) (c : Nat) : Bool :=
  let w := s.wish c
  let p := (s.chan c).place
  w.pinned && p.engine == w.engine && (match w.square with | some q => p.squares.all (· == q) | none => true)

/-- The placement table takes the move, and the source is freed (R227 steps 5 and 6). -/
def State.takeMove (s : State) (k : Castling) : State :=
  let m := k.move
  let p := (s.chan m.chan).place
  let q : Placed := { p with castles := p.castles + 1, castledIn := some s.plc.windowNo }
  match m.target with
  | some t =>
    if t = 4 then s.modChan m.chan fun ch => { ch with dev := ch.dev.map fun d => { d with bank := m.toEngine } }
    else s.modChan m.chan fun ch => match tget? ch.histos t with
      | some h => { ch with histos := tput ch.histos t { h with bank := m.toEngine, bank2 := if h.auto then m.toEngine else 0 } }
      | none => ch
  | none =>
    if m.twin then
      (s.giveGuard (p.twin.getD 0) p.places.length).modChan m.chan fun ch => { ch with place := { q with twin := some m.toEngine } }
    else
      ({ s with plc := { s.plc with used := freePlaces s.plc.used (p.places.filter fun x => !k.dest.contains x) } } : State).modChan
        m.chan fun ch => { ch with place := { q with engine := m.toEngine, places := k.dest } }

/-- A move of engine alone has nothing to copy (R227 step 4). -/
def State.copies (s : State) (k : Castling) : Bool :=
  k.move.target.isSome || k.move.twin || k.dest != (s.chan k.move.chan).place.places

/-- The copy and the CRC comparison are complete (R227 steps 4 to 6, R229). -/
def execCastlingCopyDone (t : Nat) (chan : BitVec 20) (crcEqual : Bool) (s : State) : Host.Outcome State Fault Refusal :=
  atMoment t s fun s =>
    let c := chan.toNat
    match s.castlingOf c with
    | some k =>
      if !k.sealed then s
      else if crcEqual || !s.copies k then
        let s1 := ((s.takeMove k).endCastling k).bump Reg.PLC_CNT_CASTLED 0 48
        let s2 : State := { s1 with flt := { s1.flt with completed := ledgerAdd s1.flt.completed 1 } }
        let s3 := s2.placeReport c (if k.move.target.isSome then 4 else 1)
        if s3.sitsPinned c then s3.payPin c else s3
      else
        let s1 := ((s.freeDest k).endCastling k).bump Reg.PLC_CNT_ABORTED 0 32
        let s2 : State := { s1 with
          flt := { s1.flt with aborted := ledgerAdd s1.flt.aborted 1 }
          plc := { s1.plc with plan := (if k.move.pin then [k.move] else []) ++ s1.plc.plan } }
        let s3 := s2.modChan c fun ch => { ch with place := { ch.place with castledIn := some s.plc.windowNo } }
        (s3.raise .plcCopy c).placeRecord (s3.fld Reg.PLC_CTRL 8 6) c 2
    | none => s

/-- The bucket gains a token every 1,228,800,000,000 / limit Q, counted from when it was last full or gained one (R232; log entry
72). -/
def execCastleToken (t : Nat) (s : State) : Host.Outcome State Fault Refusal :=
  atMoment t s fun s =>
    let due := s.plc.tokenAt + ceilDiv secQ s.plc.limit
    if s.plc.tokens < s.castleCap && due ≤ s.now then
      { s with plc := { s.plc with tokens := s.plc.tokens + 1, tokenAt := due } }
    else s

/-! ### PLACE and PLACE_READ (R234 to R238) -/

/-- Channels pinned (PLC_PINNED). -/
def State.pinnedCount (s : State) : Nat := (s.plc.wishes.filter fun x => x.2.pinned).length

/-- A pinned square has room for the channel's places that do not lie in it yet (R235). -/
def State.squareRoom (s : State) (c sq : Nat) : Bool :=
  let ch := s.chan c
  !ch.bound? || decide ((ch.place.squares.filter (· != sq)).length ≤ freeIn s.plc.used sq)

/-- An engine for a twin that makes way for a pin of its primary to engine `e`: neither that one nor the primary's own (R218). -/
def State.otherTwin (s : State) (c e : Nat) (p : Placed) : Nat :=
  s.chooseEngine c ((List.range 16).filter fun x => x != e && x != p.engine && decide (s.guardUsed x + p.places.length ≤ 512))

/-- A PLACE at the head of a ring, applied at its acceptance. -/
def execPlace (t : Nat) (ring : Fin 64) (s : State) : Host.Outcome State Fault Refusal :=
  onHead t ring 0x40 s fun s d =>
    let c := descChan d
    let ch := s.chan c
    if ch.waitsDesc then s
    else
      let op := df d 8 20 3
      let w := s.wish c
      let any := df d 0xC 10 1 = 1
      let ok := match op with
        | 0 => descOnly d [(8, 0, 23), (8, 24, 6), (0xC, 0, 11)] && (!any || df d 0xC 4 6 == 0)
        | 1 => descOnly d [(8, 0, 23), (8, 24, 6)]
        | 2 => descOnly d [(8, 0, 23), (8, 24, 6), (0x10, 0, 32), (0x14, 0, 18)] && df d 0x14 16 2 != 3
        | _ => false
      let full := op == 0 && ((!w.pinned && decide (65536 ≤ s.pinnedCount)) || (!any && !s.squareRoom c (df d 0xC 4 6)))
      let fail := firstFail [(1, !ok), (3, ch.st == .retired || (op == 1 && !w.pinned)), (5, full)]
      let ack := df d 8 24 6
      let tag := descTag d
      let setWish (s : State) (w : Wish) : State := { s with plc := { s.plc with wishes := tset {} s.plc.wishes c w } }
      let unplan (s : State) : State :=
        { s with plc := { s.plc with plan := s.plc.plan.filter fun m => !(m.chan == c && m.target.isNone && (m.pin || !m.twin)) } }
      s.judge ring d fail fun s =>
        match op with
        | 0 =>
          let e := df d 0xC 0 4
          let sq := if any then none else some (df d 0xC 4 6)
          let s1 := unplan (setWish s { w with pinned := true, engine := e, square := sq, pinRing := ack, pinTag := tag, pinOwed := true })
          if !ch.bound? then s1
          else if s1.sitsPinned c then s1.payPin c
          else
            let m : Move := { chan := c, toEngine := e, toSquare := sq, pin := true, window := s.plc.windowNo }
            -- the twin makes way first (log entry 70)
            let away : List Move := if ch.place.twin = some e then
                [{ m with twin := true, toEngine := s1.otherTwin c e ch.place, toSquare := none }] else []
            { s1 with plc := { s1.plc with plan := (s1.plc.plan.filter (·.pin)) ++ away ++ [m] ++ s1.plc.plan.filter (!·.pin) } }
        | 1 =>
          (unplan (setWish s { w with pinned := false, engine := 0, square := none, pinRing := 0, pinTag := 0, pinOwed := false })).sendAck
            ack 1 c 0 12 tag []
        | _ =>
          (setWish s { w with rate := df d 0x10 0 32, group := df d 0x14 0 16, groupMode := df d 0x14 16 2 }).sendAck ack 1 c 0 13 tag []

/-- A PLACE_READ at the head of a ring: one READ record per channel, in ID order. -/
def execPlaceRead (t : Nat) (ring : Fin 64) (s : State) : Host.Outcome State Fault Refusal :=
  onHead t ring 0x41 s fun s d =>
    let first := df d 8 0 20
    let n := if df d 8 20 12 = 0 then 4096 else df d 8 20 12
    let fail := firstFail [(1, !descOnly d [(8, 0, 32), (0xC, 0, 6)]), (2, decide (1048575 < first + n - 1))]
    s.judge ring d fail fun s => (List.range n).foldl (fun s i => s.placeRecord (df d 0xC 0 6) (first + i) 3) s

end Sys2Proof.Machine
end

