-- ==== Sys2Proof/Machine/Rings.lean ====
section
/-! DEFINITION. Rings, letterboxes and MSI-X (14 R337 to R358): starting and stopping a ring, the judgement of letterbox
writes, moderation, the MSI-X table, the Function Level Reset, and the NOP. -/

namespace Sys2Proof.Machine

/-! ### Starting and stopping (R338, R339) -/

/-- The checks of R338 on a ring as configured. -/
def State.ringOk (s : State) (n : Nat) : Bool :=
  let a := (s.reg (Reg.RING_STATUS_ADDR n)).toNat
  (s.reg (Reg.RING_BASE n)).toNat % 4096 == 0 && a % 64 == 0 && a != 0

/-- Enable has gone to 1 on a DISABLED ring (R339). -/
def State.ringStart (s : State) (n : Nat) : State :=
  if s.ringOk n then
    (s.modRing n fun r => { r with st := .active, again := false, pos := 0, lb := 0, fetched := [], updates := 0
                                   notDelivery := r.notDelivery && !s.isDelivery n }).writeStatus n
  else (s.setFld (Reg.RING_CFG n) 0 1 0).raise .ringRange n

/-- RING_CFG has been written: enable was `was` before (R339). -/
def State.ringEnableWritten (s : State) (n : Nat) (was : Bool) : State :=
  let r := s.ring n
  if s.ringOn n && !was then
    match r.st with
    | .disabled => s.ringStart n
    | .stopping => s.modRing n fun r => { r with again := true }
    | .active | .stopped => s
  else if !s.ringOn n && was then
    match r.st with
    | .active | .stopped => (s.modRing n fun r => { r with st := .stopping }).statusBlock n
    | .stopping => s.modRing n fun r => { r with again := false }
    | .disabled => s
  else s

/-- A stopping ring has finished what it had begun: DISABLED with its final status block, and started again where enable has been
set since (R339). -/
def execRingStopped (t : Nat) (ring : Fin 64) (s : State) : Host.Outcome State Fault Refusal :=
  atMoment t s fun s =>
    let n := ring.val
    let r := s.ring n
    if r.st == .stopping && r.fetched == [] && r.part.isNone then
      let s1 := (s.modRing n fun r => { r with st := .disabled, again := false }).writeStatus n
      if r.again then s1.ringStart n else s1
    else s

/-! ### Letterboxes (R348, R349) -/

/-- The hub's position that a violation's RETURN carries: h or w. -/
def State.hubPos (s : State) (n : Nat) : Nat := posField (s.depth n) (s.ring n).pos

/-- A RETURN LETTERBOX (R349, R365). -/
def State.lbReturn (s : State) (n value pos count : Nat) : State :=
  s.sendReturn (s.fld (Reg.RING_CFG n) 8 6) n 9 0 0 0 (packBits [(0, 25, value), (32, 25, pos)]) count

/-- A violation (R349): counted, RING_LB_VALUE, and at most one RETURN per millisecond. -/
def State.lbViolation (s : State) (n value : Nat) : State :=
  let s1 := (s.bumpSat (Reg.RING_ERR n) 0 16).raise .ringLbValue n
  let r := s1.ring n
  if r.lbTimer then
    s1.modRing n fun r => { r with lbFirst := if r.lbFirst.isSome then r.lbFirst else some (value, s1.hubPos n), lbCount := r.lbCount + 1 }
  else ((s1.start (.lbReturn n)).modRing n fun r => { r with lbTimer := true }).lbReturn n value (s1.hubPos n) 1

/-- Whether a letterbox value is accepted (R349). -/
def State.lbOk (s : State) (n value : Nat) : Bool :=
  let r := s.ring n
  let d := s.depth n
  let p := fieldOf value 24 1 * d + fieldOf value 0 24
  if !s.ringOn n || r.st == .stopping || r.st == .disabled then false
  else if fieldOf value 25 7 ≠ 0 || d ≤ fieldOf value 0 24 then false
  else if s.isDelivery n then decide (posDist d p r.lb ≤ posDist d r.pos r.lb)
  else decide (posDist d p r.pos ≤ d ∧ posDist d p r.lb ≤ posDist d p r.pos)

/-- A letterbox value is judged. -/
def State.letterbox (s : State) (n value : Nat) : State :=
  if s.lbOk n value then
    let p := fieldOf value 24 1 * s.depth n + fieldOf value 0 24
    if p = (s.ring n).lb then s else (s.modRing n fun r => { r with lb := p }).statusBlock n
  else s.lbViolation n value

/-- A write to BAR2 (R348); `be` are the byte enables of its one dword. -/
def execLetterboxWrite (t : Nat) (off : Nat) (data : List Dword) (be : BitVec 4) (s : State) : Host.Outcome State Fault Refusal :=
  if 0x40000 ≤ off || off % 4 ≠ 0 then .fault .illFormed
  else atMoment t s fun s =>
    let n := off / 0x1000
    match data with
    | [] => s
    | [v] =>
      if be = 0 then s
      else if off % 0x1000 = 0 && be = 15#4 then s.letterbox n v.toNat
      else (s.bumpSat (Reg.RING_ERR n) 16 16).raise .ringLbAccess n
    | _ => (s.bumpSat (Reg.RING_ERR n) 16 16).raise .ringLbAccess n

/-- The millisecond since the last RETURN LETTERBOX of a ring ends (R349). -/
def execLetterboxReturnTimer (t : Nat) (ring : Fin 64) (s : State) : Host.Outcome State Fault Refusal :=
  atMoment t s fun s =>
    let n := ring.val
    let r := s.ring n
    if !s.past (.lbReturn n) (1000 * usQ) then s
    else match r.lbTimer, r.lbFirst with
    | true, some (v, p) => ((s.start (.lbReturn n)).modRing n fun r => { r with lbFirst := none, lbCount := 0 }).lbReturn n v p r.lbCount
    | true, none => s.modRing n fun r => { r with lbTimer := false }
    | false, _ => s

/-! ### MSI-X (R356 to R358) -/

/-- The moderation time has passed since the first pending entry (R357). -/
def execModerationTimer (t : Nat) (ring : Fin 64) (s : State) : Host.Outcome State Fault Refusal :=
  atMoment t s fun s =>
    let n := ring.val
    let r := s.ring n
    let time := s.fld (Reg.RING_MOD n) 0 16
    if s.bit (Reg.RING_CFG n) 14 && time ≠ 0 && r.pendingEntries ≠ 0 && r.pendingAt + time * 122880 ≤ s.now then
      (s.modRing n fun r => { r with pendingEntries := 0 }).message n
    else s

/-- The 10 µs of a vector end; events since then are signalled (R358). -/
def execVectorHoldoffEnd (t : Nat) (vector : Fin 68) (s : State) : Host.Outcome State Fault Refusal :=
  atMoment t s fun s =>
    let i := vector.val - 64
    if vector.val < 64 || !s.flt.holdoff.getLsbD i || !s.past (.vector i) (10 * usQ) then s
    else
      let again := s.flt.again.getLsbD i
      let m : BitVec 4 := ~~~(1#4 <<< i)
      let s1 : State := { s with flt := { s.flt with holdoff := s.flt.holdoff &&& m, again := s.flt.again &&& m } }
      if again then s1.event vector else s1

/-- A dword write to BAR4 (R334, R356): the table takes it, and unmasking a vector with its pending bit set sends the message. -/
def execMsixTableWrite (t : Nat) (off : Nat) (value : Dword) (s : State) : Host.Outcome State Fault Refusal :=
  if 0x4000 ≤ off || off % 4 ≠ 0 then .fault .illFormed
  else atMoment t s fun s =>
    if 68 * 16 ≤ off then s
    else
      let v := off / 16
      let d : Dword := if off % 16 = 12 then 1 else 0
      let x := if off % 16 = 12 then value &&& 1 else if off % 16 = 0 then value &&& 0xFFFFFFFC else value
      let s1 : State := { s with msix := tset d s.msix off x }
      if off % 16 = 12 && !x.getLsbD 0 && s1.pba.getLsbD v then
        ({ s1 with pba := s1.pba &&& ~~~(1#68 <<< v) } : State).message v
      else s1

/-! ### Function Level Reset (R337) -/

/-- Every RING register at its Reset value but RING_SEQ; the rings DISABLED, their records kept. A record of which only parts have
been written is held to be written whole again (R337; log entry 34). -/
def State.ringsReset (s : State) : State :=
  { s with
    regs := s.regs.filter fun x => !(0xE000 ≤ x.1 && x.1 < 0xF000) || x.1 % 64 == 0x28
    rings := tmap {} s.rings fun r =>
      { r with st := .disabled, again := false, pos := 0, lb := 0, fetched := [], pendingEntries := 0, pendingAt := 0, updates := 0
               lbFirst := none, lbCount := 0, lbTimer := false
               part := none, held := (r.part.map Prod.fst).toList ++ r.held, produced := r.produced + b2n r.part.isSome }
    msix := []
    pba := 0 }

/-- A Function Level Reset. -/
def execFunctionLevelReset (t : Nat) (s : State) : Host.Outcome State Fault Refusal := atMoment t s State.ringsReset

/-! ### NOP (R354) -/

def ChanOp.from (o : ChanOp) : Nat :=
  match o with | .redeclare _ _ _ r => r | .pause _ _ _ r => r | .retire _ _ _ r => r
def TargetOp.from (o : TargetOp) : Nat :=
  match o with | .dev _ _ _ _ _ _ _ r => r | .histo _ _ _ _ _ r => r | .read _ _ _ _ _ r => r
def Load.from (o : Load) : Nat :=
  match o with | .recipe _ _ _ _ r => r | .bank _ _ _ _ _ r => r

/-- A descriptor of ring n has been accepted and not yet applied. -/
def State.unapplied (s : State) (n : Nat) : Bool :=
  (s.chans.any fun (_, c) => (match c.op with | some o => o.from == n | none => false) || c.targets.any fun x => x.1.from == n) ||
    (s.loads.any fun l => l.from == n) || s.rings.any fun (_, r) => match r.repost with | some p => p.ring == n | none => false

/-- A NOP at the head of a ring waits for every earlier descriptor of its ring. -/
def execNop (t : Nat) (ring : Fin 64) (s : State) : Host.Outcome State Fault Refusal :=
  onHead t ring 0x01 s fun s d =>
    let fail := firstFail [(1, !descOnly d [])]
    if fail.isNone && s.unapplied ring then s
    else s.judge ring d fail fun s => s.sendAck (descRet d) 1 0xFFFFF 0 15 (descTag d) []

end Sys2Proof.Machine
end

