-- ==== Sys2Proof/Machine/Delivery.lean ====
section
/-! DEFINITION. Records on their way to host memory (15 R360 to R380): slots, delivery and holding, summary mode, rewind marks
and reposting. -/

namespace Sys2Proof.Machine

/-! ### Slots (R345, R360, R361, R367) -/

/-- The phase bit of a head slot at a position (R345). -/
def phaseBit (d p : Nat) : Nat := 1 - p / d % 2

/-- A head slot. `body` are the values of this part, `part` its number, `seq` the ring sequence it is written at. -/
def headBits (r : Record) (body : List Word) (part : Nat) (more : Bool) (seq phase : Nat) : BitVec 256 :=
  BitVec.ofNat 256 (packBits [(0, 8, if part = 0 then r.type else 3), (8, 12, body.length), (20, 1, b2n (body != [])), (21, 1, b2n r.emit),
    (22, 10, r.flags.toNat), (32, 20, r.chan), (52, 12, r.aux), (64, 72, r.time), (136, 16, r.tde), (152, 6, r.code), (158, 1, b2n more),
    (160, 32, if part = 0 then r.spec0 else part), (192, 16, seq), (208, 47, r.spec1), (255, 1, phase)])

/-- Body slots: four values each, the last padded with zeros (R360). -/
def bodySlots : Nat → List Word → List (BitVec 256)
  | 0, _ => []
  | k + 1, ws =>
    let v (i : Nat) := ((ws[i]?).getD 0).toNat
    BitVec.ofNat 256 (packBits [(0, 64, v 0), (64, 64, v 1), (128, 64, v 2), (192, 64, v 3)]) :: bodySlots k (ws.drop 4)

/-- Values that a part holds when a record is split (R367). -/
def partCap (d : Nat) : Nat := 4 * (d / 2 - 1)
def Record.split (r : Record) (d : Nat) : Bool := decide (d / 2 < r.slots)
def Record.parts (r : Record) (d : Nat) : Nat := if r.split d then ceilDiv r.body.length (partCap d) else 1
def Record.partBody (r : Record) (d k : Nat) : List Word :=
  if r.split d then (r.body.drop (k * partCap d)).take (partCap d) else r.body

/-- Free slots of a delivery ring (R344). -/
def State.freeSlots (s : State) (n : Nat) : Nat := s.depth n - posDist (s.depth n) (s.ring n).pos (s.ring n).lb

/-- The ring sequence. -/
def State.ringSeq (s : State) (n : Nat) : Nat := s.fld (Reg.RING_SEQ n) 0 48

/-- The host port writes to the ring: an enabled, ACTIVE delivery ring (R347), in D0 (R333) with the link up. -/
def State.writesTo (s : State) (n : Nat) : Bool :=
  s.ringOn n && s.isDelivery n && (s.ring n).st == .active && !s.pcie.d3hot && s.pcie.up

/-! ### Rewind copies (R379) -/

/-- Keeps a copy of a slot while a mark is set; where there is no space for it, retention begins anew behind it. -/
def State.keepSlot (s : State) (n seq : Nat) (role : SlotRole) (bits : BitVec 256) : State :=
  if (s.ring n).marks = [] then s
  else match s.place n 32 false with
    | some (b :: _, s1) => s1.modRing n fun r => { r with kept := r.kept ++ [{ seq := seq, role := role, bits := bits, block := b }] }
    | _ => s.unrefAll n ((s.ring n).kept.map (·.block)) |>.modRing n fun r => { r with kept := [] }

/-- Drops the copies before a sequence. -/
def State.dropKept (s : State) (n seq : Nat) : State :=
  let gone := (s.ring n).kept.filter fun k => decide (k.seq < seq)
  (s.modRing n fun r => { r with kept := r.kept.filter fun k => !decide (k.seq < seq) }).unrefAll n (gone.map (·.block))

/-- Retention begins at the oldest mark, and ends with the last. -/
def State.trimKept (s : State) (n : Nat) : State :=
  match (s.ring n).marks with
  | [] => s.dropKept n (2 ^ 48)
  | m :: ms => s.dropKept n (ms.foldl (fun a x => min a x.2) m.2)

/-! ### Writing (R344, R345, R367) -/

/-- Writes a head at the ring's position and its body slots behind it; the body goes out first. Slots count in RING_SEQ and as
pending entries. -/
def State.writeSlots (s : State) (n : Nat) (headRole : SlotRole) (head : BitVec 256) (body : List (BitVec 256)) : State :=
  let d := s.depth n
  let base := (s.reg (Reg.RING_BASE n)).toNat
  let w := (s.ring n).pos
  let q := s.ringSeq n
  let addr (i : Nat) := base + 32 * ((w + i) % d)
  let s1 := (body.zipIdx).foldl (fun s (b, i) => s.out (.slot (addr (i + 1)) b)) s
  let s2 := s1.out (.slot (addr 0) head)
  let s3 := s2.keepSlot n q headRole head
  let s4 := (body.zipIdx).foldl (fun s (b, i) => s.keepSlot n (q + i + 1) .body b) s3
  let k := 1 + body.length
  (((s4.modRing n fun r => { r with pos := (r.pos + k) % (2 * d) }).bumpBy (Reg.RING_SEQ n) 0 48 k).entries n k)

/-- Writes part `k` of a record; behind its last part its holding blocks are free. -/
def State.writePart (s : State) (n : Nat) (r : Record) (k : Nat) : State :=
  let d := s.depth n
  let body := r.partBody d k
  let more := decide (k + 1 < r.parts d)
  let head := headBits r body k more (s.ringSeq n) (phaseBit d (s.ring n).pos)
  let s1 := s.writeSlots n (if k = 0 then .first else .part) head (bodySlots (ceilDiv body.length 4) body)
  let s2 := s1.modRing n fun x => { x with part := if more then some (r, k + 1) else none, delivered := x.delivered + 1
                                           produced := if k = 0 then x.produced else x.produced + 1 }
  let s3 := if more then s2 else s2.unrefAll n r.blks
  (s3.statusBlock n).ringMessage n

/-- Slots of a part. -/
def Record.partSlots (r : Record) (d k : Nat) : Nat := 1 + ceilDiv (r.partBody d k).length 4

/-- A part fits (R344). -/
def State.fits (s : State) (n : Nat) (r : Record) (k : Nat) : Bool := decide (r.partSlots (s.depth n) k ≤ s.freeSlots n)

/-! ### The queues (R371, R372) -/

/-- The unit a ring's queues offer next (R371): EXPRESS, BULK that has waited more than 5 ms, STANDARD, BULK. -/
def State.nextUnit (s : State) (n : Nat) : Option (Nat × Record × List Record) :=
  let r := s.ring n
  match r.express, r.bulk, r.standard with
  | x :: xs, _, _ => some (0, x, xs)
  | [], x :: xs, std =>
    if 5 * msQ < s.now - x.pushedAt then some (2, x, xs)
    else match std with | y :: ys => some (1, y, ys) | [] => some (2, x, xs)
  | [], [], y :: ys => some (1, y, ys)
  | [], [], [] => none

/-- The step of R371 at which a ring's next unit is served: EXPRESS, BULK that has waited more than 5 ms, STANDARD, BULK. -/
def State.unitStep (s : State) (n : Nat) : Option Nat :=
  (s.nextUnit n).map fun u =>
    if u.1 = 0 then 0 else if u.1 = 1 then 2 else if 5 * msQ < s.now - u.2.1.pushedAt then 1 else 3

/-- A ring's next unit can be popped: written at once, or moved into holding blocks (R372). -/
def State.popsUnit (s : State) (n : Nat) : Bool :=
  match s.nextUnit n with
  | some (_, x, _) =>
    (s.ring n).part.isNone && (s.ring n).repost.isNone &&
      (((s.ring n).held == [] && s.writesTo n && s.fits n x 0) || x.blks != [] || (s.place n (32 * x.slots) x.data).isSome)
  | none => false

/-- Ring n is next in the order of R371: no ring's unit has an earlier step, nor the same step and a place nearer behind the ring
that was served last at it. -/
def State.serves (s : State) (n : Nat) : Bool :=
  let mine := (s.unitStep n).getD 4
  let after (k m : Nat) : Nat := (m + 127 - (tget? s.pcie.served k).getD 63) % 64
  (tkeys s.rings).all fun m =>
    m = n || !s.popsUnit m || match s.unitStep m with
      | some k => decide (mine < k) || (k = mine && decide (after k n < after k m))
      | none => true

/-- The step of R371 has been taken at ring n. -/
def State.noteServed (s : State) (n : Nat) : State :=
  match s.unitStep n with
  | some k => { s with pcie := { s.pcie with served := tput s.pcie.served k n } }
  | none => s

/-- Moves a popped record into the ring's holding blocks; where there is no space it stays at the head of its queue (R374). -/
def State.holdRecord (s : State) (n cls : Nat) (r : Record) (rest : List Record) : State :=
  let s0 := if s.ringOn n && s.isDelivery n && (s.ring n).st == .active then s
    else if (s.ring n).notDelivery then s
    else (s.modRing n fun x => { x with notDelivery := true }).raise .ringNotDelivery n
  let move (bs : List Nat) (s : State) : State :=
    (s.modRing n fun x => { x.setQueue cls rest with held := x.held ++ [{ r with blks := bs }] }).statusBlock n
  if r.blks ≠ [] then move r.blks s0
  else match s0.place n (32 * r.slots) r.data with
    | some (bs, s1) => move bs s1
    | none => s0

/-! ### Reposting (R380) -/

/-- The slots of the first record among copies: its head and the body slots behind it. -/
def firstCopies : List Kept → List Kept × List Kept
  | [] => ([], [])
  | k :: ks => (k :: ks.takeWhile (·.role == .body), ks.dropWhile (·.role == .body))

/-- A copy of a head: repost set, the phase bit of its new position. -/
def repostHead (b : BitVec 256) (phase : Nat) : BitVec 256 :=
  BitVec.ofNat 256 (b.toNat % 2 ^ 255 + phase * 2 ^ 255) ||| (1#256 <<< 159)

/-- CONFIG_ACK REPOST. -/
def State.repostDone (s : State) (n : Nat) (p : Reposting) : State :=
  (s.modRing n fun r => { r with repost := none }).sendAck p.ackRing 1 0xFFFFF (p.mark + 4 * n) 17 p.tag [BitVec.ofNat 64 p.written]

/-- Writes the next record of a repost, when its slots are free. -/
def State.repostNext (s : State) (n : Nat) (p : Reposting) : State :=
  let (now, rest) := firstCopies p.todo
  match now with
  | [] => s.repostDone n p
  | h :: body =>
    if now.length ≤ s.freeSlots n then
      let p1 := { p with todo := rest, written := p.written + now.length }
      let s1 := s.writeSlots n h.role (repostHead h.bits (phaseBit (s.depth n) (s.ring n).pos)) (body.map (·.bits))
      let s2 := ((s1.modRing n fun r => { r with repost := some p1 }).statusBlock n).ringMessage n
      if rest = [] then s2.repostDone n p1 else s2
    else s

/-! ### The rows -/

/-- The host port serves a ring once (R371, R372): a part, a copy or a held record goes out, or, where the ring is next in the order of
R371, a popped record is written or held. -/
def execRecordDelivery (t : Nat) (ring : Fin 64) (s : State) : Host.Outcome State Fault Refusal :=
  atMoment t s fun s =>
    let n := ring.val
    let r := s.ring n
    if s.pwr.st != .run && s.pwr.st != .endgame then s
    else match r.part with
      | some (x, k) =>
        -- a parcel that has been begun is finished, also while the ring stops
        if (r.st == .active || r.st == .stopping) && s.isDelivery n && !s.pcie.d3hot && s.pcie.up && s.fits n x k then s.writePart n x k
        else s
      | none =>
        match r.repost, r.held, s.nextUnit n with
        | some p, _, _ => if s.writesTo n then s.repostNext n p else s
        | none, h :: hs, _ =>
          if s.writesTo n && s.fits n h 0 then (s.modRing n fun x => { x with held := hs }).writePart n h 0
          else match s.nextUnit n with
            | some (cls, x, rest) => if s.serves n then (s.noteServed n).holdRecord n cls x rest else s
            | none => s
        | none, [], some (cls, x, rest) =>
          if !s.serves n then s
          else if s.writesTo n && s.fits n x 0 then ((s.noteServed n).modRing n fun y => y.setQueue cls rest).writePart n x 0
          else (s.noteServed n).holdRecord n cls x rest
        | none, [], none => s

/-- Takes the first push of a class out of those held. -/
def takePush (cls : Nat) : List Push → Option (Push × List Push)
  | [] => none
  | p :: ps => if p.cls = cls then some (p, ps) else (takePush cls ps).map fun x => (x.1, p :: x.2)

/-- The oldest held push of a queue completes when its unit fits (R370). -/
def execHeldPushRelease (t : Nat) (ring : Fin 64) (cls : Fin 3) (s : State) : Host.Outcome State Fault Refusal :=
  atMoment t s fun s =>
    let n := ring.val
    match takePush cls (s.ring n).waiting with
    | some (p, rest) =>
      match s.tryPush n p with
      | some s1 => s1.modRing n fun r => { r with waiting := rest }
      | none => s
    | none => s

/-! ### Summary mode (R375 to R377) -/

/-- A data record of the ring waits for a holding block: at the head of a queue that cannot be written, or in a held push. -/
def State.dataWaits (s : State) (n : Nat) : Bool :=
  let r := s.ring n
  let stuck (x : Record) : Bool := x.data && (r.held != [] || !s.writesTo n || !s.fits n x 0)
  (r.waiting.any fun p => p.record.data) ||
    [r.express, r.standard, r.bulk].any fun q => match q with | x :: _ => stuck x | [] => false

/-- A held push of a data record is withheld, not pushed (R376). -/
def State.withholdPush (s : State) (n : Nat) (p : Push) : State :=
  let r := p.record
  let s1 := s.withhold r.chan n (r.type == 4) { time := r.at_, count := r.count0, phase := r.phase0 }
  -- it was counted as produced when it was pushed
  (s1.modRing n fun x => { x with produced := x.produced - 1 }).unrefAll n r.blks

/-- Ring n enters summary mode: held data pushes are withheld, and open emit parcels are closed and withheld. -/
def State.enterSummary (s : State) (n : Nat) : State :=
  let ps := (s.ring n).waiting.filter fun p => p.record.data
  let s1 := s.modRing n fun r => { r with summary := true, waiting := r.waiting.filter fun p => !p.record.data }
  let s2 := ps.foldl (fun s p => s.withholdPush n p) s1
  let s3 := s2.chans.foldl (fun s (c, ch) =>
    if ch.stagesDecl.ring = n && ch.bound? then s.closeParcels c ch.stagesDecl else s) s2
  (s3.raise .summaryMode n).statusBlock n

/-- The grace timer expires while the store is exhausted: FLT_HOLD_GRACE.grace_ms since the exhaustion began (R375). -/
def execHoldGrace (t : Nat) (s : State) : Host.Outcome State Fault Refusal :=
  atMoment t s fun s =>
    if s.flt.grace && s.free? ≤ 64 && s.past .grace (s.fld Reg.FLT_HOLD_GRACE 0 16 * 1000 * usQ) then
      let s1 : State := { s with flt := { s.flt with grace := false } }
      (List.range 64).foldl (fun x n => if !(s1.ring n).summary && s1.dataWaits n then x.enterSummary n else x) s1
    else s

/-- A ring leaves summary mode (R377). -/
def execSummaryExit (t : Nat) (ring : Fin 64) (s : State) : Host.Outcome State Fault Refusal :=
  atMoment t s fun s =>
    let n := ring.val
    let r := s.ring n
    if r.summary && r.held == [] && r.part.isNone && r.express == [] && r.standard == [] && r.bulk == [] &&
        s.fld Reg.FLT_HOLD_CTRL 16 14 ≤ s.free? then
      (s.modRing n fun r => { r with summary := false }).statusBlock n
    else s

/-! ### MARK and REPOST (R355, R378, R380) -/

/-- Rejects the head descriptor with a detail value (R365). -/
def State.rejectDetail (s : State) (n : Nat) (d : Desc) (reason detail : Nat) : State :=
  ((((s.sendReturn (descRet d) n reason (descTag d) (descType d) (posField (s.depth n) (s.ring n).pos) detail 1).bump
    (Reg.RING_REJ n) 0 32).consume n)).nextDesc n

/-- The ring is an enabled delivery ring. -/
def State.marks? (s : State) (n : Nat) : Bool := s.ringOn n && s.isDelivery n && (s.ring n).st == .active

/-- The oldest retained sequence, or the present one. -/
def State.oldest (s : State) (n : Nat) : Nat :=
  match (s.ring n).kept with | k :: _ => k.seq | [] => s.ringSeq n

/-- The head of the first part of the record that holds a retained sequence. -/
def headOf (kept : List Kept) (q : Nat) : Nat :=
  kept.foldl (fun h k => if k.seq ≤ q && k.role == .first then k.seq else h) (match kept with | k :: _ => min k.seq q | [] => q)

/-- A MARK at the head of a ring. -/
def execMark (t : Nat) (ring : Fin 64) (s : State) : Host.Outcome State Fault Refusal :=
  onHead t ring 0x60 s fun s d =>
    let n := df d 8 0 6
    let m := df d 8 8 2
    let clear := df d 8 10 1 = 1
    let q := df d 0x10 0 48
    let cur := df d 0x10 48 1 = 1
    let r := s.ring n
    let now := s.ringSeq n
    let field := descOnly d [(8, 0, 6), (8, 8, 3), (0x10, 0, 49)] && !(clear && (q ≠ 0 || cur)) && !(cur && q ≠ 0)
    let ack (at_ : Nat) (s : State) : State := s.sendAck (descRet d) 1 0xFFFFF (m + 4 * n) 16 (descTag d) [BitVec.ofNat 64 at_]
    let set (at_ : Nat) : State :=
      s.judge ring d none fun s => ack at_ ((s.modRing n fun r => { r with marks := tput r.marks m at_ }).trimKept n)
    if !field then s.judge ring d (some 1) id
    else if !s.marks? n then s.judge ring d (some 3) id
    else if clear then
      s.judge ring d none fun s =>
        ack ((tget? r.marks m).getD now) ((s.modRing n fun r => { r with marks := tdel r.marks m }).trimKept n)
    else if cur then set now
    else if now < q then s.judge ring d (some 2) id
    else if q ≠ now && (q < s.oldest n || r.marks = []) then s.rejectDetail ring d 10 (s.oldest n)
    else set (if q = now then q else headOf r.kept q)

/-- The copies a REPOST writes: `count` slots, extended to the record's end, or all (R380). -/
def copiesOf (kept : List Kept) (count : Nat) : List Kept :=
  if count = 0 then kept else kept.take count ++ (kept.drop count).takeWhile (·.role == .body)

/-- A REPOST at the head of a ring; it waits while another repost of the ring is under way. -/
def execRepost (t : Nat) (ring : Fin 64) (s : State) : Host.Outcome State Fault Refusal :=
  onHead t ring 0x61 s fun s d =>
    let n := df d 8 0 6
    let m := df d 8 8 2
    let r := s.ring n
    let fail := firstFail [(1, !descOnly d [(8, 0, 6), (8, 8, 2), (0xC, 0, 24)]), (3, !s.marks? n || (tget? r.marks m).isNone)]
    if fail.isNone && r.repost.isSome then s
    else
      let pos := posField (s.depth ring) (s.ring ring).pos
      s.judge ring d fail fun s =>
        let mk := (tget? r.marks m).getD 0
        let old := s.oldest n
        let s1 := if mk < old then s.sendReturn (descRet d) ring 10 (descTag d) 0x61 pos old 1 else s
        let todo := copiesOf (r.kept.filter fun k => decide (max mk old ≤ k.seq)) (df d 0xC 0 24)
        let p : Reposting := { todo := todo, mark := m, ackRing := descRet d, tag := descTag d, ring := ring }
        if todo = [] then s1.repostDone n p else s1.modRing n fun r => { r with repost := some p }

end Sys2Proof.Machine
end

