-- ==== Sys2Proof/Machine/FaultRec.lean ====
section
/-! DEFINITION. The ledger (19 R452 to R455), the wake tokens' costs it audits (18 R437), clearing faults (R447, R448), and the
commands of the black box (R459 to R462). -/

namespace Sys2Proof.Machine

/-! ### The ledger's points (R452) -/

/-- Edges of items. -/
def edgesOf (l : List Item) : Nat := (l.map Item.edges).sum

/-- Edges of an input accepted and not yet routed. -/
def Input.waiting (x : Input) : Nat :=
  x.held + x.ovfl + x.ovflOut + edgesOf x.openItems + (x.fifo.map fun w => edgesOf w.items).sum

/-- Edges in a lane's receive buffer. -/
def Lane.waiting (l : Lane) : Nat := (l.buffer.map fun b => match b with | some (_, i) => i.edges | none => 0).sum

/-- Sums over the inputs and over the lanes, modulo 2^48. -/
def State.sumCap (s : State) (r : Nat → Nat) : Nat := (((List.range 256).map fun n => s.fld (r n) 0 48).sum) % 2 ^ 48
def State.sumCou (s : State) (r : Nat → Nat) : Nat := (((List.range 16).map fun n => s.fld (r n) 0 48).sum) % 2 ^ 48

def State.ledIn (s : State) : Nat := (s.sumCap Reg.CAP_CNT_IN + s.sumCou Reg.COU_CNT_EVENTS) % 2 ^ 48
def State.ledPending (s : State) : Nat :=
  ((s.inputs.map fun x => x.2.waiting).sum + (s.lanes.map fun x => x.2.waiting).sum) % 2 ^ 48

/-- Copies routed and not yet counted: those that wait for an engine, and those in diversion queues. -/
def State.ledFlight (s : State) : Nat :=
  ((s.chans.map fun x => edgesOf (x.2.inbox.map Prod.snd)).sum + (s.plc.castlings.map fun k =>
    if k.move.twin then 0 else ((k.diverted ++ k.waiting).map fun w => edgesOf (w.map Prod.snd)).sum).sum) % 2 ^ 48

/-- Records of a ring in its sorting queues and held pushes, and in holding blocks. -/
def Ring.queued (r : Ring) : Nat := r.express.length + r.standard.length + r.bulk.length + r.waiting.length
def Ring.heldCount (r : Ring) : Nat := r.held.length

/-- What a unit's start costs (R437). -/
def WakeUnit.cost : WakeUnit → Nat
  | .timeBase => 8 | .mram => 4 | .group _ => 2 | .engine _ => 4 | .lane _ => 6 | .frontEnd _ => 1

/-! ### The invariants (R454) -/

/-- One tested instance: invariant, instance, left and right side. -/
structure Test where
  no : Nat
  inst : Nat
  left : Nat
  right : Nat
  deriving DecidableEq, Repr

/-- Tests 1 to 8, lowest first. -/
def State.tests (s : State) : List Test :=
  (List.range 256).map (fun n =>
    { no := 1, inst := n, left := s.fld (Reg.CAP_CNT_IN n) 0 48
      right := (s.fld (Reg.CAP_CNT_STAMPED n) 0 48 + s.fld (Reg.CAP_CNT_THIN n) 0 48 + s.fld (Reg.CAP_CNT_OVFL n) 0 48) % 2 ^ 48 }) ++
  [{ no := 2, inst := 0, left := s.ledIn, right := (s.flt.routed + s.ledPending) % 2 ^ 48 },
   { no := 3, inst := 0, left := s.flt.copies
     right := (s.flt.counted + s.flt.unbound + s.flt.outage + s.ledFlight) % 2 ^ 48 }] ++
  (List.range 16).map (fun n =>
    let l := s.lane n
    { no := 4, inst := n, left := l.blocksRx
      right := (l.blocksAcc + l.blocksRef + l.blocksDup + s.fld (Reg.COU_CNT_VIOL_BLOCKS n) 0 48) % 2 ^ 48 }) ++
  ((List.range 16).filter fun n => s.carries n && !(s.lane n).sync).map (fun n =>
    let l := s.lane n
    { no := 5, inst := n, left := l.rxFree, right := (l.limitTx - l.accepted) % 4096 + l.freed }) ++
  (List.range 64).map (fun n =>
    let r := s.ring n
    { no := 6, inst := n, left := r.produced % 2 ^ 48
      right := (r.delivered + r.queued + r.heldCount + r.summarised) % 2 ^ 48 }) ++
  [{ no := 7, inst := 0, left := 8192, right := s.free? + (s.rings.map fun r => r.2.blocks.length).sum },
   { no := 8, inst := 0, left := s.flt.begun
     right := (s.flt.completed + s.flt.aborted + s.plc.castlings.length) % 2 ^ 48 }]

/-- The two tests of R441. -/
def State.tokensOk (s : State) : Bool :=
  decide ((s.fld Reg.PWR_TOKEN_ISSUED 0 48 + 2 ^ 48 - s.fld Reg.PWR_TOKEN_RETURNED 0 48) % 2 ^ 48 = s.pwr.out) &&
    decide (s.pwr.out = (s.pwr.settling.map fun u => u.1.cost).sum)

/-- The last whole multiple of 1 ms of device time. -/
def State.msNow (s : State) : Nat := s.devTime / (1000 * usQ)

/-- A ledger check (R453 to R455): in RUN, outside an Endgame, once for a multiple of 1 ms of device time. Where the token tests fail
beside another invariant, FLT_LEDGER_LAST names the other (log entry 74). -/
def execLedgerCheck (t : Nat) (s : State) : Host.Outcome State Fault Refusal :=
  atMoment t s fun s =>
    if s.pwr.st != .run || s.pst.endgame.isSome || s.msNow ≤ s.flt.ledgerAt then s
    else
      let s1 := ({ s with flt := { s.flt with ledgerAt := s.msNow } } : State).bump Reg.FLT_LEDGER_CHECKS 0 32
      let bad := s1.tests.filter fun x => x.left != x.right
      let tok := s1.tokensOk
      let s2 := { s1 with flt := { s1.flt with failing := bad != [] || !tok } }.bumpBy Reg.FLT_LEDGER_FAIL 0 32 (bad.length + b2n (!tok))
      let s3 := match bad with
        | x :: _ =>
          (((s2.setFld Reg.FLT_LEDGER_LAST 0 4 x.no).setFld Reg.FLT_LEDGER_LAST 4 12 x.inst).raise .ledgerMismatch (x.no + 256 * x.inst)).push
            (s2.fld Reg.FLT_REC_RING 8 6) 0 none
            { type := 6, aux := x.inst, time := s2.devTime, code := x.no, spec0 := s2.fld Reg.FLT_LEDGER_CHECKS 0 32
              body := [BitVec.ofNat 64 x.left, BitVec.ofNat 64 x.right] }
        | [] => s2
      if tok then s3
      else ((s3.setFld Reg.FLT_LEDGER_LAST 0 4 (if bad = [] then 9 else s3.fld Reg.FLT_LEDGER_LAST 0 4)).raise .tokenAudit 0)

/-! ### Clearing (R447, R448) -/

/-- A write of ones to FLT_ACTIVE: class bits and severe; LEDGER stays while the latest check failed. -/
def State.faultClear (s : State) (value : Dword) : State :=
  let v : BitVec 9 := value.setWidth 9
  let keep : BitVec 9 := if s.flt.failing then 0x10 else 0
  let sev := value.getLsbD 16
  { s with flt := { s.flt with active := s.flt.active &&& (~~~v ||| keep), severe := s.flt.severe && !sev
                               severeOf := if sev then 0 else s.flt.severeOf } }

/-! ### The black box (R459, R461, R462) -/

/-- The entry bucket gains one entry, 1 ms behind the last (R459). -/
def execBbEntryToken (t : Nat) (s : State) : Host.Outcome State Fault Refusal :=
  atMoment t s fun s =>
    if s.past .bbEntry (1000 * usQ) then
      { s.start .bbEntry with flt := { s.flt with bbTokens := min 64 (s.flt.bbTokens + 1) } }
    else s

/-- FLT_BB_UNSEAL.unseal (R461). -/
def State.unseal (s : State) : State :=
  if s.flt.sealed then
    let s1 : State := { s with flt := { s.flt with sealed := false } }
    ((s1.setFld Reg.FLT_BB_STATUS 13 1 0).bbEntry 8 0 0 0).bbHeader
  else s

/-- FLT_BB_SEL.entry has been written: the copy begins and ready clears (R462). -/
def State.bbSelected (s : State) : State :=
  let s1 := s.setFld Reg.FLT_BB_SEL 16 1 0
  { s1 with flt := { s1.flt with selOut := some (s1.fld Reg.FLT_BB_SEL 0 13) } }

/-- The selected entry is in FLT_BB_DATA0 to FLT_BB_DATA7. -/
def execBbCopyDone (t : Nat) (s : State) : Host.Outcome State Fault Refusal :=
  atMoment t s fun s =>
    match s.flt.selOut with
    | some e =>
      let v := (tget 0 s.pst.blackBox e).toNat
      let s1 := (List.range 8).foldl (fun s k => s.setReg (Reg.FLT_BB_DATA k) (BitVec.ofNat 64 (fieldOf v (32 * k) 32))) s
      let s2 := s1.setFld Reg.FLT_BB_SEL 16 1 1
      { s2 with flt := { s2.flt with selOut := none } }
    | none => s

/-- FLT_BB_MARK has been written: a MARKER entry (R458). -/
def State.bbMark (s : State) : State := s.bbEntry 9 0 0 (s.fld Reg.FLT_BB_MARK 0 32)

/-! ### VDD_CORE (R451) -/

/-- VDD_CORE below 0.70 V for 1 ms; in a quiet state the logic die is unpowered, and nothing sees it. -/
def execCoreLow (t : Nat) (s : State) : Host.Outcome State Fault Refusal :=
  atMoment t s fun s =>
    if s.pwr.coreLow || s.pwr.st == .off || s.pwr.st == .keeper then s else ({ s with pwr := { s.pwr with coreLow := true } } : State).raise .coreLow 0

/-- VDD_CORE above 0.71 V for 1 ms. -/
def execCoreLowEnd (t : Nat) (s : State) : Host.Outcome State Fault Refusal :=
  atMoment t s fun s => { s with pwr := { s.pwr with coreLow := false } }

end Sys2Proof.Machine
end

