-- ==== Sys2Proof/Machine/Keeper.lean ====
section
/-! DEFINITION. The keeper domain (17 R406 to R417) and guarded channels (R418 to R425): the tick with its samples, counters,
votes of copies and wake causes; the comparison of a guarded channel's two copies and the vote of the keeper. -/

namespace Sys2Proof.Machine

def State.modKpr (s : State) (f : Keeper → Keeper) : State := { s with kpr := f s.kpr }

/-- q_t, in Q (R408). -/
def State.tickQ (s : State) : Nat := 37500000 * 2 ^ s.farFld Reg.KPR_CTRL 1 3

/-- The hub is in a quiet state (R431). -/
def State.quiet (s : State) : Bool := s.pwr.st == .off || s.pwr.st == .keeper

/-! ### Comparators and counters (R411 to R414) -/

/-- A field of KPR_IN_CFGn in effect. -/
def State.kcfg (s : State) (n lo w : Nat) : Nat := s.farFld (Reg.KPR_IN_CFG n) lo w

/-- Input n is one of a QUAD pair; its comparator is on. -/
def State.kQuad (s : State) (n : Nat) : Bool := s.kcfg (n / 2 * 2) 1 1 == 1
def State.kOn (s : State) (n : Nat) : Bool := if s.kQuad n then s.kcfg (n / 2 * 2) 0 1 == 1 else s.kcfg n 0 1 == 1

/-- The keeper zone at a level in µV: thresholds of 9.4 mV steps, crossed codes reordered (R411). -/
def State.kZone (s : State) (n : Nat) (v : Int) : Zone :=
  let h := 9400 * sx 8 (s.kcfg n 8 8)
  let l := 9400 * sx 8 (s.kcfg n 16 8)
  if max h l < v then .high else if v < min h l then .low else tget .unresolved s.kpr.zones n

/-- Every copy of a keeper word advances (R413). -/
def Triple.add (x : Triple) (k : Int) : Triple :=
  let f (n : Nat) := toField 48 (n + k)
  { x := f x.x, y := f x.y, z := f x.z }

/-- A keeper word: counter 0 to 63, or 64 the time counter. -/
def Keeper.word (k : Keeper) (n : Nat) : Triple := if n = 64 then k.time else tget {} k.counters n
def Keeper.setWord (k : Keeper) (n : Nat) (x : Triple) : Keeper :=
  if n = 64 then { k with time := x } else { k with counters := tset {} k.counters n x }

/-- A fault has struck a copy between two ticks. An upset of the configuration is corrected (its three copies are not kept
apart). -/
def State.upset (s : State) (u : Upset) : State :=
  if u.word.val = 65 then s.modKpr fun k => { k with cfgCorrected := min 255 (k.cfgCorrected + 1) }
  else
    let x := s.kpr.word u.word.val
    let v := u.value.toNat
    s.modKpr fun k => k.setWord u.word.val
      (match u.copy.val with | 0 => { x with x := v } | 1 => { x with y := v } | _ => { x with z := v })

/-- A wake cause that arises at this tick (R415, R416). -/
def State.tickCause (s : State) (i : Nat) : State :=
  (s.wakeCause i).modKpr fun k => { k with fresh := k.fresh ||| (1#5 <<< i) }

/-- The copies of a word are compared (R413). -/
def State.voteWord (s : State) (n : Nat) : State :=
  let x := s.kpr.word n
  if x.x = x.y && x.y = x.z then s
  else if x.x = x.y || x.y = x.z || x.x = x.z then
    let v := x.vote
    s.modKpr fun k => { k.setWord n { x := v, y := v, z := v } with
      corrected := min 65535 (k.corrected + 1), lastWord := n
      correctedOf := if s.quiet then n :: k.correctedOf else k.correctedOf }
  else if s.kpr.broken.contains n then s
  else
    let s1 := s.modKpr fun k => { k with broken := n :: k.broken, uncorr := true }
    if s.pwr.st == .run then s1.raise .keeperTmr n else if s.pwr.st == .keeper then s1.tickCause 4 else s1

/-- Adds to counter n; reaching its compare value is a count cause (R415). -/
def State.kAdd (s : State) (n : Nat) (k : Int) (cmp : Bool) : State :=
  if k = 0 then s
  else
    let s1 := s.modKpr fun x => x.setWord n ((x.word n).add k)
    if cmp && s.kcfg n 24 1 == 1 && decide ((s1.kpr.word n).vote = s.farFld (Reg.KPR_CMP n) 0 48) then
      (s1.tickCause 1).modKpr fun x => { x with lastInput := n }
    else s1

/-- An EDGE counter at a tick (R414). -/
def State.kEdge (s : State) (n : Nat) (old new : Zone) : State :=
  if old == .unresolved || old == new then s
  else
    let e := s.kcfg n 2 2 % 3
    s.kAdd n (if e = 2 || (e = 0 && new == .high) || (e = 1 && new == .low) then 1 else 0) true

/-- The QUAD pair of even input n at a tick: both changed is a skip (R414). -/
def State.kPair (s : State) (n : Nat) (a0 b0 a1 b1 : Zone) : State :=
  if a0 == .unresolved || b0 == .unresolved then s
  else if a0 != a1 && b0 != b1 then
    (s.kAdd (n + 1) 1 false).modKpr fun k => { k with
      skipAny := k.skipAny ||| (1#32 <<< (n / 2))
      skippedOf := if s.quiet then n :: k.skippedOf else k.skippedOf }
  else if a0 != a1 then s.kAdd n (quadStep (s.kcfg n 4 2) false (a1 == .high) b1) true
  else if b0 != b1 then s.kAdd n (quadStep (s.kcfg n 4 2) true (b1 == .high) a1) true
  else s

/-- An input enters a zone selected by its wake_zones (R415). -/
def State.kWakeZone (s : State) (n : Nat) (old new : Zone) : State :=
  let sel := !(s.kQuad n && n % 2 == 1) &&
    (match new with | .low => s.kcfg n 6 1 == 1 | .high => s.kcfg n 7 1 == 1 | _ => false)
  if sel && old != new then (s.tickCause 0).modKpr fun k => { k with lastInput := n } else s

/-- The comparators decide at the tick; counters and zones follow. -/
def State.kprSample (s : State) (levels : List (Fin 64 × Int)) : State :=
  let z0 (n : Nat) := tget Zone.unresolved s.kpr.zones n
  let z1 (n : Nat) : Zone := if !s.kOn n then .unresolved
    else match levels.find? (fun x => x.1.val == n) with | some (_, v) => s.kZone n v | none => z0 n
  let s1 := (List.range 64).foldl (fun x n =>
    if !s.kOn n then x
    else if s.kQuad n then (if n % 2 = 0 then x.kPair n (z0 n) (z0 (n + 1)) (z1 n) (z1 (n + 1)) else x)
    else x.kEdge n (z0 n) (z1 n)) s
  let s2 := (List.range 64).foldl (fun x n => x.kWakeZone n (z0 n) (z1 n)) s1
  s2.modKpr fun k => { k with zones := (List.range 64).foldl (fun t n => tset .unresolved t n (z1 n)) k.zones }

/-! ### The near mirrors (R317, R407, R426) -/

/-- KPR_STATUS, KPR_WAKE_STATUS and KPR_TMR. -/
def State.kprStatus (s : State) : Nat :=
  let k := s.kpr
  packBits [(0, 1, b2n (!k.reset)), (1, 1, b2n k.onXtal), (2, 1, b2n k.xtalFail), (3, 1, b2n k.por), (4, 1, b2n (!k.reset)),
    (5, 3, s.farFld Reg.KPR_CTRL 1 3)]
def State.wakeStatus (s : State) : Nat :=
  packBits [(0, 5, s.kpr.cause.toNat), (8, 6, s.kpr.lastInput), (16, 1, b2n s.kpr.asserted)]
def State.kprTmr (s : State) : Nat :=
  let k := s.kpr
  packBits [(0, 16, k.corrected), (16, 6, k.lastWord), (22, 1, b2n (k.lastWord == 64)), (23, 1, b2n k.uncorr), (24, 8, k.cfgCorrected)]

/-- The guarded channel bound to keeper input n. -/
def State.guardedOf (s : State) (n : Nat) : Option Chan :=
  (s.chans.find? fun x => x.2.bound? && x.2.decl.guarded && x.2.decl.keeperInputs.contains n).map Prod.snd

/-- KPR_IN_STATn. -/
def State.kprInStat (s : State) (n : Nat) : Nat :=
  let g := s.guardedOf n
  packBits [(0, 2, (tget Zone.unresolved s.kpr.zones n).code), (2, 1, b2n g.isSome),
    (3, 1, match g with | some c => b2n c.guard.off.isSome | none => 0),
    (4, 1, match g with | some c => b2n (s.keeperMatches c.decl) | none => 0)]

/-- The mirrors are refreshed: the RO fields, and the registers as they are in effect. -/
def State.mirrorKpr (s : State) : State :=
  let put (x : State) (a v : Nat) := x.setReg a (BitVec.ofNat 64 v)
  let s1 := put (put (put (put (put s Reg.KPR_STATUS s.kprStatus) Reg.KPR_TIME s.kpr.time.vote) Reg.KPR_WAKE_STATUS s.wakeStatus)
    Reg.KPR_TMR s.kprTmr) Reg.KPR_SKIP_ANY s.kpr.skipAny.toNat
  (List.range 64).foldl (fun x n => put (put x (Reg.KPR_IN_STAT n) (s.kprInStat n)) (Reg.KPR_CNT n) (s.kpr.word n).vote) s1

/-! ### The keeper of a guarded channel (R418, R423, R424) -/

/-- The keeper counter of a channel works: it matches, its counter is working, the keeper domain runs (R26, R423). -/
def State.keeperWorks (s : State) (c : Chan) : Bool :=
  s.keeperMatches c.decl && !s.kpr.broken.contains c.decl.keeper && !s.kpr.reset

def State.modGuard (s : State) (c : Nat) (f : Guarded → Guarded) : State := s.modChan c fun ch => { ch with guard := f ch.guard }

/-- The keeper of a guarded channel has stopped, GUARD_KEEPER being raised once, or matches again (R423). -/
def State.keeperCheckOf (s : State) (c : Nat) : State :=
  let ch := s.chan c
  if !ch.decl.guarded || !ch.bound? then s
  else if s.keeperWorks ch then
    if ch.guard.keeperFault then s.modGuard c fun g => { g with keeperFault := false, off := none } else s
  else if ch.guard.keeperFault then s
  else (s.modGuard c fun g => { g with keeperFault := true, off := none }).raise .guardKeeper c

def State.keeperCheck (s : State) : State := (tkeys s.chans).foldl State.keeperCheckOf s

/-! ### Records of a guarded channel (R419, R422) -/

/-- A record of a guarded channel goes into its queue, or is withheld in summary mode (R376). -/
def State.releaseRec (s : State) (c : Nat) (x : GuardedRecord) (fl : BitVec 10) : State :=
  let r := x.record
  if r.data && (s.ring x.ring).summary then
    (s.withhold c x.ring (r.type == 4) { time := r.at_, count := r.count0, phase := r.phase0 }).unrefAll x.ring r.blks
  else s.push x.ring x.cls (some (s.chan c).place.engine) { r with flags := r.flags ||| fl }

/-- A CHECK record (R364, R422); a count that does not exist is NONE. -/
def State.checkRec (s : State) (c code time : Nat) (np nt kk : Option Nat) : State :=
  let ch := s.chan c
  let w (n : Option Nat) : Word := match n with | some n => BitVec.ofNat 64 (n % 2 ^ 48) | none => noneWord
  let r : Record := { type := 15, chan := c, aux := ch.decl.keeper, time := time, code := code, body := [w np, w nt, w kk] }
  (s.setChan c { ch with cfg := false }).push ch.decl.ring ch.decl.cls (some ch.place.engine)
    { r with flags := s.recFlags ch r [] ||| s.timeFlags [time] }

/-- The twin's count, given the primary's. -/
def Guarded.twinOf (g : Guarded) (n : Nat) : Option Nat := g.twinOff.map fun d => toField 48 (n + d)

/-- K + off at a keeper count. -/
def Guarded.keeperAt (g : Guarded) (k : Nat) : Option Nat := g.off.map fun o => toField 48 (k + o)

/-- The twin's context is seeded from the primary's. -/
def Guarded.reseed (g : Guarded) : Guarded := { g with twinOff := some 0 }

/-- The twin's copy of a record arrives: the count it reports, and whether its other fields are equal to the primary's. Copies
arrive in the order of the records. -/
def State.guardCompare (s : State) (c n : Nat) (same : Bool) : State :=
  let ch := s.chan c
  let g := ch.guard
  let diff (np : Nat) : Int := sx 48 ((n + 2 ^ 48 - np % 2 ^ 48) % 2 ^ 48)
  match g.lateDue with
  | m :: rest => s.modGuard c fun g => { g with lateDue := rest, lateEqual := some (decide (n = m % 2 ^ 48) && same) }
  | [] =>
    if g.heldRecs.any fun x => x.twin.isNone then
      -- a late copy: compared and recorded
      match takeFirst (fun x => x.twin.isNone) g.heldRecs with
      | some (x, _) =>
        s.modGuard c fun g => { g with
          twinOff := some (diff x.record.count0)
          heldRecs := (g.heldRecs.takeWhile fun y => y.twin.isSome) ++ [{ x with twin := some n, same := same }] ++
            (g.heldRecs.dropWhile fun y => y.twin.isSome).tail }
      | none => s
    else match g.uncompared with
      | [] => s
      | x :: rest =>
        let np := x.record.count0 % 2 ^ 48
        let s1 := s.modGuard c fun g => { g with uncompared := rest }
        if g.dispute then
          s1.modGuard c fun g => { g with twinOff := some (diff np), heldRecs := g.heldRecs ++ [{ x with twin := some n, same := same }] }
        else if n = np then
          if same then s1.releaseRec c x 0
          else
            let s2 := (s1.releaseRec c x fUncertain).checkRec c 2 s.devTime (some np) (some n) (g.keeperAt (s.kpr.word ch.decl.keeper).vote)
            (s2.raise .guardDerived c).modGuard c Guarded.reseed
        else s1.modGuard c fun g => { g with
          dispute := true, undecided := 0, twinOff := some (diff np), heldRecs := g.heldRecs ++ [{ x with twin := some n, same := same }] }

/-- The second copy of a guarded record arrives (R419). -/
def execGuardCompare (t : Nat) (chan : BitVec 20) (twinCount : BitVec 48) (same : Bool) (s : State) : Host.Outcome State Fault Refusal :=
  atMoment t s fun s => s.guardCompare chan.toNat twinCount.toNat same

/-- 10 µs without the twin's copy: it counts as differing (R419). -/
def execGuardCopyTimeout (t : Nat) (chan : BitVec 20) (s : State) : Host.Outcome State Fault Refusal :=
  atMoment t s fun s =>
    match (s.chan chan.toNat).guard.uncompared with
    | x :: rest =>
      if s.now < x.since + 10 * usQ then s
      else s.modGuard chan.toNat fun g => { g with
        uncompared := rest, heldRecs := g.heldRecs ++ [x], twinOff := none
        dispute := true, undecided := if g.dispute then g.undecided else 0 }
    | [] => s

/-! ### The vote (R418, R420) -/

/-- The counts that the primary engine held over [lo, hi]: the lowest, and how many above it. -/
def Chan.countRange (c : Chan) (lo hi : Nat) : Nat × Nat :=
  if c.decl.kind == .quad then
    let b := sx 48 c.base
    let a := quadCount c.quad b lo
    let ps := quadCount c.quad b (hi + 1) :: (c.quad.stepLog.filter fun x => decide (lo ≤ x.stamp ∧ x.stamp ≤ hi)).flatMap fun x =>
      [x.before, x.after]
    let mn := ps.foldl min a
    (toField 48 mn, (ps.foldl max a - mn).toNat)
  else
    let a := countAt c.a c.base c.tLive lo
    (a, (countAt c.a c.base c.tLive (hi + 1) + 2 ^ 48 - a) % 2 ^ 48)

/-- The count at a device time. -/
def Chan.countAtTime (c : Chan) (t : Nat) : Nat := (c.countRange t (t - 1)).1

/-- A count lies in a range. -/
def inRange (r : Nat × Nat) (n : Nat) : Bool := decide ((n + 2 ^ 48 - r.1) % 2 ^ 48 ≤ r.2)

/-- The twin's copy of a held record: its count, and its other values where they are not the primary's are free. -/
def State.twinRecord (s : State) (x : GuardedRecord) (d : Decl) : Record × State :=
  let r := x.record
  let n := x.twin.getD 0
  if r.type == 4 then
    let m := (n + 1) % 2 ^ 48
    ({ r with spec0 := m % 2 ^ 32, spec1 := m / 2 ^ 32 }, s)
  else
    let (body, s1) := if x.same then (r.body, s)
      else r.body.foldl (fun (p : List Word × State) _ => let (v, s2) := p.2.free; (p.1 ++ [v], s2)) (([] : List Word), s)
    let count := r.type == 1 && !r.emit && d.mask % 2 == 1
    ({ r with body := if count then (if d.kind == .quad then wordOf (sx 48 n) else BitVec.ofNat 64 n) :: body.tail else body }, s1)

/-- The held records go out, in order: the primary's copies, or the twin's (R420). A copy that has not come is due late. -/
def State.releaseHeld (s : State) (c : Nat) (twin : Bool) (fl : BitVec 10) : State :=
  let ch := s.chan c
  let s1 := s.modGuard c fun g => { g with
    dispute := false, undecided := 0, heldRecs := []
    lateDue := g.lateDue ++ (g.heldRecs.filter fun x => x.twin.isNone).map fun x => x.record.count0 }
  ch.guard.heldRecs.foldl (fun s x =>
    if twin && x.twin.isSome then
      let (r, s2) := s.twinRecord x ch.decl
      s2.releaseRec c { x with record := r } fl
    else s.releaseRec c x fl) s1

/-- The primary's context is seeded from the twin's: its counts move by the twin's difference. -/
def Chan.shiftCount (c : Chan) (d : Int) : Chan :=
  let f (n : Nat) := toField 48 (n + d)
  { c with count := f c.count, base := f c.base
           a := { c.a with edges := c.a.edges.map fun e => { e with c := f e.c } }
           quad := { c.quad with
             position := c.quad.position + d, latched := c.quad.latched.map (· + d)
             stepLog := c.quad.stepLog.map fun x => { x with before := x.before + d, after := x.after + d } } }

/-- The undecided dispute ends with the primary's copies, UNCERTAIN (R420). -/
def State.voteUndecided (s : State) (c tk : Nat) (np : Nat) (nt kk : Option Nat) : State :=
  (((s.releaseHeld c false fUncertain).modGuard c Guarded.reseed).checkRec c 2 tk (some np) nt kk).raise .guardCount c

/-- The vote of one tick on one channel: tk its device time, k the keeper count (R418, R420). -/
def State.voteOne (s : State) (c tk k : Nat) : State :=
  let ch := s.chan c
  let g := ch.guard
  let w := s.farFld Reg.KPR_VOTE 0 8 * usQ
  let r := ch.countRange (tk - w) (tk + w)
  let works := s.keeperWorks ch
  let np := ch.countAtTime tk
  let nt := g.twinOf np
  let kk := if works then g.keeperAt k else none
  let p := match kk with | some n => inRange r n | none => false
  let q := match kk, g.twinOff with | some n, some d => inRange (toField 48 (r.1 + d), r.2) n | _, _ => false
  if g.dispute then
    match kk with
    | none => s.voteUndecided c tk np nt none
    | some _ =>
      if p && !q then (((s.releaseHeld c false 0).modGuard c Guarded.reseed).checkRec c 1 tk (some np) nt kk)
      else if q && !p then
        let d := g.twinOff.getD 0
        ((((s.releaseHeld c true 0).modChan c fun ch => ch.shiftCount d).modGuard c Guarded.reseed).checkRec c 1 tk (some np) nt kk).imageChanged
      else if g.undecided + 1 = 4 then s.voteUndecided c tk np nt kk
      else s.modGuard c fun g => { g with undecided := g.undecided + 1 }
  else if !works then s
  else match kk with
    | none =>
      if r.2 = 0 && ch.tLive ≤ tk && g.twinOff == some 0 then
        s.modGuard c fun g => { g with off := some (sx 48 ((np + 2 ^ 48 - k % 2 ^ 48) % 2 ^ 48)), mismatch := 0 }
      else s
    | some _ =>
      if p then s.modGuard c fun g => { g with mismatch := 0 }
      else if g.mismatch + 1 = 2 then
        ((s.modGuard c fun g => { g with mismatch := 0, off := none }).checkRec c 2 tk (some np) nt kk).raise .keeperMismatch c
      else s.modGuard c fun g => { g with mismatch := g.mismatch + 1 }

/-- CHECK PERIODIC at the first vote behind each whole multiple of s seconds (R422). -/
def State.votePeriodic (s : State) (c tk k : Nat) : State :=
  let ch := s.chan c
  let p := s.farFld Reg.KPR_VOTE 8 16 * secQ
  let was := max ch.guard.lastVote (min ch.tLive tk)
  let s1 := s.modGuard c fun g => { g with lastVote := tk }
  if p ≠ 0 && was / p < tk / p then
    let n := ch.countAtTime tk
    s1.checkRec c 3 tk (some n) (ch.guard.twinOf n) (if s.keeperWorks ch then ch.guard.keeperAt k else none)
  else s1

/-- The votes of a channel that are due, oldest first; a channel that castles waits (R231). `wait` is w + 0.70 µs. -/
def State.votesOf : Nat → State → Nat → Nat → State
  | 0, s, _, _ => s
  | k + 1, s, c, wait =>
    let ch := s.chan c
    match ch.guard.votes with
    | (tk, n) :: rest =>
      if tk + wait ≤ s.devTime && ch.st != .castling then
        State.votesOf k (((s.modGuard c fun g => { g with votes := rest }).voteOne c tk n).votePeriodic c tk n) c wait
      else s
    | [] => s

/-- The votes of every channel. Without a keeper no tick comes, and a dispute is decided between the engines alone (R26). -/
def State.voteAll (s : State) (wait : Nat) : State :=
  (tkeys s.chans).foldl (fun s c =>
    let ch := s.chan c
    if !ch.decl.guarded then s
    else
      let s1 := State.votesOf ch.guard.votes.length s c wait
      if s1.kpr.reset && (s1.chan c).guard.dispute then s1.voteOne c s1.devTime 0 else s1) s

/-- A keeper vote: once device time reaches t_k + w + 860,160 Q (R420). -/
def execKeeperVote (t : Nat) (s : State) : Host.Outcome State Fault Refusal :=
  atMoment t s fun s => (s.voteAll (s.farFld Reg.KPR_VOTE 0 8 * usQ + settleQ)).coverCheck

/-! ### The tick -/

/-- The merge of a restored guarded channel at a tick (R401, R421): it takes the edges stamped at or after it. -/
def State.mergeChan (s : State) (c tick : Nat) : State :=
  let ch := s.chan c
  match ch.guard.merge with
  | some (img, kimg) =>
    if ch.restoring.isSome || (ch.st != .live && ch.st != .paused) then s
    else
      let quad := ch.decl.kind == .quad
      let k := (s.kpr.word ch.decl.keeper).vote
      let d : Int := if quad then sx 48 ((k + 2 ^ 48 - kimg) % 2 ^ 48) else ((k + 2 ^ 48 - kimg) % 2 ^ 48 : Nat)
      let n := toField 48 (img + d)
      let a := ch.a
      let s1 := s.setChan c { ch with
        count := n, base := n, tLive := tick, sampleFrom := tick, quad := { ch.quad with position := sx 48 n }
        a := { a with nextM := a.nextM + d.natAbs, assigned := a.assigned + d.natAbs, highM := a.highM.map (· + d.natAbs) }
        instants := if ch.st == .live then s.issuedFrom ch.decl.cadence tick else []
        gap := ch.gap.map fun g => { g with count := n }
        guard := { ch.guard with merge := none } }
      let s2 := s1.zonesNow c tick
      if s.kpr.skippedOf.contains ch.decl.keeper && quad then s2.checkRec c 2 tick none none (some n)
      else if s.kpr.correctedOf.contains ch.decl.keeper then s2.checkRec c 1 tick none none (some n)
      else s2
  | none => s

/-- A channel's vote of this tick, while it counts. -/
def Chan.addVote (c : Chan) (tick : Nat) (k : Nat) : Chan :=
  let st := if c.st == .castling then c.back else c.st
  if c.decl.guarded && (st == .live || (st == .paused && c.countOnly)) && c.guard.merge.isNone then
    { c with guard := { c.guard with votes := c.guard.votes ++ [(tick, k)] } }
  else c

/-- Ticks in RUN: the votes, the merges, and t_k of an Endgame (R396, R401, R420). -/
def State.guardTick (s : State) (tick : Nat) : State :=
  let s1 := (tkeys s.chans).foldl (fun s c => s.mergeChan c tick) s
  let s2 : State := { s1 with chans := tmap {} s1.chans fun ch => ch.addVote tick (s1.kpr.word ch.decl.keeper).vote }
  match s2.pst.endgame with
  | some e =>
    if e.tK.isNone && e.tCut ≤ tick then
      let ks : Table Nat := s2.chans.filterMap fun x => if x.2.decl.guarded then some (x.1, (s2.kpr.word x.2.decl.keeper).vote) else none
      { s2 with pst := { s2.pst with endgame := some { e with tK := some tick, kTime := s2.kpr.time.vote, kAt := ks } } }
    else s2
  | none => s2

/-- WAKE_N is released once no enabled cause is set and 2 ticks have passed (R416). -/
def State.wakeTick (s : State) : State :=
  s.modKpr fun k =>
    if k.asserted then
      let low := (k.cause.toNat &&& s.farFld Reg.KPR_WAKE_EN 0 5) != 0
      { k with assertedFor := k.assertedFor + 1, asserted := low || decide (k.assertedFor + 1 < 2) }
    else k

/-- A keeper tick (R408 to R416): the upsets since the last one, the samples, the time counter, the votes of the copies, the wake
causes, the mirrors. -/
def execKeeperTick (t : Nat) (levels : List (Fin 64 × Int)) (upsets : List Upset) (s : State) : Host.Outcome State Fault Refusal :=
  atMoment t s fun s =>
    if s.kpr.reset then s
    else
      let tick := if s.tb.st.live then s.nextCycle else s.devTime
      let s0 := (s.wakeTick).modKpr fun k => { k with lastTick := tick, tickNow := s.now, fresh := 0 }
      let s1 := (upsets.foldl State.upset s0).kprSample levels
      let s2 := s1.modKpr fun k => { k with time := k.time.add 1 }
      let s3 := (List.range 65).foldl State.voteWord s2
      let s4 := if s3.kpr.time.vote = s3.farFld Reg.KPR_WAKE_TIME 0 48 then s3.tickCause 2 else s3
      let s5 := if s4.quiet then s4 else s4.keeperCheck.guardTick tick
      s5.mirrorKpr

/-! ### Keeper reset, crystal (R406, R408) -/

/-- The KPR registers of a store. -/
def isKpr (a : Nat) : Bool := decide (0x11000 ≤ a ∧ a < 0x12000)

/-- VBAK has fallen below 1.62 V (R406, R423, R431, R451); a fall during keeper reset makes the millisecond begin again. -/
def execKeeperReset (t : Nat) (s : State) : Host.Outcome State Fault Refusal :=
  atMoment t s fun s0 =>
    let s := s0.start .vbak
    if s.kpr.reset then s
    else
      let was := s.pwr.st
      let s1 : State := { s with
        kpr := { reset := true, por := true }
        regs := s.regs.filter fun x => !isKpr x.1
        far := s.far.filter fun x => !isKpr x.1 }
      match was with
      | .keeper => { s1 with pwr := { s1.pwr with st := .off }, kpr := { s1.kpr with latched := [(0, 1, 0, 0)] } }
      | .off => s1
      | .run | .endgame | .waking =>
        let s2 := if was == .run then ({ s1 with pwr := { s1.pwr with vbakLow := true } } : State).raise .vbakLow 0 else s1
        -- a merge that is owed cannot be made any more (R401)
        let s3 := (tkeys s2.chans).foldl (fun s c =>
          if (s.chan c).guard.merge.isSome then
            (s.modChan c fun ch => { ch with tLive := s.devTime, sampleFrom := s.devTime, guard := { ch.guard with merge := none } }).raise
              .guardRestore c
          else s) s2
        s3.keeperCheck.coverCheck

/-- VBAK has stayed above 1.62 V for 1 ms. -/
def execKeeperResetEnd (t : Nat) (s : State) : Host.Outcome State Fault Refusal :=
  atMoment t s fun s =>
    if s.past .vbak msQ then { s with kpr := { s.kpr with reset := false }, pwr := { s.pwr with vbakLow := false } } else s

/-- No crystal cycle within 4 RC periods (R408, R415). -/
def execXtalFail (t : Nat) (s : State) : Host.Outcome State Fault Refusal :=
  atMoment t s fun s =>
    if s.kpr.onXtal && !s.kpr.reset then
      let s1 := s.modKpr fun k => { k with onXtal := false, xtalFail := true }
      if s.pwr.st == .keeper then s1.wakeCause 4 else s1
    else s

/-! ### Far writes of KPR registers (R416, R423, R424) -/

/-- The keeper input of a KPR_IN_CFG offset. -/
def kprInput (a : Nat) : Option Nat := if 0x11100 ≤ a ∧ a < 0x11500 ∧ a % 16 = 0 then some ((a - 0x11100) / 16) else none

/-- A far write of a keeper input has applied, the configuration being `old` before. -/
def State.kprInputApplied (s : State) (n : Nat) (old : Word) : State :=
  let new := s.farReg (Reg.KPR_IN_CFG n)
  let f (w : Word) (lo k : Nat) := fieldOf w.toNat lo k
  let thr := f old 8 16 != f new 8 16
  let isOn := f new 0 1 == 1
  -- of an odd input in QUAD only the thresholds count; the even input's enable is the pair's (R414)
  let en := f old 0 1 != f new 0 1 && !(n % 2 == 1 && s.kQuad n)
  let pair := en && n % 2 == 0 && s.kQuad n
  let s1 := s.modKpr fun k => { k with
    zones := if pair then tdel (tdel k.zones n) (n + 1) else if thr || en then tdel k.zones n else k.zones
    zeroed := if !isOn && k.broken.contains n then n :: k.zeroed.filter (· != n) else k.zeroed }
  -- a counter that was not working works again with copies that agree, at a value the spec leaves open
  let s2 := if isOn && s1.kpr.broken.contains n && s1.kpr.zeroed.contains n then
      let (v, x) := s1.free
      let m := v.toNat % 2 ^ 48
      x.modKpr fun k => { k.setWord n { x := m, y := m, z := m } with broken := k.broken.filter (· != n)
                                                                      zeroed := k.zeroed.filter (· != n)
                                                                      uncorr := k.broken.any (· != n) }
    else s1
  let uses (c : Chan) : Bool := c.bound? && c.decl.guarded && c.decl.keeperInputs.contains n
  let mark (c : Chan) : Chan :=
    if uses c then { c with cfg := true, guard := if thr then { c.guard with off := none } else c.guard } else c
  let s3 : State := { s2 with chans := tmap {} s2.chans mark }
  s3.keeperCheck

/-- A far write of a KPR register has applied. -/
def State.kprApplied (s : State) (a : Nat) (old : Word) : State :=
  let s1 := match kprInput a with
    | some n => s.kprInputApplied n old
    | none =>
      if a = Reg.KPR_CTRL then (s.modKpr fun k => { k with onXtal := s.farFld Reg.KPR_CTRL 0 1 == 1 }).coverCheck
      else if a = Reg.KPR_WAKE_EN then
        s.modKpr fun k =>
          let low := (k.cause.toNat &&& s.farFld Reg.KPR_WAKE_EN 0 5) != 0
          { k with asserted := k.asserted || low, assertedFor := if low && !k.asserted then 0 else k.assertedFor }
      else s
  s1.mirrorKpr

/-- A W1C write of KPR_WAKE_STATUS applies: a cause that arises at the same tick wins (R416). -/
def State.wakeCleared (s : State) (v : Nat) : State :=
  let keep : BitVec 5 := if s.kpr.tickNow = s.now then s.kpr.fresh else 0
  let s1 := s.modKpr fun k => { k with cause := k.cause &&& (~~~(BitVec.ofNat 5 v) ||| keep) }
  let s2 := s1.modKpr fun k =>
    if (k.cause.toNat &&& s1.farFld Reg.KPR_WAKE_EN 0 5) == 0 && 2 ≤ k.assertedFor then { k with asserted := false } else k
  s2.mirrorKpr

end Sys2Proof.Machine
end

