-- ==== Sys2Proof/Machine/Image.lean ====
section
/-! DEFINITION. What the MRAM holds and how it is written (16 R382 to R396, R403): stripes and their wear, the journal, images
of channels, passes, the configuration image, and the writes of an Endgame. -/

namespace Sys2Proof.Machine

def State.modPst (s : State) (f : Pst → Pst) : State := { s with pst := f s.pst }

/-! ### Stripes (R403) -/

/-- Spare stripes in use. -/
def Pst.spareUsed (p : Pst) : Nat := p.remap.foldl (fun m x => max m (x.2 + 1)) 0

/-- A stripe needs a spare: it is remapped, or left in place when none remains. -/
def State.remapStripe (s : State) (stripe : Nat) : State :=
  let n := s.pst.spareUsed
  if 448 ≤ n then s.raise .wearLimit (4096 * stripe)
  else
    let s1 := (s.modPst fun p => { p with remap := tput p.remap stripe n, wear := tdel p.wear stripe }).imageChanged
    if n + 1 = 400 then s1.raise .spareLow 400 else s1

/-- A stripe is written once more; at 2 × 10^11 writes it needs a spare. -/
def State.wearStripe (s : State) (stripe : Nat) : State :=
  let s1 := s.wearCount stripe
  if tget 0 s1.pst.wear stripe = 200000000000 then s1.remapStripe stripe else s1

/-- The stripes of the records of channels, and of the three banks of triplicate slots where a guarded channel is among them: each is
written at most once per pass. -/
def State.wearRecords (s : State) (cs : List Nat) : State :=
  let (g, r) := cs.partition fun c => (s.chan c).decl.guarded && (s.chan c).st != .retired
  (((r.map (· / 256)).dedup) ++ (if g = [] then [] else [0x1400, 0x1440, 0x1480])).foldl State.wearStripe s

/-! ### The journal (R387 to R389) -/

/-- The keeper time counter at the first tick at or after device time `x` (R388). -/
def State.ktimeAt (s : State) (x : Nat) : Nat :=
  if x ≤ s.kpr.lastTick then s.kpr.time.vote else (s.kpr.time.vote + 1) % 2 ^ 48

/-- The pass an entry belongs to; a BITMAP stands behind the CUT of its Endgame. -/
def JEntry.num : JEntry → Option Nat
  | .passOpen _ n _ _ => some n
  | .source n _ _ => some n
  | .cut n _ _ => some n
  | .bitmap _ _ => none
  | .passClose _ n _ _ _ _ => some n

def JEntry.isCut : JEntry → Bool
  | .cut _ _ _ => true
  | _ => false

/-- The passes whose entries are never overwritten (R389): the last completed one of each kind, the one in progress, the last
Endgame. -/
def keptPasses (j : List (Nat × JEntry)) : List Nat :=
  let es := j.map Prod.snd
  let closed (k : PassKind) := es.findSome? fun e => match e with | .passClose x n _ _ _ _ => if x = k then some n else none | _ => none
  let opened := es.findSome? fun e => match e with | .passOpen _ n _ _ => some n | _ => none
  let cut := es.findSome? fun e => match e with | .cut n _ _ => some n | _ => none
  [closed .checkpoint, closed .drain, closed .endgame, closed .restore, opened, cut].filterMap id

/-- Overwrites the oldest entry that may be; the list is oldest first. -/
def dropOldest (keep : List Nat) : List (Nat × JEntry) → List (Nat × JEntry)
  | [] => []
  | x :: r =>
    if (match x.2.num with | some n => keep.contains n | none => !r.any fun y => y.2.isCut) then x :: dropOldest keep r else r

/-- Appends an entry to the ring of 131,072. -/
def State.journal (s : State) (e : JEntry) : State :=
  let n := s.pst.jseq
  let j := (n, e) :: s.pst.journal
  let s1 := s.modPst fun p => { p with
    journal := if j.length ≤ 131072 then j else (dropOldest (keptPasses j) j.reverse).reverse
    jseq := (n + 1) % 2 ^ 32 }
  -- a journal stripe holds 128 entries
  if n % 128 = 0 then s1.wearStripe (0x1000 + n % 131072 / 128) else s1

/-- Source counter n (R388), less the edges of it that belong to an outage. -/
def State.sourceCount (s : State) (after : Table Nat) (n : Nat) : Nat :=
  let v := if n < 256 then s.fld (Reg.CAP_CNT_IN n) 0 48 else if n < 272 then s.fld (Reg.COU_CNT_EVENTS (n - 256)) 0 48 else 0
  (v + 2 ^ 48 - tget 0 after n % 2 ^ 48) % 2 ^ 48

/-- The source table of a pass: 91 SOURCE entries. -/
def State.sourceTable (s : State) (num : Nat) (after : Table Nat) : State :=
  (List.range 91).foldl (fun x k => x.journal (.source num k ((List.range 3).map fun i => s.sourceCount after (3 * k + i)))) s

/-- PASS_OPEN of a new pass; its number is then `pst.passNum`. -/
def State.openPass (s : State) (kind : PassKind) (tOpen ktime : Nat) : State :=
  let n := (s.pst.passNum + 1) % 2 ^ 32
  (s.modPst fun p => { p with passNum := n }).journal (.passOpen kind n tOpen ktime)

/-! ### Images (R385) -/

/-- The phase index before a device time. -/
def Chan.phaseBefore (c : Chan) (t : Nat) : Nat :=
  toField 48 (c.a.assigned - ((c.a.edges.filter fun e => e.phase && decide (t ≤ e.stamp)).length : Int))

/-- A channel's image goes into its record. -/
def State.writeRecord (s : State) (c num : Nat) : State :=
  let ch := s.chan c
  let p := ch.phaseIndex
  let r : PRecord := { count := ch.count, pass := num % 2 ^ 14, state := if ch.st == .retired then 2 else 1, phase := p }
  let s1 := s.modPst fun x => { x with
    records := tput x.records c r
    trip0 := tdel x.trip0 c, trip1 := tdel x.trip1 c, trip2 := tdel x.trip2 c }
  (if ch.since = [] then s1 else s1.imageChanged).setChan c { ch with image := some (ch.count, p, s.devTime), since := [] }

/-- The image of a guarded channel goes into its three slots: its count at keeper tick `tick`, and the keeper count `k` there
(R396 step 2, R401). -/
def State.writeSlots3 (s : State) (c num tick k : Nat) : State :=
  let ch := s.chan c
  let st := if ch.st == .castling then ch.back else ch.st
  let counts := st == .live || (st == .paused && ch.countOnly)
  let n := if counts then ch.countAtTime tick else ch.count
  let p := if counts then ch.phaseBefore tick else ch.phaseIndex
  let x : Triplicate := { image := { count := n, pass := num % 2 ^ 14, state := 1, phase := p }, keeper := k }
  let s1 := s.modPst fun y => { y with
    trip0 := tput y.trip0 c x, trip1 := tput y.trip1 c x, trip2 := tput y.trip2 c x }
  (if ch.since = [] then s1 else s1.imageChanged).setChan c { ch with image := some (n, p, s.devTime), since := [] }

/-- Every edge below `t` has reached the totaliser. -/
def State.edgesIn (s : State) (c t : Nat) : Bool :=
  let ch := s.chan c
  !ch.inbox.any (fun x => decide (x.2.stamp < t)) && s.settled ch.decl t

/-- The image of a channel can be taken now: it does not castle (R231), and the count of a guarded one at the last tick is
voted. -/
def State.imageReady (s : State) (c : Nat) : Bool :=
  let ch := s.chan c
  ch.st != .castling &&
    (!ch.decl.guarded || ch.st == .retired || !ch.counting || s.kpr.reset ||
      (!ch.guard.dispute && ch.guard.merge.isNone && s.edgesIn c s.kpr.lastTick))

/-- Writes a channel's image. -/
def State.writeImage (s : State) (num c : Nat) : State :=
  let ch := s.chan c
  if ch.decl.guarded && ch.st != .retired then
    (s.quadAll c).writeSlots3 c num s.kpr.lastTick (if s.kpr.reset then 0 else (s.kpr.word ch.decl.keeper).vote)
  else s.writeRecord c num

/-! ### Passes (R386, R394) -/

/-- The channels of one order of R394 and R396: guarded, then EXPRESS, STANDARD and BULK, each in ID order. -/
def State.byClass (s : State) (f : Chan → Bool) : List Nat :=
  let pick (g : Chan → Bool) := (s.chans.filter fun x => f x.2 && g x.2).map Prod.fst
  pick (·.decl.guarded) ++ (List.range 3).flatMap fun k => pick fun c => !c.decl.guarded && c.decl.cls == k

/-- The newest good half of the configuration image, and whether it is the second. -/
def Pst.newest (p : Pst) : Bool :=
  if p.half0.good && p.half1.good then decide (p.half0.generation < p.half1.generation) else p.half1.good
def Pst.half (p : Pst) : ImageHalf := if p.newest then p.half1 else p.half0

/-- The drift table goes into the configuration image (R386). -/
def State.writeDrift (s : State) : State :=
  s.modPst fun p =>
    if p.newest then { p with half1 := { p.half1 with drift := s.tb.drift, saved := s.tb.saved } }
    else { p with half0 := { p.half0 with drift := s.tb.drift, saved := s.tb.saved } }

/-- Bytes that a channel's image writes, check bits counted. -/
def Chan.imageBytes (c : Chan) : Nat := if c.decl.guarded && c.st != .retired then 108 else 18

/-- Bytes that the images of channels write. -/
def State.imagesBytes (s : State) (cs : List Nat) : Nat := (cs.map fun c => (s.chan c).imageBytes).sum

/-- The writes of a pass have had their time: 153.6 Q a byte at the full bandwidth, and a checkpoint at PST_CKPT.share / 64 of it
(R383, R386). -/
def State.passWritten (s : State) (p : Pass) : Bool :=
  let share := if p.kind == .checkpoint then s.fld Reg.PST_CKPT 16 6 else 64
  decide (768 * 64 * p.bytes ≤ 5 * max 1 share * (s.now - p.wroteFrom))

/-- A pass starts: PASS_OPEN, the source table, the images that can be taken at once, the drift table. -/
def State.startPass (s : State) (kind : PassKind) (cs : List Nat) : State :=
  let s1 := s.openPass kind s.devTime (s.ktimeAt s.devTime)
  let num := s1.pst.passNum
  let s2 := s1.sourceTable num []
  let (now, later) := cs.partition s2.imageReady
  let s3 := (now.foldl (fun s c => s.writeImage num c) s2).wearRecords now
  let p : Pass := { kind := kind, num := num, images := now.length, todo := later, wroteFrom := s.now, bytes := s.imagesBytes cs }
  s3.writeDrift.modPst fun x => { x with pass := some p }

/-- A DRAIN pass writes in order until E is at or below 90 % of PST_HOLDUP_US. -/
def State.drainWrites (num : Nat) : List Nat → State → List Nat → State × List Nat
  | [], s, done => (s, done)
  | c :: r, s, done =>
    if !s.imageReady c then State.drainWrites num r s done
    else
      let s1 := s.writeImage num c
      if 10 * s1.need ≤ 9 * (s1.fld Reg.PST_HOLDUP_US 0 15 * 1000000) then (s1, c :: done)
      else State.drainWrites num r s1 (c :: done)

/-- A DRAIN pass starts (R394). -/
def State.startDrain (s : State) : State :=
  let s1 := s.openPass .drain s.devTime (s.ktimeAt s.devTime)
  let num := s1.pst.passNum
  let s2 := s1.sourceTable num []
  let (s3, done) := State.drainWrites num (s2.byClass Chan.dirty) s2 []
  let p : Pass := { kind := .drain, num := num, images := done.length, wroteFrom := s.now, bytes := s.imagesBytes done }
  (s3.wearRecords done).writeDrift.modPst fun x => { x with pass := some p }

/-- A RETIRED channel whose record has been written becomes VACANT (R121, R386); what its records still await is let go. -/
def State.vacate (s : State) (c : Nat) : State :=
  let ch := s.chan c
  let s1 := (ch.guard.heldRecs ++ ch.guard.uncompared).foldl (fun s x => s.releaseRec c x 0) s
  let r : Record := { type := 11, chan := c, time := s.devTime, code := 6 }
  (s1.push ch.decl.ring ch.decl.cls none { r with flags := s.recFlags ch r [] }).setChan c {}

/-- Vacates every RETIRED channel whose record has been written. -/
def State.vacateRetired (s : State) : State :=
  ((s.chans.filter fun x => x.2.st == .retired && x.2.image.isSome).map Prod.fst).foldl State.vacate s

/-- PASS_CLOSE; the pass is the last completed one. -/
def State.closePass (s : State) (p : Pass) : State :=
  let s1 := s.journal (.passClose p.kind p.num p.images s.devTime 0 false)
  let s2 := (s1.modPst fun x => { x with pass := none }).setReg Reg.PST_PASS (BitVec.ofNat 64 p.num)
  (s2.vacateRetired).coverCheck

/-! ### The configuration image (R391) -/

/-- The settings of a deviation set and of a histogram, without what they have gathered (R212). -/
def DevSet.settings (d : DevSet) : DevSet :=
  { modeY := d.modeY, dq := d.dq, unit := d.unit, reportN := d.reportN, bank := d.bank }
def Histo.settings (h : Histo) : Histo :=
  { auto := h.auto, mode := h.mode, w := h.w, hq := h.hq, origin := h.origin, target := h.target, stop := h.stop, bank := h.bank
    bank2 := h.bank2 }

/-- What the image holds of a channel. -/
def Chan.imaged (c : Chan) : ImageChan :=
  { decl := c.decl
    st := if c.st == .castling then c.back else c.restoring.getD c.st
    countOnly := c.countOnly, since := c.since, dev := c.dev.map DevSet.settings
    histos := c.histos.map fun x => (x.1, x.2.settings) }

/-- Writes a new generation into the other half. -/
def State.writeGeneration (s : State) : State :=
  let old := s.pst.half
  let loaded := s.pst.restore == .read || s.pst.restore == .done
  let h : ImageHalf :=
    { generation := old.generation + 1
      chans := s.chans.filterMap fun x => if x.2.st == .vacant then none else some (x.1, x.2.imaged)
      -- before the restore has read them, the drift table and what goes with it stay as they are
      drift := if loaded then s.tb.drift else old.drift
      saved := if loaded then s.tb.saved else old.saved
      remap := s.pst.remap }
  (s.wearStripe (if s.pst.newest then 0x1500 else 0x1580)).modPst fun p =>
    let q := { p with changed := false }
    if s.pst.newest then { q with half0 := h } else { q with half1 := h }

/-! ### The writes of an Endgame (R393, R396 step 4) -/

/-- The Endgame's image of a channel: at t_cut, or a guarded one's at t_k. -/
def State.endgameImage (s : State) (e : EndgameRun) (c : Nat) : State :=
  let ch := s.chan c
  if ch.decl.guarded && ch.st != .retired then s.writeSlots3 c e.num (e.tK.getD e.tCut) (tget 0 e.kAt c) else s.writeRecord c e.num

/-- Writes the images whose writes have ended by now, none of them behind the hold-up limit, at 8 GB/s: 153.6 Q a byte. -/
def State.flushWrites : List Nat → State → EndgameRun → State × EndgameRun
  | [], s, e => (s, { e with todo := [] })
  | c :: r, s, e =>
    let w := e.wrote + (s.chan c).imageBytes
    let lim := if s.kpr.lastCause = 3 then s.now else min s.now (e.nowPf + e.holdup - 10 * usQ)
    if 768 * w ≤ 5 * (lim - e.wroteFrom) then
      State.flushWrites r (s.endgameImage e c) { e with wrote := w, images := e.images + 1 }
    else (s, { e with todo := c :: r })

/-- The images that an Endgame has written by now. -/
def State.endgameFlush (s : State) : State :=
  match s.pst.endgame with
  | some e =>
    if e.begun && !e.bare && !e.deadline then
      let (s1, e1) := State.flushWrites e.todo s e
      (s1.wearRecords (e.todo.take (e.todo.length - e1.todo.length))).modPst fun p => { p with endgame := some e1 }
    else s
  | none => s

end Sys2Proof.Machine
end

