-- ==== Sys2Proof/Machine/Power.lean ====
section
/-! DEFINITION. The power governor (18): its five states and what moves it between them, the loss of everything volatile, the
entry into RUN with the black box found again (19 R456, R460), and the wake tokens. -/

namespace Sys2Proof.Machine

def State.modPwr (s : State) (f : Power → Power) : State := { s with pwr := f s.pwr }

/-! ### Reset of what is volatile (R322, R382, R407, R471) -/

/-- Every register but the KPR block takes its Reset value, and every volatile store is empty. Kept are the MRAM, the keeper
domain, the pins, device time (R63), what has been put out, and the model's own counters. The near KPR registers are loaded
from the keeper domain. -/
def State.powerReset (s : State) : State :=
  { now := s.now, devTime := s.devTime, phase := s.phase, trig := s.trig, sent := s.sent, freeIdx := s.freeIdx, pending := s.pending
    jtag := s.jtag, kpr := s.kpr, timers := s.timers
    regs := s.far.filter fun x => isKpr x.1
    far := s.far.filter fun x => isKpr x.1
    pst := { s.pst with changed := false, genTokens := 1000, pass := none, late := false, lateRun := false, covered := false
                        endgame := none, restore := .idle, restoreT := none, restoreK := 0, outFrom := 0 }
    pwr := { s.pwr with queue := [], settling := [], out := 0, settled := [], coreLow := false, baseSettled := false } }

/-! ### The black box at power-up (R456, R460) -/

/-- An entry of the black box whose CRC is good. -/
def goodEntry (v : BitVec 256) : Bool := withCrc (v.toNat % 2 ^ 240) == v

/-- The true head: at most 64 entries of higher sequences behind the one that entry 3 names. -/
def scanHead (bb : Table (BitVec 256)) : Nat → Nat → Nat → Nat × Nat
  | 0, h, q => (h, q)
  | k + 1, h, q =>
    match tget? bb h with
    | some v =>
      if goodEntry v && fieldOf v.toNat 0 8 != 0 && fieldOf v.toNat 32 32 == q then
        scanHead bb k (if h = 8191 then 8 else h + 1) ((q + 1) % 2 ^ 32)
      else (h, q)
    | none => (h, q)

/-- The identity entry of a die (R456, R462). -/
def idEntry (reg : Nat → Nat) : BitVec 256 :=
  withCrc (packBits ((List.range 4).map fun k => (32 * k, 32, (fuseOf (reg k)).toNat)))

/-- Finds the head and the sequence, rewrites the header, and begins a session. -/
def State.bbStart (s : State) : State :=
  let v := tget 0 s.pst.blackBox 3
  let ok := goodEntry v
  let f (lo w : Nat) := if ok then fieldOf v.toNat lo w else 0
  let (h, q) := scanHead s.pst.blackBox 64 (if ok then f 48 16 else 8) (f 64 32)
  let sealed := f 96 1 == 1
  let bb := tput (tput (tput s.pst.blackBox 0 (idEntry Reg.ID_LOGIC)) 1 (idEntry Reg.ID_SRAM)) 2 (idEntry Reg.ID_PMEM)
  let s1 : State := { s with
    flt := { s.flt with sealed := sealed, session := (f 0 32 + 1) % 2 ^ 32, sessionFirst := h }
    pst := { s.pst with blackBox := bb } }
  (((s1.setFld Reg.FLT_BB_STATUS 0 13 h).setFld Reg.FLT_BB_STATUS 13 1 (b2n sealed)).setFld Reg.FLT_BB_SEQ 0 32 q).bbHeader

/-! ### Transitions (R431 to R436, R459) -/

/-- A POWER entry. -/
def State.powerEntry (s : State) (cause : Nat) (was now : PowerState) (param : Nat) : State :=
  s.bbEntry 2 cause (was.code + 256 * now.code) param

/-- The keeper domain latches a transition into or out of a quiet state (R459). -/
def State.latchPower (s : State) (cause : Nat) (was now : PowerState) (param : Nat) : State :=
  { s with kpr := { s.kpr with latched := s.kpr.latched ++ [(cause, was.code + 256 * now.code, s.kpr.time.vote, param)] } }

/-- Into the quiet state that the keeper's configuration chooses. -/
def State.toQuiet (s : State) (cause : Nat) : State :=
  let was := s.pwr.st
  let on := (List.range 64).any (fun n => s.farFld (Reg.KPR_IN_CFG n) 0 1 == 1) || s.farFld Reg.KPR_WAKE_EN 0 5 != 0
  let st : PowerState := if on then .keeper else .off
  let s1 := (s.powerReset.modPwr fun p => { p with st := st }).latchPower cause was st 0
  { s1 with jtag := {}, kpr := if on then s1.kpr else { s1.kpr with asserted := false, assertedFor := 0 } }

/-- Into WAKING, with PWR_WAKE_CAUSE; an input that forbids it leads on to the quiet state. -/
def State.toWaking (s : State) (cause : Nat) : State :=
  let was := s.pwr.st
  let wake := s.kpr.cause.toNat
  let quiet := was == .off || was == .keeper
  let s1 := if quiet then s.latchPower (if wake = 0 then 0 else 4) was .waking wake
    else ({ s with pwr := { s.pwr with st := .waking } } : State).powerEntry cause was .waking wake
  let s2 := (s1.powerReset.modPwr fun p => { p with st := .waking }).setReg Reg.PWR_WAKE_CAUSE (BitVec.ofNat 64 wake)
  if s2.pwr.pfail || !s2.pwr.rails || s2.pwr.droop != 0 then s2.toQuiet (if s2.pwr.pfail then 1 else if s2.pwr.droop != 0 then 2 else 0)
  else s2

/-- Out of a quiet state, once the main rails are present, PFAIL_N is released and there is no droop. -/
def State.mayWake (s : State) : State :=
  if s.quiet && s.pwr.rails && !s.pwr.pfail && s.pwr.droop == 0 then s.toWaking 0 else s

/-- The requests of the entry into RUN, in order (R438). -/
def runUnits : List WakeUnit := [.timeBase, .mram] ++ (List.range 16).map .group ++ (List.range 16).map .engine

/-- The event of vector 67 (R435). -/
def State.powerEvent (s : State) : State := if s.bit Reg.PWR_CTRL 3 then s.event 67 else s

/-- Into RUN: the black box, the POWER entries that were latched, the KPR mirrors, the requests of the units. -/
def State.enterRun (s : State) : State :=
  let s0 : State := { s with flt := { s.flt with ledgerAt := s.devTime / (1000 * usQ) } }
  let s1 := (s0.modPwr fun p => { p with st := .run, queue := runUnits }).bbStart
  let s2 := s1.kpr.latched.foldl (fun (x : State) l => x.bbPut 2 l.1 l.2.1 0 l.2.2.1 l.2.2.2) s1
  let s3 := ({ s2 with kpr := { s2.kpr with latched := [] } } : State).powerEntry 0 .waking .run 0
  s3.mirrorKpr.powerEvent

/-- WAKING is over when the base units have settled, PERST_N is high and TEST_EN is low (R431, R495). -/
def State.mayRun (s : State) : State :=
  if s.pwr.st == .waking && s.pwr.baseSettled && s.pwr.perstN && !s.pwr.testEn then s.enterRun else s

/-- Castlings abort without a fault; what they held goes on to the channel (R231). -/
def State.abortCastlings (s : State) : State :=
  let s1 := s.plc.castlings.foldl (fun (x : State) k =>
    let y := ((x.freeDest k).endCastling k).bump Reg.PLC_CNT_ABORTED 0 32
    { y with flt := { y.flt with aborted := ledgerAdd y.flt.aborted 1 } }) s
  { s1 with plc := { s1.plc with plan := [] } }

/-- Into ENDGAME (R395, R396 step 1, R434): H is latched, t_cut is the next boundary; a pass is abandoned; castlings abort;
lanes and cadences stop. With no channel LIVE since the last cut the Endgame is bare (R397). -/
def State.enterEndgame (s : State) (cause : Nat) (droop : BitVec 3) : State :=
  let bare := s.pst.restore != .done && !s.chans.any fun x => x.2.st == .live || x.2.st == .paused || x.2.st == .castling
  let h := if cause = 3 then ceilDiv (s.need * 12288) 10000 else s.fld Reg.PST_HOLDUP_US 0 15 * usQ
  let s1 : State := { s with kpr := { s.kpr with lastCause := cause, lastDroop := droop }, pwr := { s.pwr with st := .endgame, queue := [] } }
  let s2 := s1.powerEntry cause .run .endgame 0
  let s3 := if s2.pcie.up then s2.powerEvent else s2
  let s4 : State := { (s3.abortCastlings).stopCadences with cadOut := 0 }
  let s5 := (List.range 16).foldl (fun (x : State) n => if (x.lane n).st == .off then x else x.laneToOff n) s4
  s5.modPst fun p => { p with
    pass := none, late := false
    endgame := some { tPf := s.devTime, nowPf := s.now, holdup := h, tCut := s.nextCycle, bare := bare } }

/-- ENDGAME is over (R433). -/
def State.leaveEndgame (s : State) : State :=
  let c := s.kpr.lastCause
  if c = 3 || (!s.pwr.pfail && s.pwr.rails && s.pwr.droop == 0) then s.toWaking c else s.toQuiet c

/-! ### The governor's inputs -/

/-- PFAIL_N has been low for 100 ns (R430); the release timer begins anew. Together with a droop trip that has won, the black box
records PFAIL_N too (R436; log entry 74). -/
def execPfailAssert (t : Nat) (s : State) : Host.Outcome State Fault Refusal :=
  atMoment t s fun s =>
    let s1 := (s.start .pfail).modPwr fun p => { p with pfail := true }
    match s.pwr.st with
    | .run => s1.enterEndgame 1 0
    | .waking => s1.toQuiet 1
    | .endgame =>
      match s.pst.endgame with
      | some e => if s.kpr.lastCause = 2 && e.nowPf = s.now && !s.pwr.pfail then s1.powerEntry 1 .run .endgame 0 else s1
      | none => s1
    | .off | .keeper => s1

/-- PFAIL_N has been high for pfail_clear ms (R430), which cannot be before that time has passed since its last assertion. -/
def execPfailRelease (t : Nat) (s : State) : Host.Outcome State Fault Refusal :=
  atMoment t s fun s =>
    if s.past .pfail (1000 * usQ * s.fld Reg.PWR_CTRL 8 8) then (s.modPwr fun p => { p with pfail := false }).mayWake else s

/-- The droop detector reports the rails that lie below their thresholds now: `rails` 0 ends a droop. A rail that is watched and
newly below acts as PFAIL_N and raises DROOP (R429, R436). -/
def execDroopTrip (t : Nat) (rails : BitVec 3) (s : State) : Host.Outcome State Fault Refusal :=
  atMoment t s fun s =>
    let hit := rails &&& BitVec.ofNat 3 (s.fld Reg.PWR_CTRL 0 3)
    let s1 := (if rails = 0 then s else s.start .rails).modPwr fun p => { p with droop := rails, rails := p.rails && rails == 0 }
    match s.pwr.st with
    | .run => if hit = 0 then s1 else (s1.raise .droop hit.toNat).enterEndgame 2 hit
    | .endgame =>
      if hit = 0 then s1
      else ({ s1 with kpr := { s1.kpr with lastDroop := s1.kpr.lastDroop ||| hit } } : State).raise .droop hit.toNat
    | .waking => if hit = 0 then s1 else s1.toQuiet 2
    | .off | .keeper => if rails = 0 then s1.mayWake else s1

/-- PERST_N falls (R434); the link goes down with it. -/
def execPerstFall (t : Nat) (s : State) : Host.Outcome State Fault Refusal :=
  atMoment t s fun s =>
    let s1 : State := { s with pwr := { s.pwr with perstN := false }, pcie := {} }
    if s.pwr.st == .run then s1.enterEndgame 3 0 else s1

/-- PERST_N rises. -/
def execPerstRise (t : Nat) (s : State) : Host.Outcome State Fault Refusal :=
  atMoment t s fun s => (s.modPwr fun p => { p with perstN := true }).mayRun

/-- Every main rail has been good for 1 ms (R428), which cannot be before 1 ms has passed since the last break, nor while a rail lies
below its droop threshold, which is outside its range (R427, R429). -/
def execMainRailsPresent (t : Nat) (s : State) : Host.Outcome State Fault Refusal :=
  atMoment t s fun s =>
    if s.pwr.droop == 0 && s.past .rails (1000 * usQ) then (s.modPwr fun p => { p with rails := true }).mayWake else s

/-- A main rail leaves its range: what an Endgame has written by now stands in the MRAM, and the hub is quiet. -/
def execMainRailsLost (t : Nat) (s : State) : Host.Outcome State Fault Refusal :=
  atMoment t s fun s =>
    let s1 := (s.endgameFlush.start .rails).modPwr fun p => { p with rails := false }
    if s.quiet then s1 else s1.toQuiet 0

/-- The base units have settled (R432). -/
def execBaseUnitsSettled (t : Nat) (s : State) : Host.Outcome State Fault Refusal :=
  atMoment t s fun s => if s.pwr.st == .waking then (s.modPwr fun p => { p with baseSettled := true }).mayRun else s

/-! ### Wake tokens (R437 to R441) -/

/-- A grant: the unit's tokens are out for 5 µs. -/
def State.takeTokens (s : State) (u : WakeUnit) : State :=
  let s1 := s.modPwr fun p => { p with out := p.out + u.cost, settling := p.settling ++ [(u, s.now + 5 * usQ)] }
  let s2 := s1.bumpBy Reg.PWR_TOKEN_ISSUED 0 48 u.cost
  if s2.fld Reg.PWR_TOKEN_STATUS 17 9 < s2.pwr.out then s2.setFld Reg.PWR_TOKEN_STATUS 17 9 (min 511 s2.pwr.out) else s2

/-- The unit starts (R39, R247, R398). -/
def State.startUnit (s : State) : WakeUnit → State
  | .timeBase => s.tbStart
  | .mram => s.modPst fun p => { p with restore := if p.restore = .idle then .granted else p.restore }
  | .lane n => if (s.lane n).tokens then (s.laneToDetect n).probe n else s
  | .group _ | .engine _ | .frontEnd _ => s

/-- The request at the head of the queue is granted when its cost is free (R438). -/
def execTokenGrant (t : Nat) (s : State) : Host.Outcome State Fault Refusal :=
  atMoment t s fun s =>
    match s.pwr.queue with
    | u :: rest =>
      if s.pwr.out + u.cost ≤ s.fld Reg.PWR_TOKEN_CFG 0 8 then
        ((s.modPwr fun p => { p with queue := rest }).takeTokens u).startUnit u
      else s
    | [] => s

/-- Units have settled: their tokens return 5 µs after the grant (R437). -/
def execTokenReturn (t : Nat) (s : State) : Host.Outcome State Fault Refusal :=
  atMoment t s fun s =>
    let done := s.pwr.settling.filter fun x => decide (x.2 ≤ s.now)
    let k := (done.map fun x => x.1.cost).sum
    (s.modPwr fun p => { p with
      settling := p.settling.filter fun x => !decide (x.2 ≤ s.now)
      out := p.out - k
      settled := p.settled ++ (done.map Prod.fst).filter fun u => !p.settled.contains u }).bumpBy Reg.PWR_TOKEN_RETURNED 0 48 k

end Sys2Proof.Machine
end

