-- ==== Sys2Proof/Machine/Persist.lean ====
section
/-! DEFINITION. Passes, the Endgame, the restore and the retention scrub (16 R386 to R404). -/

namespace Sys2Proof.Machine

/-! ### Passes and generations (R386, R391, R394) -/

/-- The hub checkpoints: in RUN, restored, with a line live. -/
def State.passes (s : State) : Bool := s.pwr.st == .run && s.pst.restore == .done && s.pst.endgame.isNone && s.tb.st.live

/-- The dirty channels in ID order. -/
def State.dirtyChans (s : State) : List Nat := (s.chans.filter fun x => x.2.dirty).map Prod.fst

/-- P_c in Q. -/
def State.ckptQ (s : State) : Nat := s.fld Reg.PST_CKPT 0 13 * 12288000000

/-- A checkpoint falls due at a whole multiple of P_c; behind a pass that runs it waits (R386). -/
def execCheckpointPass (t : Nat) (s : State) : Host.Outcome State Fault Refusal :=
  atMoment t s fun s =>
    let m := s.devTime / s.ckptQ * s.ckptQ
    if s.passes && s.bit Reg.PST_CTRL 0 && s.ckptQ != 0 && decide (s.pst.lastCkpt < m) then
      let s1 := s.modPst fun p => { p with lastCkpt := m }
      match s1.pst.pass with
      | some _ => s1.modPst fun p => { p with late := true }
      | none => (s1.modPst fun p => { p with lateRun := false }).startPass .checkpoint s1.dirtyChans
    else s

/-- A DRAIN pass (R394). -/
def execDrainPass (t : Nat) (s : State) : Host.Outcome State Fault Refusal :=
  atMoment t s fun s =>
    if s.passes && s.pst.pass.isNone && !s.pst.covered && s.bit Reg.PST_CTRL 1 && s.dirtyChans != [] then s.startDrain else s

/-- A checkpoint that waited starts late; CKPT_LATE is raised once for each run of late passes (R386). -/
def State.lateCheckpoint (s : State) : State :=
  if s.pst.late then
    let s1 := (s.modPst fun p => { p with late := false }).bump Reg.PST_CKPT_LATE 0 32
    let s2 := if s1.pst.lateRun then s1 else (s1.modPst fun p => { p with lateRun := true }).raise .ckptLate 0
    s2.startPass .checkpoint s2.dirtyChans
  else s

/-- A pass completes, once the images it waited for have been written and its bandwidth allows it. -/
def execPassComplete (t : Nat) (s : State) : Host.Outcome State Fault Refusal :=
  atMoment t s fun s =>
    match s.pst.pass with
    | some p =>
      if p.todo.all s.imageReady && s.passWritten p then
        let s1 := (p.todo.foldl (fun (x : State) c => x.writeImage p.num c) s).wearRecords p.todo
        (s1.closePass { p with images := p.images + p.todo.length }).lateCheckpoint
      else s
    | none => s

/-- A new generation of the configuration image, against a token; the changes accepted within 100 µs share it (R391). -/
def execConfigGeneration (t : Nat) (s : State) : Host.Outcome State Fault Refusal :=
  atMoment t s fun s =>
    if s.pst.changed && decide (s.pst.changedAt + 100 * usQ ≤ s.now) && 0 < s.pst.genTokens && s.pwr.st == .run && s.pst.endgame.isNone then
      s.writeGeneration.modPst fun p => { p with genTokens := p.genTokens - 1 }
    else s

/-- The generation bucket gains a token: 100 per second (R391). -/
def execGenerationToken (t : Nat) (s : State) : Host.Outcome State Fault Refusal :=
  atMoment t s fun s =>
    if s.past .genToken (10000 * usQ) then (s.start .genToken).modPst fun p => { p with genTokens := min 1000 (p.genTokens + 1) } else s

/-! ### The Endgame (R395 to R397) -/

/-- The edges of an input that have no head yet, as items without stamps: those accepted before t_cut, and those of the outage, each
with the directions it was accepted in. -/
def Input.tail (x : Input) (win : Bool) (tCut : Nat) : List Item :=
  let zone := if win then x.accepted else .unresolved
  let early := x.held + x.ovfl + x.ovflOut - x.lateHeld
  let up := x.heldRise + x.ovflRise + x.ovflOutRise - x.lateRise
  (if early = 0 then [] else [{ kind := .count, stamp := tCut - 1, zone := zone, rises := up, falls := early - up }]) ++
    (if x.lateHeld = 0 then [] else [{ kind := .count, stamp := tCut, zone := zone, rises := x.lateRise, falls := x.lateHeld - x.lateRise }])

/-- Everything an input has accepted reaches the channels. -/
def State.settleInput (s : State) (e : EndgameRun) (n : Nat) : State :=
  let x := s.input n
  let items := x.fifo.flatMap (·.items) ++ x.openItems ++ x.tail (s.feBit n 1) e.tCut
  State.route
    (s.setInput n { x with fifo := [], openFrags := [], openItems := [], held := 0, heldRise := 0, ovfl := 0, ovflOut := 0
                           ovflRise := 0, ovflOutRise := 0, lateHeld := 0, lateRise := 0 }) (.local n) items

/-- A descriptor accepted for a channel is taken into its configuration (R397). -/
def State.opNow (s : State) (c : Nat) : State :=
  let ch := s.chan c
  let c0 : Chan := { ch with op := none, opAt := none, old := none }
  match ch.op with
  | some (.redeclare d _ _ _) =>
    s.setChan c (if ch.decl.rebinds d then
      { c0.restartBoth (s.devTime + 1) with decl := d, since := ch.since ++ [ch.decl.srcA, ch.decl.srcB, ch.decl.srcX] }
      else { c0 with decl := d })
  | some (.pause countOnly _ _ _) => s.setChan c { c0 with st := .paused, countOnly := countOnly }
  | some (.retire _ _ _ _) => s.setChan c { c0 with st := .retired, image := none }
  | none => s

/-- The engines finish a channel: every item at hand, every change of a QUAD channel. -/
def State.settleChan : Nat → State → Nat → State
  | 0, s, _ => s
  | k + 1, s, c =>
    let ch := s.chan c
    match ch.inbox with
    | (_, i) :: _ =>
      let redeclare := match ch.op with | some (.redeclare _ _ _ _) => true | _ => false
      State.settleChan k (if redeclare && ch.waits i.stamp then s.opNow c else s.engineTake c) c
    | [] => State.quadRun ch.quad.todo.length s c (spanMax + 1)

/-- The descriptors accepted for a channel take effect (R397). -/
def State.settleOps (s : State) (c : Nat) : State :=
  let ts := (s.chan c).targets
  let s1 := ts.foldl (fun (x : State) o => x.targetApply c o.1 s.devTime) (s.modChan c fun ch => { ch with targets := [] })
  let s2 : State := if (s1.chan c).op.isSome || ts != [] then s1.imageChanged else s1
  s2.opNow c

/-- Steps 1 and 2: what was accepted before the cut is in the totals. -/
def State.settleAll (s : State) (e : EndgameRun) : State :=
  let s1 := (tkeys s.inputs).foldl (fun (x : State) n => x.settleInput e n) s
  let s2 := (tkeys s1.lanes).foldl (fun (x : State) n => State.drainLane (x.lane n).buffer.length x n) s1
  let s3 := (tkeys s2.chans).foldl (fun (x : State) c => State.settleChan (2 * (x.chan c).inbox.length + 2) x c) s2
  (tkeys s3.chans).foldl State.settleOps (s3.voteAll 0)

/-- The black box's ENDGAME entry. -/
def State.endgameEntry (s : State) (e : EndgameRun) : State := s.bbEntry 3 s.kpr.lastCause s.needUs (ceilDiv e.holdup usQ)

/-- The BITMAP entries of the dirty channels (R388). -/
def bitmaps (dirty : List Nat) : List JEntry :=
  ((dirty.map (· / 160)).dedup).map fun k =>
    .bitmap (160 * k) ((dirty.filter fun c => c / 160 = k).foldl (fun (b : BitVec 160) c => b ||| (1#160 <<< (c % 160))) 0)

/-- A guarded channel counts, and the first tick behind t_cut has not come. -/
def State.awaitsTick (s : State) (e : EndgameRun) : Bool :=
  e.tK.isNone && !s.kpr.reset && s.chans.any fun x => x.2.decl.guarded && x.2.counting

/-- Steps 1 to 3 of R396; the writes of step 4 begin. -/
def State.endgameSteps (s : State) (e : EndgameRun) : State :=
  let k := if e.tK.isSome then e.kTime else s.ktimeAt e.tCut
  let s1 := (s.settleAll e).openPass .endgame e.tCut k
  let num := s1.pst.passNum
  let s2 := (s1.journal (.cut num e.tCut k)).sourceTable num e.after
  let todo := s2.byClass Chan.dirty
  let s3 := (bitmaps s2.dirtyChans).foldl State.journal s2
  let s4 := if s3.pst.changed then s3.writeGeneration else s3
  (s4.endgameEntry e).modPst fun p => { p with endgame := some { e with begun := true, num := num, todo := todo, wroteFrom := s.now } }

/-- The Endgame: steps 1 to 3, and of a bare one its black-box entry alone (R397). -/
def execEndgame (t : Nat) (s : State) : Host.Outcome State Fault Refusal :=
  atMoment t s fun s =>
    match s.pst.endgame with
    | some e =>
      if e.begun then s
      else if e.bare then (s.endgameEntry e).modPst fun p => { p with endgame := some { e with begun := true } }
      else if s.awaitsTick e then s
      else s.endgameSteps e
    | none => s

/-- No write begins after t_pf + H − 10 µs. -/
def execEndgameDeadline (t : Nat) (s : State) : Host.Outcome State Fault Refusal :=
  atMoment t s fun s =>
    match s.endgameFlush.pst.endgame with
    | some e =>
      if e.begun && !e.bare && s.kpr.lastCause != 3 && decide (e.nowPf + e.holdup - 10 * usQ ≤ s.now) then
        s.endgameFlush.modPst fun p => { p with endgame := some { e with deadline := true } }
      else s
    | none => s

/-- Records produced up to `lim` and not delivered. -/
def State.undelivered (s : State) (lim : Nat) : Nat :=
  let old (r : Record) : Bool := decide (r.pushedAt ≤ lim)
  (s.rings.map fun x =>
    let r := x.2
    ((r.express ++ r.standard ++ r.bulk ++ r.waiting.map (·.record) ++ r.held ++ (r.part.toList.map Prod.fst)).filter old).length).sum +
    (s.chans.map fun x => ((x.2.guard.uncompared ++ x.2.guard.heldRecs).filter fun g => old g.record).length).sum

/-- Step 5: PASS_CLOSE, ENDGAME_END; the governor leaves ENDGAME. -/
def execEndgameComplete (t : Nat) (s : State) : Host.Outcome State Fault Refusal :=
  atMoment t s fun s =>
    let s1 := s.endgameFlush
    match s1.pst.endgame with
    | some e =>
      if e.begun && (e.todo == [] || e.deadline) then
        let lost := s1.undelivered e.nowPf
        let s2 := if e.bare then s1 else s1.journal (.passClose .endgame e.num e.images s1.devTime lost (e.todo == []))
        let s3 := s2.bbEntry 4 (if e.todo == [] then 1 else 2) (min 65535 e.todo.length) (min (2 ^ 32 - 1) lost)
        (s3.tbStop.modPst fun p => { p with endgame := none }).leaveEndgame
      else s
    | none => s

/-! ### What a restore finds in the journal (R398 to R400) -/

/-- The newest pair (t, k), and whether it is a CUT's (R399). -/
def pairOf (es : List JEntry) : Option (Nat × Nat × Bool) :=
  es.findSome? fun e => match e with
    | .cut _ t k => some (t, k, true)
    | .passOpen _ _ t k => some (t, k, false)
    | _ => none

/-- The Endgame since the last restore. -/
def endgameOf : List JEntry → Option Nat
  | [] => none
  | .cut n _ _ :: _ => some n
  | .passClose .restore _ _ _ _ _ :: _ => none
  | _ :: r => endgameOf r

/-- The PASS_CLOSE of pass n: records undelivered, all_written. -/
def closeOf (es : List JEntry) (n : Nat) : Option (Nat × Bool) :=
  es.findSome? fun e => match e with | .passClose _ m _ _ u w => if m = n then some (u, w) else none | _ => none

/-- A source counter in the source table of pass n. -/
def tableAt (es : List JEntry) (n i : Nat) : Nat :=
  (es.findSome? fun e => match e with | .source m k cs => if m = n ∧ k = i / 3 then cs[i % 3]? else none | _ => none).getD 0

/-- What the journal tells of the last Endgame. -/
structure Found where
  es : List JEntry
  endgame : Option Nat
  complete : Bool
  /-- the last completed pass, and the pass that the Endgame interrupted -/
  last : Option Nat
  interrupted : Option Nat
  deriving DecidableEq, Repr

def findIn (es : List JEntry) : Found :=
  let n := endgameOf es
  let opened := es.findSome? fun e => match e with | .passOpen _ m _ _ => if n = some m then none else some m | _ => none
  { es := es, endgame := n
    complete := match n with | some m => (match closeOf es m with | some (_, w) => w | none => false) | none => false
    last := es.findSome? fun e => match e with | .passClose _ m _ _ _ _ => if n = some m then none else some m | _ => none
    interrupted := match opened with | some m => if (closeOf es m).isSome then none else some m | none => none }

/-- The Endgame's bitmap shows channel c dirty. -/
def Found.dirty (f : Found) (c : Nat) : Bool :=
  (f.es.takeWhile fun e => !e.isCut).any fun e => match e with
    | .bitmap first bits => decide (first ≤ c ∧ c < first + 160) && bits.getLsbD (c - first)
    | _ => false

/-- A source's counter (R388). -/
def Source.counter (x : Source) : Option Nat :=
  match x with
  | .none => Option.none
  | .local n => some n
  | .remote l _ => some (256 + l)

/-- b of R400: the sum, over the sources bound since the image, of what their counters gained. -/
def Found.bound (f : Found) (endgame pass : Nat) (srcs : List Source) : Nat :=
  let j := match f.interrupted with | some m => if m % 2 ^ 14 = pass then some m else f.last | none => f.last
  let gain (i : Nat) : Nat := (tableAt f.es endgame i + 2 ^ 48 - (match j with | some m => tableAt f.es m i | none => 0)) % 2 ^ 48
  min (2 ^ 48 - 1) ((srcs.dedup.filterMap Source.counter).map gain).sum

/-- How a channel restores: its totaliser, its bound, its starting integer phase; its record was unreadable; the Endgame did
not reach it. -/
structure Restored where
  count : Nat
  bound : Nat
  start : Nat
  bad : Bool := false
  short : Bool := false
  deriving DecidableEq, Repr

/-- The table of R400 on a channel's record, absent where it cannot be read. -/
def Found.classify (f : Found) (c : Nat) (x : ImageChan) (r : Option PRecord) : Restored :=
  match r with
  | none => { count := 0, bound := 2 ^ 48 - 1, start := 2 ^ 40, bad := true }
  | some r =>
    match f.endgame with
    | none => { count := r.count, bound := 2 ^ 48 - 1, start := r.phase + 2 ^ 40 }
    | some n =>
      if f.complete || !f.dirty c || r.pass = n % 2 ^ 14 then { count := r.count, bound := 0, start := r.phase + 1 }
      else
        let b := f.bound n r.pass ([x.decl.srcA, x.decl.srcB, x.decl.srcX] ++ x.since)
        { count := r.count, bound := b, start := r.phase + 1 + b, short := true }

/-! ### Channels restored (R400, R401) -/

/-- The three slots of a guarded channel: two with a good CRC that agree in every field. -/
def Pst.slots (p : Pst) (c : Nat) : List Triplicate :=
  ([p.trip0, p.trip1, p.trip2].filterMap fun t => tget? t c).filter fun x => x.image.good
def agreed : List Triplicate → Option Triplicate
  | a :: b :: r => if a = b then some a else match r with | x :: _ => if x = a ∨ x = b then some x else none | [] => none
  | _ => none

/-- A restored channel, placed under R223. `merge` is what a guarded one still adds to. The restore completes each of its ONE_SHOT
histograms (R206, R212; log entry 66). -/
def State.putRestored (s : State) (c : Nat) (x : ImageChan) (r : Restored) (merge : Option (Nat × Nat)) : State :=
  let counts := x.st == .live || (x.st == .paused && x.countOnly)
  let side : Side := { nextM := r.start, highM := some (r.start - 1), assigned := r.start - 1 }
  let s1 := s.setChan c
    { st := if x.st == .retired then .retired else .declared
      restoring := if x.st == .live || x.st == .paused then some x.st else none
      decl := x.decl, countOnly := x.countOnly, count := r.count, base := r.count, quad := { position := sx 48 r.count }
      a := side, b := side, bound := r.bound, since := x.since
      line := { restored := true }, dev := x.dev.map fun d => { d with restored := true }
      -- the restore completes a ONE_SHOT histogram (R206)
      histos := x.histos.map fun h => (h.1, { h.2 with restored := true, done := !h.2.auto, reasons := if h.2.auto then 0 else 32 })
      guard := { merge := if counts then merge else none } }
  if x.st == .retired then s1 else s1.placeChan c x.decl

/-- PST_RESTORE, PST_BAD and RECORD_BAD. -/
def State.noteRestored (s : State) (c : Nat) (r : Restored) : State :=
  let s1 := if 0 < r.bound then s.bump Reg.PST_RESTORE 0 21 else s
  if r.bad then (s1.bump Reg.PST_BAD 0 21).raise .recordBad c else s1

/-- A channel's record where it can be read. -/
def Pst.record (p : Pst) (c : Nat) : Option PRecord :=
  match tget? p.records c with | some r => if r.good then some r else none | none => none

/-- How a channel of the image restores (R400, R401): what it restores with, what a guarded one still merges, and whether
GUARD_RESTORE is raised for it; none where its record reads RETIRED. -/
def State.howRestored (s : State) (f : Found) (c : Nat) (x : ImageChan) : Option (Restored × Option (Nat × Nat) × Bool) :=
  let r := s.pst.record c
  if (match r with | some y => y.state == 2 | none => false) then none
  else if x.decl.guarded && x.st != .retired then
    match agreed (s.pst.slots c) with
    | some v =>
      if s.kpr.por || s.kpr.reset || s.kpr.broken.contains x.decl.keeper then some (f.classify c x (some v.image), none, true)
      else some ({ count := v.image.count, bound := 0, start := v.image.phase + 1 }, some (v.image.count, v.keeper), false)
    | none =>
      let none? := [s.pst.trip0, s.pst.trip1, s.pst.trip2].all fun t => (tget? t c).isNone
      some (f.classify c x (if none? then r else none), none, true)
  else some (f.classify c x r, none, false)

/-- Restores one channel of the image. -/
def State.restoreChan (s : State) (f : Found) (c : Nat) (x : ImageChan) : State :=
  match s.howRestored f c x with
  | none => s
  | some (y, merge, fault) => (((if fault then s.raise .guardRestore c else s).noteRestored c y).putRestored c x y merge)

/-- D0 and u0 (R399): none of them where the store holds no pair. -/
def State.restoreTime (s : State) (pair : Option (Nat × Nat × Bool)) : State :=
  match pair with
  | none => (s.modPst fun p => { p with restoreK := s.kpr.time.vote }).modTb fun b => { b with d0 := some 0, u0 := 0, u0Log := [] }
  | some (t, k, cut) =>
    let s1 := s.modPst fun p => { p with restoreT := some t, restoreK := s.kpr.time.vote, outFrom := t }
    if s.kpr.por || s.kpr.reset || s.kpr.broken.contains 64 then
      let u := 2 ^ 64 - 1
      let d0 := if cut then t + 24576000512 else t + 2 * s.ckptQ + secQ
      ((s1.modTb fun b => { b with d0 := some d0, u0 := u, u0Log := [] }).raise .keeperTimeLost 0).setReg Reg.PST_U0 (BitVec.ofNat 64 u)
    else
      let d := ((s.kpr.time.vote + 2 ^ 48 - k) % 2 ^ 48) * s.tickQ
      let crystal := s.farFld Reg.KPR_CTRL 0 1 = 1 && !s.kpr.xtalFail
      let ppm := if crystal then s.farFld Reg.KPR_CTRL 16 16 else 20000
      let u := ceilDiv (ppm * d) (1000000 - ppm) + 2 * s.tickQ
      (((s1.modTb fun b => { b with d0 := some (t + d + u), u0 := u, u0Log := [] }).setReg Reg.PST_U0 (BitVec.ofNat 64 u)).setReg Reg.PST_OUTAGE
        (BitVec.ofNat 64 d)).setFld Reg.PST_STATUS 6 1 1

/-- Steps 1 to 5 of R398. -/
def State.readRestore (s : State) : State :=
  let half := if s.pst.half.good then s.pst.half else {}
  let es := s.pst.journal.map Prod.snd
  let f := findIn es
  let down := match f.endgame with | none => 0 | some _ => if f.complete then 1 else 2
  let lost := match f.endgame with | some n => (match closeOf es n with | some (u, _) => u | none => 0) | none => 0
  let pair := pairOf es
  let s1 := (s.setFld Reg.PST_STATUS 4 2 down).setReg Reg.PST_LOST (BitVec.ofNat 64 lost)
  let s2 := (s1.setReg Reg.PST_PASS (BitVec.ofNat 64 (f.last.getD 0))).restoreTime pair
  let s3 := (s2.modTb fun b => { b with drift := half.drift, saved := half.saved }).modPst fun p => { p with restore := .read }
  let s4 := half.chans.foldl (fun (x : State) y => x.restoreChan f y.1 y.2) s3
  let short := (half.chans.filter fun y => match s.howRestored f y.1 y.2 with | some z => z.1.short | none => false).length
  let s5 := if short = 0 then s4 else s4.raise .endgameShort short
  (if pair.isSome && f.endgame.isNone then s5.raise .noEndgame 0 else s5).coverCheck

/-- The restore reads the persistent die, hands D0 over and classifies the channels. -/
def execRestore (t : Nat) (s : State) : Host.Outcome State Fault Refusal :=
  atMoment t s fun s => if s.pst.restore == .granted && s.pwr.st == .run then s.readRestore else s

/-- Every channel is in its state, and no merge is owed. -/
def State.restoredAll (s : State) : Bool :=
  s.chans.all fun x => x.2.restoring.isNone && x.2.guard.merge.isNone

/-- The RESTORE pass writes every channel at once (R398 step 7). -/
def execRestoreComplete (t : Nat) (s : State) : Host.Outcome State Fault Refusal :=
  atMoment t s fun s =>
    let cs := tkeys s.chans
    if s.pst.restore == .read && s.pwr.st == .run && s.pst.endgame.isNone && s.tb.st.live && s.pst.pass.isNone && s.restoredAll &&
        cs.all s.imageReady then
      let s1 := s.startPass .restore cs
      let s2 := match s1.pst.pass with | some p => s1.closePass p | none => s1
      let s3 := (s2.modPst fun p => { p with restore := .done }).setFld Reg.PST_STATUS 3 1 1
      let s4 := s3.bbEntry 5 (s3.fld Reg.PST_STATUS 4 2) (min 65535 (s3.fld Reg.PST_BAD 0 21)) (s3.fld Reg.PST_RESTORE 0 21)
      let s5 := s4.modKpr fun k => { k with por := false, xtalFail := false, skipAny := 0, skippedOf := [], correctedOf := [] }
      s5.mirrorKpr.powerEvent
    else s

/-! ### The retention scrub (R403, R404) -/

/-- Word offset `o` of the MRAM cannot be read: what lies there. -/
def Pst.spoil (p : Pst) (o : Nat) (free : Word) : Pst :=
  let slot (t : Table Triplicate) (base : Nat) : Table Triplicate :=
    match (t.map Prod.fst)[(o - base) / 32]? with
    | some c => tmod {} t c fun x => { x with image := { x.image with good := false } }
    | none => t
  if o < 0x1000000 then
    match tget? p.records (o / 16) with
    | some r => { p with records := tput p.records (o / 16) { r with good := false } }
    | none => p
  else if o < 0x1400000 then { p with journal := p.journal.filter fun x => x.1 % 131072 != (o - 0x1000000) / 32 }
  else if o < 0x1440000 then { p with trip0 := slot p.trip0 0x1400000 }
  else if o < 0x1480000 then { p with trip1 := slot p.trip1 0x1440000 }
  else if o < 0x14C0000 then { p with trip2 := slot p.trip2 0x1480000 }
  else if o < 0x1500000 then p
  else if o < 0x1580000 then { p with half0 := { p.half0 with good := false } }
  else if o < 0x1600000 then { p with half1 := { p.half1 with good := false } }
  else if o < 0x1640000 then
    let n := (o - 0x1600000) / 32
    let b := 64 * ((o / 8) % 4)
    match tget? p.blackBox n with
    | some v =>
      let w : BitVec 256 := (v &&& ~~~((0xFFFFFFFFFFFFFFFF : BitVec 256) <<< b)) ||| (free.setWidth 256 <<< b)
      { p with blackBox := tput p.blackBox n w }
    | none => p
  else p

/-- One word that the scrub found in error. -/
def State.scrubWord (s : State) (e : ScrubError) : State :=
  if e.correctable then s.bumpSat Reg.PST_ECC 0 16
  else
    let (v, s1) := s.free
    (((s1.modPst fun p => p.spoil e.offset v).bumpSat Reg.PST_ECC 16 16).raise .eccUncorr e.offset).remapStripe (e.offset / 4096)

/-- The stripes that have not been written for 365 days (R404); the spare stripes hold nothing of their own. -/
def State.oldStripes (s : State) : List Nat :=
  if s.now < 365 * 86400 * secQ then []
  else (List.range 0x1640).filter fun k => decide (tget 0 s.pst.written k + 365 * 86400 * secQ ≤ s.now)

/-- The whole MRAM has been read, 24 hours behind the last time: errors are corrected, their stripes and those not written for 365 days
rewritten, uncorrectable words reported (R404; log entry 74). -/
def execMramScrub (t : Nat) (errors : List ScrubError) (s : State) : Host.Outcome State Fault Refusal :=
  atMoment t s fun s =>
    if s.bit Reg.PST_CTRL 2 && s.pwr.st == .run && s.pst.endgame.isNone && s.past .scrub (86400 * secQ) then
      let s1 := errors.foldl State.scrubWord (s.start .scrub)
      let fresh := (((errors.filter ScrubError.correctable).map fun e => ScrubError.offset e / 4096) ++ s.oldStripes).dedup
      ((fresh.foldl State.wearStripe s1).bump Reg.PST_SCRUB 0 16).bumpBy Reg.PST_SCRUB 16 16 fresh.length
    else s

end Sys2Proof.Machine
end

