-- ==== Sys2Proof/Machine/LineLive.lean ====
section
/-! DEFINITION. The first line becomes live (02 R53, R63, R64; 16 R398 step 6): device time is loaded, and capture, cadences and
restored channels begin. -/

namespace Sys2Proof.Machine

/-- D0 with the keeper ticks that have elapsed since the restore tick (R398 step 6). -/
def State.startTime (s : State) (d0 : Nat) : Nat :=
  if !s.kpr.reset then
    d0 + (s.kpr.time.vote + 2 ^ 48 - s.pst.restoreK) % 2 ^ 48 * s.tickQ
  else d0

/-- A line has become live: TIME RESTORED with D0 − t where a pair was used (R67, R399), capture (R99), the enabled cadences (R136), and the
t_b of the channels that wait (R124). -/
def State.lineLive (s : State) (d0 : Nat) : State :=
  let s1 := match s.pst.restoreT with
    | some t => (s.timeRecord 11 ((d0 : Int) - t)).modPst fun p => { p with restoreT := none }
    | none => s
  let s2 := s1.captureStart.resumeCadences
  { s2 with chans := tmap {} s2.chans fun c => if c.st == .declared then { c with tB := s2.devTime } else c }

/-- The locked shadow line becomes live at the first lock, once D0 has been handed over (R63, R64); capture starts (R99)
and the enabled cadences run (R136). -/
def execAcquisitionSwap (t : Nat) (s : State) : Host.Outcome State Fault Refusal :=
  atMoment t s fun s =>
    match s.tb.d0 with
    | some d0 =>
      if s.tb.st == .acquiring && s.tb.shadow == .locked then
        let s1 := (s.loadD0 (s.startTime d0)).modTb fun b => { b.swap with p0 := none }
        let s2 := s1.tbEnter .locked 1 0
        let s3 := if s2.bit Reg.TB_TOD_CTRL 0 then s2 else s2.setAligned
        s3.lineLive d0
      else s
    | none => s

/-- Cold coast (R53): no reference within ref_wait_ms of the start, a learned bin, and D0 handed over. The line starts from the saved
band codes and control word. -/
def execColdCoast (t : Nat) (s : State) : Host.Outcome State Fault Refusal :=
  atMoment t s fun s =>
    match s.tb.d0 with
    | some d0 =>
      if s.bit Reg.TB_CTRL 3 && s.tb.st == .stopped && s.tb.granted && s.tb.drift != [] && !s.tb.refA.ok &&
          !s.tb.refB.ok && decide (s.tb.started + s.fld Reg.TB_ACQ 8 8 * msQ ≤ s.now) then
        let s1 := (s.loadD0 (s.startTime d0)).modTb fun b =>
          let (c, f, w) := b.saved.getD (0, 0, b.word)
          let b1 := { b with cold := true, p0 := none, word := w }
          if b.line then { b1 with band1 := (c, f) } else { b1 with band0 := (c, f) }
        (s1.tbEnter .coasting 2 s1.tb.lastErr).lineLive d0
      else s
    | none => s


end Sys2Proof.Machine
end

