-- ==== Sys2Proof/Machine/RegView.lean ====
section
/-! DEFINITION. What a read of a register returns (13 R317, 20 R470): the stored value, with the fields that show the state
of the block laid over it. A read changes nothing (R310). -/

namespace Sys2Proof.Machine

/-- Lays fields (low bit, width, value) over a register's stored value. -/
def State.over_ (s : State) (a : Nat) (l : List (Nat × Nat × Nat)) : Word :=
  l.foldl (fun v x => putField v x.1 x.2.1 x.2.2) (s.reg a)

def ShadowState.code : ShadowState → Nat
  | .idle => 0 | .searching => 1 | .acquiring => 2 | .locked => 3

/-- A port's key unlock stands: it was opened, and 1 ms has not passed since (R320). -/
def State.keyOpen (s : State) (p : Port) : Bool :=
  (match p with | .host => s.gbl.keyHost | .mspi => s.gbl.keyMspi) && decide (s.now ≤ s.began (.key p) + 1000 * usQ)

/-- GBL_STATUS (R332). -/
def State.viewGbl (s : State) (a : Nat) : Word :=
  if a = Reg.GBL_STATUS then
    s.over_ a [(0, 1, b2n s.gbl.far.isSome), (1, 1, b2n s.gbl.snap.isSome), (2, 1, b2n (s.keyOpen .host)), (3, 1, b2n (s.keyOpen .mspi)),
      (4, 1, b2n (s.gbl.mismatched != [])), (5, 1, b2n s.gbl.safe)]
  else s.reg a

/-- The TB registers (R68); TB_CMD.apply reads 1 until the handover it asks for is done. -/
def State.viewTb (s : State) (a : Nat) : Word :=
  let b := s.tb
  let live := if b.line then b.band1 else b.band0
  let shadow := if b.line then b.band0 else b.band1
  if a = Reg.TB_CMD then s.over_ a [(0, 1, b2n (b.applyPend || decide (b.handoverOf = some .apply)))]
  else if a = Reg.TB_STATUS then
    s.over_ a [(0, 3, b.st.code), (3, 1, refNum b.liveRef), (4, 1, b2n b.refA.ok), (5, 1, b2n b.refB.ok),
      (6, 1, b2n (b.ret == .held)), (7, 1, b2n b.aligned), (8, 1, b2n b.selPending), (9, 1, b2n b.line),
      (10, 2, b.shadow.code), (12, 4, min 15 b.acqFail)]
  else if a = Reg.TB_HOLD_BOUND then BitVec.ofNat 64 (min (2 ^ 64 - 1) b.bound)
  else if a = Reg.TB_SLEW_REMAIN then wordOf b.slewRemain
  else if a = Reg.TB_BAND then s.over_ a [(0, 5, live.1), (8, 6, live.2), (16, 5, shadow.1), (24, 6, shadow.2)]
  else if a = Reg.TB_LEARN then (tkeys b.drift).foldl (fun v k => v ||| (1#64 <<< k)) 0
  else s.reg a

/-- The PWR registers (R443). A unit that has stopped again is not settled. -/
def State.viewPwr (s : State) (a : Nat) : Word :=
  let p := s.pwr
  let on (u : WakeUnit) := match u with
    | .lane n => p.settled.contains u && (s.lane n).st != .off
    | _ => p.settled.contains u
  let bits (lo k : Nat) (u : Nat → WakeUnit) : List (Nat × Nat × Nat) := (List.range k).map fun n => (lo + n, 1, b2n (on (u n)))
  if a = Reg.PWR_STATUS then
    s.over_ a [(0, 3, p.st.code), (3, 1, b2n p.pfail), (4, 3, p.droop.toNat), (8, 2, s.kpr.lastCause), (10, 3, s.kpr.lastDroop.toNat)]
  else if a = Reg.PWR_TOKEN_STATUS then s.over_ a [(0, 9, min 511 p.out), (9, 8, min 255 p.queue.length)]
  else if a = Reg.PWR_UNITS then s.over_ a (bits 0 16 .engine ++ bits 16 16 .group)
  else if a = Reg.PWR_UNITS2 then s.over_ a (bits 0 16 .lane ++ [(16, 1, b2n (on .timeBase)), (17, 1, b2n (on .mram))])
  else s.reg a

/-- FE_STATUS (R94). blanking is 1 from a window's start to its end, not during its delay; alarm_armed is 0 while the zone lies
in FE_ALARM.zones, whatever alarm_en is (log entry 54). -/
def State.viewFe (s : State) (n a : Nat) : Word :=
  let x := s.input n
  let open_ := x.blanks s.devTime
  if a = Reg.FE_STATUS n then
    s.over_ a [(0, 2, x.zone.code), (2, 1, b2n open_), (3, 1, b2n (s.feBit n 3)), (4, 1, b2n (!s.inZones n x.zone))]
  else s.reg a

/-- CAP_STATUS (R112). -/
def State.viewCap (s : State) (n a : Nat) : Word :=
  let x := s.input n
  if a = Reg.CAP_STATUS n then
    s.over_ a [(0, 1, b2n x.calOk), (1, 1, b2n (decide (1 < s.thinN n))), (2, 1, b2n (s.pressed n)), (3, 5, x.rate),
      (8, 9, x.fifo.length)]
  else s.reg a

/-- The COU registers (R264, R294). -/
def State.viewCou (s : State) (n a : Nat) : Word :=
  let l := s.lane n
  let t := l.train
  if a = Reg.COU_STATUS n then
    s.over_ a [(0, 3, match l.st with
        | .off => 0 | .detect => 1 | .train => 2 | .align => 3 | .credit => 4 | .active => 5 | .recover => 6 | .absent => 7),
      (3, 1, b2n l.partner), (4, 1, b2n l.signal), (5, 1, b2n l.blockLock),
      (6, 1, b2n (l.st == .active && (l.frozen || s.bit (Reg.COU_ADAPT n) 8))), (7, 1, s.fld (Reg.COU_LREF (n / 4 * 4)) 1 1),
      (8, 4, l.attempt), (12, 1, b2n t.rxReady), (13, 1, b2n t.partnerReady), (14, 1, b2n l.partnerSeen)]
  else if a = Reg.COU_TX_COEF n then s.over_ a [(0, 3, t.pre), (8, 6, t.main), (16, 4, t.post)]
  else if a = Reg.COU_PARTNER_COEF n then s.over_ a [(0, 3, t.ppre), (8, 6, t.pmain), (16, 4, t.ppost)]
  else if a = Reg.COU_RX_EQ n then l.eq
  else if a = Reg.COU_SEQ n then s.over_ a [(0, 16, l.rxNext.toNat), (16, 16, l.txNext.toNat)]
  else if a = Reg.COU_CRED_STATUS n then
    s.over_ a [(0, 12, l.limitRx + 4096 - l.sent % 4096), (12, 10, l.rxFree), (22, 7, l.reserve), (29, 1, b2n (s.flt.pressure || decide (0 < l.freed))),
      (30, 1, b2n l.sync), (31, 1, b2n l.resumed)]
  else if a = Reg.COU_PARTNER n then
    s.over_ a [(0, 12, l.pCredits), (12, 8, l.pReplay), (20, 3, l.pVersion), (23, 1, b2n l.pResume)]
  else if a = Reg.COU_LETTER_STATUS n then s.over_ a [(0, 5, l.letters.length)]
  else if a = Reg.COU_LREF n then s.over_ a [(8, 1, b2n (s.bit a 0 && s.tb.st.live && s.pwr.st == .run))]
  else s.reg a

/-- The PEER registers (R308). -/
def State.viewPeer (s : State) (a : Nat) : Word :=
  let p := s.peer
  if a = Reg.PEER_STATUS then
    s.over_ a [(0, 2, if !s.peerOn then 0 else if p.master then 1 else if p.parent.isSome then 2 else 3), (2, 8, p.masterRank),
      (10, 5, p.hops), (15, 1, b2n p.part), (16, 4, p.parent.getD 0), (20, 1, b2n p.parent.isSome)]
  else if a = Reg.PEER_TDE then s.over_ a [(0, 16, p.tde), (16, 16, p.seenTde)]
  else if a = Reg.PEER_LOOP then
    match p.parent with | some l => s.over_ a [(0, 32, toField 32 (s.peerLane l).loop)] | none => s.reg a
  else if 0xD040 ≤ a ∧ a < 0xD140 then
    let n := (a - 0xD040) / 16
    let x := s.peerLane n
    if a = Reg.PEER_LANE_STAT n then
      s.over_ a [(0, 2, match x.link with | .none => 0 | .up => 1 | .suspect => 2 | .lost => 3), (2, 8, x.rank), (10, 5, x.hops)]
    else if a = Reg.PEER_LANE_OFFSET n then wordOf x.mean
    else s.reg a
  else s.reg a

/-- The RING registers (R359). -/
def State.viewRing (s : State) (n a : Nat) : Word :=
  let r := s.ring n
  if a = Reg.RING_STATE n then s.over_ a [(0, 2, r.st.code), (2, 1, b2n r.summary), (3, 1, b2n (r.held != []))]
  else if a = Reg.RING_POS n then s.over_ a [(0, 25, posField (s.depth n) r.pos)]
  else if a = Reg.RING_LB n then s.over_ a [(0, 25, posField (s.depth n) r.lb)]
  else if a = Reg.RING_HOLD n then s.over_ a [(0, 14, r.blocks.length)]
  else s.reg a

/-- The PLC registers (R239). -/
def State.viewPlc (s : State) (a : Nat) : Word :=
  if a = Reg.PLC_STATUS then
    s.over_ a [(0, 1, b2n (s.plc.castlings != [])), (1, 1, b2n (s.flt.active.getLsbD 4)),
      (2, 1, b2n (s.bit Reg.PLC_CTRL 0 || s.pwr.st == .endgame)), (6, 10, s.plc.tokens)]
  else if 0xF060 ≤ a ∧ a < 0xF160 then s.over_ a [(0, 15, freeIn s.plc.used ((a - 0xF060) / 4))]
  else if a = Reg.PLC_PINNED then s.over_ a [(0, 17, s.pinnedCount)]
  else if a = Reg.PLC_HOLD_FREE then s.over_ a [(0, 14, s.free?)]
  else s.reg a

/-- The PST registers (R405). -/
def State.viewPst (s : State) (a : Nat) : Word :=
  let p := s.pst
  let drain := match p.pass with | some q => q.kind == .drain | none => false
  if a = Reg.PST_STATUS then s.over_ a [(0, 1, b2n p.covered), (1, 1, b2n p.pass.isSome), (2, 1, b2n drain)]
  else if a = Reg.PST_NEED then s.over_ a [(0, 16, s.needUs)]
  else if a = Reg.PST_DIRTY then s.over_ a [(0, 40, s.dirtyBytes)]
  else if a = Reg.PST_IMG then
    let u := imageUse s.imageDecls
    s.over_ a [(0, 11, u.1), (16, 14, u.2)]
  else if a = Reg.PST_WEAR then
    let w := p.wear.foldl (fun m x => max m x.2) 0
    s.over_ a [(0, 9, p.spareUsed), (16, 16, min 65535 (w * 65536 / 200000000000))]
  else s.reg a

/-- The FLT registers (R381, R465). -/
def State.viewFlt (s : State) (a : Nat) : Word :=
  let f := s.flt
  if a = Reg.FLT_ACTIVE then s.over_ a [(0, 9, f.active.toNat), (16, 1, b2n f.severe), (17, 1, b2n s.faultNLow)]
  else if a = Reg.FLT_LEDGER_LAST then s.over_ a [(16, 1, b2n f.failing)]
  else if a = Reg.FLT_SUPPLY then s.over_ a [(0, 1, b2n s.pwr.coreLow), (1, 1, b2n s.pwr.vbakLow)]
  else if a = Reg.FLT_HOLD_STATUS then
    s.over_ a [(0, 1, b2n f.pressure), (1, 1, b2n (decide (s.free? ≤ 64))), (2, 1, b2n f.grace), (16, 14, s.plc.minFree)]
  else s.reg a

/-- The CAD registers (R141). -/
def State.viewCad (s : State) (n a : Nat) : Word :=
  let k := s.cadence n
  let users := (s.chans.filter fun x => x.2.st != .vacant && x.2.st != .retired && decide (x.2.decl.cadence = n)).length
  if a = Reg.CAD_STATUS n then s.over_ a [(0, 1, b2n k.running), (1, 21, users)]
  else if a = Reg.CAD_NEXT n then BitVec.ofNat 64 k.next
  else if a = Reg.CAD_NEXT_HI n then s.over_ a [(0, 8, k.next / 2 ^ 64)]
  else s.reg a

/-- ID_FUSE.crc_ok (R464): whether each die's fuse_crc, bits [127:112], is the CRC-16 of its bits [111:0]. -/
def fuseOk : Nat :=
  let ok (reg : Nat → Nat) : Bool :=
    let v := packBits ((List.range 4).map fun k => (32 * k, 32, (fuseOf (reg k)).toNat))
    crc16 (bytesOf 14 v) == fieldOf v 112 16
  packBits [(0, 1, b2n (ok Reg.ID_LOGIC)), (1, 1, b2n (ok Reg.ID_SRAM)), (2, 1, b2n (ok Reg.ID_PMEM))]

/-- What a read of a register returns. The KPR block and the SNAP block are read as stored: their mirrors and their visible half
(R317, R326). -/
def State.readReg (s : State) (h : Hit) : Word :=
  match h.epoch with
  | some 0 => s.viewGbl h.reg
  | some 1 => s.viewTb h.reg
  | some 2 => s.viewPwr h.reg
  | some 3 => s.viewFe h.inst h.reg
  | some 4 => s.viewCap h.inst h.reg
  | some 5 => s.viewCou h.inst h.reg
  | some 6 => s.viewPeer h.reg
  | some 7 => s.viewRing h.inst h.reg
  | some 8 => s.viewPlc h.reg
  | some 9 => s.viewPst h.reg
  | some 11 => s.viewFlt h.reg
  | some 12 => s.viewCad h.inst h.reg
  | _ => if h.reg = Reg.ID_FUSE then BitVec.ofNat 64 fuseOk else s.reg h.reg

/-- The dword of a register that a location reaches (R309). -/
def State.readDword (s : State) (h : Hit) : Dword :=
  BitVec.ofNat 32 (fieldOf (s.readReg h).toNat (if h.upper then 32 else 0) 32)

end Sys2Proof.Machine
end

