-- ==== Sys2Proof/Machine/RegWrite.lean ====
section
/-! DEFINITION. The register interface (13): what a write must pass (R310, R315, R320 to R323, R330), the ranges the blocks state,
what an accepted write does, the far path, snapshots, parity, the MSPI, and the commands that are writes of one register. -/

namespace Sys2Proof.Machine

/-! ### Logged accesses and keys (R310, R314, R320) -/

/-- What a port learns of an access (R314). -/
structure Reply where
  done : Bool := true
  dropped : Bool := false
  reason : Nat := 0
  deriving DecidableEq, Repr

/-- The port's number in GBL_ACC_LAST. -/
def portBit : Port → Nat
  | .host => 0
  | .mspi => 1

/-- Records an access that is not honoured (R310, R332). -/
def State.logAccess (s : State) (p : Port) (off reason : Nat) (write : Bool) : State :=
  (s.setReg Reg.GBL_ACC_LAST (BitVec.ofNat 64 (packBits [(0, 20, off), (20, 1, portBit p), (21, 4, reason), (25, 1, b2n write)]))).bump
    Reg.GBL_ACC_COUNT 0 32


def State.setKey (s : State) (p : Port) (v : Bool) : State :=
  match p with
  | .host => { s with gbl := { s.gbl with keyHost := v } }
  | .mspi => { s with gbl := { s.gbl with keyMspi := v } }

/-- A write to GBL_KEY (R320): 0x5AC3 opens the port's unlock, any other value closes it and is counted. -/
def State.keyWrite (s : State) (p : Port) (v : Nat) : State :=
  if v = 0x5AC3 then (s.setKey p true).start (.key p)
  else ((s.setKey p false).bumpSat Reg.GBL_KEY_FAULT (16 * portBit p) 16).raise .keyFault (portBit p)

/-! ### Snapshots (R326, R467) -/

/-- The values of the SNAP block from 0x1_4020 on, in order of their offsets. -/
def State.snapValues (s : State) : List (Nat × Nat) :=
  let count (a : Nat) := s.fld a 0 48
  let led : List Nat :=
    [s.ledIn, s.sumCap Reg.CAP_CNT_STAMPED, (s.sumCap Reg.CAP_CNT_THIN + s.sumCap Reg.CAP_CNT_OVFL) % 2 ^ 48, s.flt.routed,
      s.ledPending, s.flt.copies, s.flt.counted, s.flt.unbound, s.flt.outage, s.ledFlight, s.flt.begun, s.flt.completed,
      s.flt.aborted, s.plc.castlings.length, (s.rings.map fun r => r.2.blocks.length).sum, s.sumCou Reg.COU_CNT_VIOL_BLOCKS]
  (led.zipIdx.map fun x => (Reg.SNAP_LED x.2, x.1)) ++
  (List.range 256).flatMap (fun n =>
    [(Reg.SNAP_CAP_IN n, count (Reg.CAP_CNT_IN n)), (Reg.SNAP_CAP_STAMPED n, count (Reg.CAP_CNT_STAMPED n)),
     (Reg.SNAP_CAP_THIN n, count (Reg.CAP_CNT_THIN n)), (Reg.SNAP_CAP_OVFL n, count (Reg.CAP_CNT_OVFL n))]) ++
  (List.range 16).flatMap (fun n =>
    let l := s.lane n
    let credit := packBits [(0, 10, l.rxFree), (10, 12, l.limitTx + 4096 - l.accepted % 4096), (22, 10, l.freed)]
    [count (Reg.COU_CNT_EVENTS n), l.blocksRx % 2 ^ 48, l.blocksAcc % 2 ^ 48, l.blocksRef % 2 ^ 48, l.blocksDup % 2 ^ 48,
      count (Reg.COU_CNT_VIOL_BLOCKS n), credit].zipIdx.map fun x => (Reg.SNAP_COU n x.2, x.1)) ++
  (List.range 64).flatMap (fun n =>
    let r := s.ring n
    [r.produced % 2 ^ 48, r.delivered % 2 ^ 48, r.queued + r.heldCount, r.summarised % 2 ^ 48].zipIdx.map fun x =>
      (Reg.SNAP_RING n x.2, x.1)) ++
  (List.range 16).flatMap (fun e =>
    [(Reg.SNAP_ENG_COUNTED e, tget 0 s.flt.engCounted e % 2 ^ 48), (Reg.SNAP_ENG_WORK e, tget 0 s.flt.engWork e % 2 ^ 48)])

/-- Values as they lie in a sparse store: those that are zero are not listed. -/
def listed (l : List (Nat × Nat)) : Table Word := (l.filter fun x => x.2 != 0).map fun x => (x.1, BitVec.ofNat 64 x.2)

/-- A write to GBL_SNAP_CMD. -/
def State.snapWrite (s : State) (v : Nat) : State :=
  if s.gbl.snap.isSome then s.raise .snapOverrun 0
  else if bitOf v 0 then { s with gbl := { s.gbl with snap := some (s.nextCycle, listed s.snapValues) } }
  else s

/-- The captured half becomes the visible one. -/
def State.snapShow (s : State) : State :=
  match s.gbl.snap with
  | some (t, vals) =>
    let seq := (s.fld Reg.SNAP_SEQ 0 32 + 1) % 2 ^ 32
    let head := listed [(Reg.SNAP_SEQ, seq), (Reg.SNAP_TIME_LO, t % 2 ^ 64), (Reg.SNAP_TIME_HI, t / 2 ^ 64 % 256)]
    { s with regs := (s.regs.filter fun x => decide (x.1 < 0x14000)) ++ head ++ vals
             gbl := { s.gbl with snap := none } }
  | none => s

/-! ### Ranges (check 5 of R321) -/

/-- The four lanes of a lane's group. -/
def groupLanes (n : Nat) : List Nat := (List.range 4).map (n / 4 * 4 + ·)

/-- TB (R68). -/
def rangeTb (a : Nat) (new : Word) : List (FaultCode × Nat) :=
  let f (lo w : Nat) := fieldOf new.toNat lo w
  let bad :=
    if a = Reg.TB_LOCK then decide (f 0 16 < 16 ∨ f 16 8 < 8 ∨ f 24 8 < 1)
    else if a = Reg.TB_SLEW_RATE then decide (f 0 16 < 1 ∨ 20000 < f 0 16)
    else if a = Reg.TB_ACQ then decide (f 0 8 = 0)
    else if a = Reg.TB_TOD_OFFSET then decide (1228800000000 ≤ f 0 41)
    else false
  if bad then [(.tbRange, 0)] else []

/-- PWR (R440, R443). -/
def rangePwr (a : Nat) (new : Word) : List (FaultCode × Nat) :=
  let f (lo w : Nat) := fieldOf new.toNat lo w
  if (a = Reg.PWR_CTRL ∧ f 8 8 = 0) ∨ (a = Reg.PWR_TOKEN_CFG ∧ f 0 8 < 8) then [(.pwrRange, 0)] else []

/-- FE (R88). -/
def rangeFe (n a : Nat) (new : Word) : List (FaultCode × Nat) :=
  if a = Reg.FE_SAMP n ∧ fieldOf new.toNat 0 16 = 0 then [(.feRange, n)] else []

/-- CAP (R112). -/
def rangeCap (n a : Nat) (new : Word) : List (FaultCode × Nat) :=
  let f (lo w : Nat) := fieldOf new.toNat lo w
  if (a = Reg.CAP_CTRL n ∧ f 2 4 = 0) ∨ (a = Reg.CAP_FLUSH n ∧ f 0 12 = 0) ∨
      (a = Reg.CAP_SKEW n ∧ 240 < (sx 16 (f 0 16) - sx 16 (f 16 16)).natAbs) then [(.capRange, n)] else []

/-- COU (R245, R251, R252, R263, R264, R294). A write to COU_CMD all of whose commands are ignored is itself ignored (log entry
23). -/
def State.rangeCou (s : State) (n a : Nat) (old new raw : Word) : List (FaultCode × Nat) :=
  let f (lo w : Nat) := fieldOf new.toNat lo w
  let peers (ls : List Nat) := (ls.filter fun k => s.isPeer k).length
  let st := (s.lane n).st
  if a = Reg.COU_CTRL n then
    if old.getLsbD 1 == new.getLsbD 1 then []
    else if st != .off then [(.couState, n)]
    else if new.getLsbD 1 && decide (4 ≤ peers (List.range 16)) then [(.couPeerLimit, n)]
    else if new.getLsbD 1 && s.bit (Reg.COU_LREF (n / 4 * 4)) 1 then [(.couState, n)]
    else []
  else if a = Reg.COU_CMD n then
    let retry := raw.getLsbD 0
    let retrain := raw.getLsbD 1
    if (retry && (st == .absent || st == .detect)) || (retrain && st == .active) then []
    else (if retry then [(.couCmdState, n)] else []) ++ (if retrain then [(.couCmdState, n)] else [])
  else if a = Reg.COU_ADAPT n then (if f 0 8 = 0 ∨ 64 < f 0 8 then [(.couRange, n)] else [])
  else if a = Reg.COU_PROTO_CTRL n then (if f 0 8 < 4 ∨ f 8 8 = 0 then [(.couRange, n)] else [])
  else if a = Reg.COU_LREF n then
    if old != new && (groupLanes n).any fun k => (s.lane k).st != .off && (s.lane k).st != .absent then [(.couLrefBusy, n / 4)]
    else if new.getLsbD 1 && !old.getLsbD 1 && decide (peers (groupLanes n) ≠ 0) then [(.couLrefBusy, n / 4)]
    else if f 2 3 = 0 ∨ 5 < f 2 3 then [(.couRange, n)]
    else []
  else []

/-- PEER (R308). -/
def State.rangePeer (s : State) (a : Nat) (old new raw : Word) : List (FaultCode × Nat) :=
  let f (lo w : Nat) := fieldOf new.toNat lo w
  if a = Reg.PEER_CTRL then
    if old.getLsbD 8 && fieldOf old.toNat 0 8 != f 0 8 then [(.peerState, 0)]
    else if f 16 8 = 0 then [(.peerRange, 0)] else []
  else if a = Reg.PEER_CMD then (if raw.getLsbD 0 && !(s.peerOn && s.peer.master) then [(.peerState, 0)] else [])
  else if a = Reg.PEER_TRIM then (if f 0 16 = 0 ∨ 20000 < f 0 16 then [(.peerRange, 0)] else [])
  else []

/-- RING (R359). -/
def State.rangeRing (s : State) (n a : Nat) (old new : Word) : List (FaultCode × Nat) :=
  let f (lo w : Nat) := fieldOf new.toNat lo w
  let busy := (s.ring n).st != .disabled
  if a = Reg.RING_CFG n then
    if f 2 5 < 4 ∨ 24 < f 2 5 then [(.ringRange, n)]
    else if busy && fieldOf old.toNat 1 6 != f 1 6 then [(.ringState, n)]
    else []
  else if a = Reg.RING_BASE n ∨ a = Reg.RING_STATUS_ADDR n then (if busy && old != new then [(.ringState, n)] else [])
  else []

/-- PLC (R239). -/
def rangePlc (a : Nat) (new : Word) : List (FaultCode × Nat) :=
  let f (lo w : Nat) := fieldOf new.toNat lo w
  if (a = Reg.PLC_CASTLE_RATE ∧ (f 0 17 = 0 ∨ 65536 < f 0 17)) ∨ (a = Reg.PLC_POLICY ∧ (f 0 8 = 0 ∨ f 16 8 = 0)) then
    [(.plcRange, 0)] else []

/-- PST (R405). -/
def rangePst (a : Nat) (new : Word) : List (FaultCode × Nat) :=
  let f (lo w : Nat) := fieldOf new.toNat lo w
  if (a = Reg.PST_CKPT ∧ (f 0 13 = 0 ∨ 6000 < f 0 13 ∨ f 16 6 = 0)) ∨
      (a = Reg.PST_HOLDUP_US ∧ (f 0 15 < 200 ∨ 20000 < f 0 15)) then [(.pstRange, 0)] else []

/-- KPR (R426). -/
def rangeKpr (a : Nat) (new : Word) : List (FaultCode × Nat) :=
  let f (lo w : Nat) := fieldOf new.toNat lo w
  match kprInput a with
  | some n => if n % 2 = 1 ∧ f 1 1 = 1 then [(.kprRange, n)] else []
  | none =>
    if (a = Reg.KPR_CTRL ∧ (5 < f 1 3 ∨ f 16 16 = 0)) ∨ (a = Reg.KPR_VOTE ∧ f 0 8 = 0) then [(.kprRange, 0)] else []

/-- FLT (R381, R465). -/
def rangeFlt (a : Nat) (new : Word) : List (FaultCode × Nat) :=
  let f (lo w : Nat) := fieldOf new.toNat lo w
  if a = Reg.FLT_THERM then
    (if sx 8 (f 0 8) < -40 ∨ 125 < sx 8 (f 0 8) ∨ f 8 8 = 0 then [(.fltRange, 0)] else [])
  else if (a = Reg.FLT_HOLD_CTRL ∧ (f 0 14 < 65 ∨ f 16 14 ≤ f 0 14)) ∨ (a = Reg.FLT_HOLD_GRACE ∧ f 0 16 = 0) then
    [(.holdRange, 0)]
  else []

/-- CAD (R138). -/
def State.rangeCad (s : State) (n a : Nat) (new : Word) : List (FaultCode × Nat) :=
  let ok :=
    if a = Reg.CAD_PERIOD n then gridOk (periodOf new) (s.cadPhase n)
    else if a = Reg.CAD_PHASE n then gridOk (s.cadP n) (fieldOf new.toNat 0 54)
    else true
  if ok then [] else [(.cadRange, n)]

/-- The faults of the fields that a write would put outside their ranges, or of a command that the block's state refuses: the
register is left unchanged. -/
def State.rangeFaults (s : State) (h : Hit) (old new raw : Word) : List (FaultCode × Nat) :=
  let a := h.reg
  match h.epoch with
  | some 1 => rangeTb a new
  | some 2 => rangePwr a new
  | some 3 => rangeFe h.inst a new
  | some 4 => rangeCap h.inst a new
  | some 5 => s.rangeCou h.inst a old new raw
  | some 6 => s.rangePeer a old new raw
  | some 7 => s.rangeRing h.inst a old new
  | some 8 => rangePlc a new
  | some 9 => rangePst a new
  | some 10 => rangeKpr a new
  | some 11 => rangeFlt a new
  | some 12 => s.rangeCad h.inst a new
  | _ => []

/-! ### What an accepted write does -/

/-- TB (02): the next record of every channel carries CFGCHG; a changed selection acts (R60); TB_CMD's commands are taken. -/
def State.tookTb (s : State) (a : Nat) (old new raw : Word) : State :=
  let s1 := s.cfgAll
  if a = Reg.TB_CTRL then (if old.getLsbD 0 != new.getLsbD 0 then s1.actOnSelection else s1)
  else if a = Reg.TB_CMD then
    let s2 := s1.setReg a (raw &&& 8)
    let s3 := if raw.getLsbD 0 then s2.tbApply else s2
    let s4 := if raw.getLsbD 1 then s3.tbSlew else s3
    let s5 := if raw.getLsbD 2 then s4.tbAccept (raw.getLsbD 3) else s4
    if raw.getLsbD 4 then s5.tbLatch else s5
  else if a = Reg.TB_SLEW_RATE then (if old = new then s1 else s1.slewRestart)
  else if a = Reg.TB_TOD_CTRL then
    -- the first TOD_IN edge after enable aligns (R62)
    (if new.getLsbD 0 && !old.getLsbD 0 then s1.modTb fun b => { b with todFirst := true, todRejects := 0 } else s1)
  else s1

/-- FE (R78, R93): the near registers act at once; the far ones are on their way. -/
def State.tookFe (s : State) (n a : Nat) (new : Word) : State :=
  let f (lo w : Nat) := fieldOf new.toNat lo w
  if a = Reg.FE_ALARM n then s.feAlarmWritten n
  else if a = Reg.FE_BLANK_SRC n ∧ 6 ≤ f 0 3 then s.raise .feRange n
  else s

/-- CAP (R112): a Configuration group at the next boundary, and CFGCHG for the channels of the input. -/
def State.tookCap (s : State) (n : Nat) : State := (if s.tb.st.live then s.captureCfg n true else s).cfgInput n false

/-- The next record of every REMOTE channel on a lane carries CFGCHG. -/
def State.cfgLane (s : State) (n : Nat) : State :=
  let on (x : Source) : Bool := match x with | .remote l _ => l == n | _ => false
  { s with chans := tmap {} s.chans fun c => if c.st != .vacant && (on c.decl.srcA || on c.decl.srcB || on c.decl.srcX)
      then { c with cfg := true } else c }

/-- COU (R247, R251, R264, R294). -/
def State.tookCou (s : State) (n a : Nat) (old new raw : Word) : State :=
  if a = Reg.COU_CMD n then
    let s1 := s.setReg a 0
    let s2 := if raw.getLsbD 0 then s1.laneRetry n else s1
    if raw.getLsbD 1 then s2.laneRetrain n else s2
  else
    let s1 := s.cfgLane n
    if a = Reg.COU_CTRL n then
      if new.getLsbD 0 && !old.getLsbD 0 then s1.laneOn n
      else if !new.getLsbD 0 && old.getLsbD 0 then s1.laneOff n
      else s1
    else s1

/-- PEER (R305, R308). -/
def State.tookPeer (s : State) (a : Nat) (old raw : Word) : State :=
  if a = Reg.PEER_CTRL then s.peerCtrlWritten (old.getLsbD 8)
  else if a = Reg.PEER_CMD then
    let s1 := s.setReg a 0
    if raw.getLsbD 0 then s1.peerWhole.2 else s1
  else s

/-- FLT (R373, R447, R458, R461, R462). -/
def State.tookFlt (s : State) (a : Nat) (raw : Word) : State :=
  if a = Reg.FLT_ACTIVE then s.faultClear (raw.setWidth 32)
  else if a = Reg.FLT_BB_CMD then (if raw.getLsbD 0 then (s.setReg a 0).seal 1 0 else s)
  else if a = Reg.FLT_BB_UNSEAL then (if raw.getLsbD 0 then (s.setReg a 0).unseal else s)
  else if a = Reg.FLT_BB_SEL then s.bbSelected
  else if a = Reg.FLT_BB_MARK then s.bbMark
  else if a = Reg.FLT_HOLD_CTRL then s.holdCheck
  else s

/-- CAD_CTRL (R136, R141). -/
def State.tookCadCtrl (s : State) (n : Nat) (old new : Word) : State :=
  let s1 := if 4 < fieldOf new.toNat 1 3 then s.raise .cadRange n else s
  if new.getLsbD 0 && !old.getLsbD 0 then s1.cadenceOn n
  else if !new.getLsbD 0 && old.getLsbD 0 then s1.cadenceOff n
  else s1

/-- KPR (R411, R426): the far write is on its way; crossed codes and the reserved edge are handled, and logged. -/
def State.tookKpr (s : State) (a : Nat) (new : Word) : State :=
  let f (lo w : Nat) := fieldOf new.toNat lo w
  match kprInput a with
  | some n =>
    let s1 := if f 2 2 = 3 then s.raise .kprRange n else s
    if sx 8 (f 8 8) < sx 8 (f 16 8) then s1.raise .kprThrOrder n else s1
  | none => s

/-- A register takes a value that has passed every check: it is stored, and acts. -/
def State.takeWrite (s : State) (h : Hit) (old new raw : Word) : State :=
  let a := h.reg
  let put (x : State) := x.setReg a new
  match h.epoch with
  | some 1 => (put s).tookTb a old new raw
  | some 3 => (put s).tookFe h.inst a new
  | some 4 => (put s).tookCap h.inst
  | some 5 => (put s).tookCou h.inst a old new raw
  | some 6 => (put s).tookPeer a old raw
  | some 7 => if a = Reg.RING_CFG h.inst then (put s).ringEnableWritten h.inst (old.getLsbD 0) else put s
  | some 9 => if a = Reg.PST_HOLDUP_US then (put s).coverCheck else put s
  | some 10 => (put s).tookKpr a new
  | some 11 => (put s).tookFlt a raw
  | some 12 =>
    if a = Reg.CAD_PERIOD h.inst ∨ a = Reg.CAD_PHASE h.inst then
      let s1 := s.cadenceGrid h.inst put
      (tkeys s1.chans).foldl State.gridRestart s1
    else if a = Reg.CAD_CTRL h.inst then (put s).tookCadCtrl h.inst old new
    else put s
  | _ => put s

/-- The block's epoch advances (R325): not for writes to W1C fields alone, nor for GBL_KEY, GBL_SNAP_CMD and GBL_SCRATCH. -/
def State.countEpoch (s : State) (h : Hit) : State :=
  match h.epoch with
  | some e => if h.row.mask = 0 ∨ (e = 0 ∧ h.reg ≠ Reg.GBL_CTRL) then s else s.bumpEpoch e
  | none => s

/-! ### Parity (R329, R330) -/

/-- A register lies in a guarded block. -/
def Hit.guarded (h : Hit) : Bool := h.epoch == some 10 || h.row.key

/-- A register in error has been rewritten: its parity is good again, and the safe state ends with the last guarded one. -/
def State.rewritten (s : State) (a : Nat) : State :=
  let left := s.gbl.mismatched.filter (· != a)
  let guarded (x : Nat) : Bool := match regAt x with | some h => h.guarded | none => false
  { s with gbl := { s.gbl with mismatched := left, safe := s.gbl.safe && left.any guarded } }

/-! ### One register write (R321) -/

/-- A write of the value `raw` to a whole register, behind check 1. -/
def State.writeReg (s : State) (p : Port) (h : Hit) (raw : Word) : Reply × State :=
  let a := h.reg
  let old := s.reg a
  let sel := raw.toNat / 65536 % 65536 &&& h.row.mask
  let m : Word := BitVec.ofNat 64 (if h.row.msk then sel else h.row.mask)
  let new := (old &&& ~~~m) ||| (raw &&& m)
  if h.row.msk && raw.toNat / 65536 % 65536 == 0 then ({}, s)
  else
    -- the unlock is spent by any write to a KEY register (R320)
    let s1 := if h.row.key then s.setKey p false else s
    if s.gbl.safe && a != Reg.GBL_KEY && !(h.row.mask == 0 && h.row.w1c != 0) && !s.gbl.mismatched.contains a then
      ({ done := false, reason := 10 }, s1.logAccess p a 10 true)
    else if h.row.mask == 0 && h.row.w1c == 0 then ({}, s1)
    else if h.row.key && !s.keyOpen p then
      ({ done := false, reason := 4 }, (s1.logAccess p a 4 true).raise .keyLocked a)
    else if h.row.far && s.gbl.far.isSome then
      ({ done := false, reason := 6 }, (s1.logAccess p a 6 true).raise .farOverrun a)
    else if a = Reg.GBL_KEY then ({}, s1.keyWrite p (raw.toNat % 2 ^ 32))
    else if a = Reg.GBL_SNAP_CMD then ({}, s1.snapWrite raw.toNat)
    else
      match s1.rangeFaults h old new raw with
      | [] =>
        let s2 := (s1.rewritten a).countEpoch h
        let s3 := if h.row.far then
            (({ s2 with gbl := { s2.gbl with far := some (a, if h.row.mask = 0 then raw else new) } } : State).setReg
              Reg.GBL_FAR_PEND (BitVec.ofNat 64 a))
          else s2
        ({}, s3.takeWrite h old new raw)
      | fs => ({ done := false }, fs.foldl (fun x f => x.raise f.1 f.2) s1)

/-! ### Requests (R309 to R316) -/

/-- The first reason of R310 that a request of these dwords falls into: LONG, RESERVED, SPLIT64, NARROW. -/
def rejected (hits : List (Option Hit)) (be : List (BitVec 4)) (write : Bool) : Option Nat :=
  let split := match hits with
    | [some h] => write && h.row.wide
    | [some h, some k] => (h.row.wide || k.row.wide) && !(h.reg == k.reg && !h.upper)
    | _ => false
  let narrow := write && (hits.zip be).any fun x => match x.1 with | some h => !h.row.bytes && x.2 != 0xF | none => false
  if 2 < hits.length then some 2
  else if hits.any Option.isNone then some 0
  else if split then some 3
  else if narrow then some 1
  else none

/-- The bytes a byte enable selects. -/
def beMask (be : BitVec 4) : Dword :=
  (if be.getLsbD 0 then 0xFF else 0) ||| (if be.getLsbD 1 then 0xFF00 else 0) ||| (if be.getLsbD 2 then 0xFF0000 else 0) |||
    (if be.getLsbD 3 then 0xFF000000 else 0)

/-- Applies a request whose form is good: one 64-bit register in one step, or one or two 32-bit registers in order. -/
def State.applyDwords (s : State) (p : Port) : List (Hit × Dword × BitVec 4) → Reply × State
  | [] => ({}, s)
  | [(h, d, be)] =>
    let m := beMask be
    s.writeReg p h ((((s.reg h.reg).setWidth 32 &&& ~~~m) ||| (d &&& m)).setWidth 64)
  | (h, d, be) :: (k, e, be2) :: _ =>
    if h.row.wide then s.writeReg p h (d.setWidth 64 ||| (e.setWidth 64 <<< 32))
    else
      let w (x : State) (h : Hit) (d : Dword) (be : BitVec 4) :=
        let m := beMask be
        x.writeReg p h ((((x.reg h.reg).setWidth 32 &&& ~~~m) ||| (d &&& m)).setWidth 64)
      let r := w s h d be
      let q := w r.2 k e be2
      (if r.1.done then q.1 else r.1, q.2)

/-- The dwords of a request from `off` on. -/
def hostHits (off k : Nat) : List (Option Hit) := (List.range k).map fun i => regAt (off / 4 * 4 + 4 * i)

/-- The host port is up: RUN, and ENDGAME while the link is up (R431, R432). -/
def State.hostUp (s : State) : Bool := s.pwr.st == .run || s.pwr.st == .endgame

/-- A write from the host (R310, R321). -/
def State.hostWrite (s : State) (off : Nat) (data : List Dword) (be : List (BitVec 4)) : Reply × State :=
  let hits := hostHits off data.length
  if !s.hostUp || decide (0x100000 ≤ off) then ({ done := false }, s)
  else if be == [0] then ({}, s)
  else match rejected hits be true with
    | some r => ({ done := false, dropped := true, reason := r }, (s.logAccess .host (off / 4 * 4) r true).raise .accessFault (off / 4 * 4))
    | none => s.applyDwords .host ((hits.filterMap id).zip (data.zip be))

/-- The BAR0 offset that an MSPI address stands for (R316, R472). -/
def mspiOffset (addr : Nat) : Nat :=
  match mspiPlace addr with
  | some (b, i, o) => b.base + b.stride * i + o
  | none => 0

/-- Drops an MSPI access that R310 or R315 does not honour. -/
def State.mspiDrop (s : State) (off reason : Nat) (write : Bool) : Reply × State :=
  ({ done := false, dropped := write, reason := reason }, (s.logAccess .mspi off reason write).raise .accessFault off)

/-- A write from the MSPI (R315, R316): outside RUN it is discarded; a location inside the window that names no register ignores
it. -/
def State.mspiWrite (s : State) (addr : Nat) (data : List Dword) : Reply × State :=
  let hits := (List.range data.length).map fun i => mspiAt (addr / 4 * 4 + 4 * i)
  let named := (hits.zip data).filterMap fun x => x.1.map fun h => (h, x.2, (0xF : BitVec 4))
  let off := mspiOffset addr
  if s.pwr.st != .run then ({ done := false }, s)
  else if !s.bit Reg.GBL_CTRL 0 || named.any fun x => x.1.reg == Reg.GBL_CTRL then s.mspiDrop off 7 true
  else match rejected (named.map fun x => some x.1) [] true with
    | some r => s.mspiDrop off r true
    | none => s.applyDwords .mspi named

/-- A write through a port. -/
def State.portWrite (s : State) (p : Port) (off : Nat) (data : List Dword) (be : List (BitVec 4)) : State :=
  match p with
  | .host => (s.hostWrite off data be).2
  | .mspi => if data.length ≤ 2 ∧ be.all (· == 0xF) then (s.mspiWrite off data).2 else s

/-- A write of one whole 32-bit register. -/
def State.write32 (s : State) (p : Port) (off v : Nat) : State := s.portWrite p off [BitVec.ofNat 32 v] [0xF]

/-- A write of one whole 64-bit register. -/
def State.write64 (s : State) (p : Port) (off v : Nat) : State :=
  s.portWrite p off [BitVec.ofNat 32 v, BitVec.ofNat 32 (v / 2 ^ 32)] [0xF, 0xF]

/-- A write that sets or clears one bit of a register and leaves its other bits as they are. -/
def State.writeBit (s : State) (p : Port) (off i : Nat) (v : Bool) : State :=
  s.write32 p off (putField (s.reg off) i 1 (b2n v)).toNat

/-! ### The rows of writes -/

/-- A register write (R321). -/
def execRegisterWrite (t : Nat) (p : Port) (off : Nat) (data : List Dword) (be : List (BitVec 4)) (s : State) :
    Host.Outcome State Fault Refusal :=
  if 1 ≤ data.length ∧ be.length = data.length then atMoment t s fun s => s.portWrite p off data be else .fault .illFormed

/-- A write that sets one command bit of TB_CMD and leaves accept_mode as it is. -/
def State.writeTbCmd (s : State) (p : Port) (i : Nat) : State :=
  s.write32 p Reg.TB_CMD (2 ^ i + 8 * b2n (s.bit Reg.TB_CMD 3))

/-- TB_CMD.apply (R48, R49). -/
def execTbApply (t : Nat) (p : Port) (s : State) : Host.Outcome State Fault Refusal :=
  atMoment t s fun s => s.writeTbCmd p 0

/-- TB_CMD.slew (R47). -/
def execTbSlew (t : Nat) (p : Port) (s : State) : Host.Outcome State Fault Refusal :=
  atMoment t s fun s => s.writeTbCmd p 1

/-- TB_CMD.accept with accept_mode (R58). -/
def execTbAccept (t : Nat) (p : Port) (byStep : Bool) (s : State) : Host.Outcome State Fault Refusal :=
  atMoment t s fun s => s.write32 p Reg.TB_CMD (4 + 8 * b2n byStep)

/-- TB_CMD.latch (R66). -/
def execTbLatch (t : Nat) (p : Port) (s : State) : Host.Outcome State Fault Refusal :=
  atMoment t s fun s => s.writeTbCmd p 4

/-- A write of TB_CTRL.ref_sel (R60). -/
def execRefSelect (t : Nat) (p : Port) (sel : Ref) (s : State) : Host.Outcome State Fault Refusal :=
  atMoment t s fun s => s.writeBit p Reg.TB_CTRL 0 (sel == .refB)

/-- A write to FE_ALARM (R93). -/
def execFeAlarmWrite (t : Nat) (p : Port) (n : Fin 256) (value : Dword) (s : State) : Host.Outcome State Fault Refusal :=
  atMoment t s fun s => s.write32 p (Reg.FE_ALARM n) value.toNat

/-- Setting CAD_CTRL.enable (R136). -/
def execCadenceEnable (t : Nat) (p : Port) (c : Fin 16) (s : State) : Host.Outcome State Fault Refusal :=
  atMoment t s fun s => s.writeBit p (Reg.CAD_CTRL c) 0 true

/-- Clearing CAD_CTRL.enable (R136). -/
def execCadenceDisable (t : Nat) (p : Port) (c : Fin 16) (s : State) : Host.Outcome State Fault Refusal :=
  atMoment t s fun s => s.writeBit p (Reg.CAD_CTRL c) 0 false

/-- A write to CAD_PERIOD or CAD_PHASE (R137, R138). -/
def execCadenceGridWrite (t : Nat) (p : Port) (c : Fin 16) (phase : Bool) (value : Word) (s : State) :
    Host.Outcome State Fault Refusal :=
  atMoment t s fun s => s.write64 p (if phase then Reg.CAD_PHASE c else Reg.CAD_PERIOD c) value.toNat

/-- Setting COU_CTRL.enable (R247). -/
def execLaneEnable (t : Nat) (p : Port) (lane : Fin 16) (s : State) : Host.Outcome State Fault Refusal :=
  atMoment t s fun s => s.writeBit p (Reg.COU_CTRL lane) 0 true

/-- Clearing COU_CTRL.enable (R247). -/
def execLaneDisable (t : Nat) (p : Port) (lane : Fin 16) (s : State) : Host.Outcome State Fault Refusal :=
  atMoment t s fun s => s.writeBit p (Reg.COU_CTRL lane) 0 false

/-- COU_CMD.retry (R251). -/
def execLaneRetry (t : Nat) (p : Port) (lane : Fin 16) (s : State) : Host.Outcome State Fault Refusal :=
  atMoment t s fun s => s.write32 p (Reg.COU_CMD lane) 1

/-- COU_CMD.retrain (R251). -/
def execLaneRetrain (t : Nat) (p : Port) (lane : Fin 16) (s : State) : Host.Outcome State Fault Refusal :=
  atMoment t s fun s => s.write32 p (Reg.COU_CMD lane) 2

/-- PEER_CMD.whole (R305). -/
def execPeerWhole (t : Nat) (p : Port) (s : State) : Host.Outcome State Fault Refusal :=
  atMoment t s fun s => s.write32 p Reg.PEER_CMD 1

/-- Setting RING_CFG.enable (R339). -/
def execRingEnable (t : Nat) (p : Port) (ring : Fin 64) (s : State) : Host.Outcome State Fault Refusal :=
  atMoment t s fun s => s.writeBit p (Reg.RING_CFG ring) 0 true

/-- Clearing RING_CFG.enable (R339). -/
def execRingDisable (t : Nat) (p : Port) (ring : Fin 64) (s : State) : Host.Outcome State Fault Refusal :=
  atMoment t s fun s => s.writeBit p (Reg.RING_CFG ring) 0 false

/-- A W1C write to KPR_WAKE_STATUS (R416): a far write. -/
def execWakeClear (t : Nat) (p : Port) (value : Dword) (s : State) : Host.Outcome State Fault Refusal :=
  atMoment t s fun s => s.write32 p Reg.KPR_WAKE_STATUS value.toNat

/-- A W1C write to FLT_ACTIVE (R447, R448). -/
def execFaultClear (t : Nat) (p : Port) (value : Dword) (s : State) : Host.Outcome State Fault Refusal :=
  atMoment t s fun s => s.write32 p Reg.FLT_ACTIVE value.toNat

/-- FLT_BB_CMD.seal (R461). -/
def execBbSeal (t : Nat) (p : Port) (s : State) : Host.Outcome State Fault Refusal :=
  atMoment t s fun s => s.write32 p Reg.FLT_BB_CMD 1

/-- FLT_BB_UNSEAL.unseal (R461). -/
def execBbUnseal (t : Nat) (p : Port) (s : State) : Host.Outcome State Fault Refusal :=
  atMoment t s fun s => s.write32 p Reg.FLT_BB_UNSEAL 1

/-- A write to FLT_BB_SEL (R462). -/
def execBbSelect (t : Nat) (p : Port) (entry : BitVec 13) (s : State) : Host.Outcome State Fault Refusal :=
  atMoment t s fun s => s.write32 p Reg.FLT_BB_SEL entry.toNat

/-- A write to FLT_BB_MARK (R458). -/
def execBbMark (t : Nat) (p : Port) (value : Dword) (s : State) : Host.Outcome State Fault Refusal :=
  atMoment t s fun s => s.write32 p Reg.FLT_BB_MARK value.toNat

/-- A write to GBL_KEY (R320). -/
def execKeyUnlock (t : Nat) (p : Port) (value : Dword) (s : State) : Host.Outcome State Fault Refusal :=
  atMoment t s fun s => s.write32 p Reg.GBL_KEY value.toNat

/-- A write of 1 to GBL_SNAP_CMD.snap (R326). -/
def execSnapshot (t : Nat) (p : Port) (s : State) : Host.Outcome State Fault Refusal :=
  atMoment t s fun s => s.write32 p Reg.GBL_SNAP_CMD 1

/-! ### The other rows of the register interface -/

/-- An unlock unused for 1 ms expires (R320); before that the command changes nothing but time. -/
def execKeyExpiry (t : Nat) (p : Port) (s : State) : Host.Outcome State Fault Refusal :=
  atMoment t s fun s => if s.past (.key p) (1000 * usQ) then s.setKey p false else s

/-- The snapshot copy completes (R326 step 3). -/
def execSnapshotDone (t : Nat) (s : State) : Host.Outcome State Fault Refusal := atMoment t s State.snapShow

/-- The front end of input n is enabled at t_w: its token is granted at once (R439). -/
def State.frontEndToken (s : State) (n : Nat) (old : Word) : State :=
  if s.feOn n && !old.getLsbD 0 then s.takeTokens (.frontEnd n) else s

/-- The far side applies the write in flight (R318). -/
def State.farApply (s : State) : State :=
  match s.gbl.far with
  | some (a, v) =>
    let s1 : State := { s with gbl := { s.gbl with far := none } }
    if isKpr a then
      if s.kpr.reset then s1
      else if a = Reg.KPR_WAKE_STATUS then s1.wakeCleared v.toNat
      else (s1.setFar a v).kprApplied a (s.farReg a)
    else
      let n := (a - 0x4000) / 64
      let old := s.farReg (Reg.FE_CTRL n)
      let s2 := s1.setFar a v
      let f (lo : Nat) : Int := sx 10 (fieldOf v.toNat lo 10)
      -- the front end takes the two codes: swapped ones are logged (R70; log entry 55)
      let s3 := if a = Reg.FE_THR n ∧ f 0 < f 16 then s2.raise .feThrOrder n else s2
      (s3.feApplied n old).frontEndToken n old
  | none => s

def execFarWriteApply (t : Nat) (s : State) : Host.Outcome State Fault Refusal := atMoment t s State.farApply

/-- The scrubber finds a mismatch in register `a` (R329, R330). -/
def State.mismatch (s : State) (a : Nat) : State :=
  match regAt a with
  | some h =>
    if h.row.mask = 0 ∨ h.reg ≠ a then s
    else
      let s1 := (s.setReg Reg.GBL_PARITY_LAST (BitVec.ofNat 64 (packBits [(0, 20, a), (20, 1, b2n h.guarded)]))).bumpSat
        Reg.GBL_SCRUB 16 16
      let s2 := s1.raise .cfgParity a
      let s3 : State := { s2 with gbl := { s2.gbl with
        mismatched := if s2.gbl.mismatched.contains a then s2.gbl.mismatched else a :: s2.gbl.mismatched
        safe := s2.gbl.safe || h.guarded } }
      if h.guarded then s3.raise .cfgParitySafe a else s3
  | none => s

/-- A scrub pass (R328): the registers it found in error, and the count of passes at its end. -/
def execScrubPass (t : Nat) (bad : List Nat) (s : State) : Host.Outcome State Fault Refusal :=
  atMoment t s fun s => (bad.foldl State.mismatch s).bump Reg.GBL_SCRUB 0 16

/-- A host read of BAR0 (R310): completed, or Completer Abort and logged, or Unsupported Request. -/
def State.hostRead (s : State) (off len : Nat) (kind : ReadKind) : State :=
  let a := off / 4 * 4
  let hits := hostHits off len
  if !s.hostUp || decide (0x100000 ≤ off) then s
  else match kind with
    | .zeroLen => s.out (.completion a [0])
    | .atomic => s.out (.unsupported a)
    | .plain =>
      match rejected hits [] false with
      | some r => ((s.logAccess .host a r false).raise .accessFault a).out (.completerAbort a)
      | none => s.out (.completion a (if len = 0 then [0] else (hits.filterMap id).map s.readDword))

def execBar0ReadAbort (t : Nat) (off len : Nat) (kind : ReadKind) (s : State) : Host.Outcome State Fault Refusal :=
  atMoment t s fun s => s.hostRead off len kind

/-! ### MSPI frames (R313 to R315) -/

/-- The status byte of R314. -/
def Reply.status (r : Reply) (notRun : Bool) : Byte :=
  BitVec.ofNat 8 (packBits [(0, 1, b2n r.done), (1, 1, b2n r.dropped), (2, 4, r.reason), (6, 1, b2n notRun)])

/-- What the hub returns: 16 wait cycles driven 0, the data bytes, the status byte. -/
def mspiAnswer (data : List Byte) (status : Byte) : Output := .mspi ([0, 0] ++ data ++ [status])

/-- Bytes of a dword on the MSPI, least significant first. -/
def dwordBytes (d : Dword) : List Byte := (bytesOf 4 d.toNat).map (BitVec.ofNat 8)

/-- A dword of four bytes, least significant first. -/
def bytesDword : List Byte → Dword
  | [] => 0
  | b :: r => b.setWidth 32 ||| (bytesDword r <<< 8)

/-- The frame's address: 3 bytes, the most significant first. -/
def frameAddr : List Byte → Nat
  | a :: b :: c :: _ => a.toNat * 65536 + b.toNat * 256 + c.toNat
  | _ => 0

/-- The logged offset of a frame that ended early or had no known opcode: its address where that arrived, else a value the
spec leaves open. -/
def State.frameOffset (s : State) (rest : List Byte) : Nat × State :=
  if 3 ≤ rest.length then (mspiOffset (frameAddr rest), s)
  else let (v, x) := s.free; (v.toNat % 2 ^ 20, x)

/-- A read of `k` dwords (R315): 0 with PORT while mspi_rd is 0. -/
def State.mspiReadFrame (s : State) (addr k : Nat) : State :=
  if !s.bit Reg.GBL_CTRL 1 then
    s.out (mspiAnswer (List.replicate (4 * k) 0) (Reply.status { done := false, reason := 7 } false))
  else
    let d (i : Nat) : Dword := match mspiAt (addr / 4 * 4 + 4 * i) with | some h => s.readDword h | none => 0
    s.out (mspiAnswer ((List.range k).flatMap fun i => dwordBytes (d i)) (Reply.status {} false))

/-- A write of `k` dwords. -/
def State.mspiWriteFrame (s : State) (addr k : Nat) (data : List Byte) : State :=
  let d (i : Nat) : Dword := bytesDword ((data.drop (4 * i)).take 4)
  let r := s.mspiWrite addr ((List.range k).map d)
  r.2.out (mspiAnswer [] (r.1.status false))

/-- A frame in RUN. `k` dwords; `write` is known from the opcode. A frame that ends early is discarded and logged (SHORT). -/
def State.mspiRun (s : State) (rest : List Byte) (k : Nat) (write : Bool) : State :=
  if rest.length < (if write then 3 + 4 * k else 3) then
    let (off, s1) := s.frameOffset rest
    (s1.logAccess .mspi off 8 write).raise .accessFault off
  else if write then s.mspiWriteFrame (frameAddr rest) k (rest.drop 3)
  else s.mspiReadFrame (frameAddr rest) k

/-- An opcode that R313 does not list (R315). -/
def State.mspiUnknown (s : State) (rest : List Byte) : State :=
  let (off, s1) := s.frameOffset rest
  ((s1.logAccess .mspi off 9 false).raise .accessFault off).out
    (mspiAnswer [0, 0, 0, 0] (Reply.status { done := false, reason := 9 } false))

/-- The opcodes of R313: dwords, and whether it writes. -/
def mspiOpcode (b : Byte) : Option (Nat × Bool) :=
  if b = 0x03 then some (1, false) else if b = 0x0B then some (2, false) else if b = 0x02 then some (1, true)
  else if b = 0x0A then some (2, true) else none

/-- A frame outside RUN (R314): data of ones and not_run; while the logic die is unpowered every bit reads 1 (21). -/
def State.mspiNotRun (s : State) (op : Option (Nat × Bool)) : State :=
  let k := match op with | some (k, false) => 4 * k | some (_, true) => 0 | none => 4
  if s.quiet then s.out (.mspi (List.replicate (3 + k) 0xFF))
  else s.out (mspiAnswer (List.replicate k 0xFF) (Reply.status { done := false } true))

/-- An MSPI frame. -/
def execMspiFrame (t : Nat) (bytes : List Byte) (s : State) : Host.Outcome State Fault Refusal :=
  atMoment t s fun s =>
    match bytes with
    | [] => s
    | b :: rest =>
      if s.pwr.st != .run then s.mspiNotRun (mspiOpcode b)
      else match mspiOpcode b with
        | some (k, w) => s.mspiRun rest k w
        | none => s.mspiUnknown rest

end Sys2Proof.Machine
end

