-- ==== Sys2Proof/Machine/Jtag.lean ====
section
/-! DEFINITION. The pins and the port that stand outside the register interface: the TAP (21 R511), TEST_EN (R495), the PCI
Express link and the function's power state (14 R333, R336, 18 R435). -/

namespace Sys2Proof.Machine

/-! ### The TAP controller of IEEE 1149.1 -/

/-- The state behind a rising edge of TCK, by the level of TMS. -/
def TapState.next : TapState → Bool → TapState
  | .reset, m => if m then .reset else .idle
  | .idle, m => if m then .selectDr else .idle
  | .selectDr, m => if m then .selectIr else .captureDr
  | .captureDr, m => if m then .exit1Dr else .shiftDr
  | .shiftDr, m => if m then .exit1Dr else .shiftDr
  | .exit1Dr, m => if m then .updateDr else .pauseDr
  | .pauseDr, m => if m then .exit2Dr else .pauseDr
  | .exit2Dr, m => if m then .updateDr else .shiftDr
  | .updateDr, m => if m then .selectDr else .idle
  | .selectIr, m => if m then .reset else .captureIr
  | .captureIr, m => if m then .exit1Ir else .shiftIr
  | .shiftIr, m => if m then .exit1Ir else .shiftIr
  | .exit1Ir, m => if m then .updateIr else .pauseIr
  | .pauseIr, m => if m then .exit2Ir else .pauseIr
  | .exit2Ir, m => if m then .updateIr else .shiftIr
  | .updateIr, m => if m then .selectDr else .idle

/-- The low `k` bits of a number, least significant first. -/
def lowBits (v k : Nat) : List Bool := (List.range k).map (bitOf v)

/-- The number that bits spell, least significant first. -/
def bitsNat : List Bool → Nat
  | [] => 0
  | b :: r => b2n b + 2 * bitsNat r

/-- Bits that the spec leaves open. -/
def freeBits : Nat → State → List Bool × State
  | 0, s => ([], s)
  | k + 1, s =>
    let (v, s1) := s.free
    let r := freeBits k s1
    (v.getLsbD 0 :: r.1, r.2)

/-- The instruction in effect: the pin-controlling ones are BYPASS while TEST_EN is low (R511). -/
def State.tapInstr (s : State) : TapInstr :=
  let i := if s.jtag.idcode then .idcode else if s.jtag.ir = 0xFF then .bypass else Config.tapOpcode s.jtag.ir
  match i with
  | .extest | .extestPulse | .extestTrain | .clamp | .highz => if s.pwr.testEn then i else .bypass
  | _ => i

/-- The instruction works on the boundary register. -/
def onBoundary : TapInstr → Bool
  | .samplePreload | .extest | .extestPulse | .extestTrain => true
  | .bypass | .idcode | .clamp | .highz => false

/-- Capture-DR: 0 into the bypass register, the IDCODE, or the levels of the balls, which are the board's. -/
def State.captureDr (s : State) : State :=
  let i := s.tapInstr
  if i == .idcode then { s with jtag := { s.jtag with dr := lowBits 0xB5171A6B 32 } }
  else if onBoundary i then
    let r := freeBits Config.boundaryCells s
    { r.2 with jtag := { r.2.jtag with dr := r.1 } }
  else { s with jtag := { s.jtag with dr := [false] } }

/-- Capture-IR: 01 in the low bits; what the others capture is open. -/
def State.captureIr (s : State) : State :=
  let r := freeBits 6 s
  { r.2 with jtag := { r.2.jtag with irShift := true :: false :: r.1 } }

/-- A rising edge of TCK: the present state's action. -/
def State.tapRise (s : State) (tdi : Bool) : State :=
  match s.jtag.st with
  | .captureDr => s.captureDr
  | .captureIr => s.captureIr
  | .shiftDr => { s with jtag := { s.jtag with dr := s.jtag.dr.drop 1 ++ [tdi] } }
  | .shiftIr => { s with jtag := { s.jtag with irShift := s.jtag.irShift.drop 1 ++ [tdi] } }
  | _ => s

/-- The falling edge behind it: updates, and the bit on JTAG_TDO. -/
def State.tapFall (s : State) : State :=
  let j := s.jtag
  let j1 := { j with tdo := none }
  { s with jtag :=
      match j.st with
      | .reset => { j1 with idcode := true }
      | .shiftDr => { j with tdo := j.dr.head? }
      | .shiftIr => { j with tdo := j.irShift.head? }
      | .updateDr => if onBoundary s.tapInstr then { j1 with update := j.dr } else j1
      | .updateIr => { j1 with ir := BitVec.ofNat 8 (bitsNat j.irShift), idcode := false }
      | _ => j1 }

/-- One cycle of JTAG_TCK, or JTAG_TRST_N low (R511); the TAP has its supply while the main rails are present. -/
def execJtagTck (t : Nat) (trstN tms tdi : Bool) (s : State) : Host.Outcome State Fault Refusal :=
  atMoment t s fun s =>
    if !s.pwr.rails then s
    else if !trstN then { s with jtag := { s.jtag with st := .reset, idcode := true, tdo := none } }
    else
      let s1 := s.tapRise tdi
      ({ s1 with jtag := { s1.jtag with st := s1.jtag.st.next tms } } : State).tapFall

/-- TEST_EN (R495): while it is high WAKING is not left, and FAULT_N is low. -/
def execTestEnChange (t : Nat) (level : Bool) (s : State) : Host.Outcome State Fault Refusal :=
  atMoment t s fun s => (s.modPwr fun p => { p with testEn := level }).mayRun

/-! ### PCI Express -/

/-- The host moves the function into or out of D3hot (R333): in it the hub fetches and delivers nothing. -/
def execD3hotChange (t : Nat) (entering : Bool) (s : State) : Host.Outcome State Fault Refusal :=
  atMoment t s fun s => { s with pcie := { s.pcie with d3hot := entering } }

/-- The link has finished training, or has gone down (R336, R435). -/
def execPcieLinkChange (t : Nat) (up : Bool) (rate : Fin 5) (width : Fin 4) (s : State) : Host.Outcome State Fault Refusal :=
  atMoment t s fun s => { s with pcie := { s.pcie with up := up, rate := rate, width := width } }

/-- The delivery budget in bytes per second (R336): 20 GB/s at 32 GT/s ×8, in proportion on any other link. `rate` counts 2.5,
5, 8, 16 and 32 GT/s, `width` ×1, ×2, ×4 and ×8. -/
def State.deliveryBudget (s : State) : Nat :=
  if !s.pcie.up then 0
  else
    let w := 2 ^ s.pcie.width
    match s.pcie.rate with
    | 0 => 20000000000 * 25 * w * 8 * 130 / (10 * 10 * 32 * 8 * 128)
    | 1 => 20000000000 * 50 * w * 8 * 130 / (10 * 10 * 32 * 8 * 128)
    | r => 20000000000 * 2 ^ (r + 1) * w / (32 * 8)

end Sys2Proof.Machine
end

