-- ==== Sys2Proof/Machine/Dispatch.lean ====
section
/-! DEFINITION. One arm per command: its meaning, or its refusal by name. -/

namespace Sys2Proof.Machine

/-- The effect of a command on everything but the queue. -/
def exec (i : Instr) (s : State) : Host.Outcome State Fault Refusal :=
  match i with
  | .refEdge t r err good off => Sys2Proof.Machine.execRefEdge t r err good off s
  | .refEdgeTimeout t r => Sys2Proof.Machine.execRefEdgeTimeout t r s
  | .bandSearchDone t coarse fine => Sys2Proof.Machine.execBandSearchDone t coarse fine s
  | .acquisitionLimit t => Sys2Proof.Machine.execAcquisitionLimit t s
  | .acquisitionSwap t => Sys2Proof.Machine.execAcquisitionSwap t s
  | .tbApply t p => Sys2Proof.Machine.execTbApply t p s
  | .handoverSwap t misalign => Sys2Proof.Machine.execHandoverSwap t misalign s
  | .returnOffsetMeasured t m => Sys2Proof.Machine.execReturnOffsetMeasured t m s
  | .slewStep t => Sys2Proof.Machine.execSlewStep t s
  | .tbSlew t p => Sys2Proof.Machine.execTbSlew t p s
  | .tbAccept t p byStep => Sys2Proof.Machine.execTbAccept t p byStep s
  | .tbLatch t p => Sys2Proof.Machine.execTbLatch t p s
  | .refSelect t p sel => Sys2Proof.Machine.execRefSelect t p sel s
  | .driftLearn t word => Sys2Proof.Machine.execDriftLearn t word s
  | .holdoverTick t => Sys2Proof.Machine.execHoldoverTick t s
  | .coldCoast t => Sys2Proof.Machine.execColdCoast t s
  | .autoReturn t => Sys2Proof.Machine.execAutoReturn t s
  | .todEdge p => Sys2Proof.Machine.execTodEdge p s
  | .todMiss t => Sys2Proof.Machine.execTodMiss t s
  | .runtSwallowed t => Sys2Proof.Machine.execRuntSwallowed t s
  | .tbSpan t => Sys2Proof.Machine.execTbSpan t s
  | .thermRead t raw => Sys2Proof.Machine.execThermRead t raw s
  | .inputTransition t n x => Sys2Proof.Machine.execInputTransition t n x s
  | .zoneSettle t n v => Sys2Proof.Machine.execZoneSettle t n v s
  | .blankTrigEdge t pin rising => Sys2Proof.Machine.execBlankTrigEdge t pin rising s
  | .blankWindowEnd t n => Sys2Proof.Machine.execBlankWindowEnd t n s
  | .feSample t n v => Sys2Proof.Machine.execFeSample t n v s
  | .feAlarmWrite t p n value => Sys2Proof.Machine.execFeAlarmWrite t p n value s
  | .bucketRefill t n => Sys2Proof.Machine.execBucketRefill t n s
  | .thinRateDecay t => Sys2Proof.Machine.execThinRateDecay t s
  | .calHit t n code => Sys2Proof.Machine.execCalHit t n code s
  | .calWindowDone t n => Sys2Proof.Machine.execCalWindowDone t n s
  | .mailbagFlush t n => Sys2Proof.Machine.execMailbagFlush t n s
  | .ovflWrite t n => Sys2Proof.Machine.execOvflWrite t n s
  | .idleAnchor t n => Sys2Proof.Machine.execIdleAnchor t n s
  | .mailbagPop t n => Sys2Proof.Machine.execMailbagPop t n s
  | .engineEdge t chan => Sys2Proof.Machine.execEngineEdge t chan s
  | .quadDecide t chan => Sys2Proof.Machine.execQuadDecide t chan s
  | .descriptorFetch t ring descs => Sys2Proof.Machine.execDescriptorFetch t ring descs s
  | .fetchFailed t ring descs => Sys2Proof.Machine.execFetchFailed t ring descs s
  | .declare t ring => Sys2Proof.Machine.execDeclare t ring s
  | .channelLive t chan => Sys2Proof.Machine.execChannelLive t chan s
  | .redeclare t ring => Sys2Proof.Machine.execRedeclare t ring s
  | .redeclareApply t chan => Sys2Proof.Machine.execRedeclareApply t chan s
  | .pause t ring => Sys2Proof.Machine.execPause t ring s
  | .pauseApply t chan => Sys2Proof.Machine.execPauseApply t chan s
  | .resume t ring => Sys2Proof.Machine.execResume t ring s
  | .resumeGap t chan => Sys2Proof.Machine.execResumeGap t chan s
  | .retire t ring => Sys2Proof.Machine.execRetire t ring s
  | .retireApply t chan => Sys2Proof.Machine.execRetireApply t chan s
  | .cadenceInstant t c => Sys2Proof.Machine.execCadenceInstant t c s
  | .cadenceOutEnd t pin => Sys2Proof.Machine.execCadenceOutEnd t pin s
  | .cadenceEnable t p c => Sys2Proof.Machine.execCadenceEnable t p c s
  | .cadenceDisable t p c => Sys2Proof.Machine.execCadenceDisable t p c s
  | .cadenceGridWrite t p c phase value => Sys2Proof.Machine.execCadenceGridWrite t p c phase value s
  | .instantResolve t chan => Sys2Proof.Machine.execInstantResolve t chan s
  | .bracketWaitExpiry t chan => Sys2Proof.Machine.execBracketWaitExpiry t chan s
  | .recipeLoad t ring buf => Sys2Proof.Machine.execRecipeLoad t ring buf s
  | .coefLoad t ring buf => Sys2Proof.Machine.execCoefLoad t ring buf s
  | .loadApply t => Sys2Proof.Machine.execLoadApply t s
  | .devSetup t ring => Sys2Proof.Machine.execDevSetup t ring s
  | .histoSetup t ring => Sys2Proof.Machine.execHistoSetup t ring s
  | .statsRead t ring => Sys2Proof.Machine.execStatsRead t ring s
  | .statsTargetApply t chan => Sys2Proof.Machine.execStatsTargetApply t chan s
  | .devReport t chan => Sys2Proof.Machine.execDevReport t chan s
  | .histoComplete t chan hist => Sys2Proof.Machine.execHistoComplete t chan hist s
  | .autoPeriodEnd t chan hist => Sys2Proof.Machine.execAutoPeriodEnd t chan hist s
  | .loadWindowEnd t loads => Sys2Proof.Machine.execLoadWindowEnd t loads s
  | .castlingBegin t => Sys2Proof.Machine.execCastlingBegin t s
  | .castlingSealAck t chan => Sys2Proof.Machine.execCastlingSealAck t chan s
  | .castlingCopyDone t chan crcEqual => Sys2Proof.Machine.execCastlingCopyDone t chan crcEqual s
  | .castleToken t => Sys2Proof.Machine.execCastleToken t s
  | .place t ring => Sys2Proof.Machine.execPlace t ring s
  | .placeRead t ring => Sys2Proof.Machine.execPlaceRead t ring s
  | .laneEnable t p lane => Sys2Proof.Machine.execLaneEnable t p lane s
  | .laneDisable t p lane => Sys2Proof.Machine.execLaneDisable t p lane s
  | .laneProbe t lane => Sys2Proof.Machine.execLaneProbe t lane s
  | .probeDone t lane found => Sys2Proof.Machine.execProbeDone t lane found s
  | .backoffEnd t lane => Sys2Proof.Machine.execBackoffEnd t lane s
  | .laneRetry t p lane => Sys2Proof.Machine.execLaneRetry t p lane s
  | .laneRetrain t p lane => Sys2Proof.Machine.execLaneRetrain t p lane s
  | .trainingBlock t lane payload => Sys2Proof.Machine.execTrainingBlock t lane payload s
  | .tapRequestTimeout t lane => Sys2Proof.Machine.execTapRequestTimeout t lane s
  | .rxReady t lane margin => Sys2Proof.Machine.execRxReady t lane margin s
  | .trainLimit t lane => Sys2Proof.Machine.execTrainLimit t lane s
  | .alignBlock t lane payload => Sys2Proof.Machine.execAlignBlock t lane payload s
  | .alignLimit t lane => Sys2Proof.Machine.execAlignLimit t lane s
  | .loopEcho t lane => Sys2Proof.Machine.execLoopEcho t lane s
  | .creditLimit t lane => Sys2Proof.Machine.execCreditLimit t lane s
  | .recoverLimit t lane => Sys2Proof.Machine.execRecoverLimit t lane s
  | .lossOfSignal t lane => Sys2Proof.Machine.execLossOfSignal t lane s
  | .invalidSyncHeader t lane => Sys2Proof.Machine.execInvalidSyncHeader t lane s
  | .keepaliveBlock t lane payload => Sys2Proof.Machine.execKeepaliveBlock t lane payload s
  | .adaptFreeze t lane => Sys2Proof.Machine.execAdaptFreeze t lane s
  | .keepaliveSend t lane => Sys2Proof.Machine.execKeepaliveSend t lane s
  | .keepaliveMiss t lane => Sys2Proof.Machine.execKeepaliveMiss t lane s
  | .dispatch t lane head data tail clean => Sys2Proof.Machine.execDispatch t lane head data tail clean s
  | .ackBlock t lane payload => Sys2Proof.Machine.execAckBlock t lane payload s
  | .nakBlock t lane payload => Sys2Proof.Machine.execNakBlock t lane payload s
  | .initBlock t lane payload => Sys2Proof.Machine.execInitBlock t lane payload s
  | .initSend t lane => Sys2Proof.Machine.execInitSend t lane s
  | .ackSendTimer t lane => Sys2Proof.Machine.execAckSendTimer t lane s
  | .replayTimeout t lane => Sys2Proof.Machine.execReplayTimeout t lane s
  | .nakRepeat t lane => Sys2Proof.Machine.execNakRepeat t lane s
  | .creditWatchdog t lane => Sys2Proof.Machine.execCreditWatchdog t lane s
  | .resyncRepeat t lane => Sys2Proof.Machine.execResyncRepeat t lane s
  | .creditSync t lane => Sys2Proof.Machine.execCreditSync t lane s
  | .dispatchSend t lane => Sys2Proof.Machine.execDispatchSend t lane s
  | .creditRelease t lane blocks => Sys2Proof.Machine.execCreditRelease t lane blocks s
  | .fineBeacon t lane => Sys2Proof.Machine.execFineBeacon t lane s
  | .letterPost t ring buf => Sys2Proof.Machine.execLetterPost t ring buf s
  | .laneReturnTimer t lane reason => Sys2Proof.Machine.execLaneReturnTimer t lane reason s
  | .peerHello t lane payload => Sys2Proof.Machine.execPeerHello t lane payload s
  | .peerHelloSend t lane => Sys2Proof.Machine.execPeerHelloSend t lane s
  | .peerSyncSend t => Sys2Proof.Machine.execPeerSyncSend t s
  | .peerSync t lane sync d0 d1 d2 d3 => Sys2Proof.Machine.execPeerSync t lane sync d0 d1 d2 d3 s
  | .peerFrameMiss t lane => Sys2Proof.Machine.execPeerFrameMiss t lane s
  | .peerLinkLost t lane => Sys2Proof.Machine.execPeerLinkLost t lane s
  | .peerStaleHoldEnd t => Sys2Proof.Machine.execPeerStaleHoldEnd t s
  | .peerTrimStep t => Sys2Proof.Machine.execPeerTrimStep t s
  | .peerWhole t p => Sys2Proof.Machine.execPeerWhole t p s
  | .registerWrite t p off data be => Sys2Proof.Machine.execRegisterWrite t p off data be s
  | .farWriteApply t => Sys2Proof.Machine.execFarWriteApply t s
  | .bar0ReadAbort t off len kind => Sys2Proof.Machine.execBar0ReadAbort t off len kind s
  | .mspiFrame t bytes => Sys2Proof.Machine.execMspiFrame t bytes s
  | .keyUnlock t p value => Sys2Proof.Machine.execKeyUnlock t p value s
  | .keyExpiry t p => Sys2Proof.Machine.execKeyExpiry t p s
  | .snapshot t p => Sys2Proof.Machine.execSnapshot t p s
  | .snapshotDone t => Sys2Proof.Machine.execSnapshotDone t s
  | .scrubPass t bad => Sys2Proof.Machine.execScrubPass t bad s
  | .ringEnable t p ring => Sys2Proof.Machine.execRingEnable t p ring s
  | .ringDisable t p ring => Sys2Proof.Machine.execRingDisable t p ring s
  | .ringStopped t ring => Sys2Proof.Machine.execRingStopped t ring s
  | .letterboxWrite t off data be => Sys2Proof.Machine.execLetterboxWrite t off data be s
  | .letterboxReturnTimer t ring => Sys2Proof.Machine.execLetterboxReturnTimer t ring s
  | .recordDelivery t ring => Sys2Proof.Machine.execRecordDelivery t ring s
  | .moderationTimer t ring => Sys2Proof.Machine.execModerationTimer t ring s
  | .vectorHoldoffEnd t vector => Sys2Proof.Machine.execVectorHoldoffEnd t vector s
  | .msixTableWrite t off value => Sys2Proof.Machine.execMsixTableWrite t off value s
  | .functionLevelReset t => Sys2Proof.Machine.execFunctionLevelReset t s
  | .nop t ring => Sys2Proof.Machine.execNop t ring s
  | .mark t ring => Sys2Proof.Machine.execMark t ring s
  | .repost t ring => Sys2Proof.Machine.execRepost t ring s
  | .heldPushRelease t ring cls => Sys2Proof.Machine.execHeldPushRelease t ring cls s
  | .holdGrace t => Sys2Proof.Machine.execHoldGrace t s
  | .summaryExit t ring => Sys2Proof.Machine.execSummaryExit t ring s
  | .checkpointPass t => Sys2Proof.Machine.execCheckpointPass t s
  | .drainPass t => Sys2Proof.Machine.execDrainPass t s
  | .passComplete t => Sys2Proof.Machine.execPassComplete t s
  | .configGeneration t => Sys2Proof.Machine.execConfigGeneration t s
  | .generationToken t => Sys2Proof.Machine.execGenerationToken t s
  | .endgame t => Sys2Proof.Machine.execEndgame t s
  | .endgameDeadline t => Sys2Proof.Machine.execEndgameDeadline t s
  | .endgameComplete t => Sys2Proof.Machine.execEndgameComplete t s
  | .restore t => Sys2Proof.Machine.execRestore t s
  | .restoreComplete t => Sys2Proof.Machine.execRestoreComplete t s
  | .mramScrub t errors => Sys2Proof.Machine.execMramScrub t errors s
  | .keeperTick t levels upsets => Sys2Proof.Machine.execKeeperTick t levels upsets s
  | .keeperReset t => Sys2Proof.Machine.execKeeperReset t s
  | .keeperResetEnd t => Sys2Proof.Machine.execKeeperResetEnd t s
  | .xtalFail t => Sys2Proof.Machine.execXtalFail t s
  | .guardCompare t chan twinCount same => Sys2Proof.Machine.execGuardCompare t chan twinCount same s
  | .guardCopyTimeout t chan => Sys2Proof.Machine.execGuardCopyTimeout t chan s
  | .keeperVote t => Sys2Proof.Machine.execKeeperVote t s
  | .wakeClear t p value => Sys2Proof.Machine.execWakeClear t p value s
  | .pfailAssert t => Sys2Proof.Machine.execPfailAssert t s
  | .pfailRelease t => Sys2Proof.Machine.execPfailRelease t s
  | .droopTrip t rails => Sys2Proof.Machine.execDroopTrip t rails s
  | .perstFall t => Sys2Proof.Machine.execPerstFall t s
  | .perstRise t => Sys2Proof.Machine.execPerstRise t s
  | .mainRailsPresent t => Sys2Proof.Machine.execMainRailsPresent t s
  | .mainRailsLost t => Sys2Proof.Machine.execMainRailsLost t s
  | .baseUnitsSettled t => Sys2Proof.Machine.execBaseUnitsSettled t s
  | .tokenGrant t => Sys2Proof.Machine.execTokenGrant t s
  | .tokenReturn t => Sys2Proof.Machine.execTokenReturn t s
  | .coreLow t => Sys2Proof.Machine.execCoreLow t s
  | .ledgerCheck t => Sys2Proof.Machine.execLedgerCheck t s
  | .faultClear t p value => Sys2Proof.Machine.execFaultClear t p value s
  | .bbEntryToken t => Sys2Proof.Machine.execBbEntryToken t s
  | .bbSeal t p => Sys2Proof.Machine.execBbSeal t p s
  | .bbUnseal t p => Sys2Proof.Machine.execBbUnseal t p s
  | .bbSelect t p entry => Sys2Proof.Machine.execBbSelect t p entry s
  | .bbCopyDone t => Sys2Proof.Machine.execBbCopyDone t s
  | .bbMark t p value => Sys2Proof.Machine.execBbMark t p value s
  | .partnerSeen t lane => Sys2Proof.Machine.execPartnerSeen t lane s
  | .coreLowEnd t => Sys2Proof.Machine.execCoreLowEnd t s
  | .d3hotChange t entering => Sys2Proof.Machine.execD3hotChange t entering s
  | .pcieLinkChange t up rate width => Sys2Proof.Machine.execPcieLinkChange t up rate width s
  | .testEnChange t level => Sys2Proof.Machine.execTestEnChange t level s
  | .jtagTck t trstN tms tdi => Sys2Proof.Machine.execJtagTck t trstN tms tdi s

end Sys2Proof.Machine
end

