-- ==== Sys2Proof/Safety.lean ====
section
/-! DEFINITION. The terms the claims are stated in: what a safe run is, when a command happens, that a command completes
with an effect, when a port takes a write, and the registers that reports go into. -/

namespace Sys2Proof

/-- The moment at which a command happens (log entry 1). -/
def Instr.time : Instr → Nat
  | .refEdge t _ _ _ _ | .refEdgeTimeout t _ | .bandSearchDone t _ _ | .acquisitionLimit t | .acquisitionSwap t
  | .tbApply t _ | .handoverSwap t _ | .returnOffsetMeasured t _ | .slewStep t | .tbSlew t _ | .tbAccept t _ _
  | .tbLatch t _ | .refSelect t _ _ | .driftLearn t _ | .holdoverTick t | .coldCoast t | .autoReturn t | .todEdge ⟨t, _⟩
  | .todMiss t | .runtSwallowed t | .tbSpan t | .thermRead t _ | .inputTransition t _ _ | .zoneSettle t _ _
  | .blankTrigEdge t _ _ | .blankWindowEnd t _ | .feSample t _ _ | .feAlarmWrite t _ _ _ | .bucketRefill t _
  | .thinRateDecay t | .calHit t _ _ | .calWindowDone t _ | .mailbagFlush t _ | .ovflWrite t _ | .idleAnchor t _
  | .mailbagPop t _ | .engineEdge t _ | .quadDecide t _ | .descriptorFetch t _ _ | .fetchFailed t _ _ | .declare t _
  | .channelLive t _ | .redeclare t _ | .redeclareApply t _ | .pause t _ | .pauseApply t _ | .resume t _
  | .resumeGap t _ | .retire t _ | .retireApply t _ | .cadenceInstant t _ | .cadenceOutEnd t _
  | .cadenceEnable t _ _ | .cadenceDisable t _ _ | .cadenceGridWrite t _ _ _ _ | .instantResolve t _
  | .bracketWaitExpiry t _ | .recipeLoad t _ _ | .coefLoad t _ _ | .loadApply t | .devSetup t _ | .histoSetup t _
  | .statsRead t _ | .statsTargetApply t _ | .devReport t _ | .histoComplete t _ _ | .autoPeriodEnd t _ _
  | .loadWindowEnd t _ | .castlingBegin t | .castlingSealAck t _ | .castlingCopyDone t _ _ | .castleToken t
  | .place t _ | .placeRead t _ | .laneEnable t _ _ | .laneDisable t _ _ | .laneProbe t _ | .probeDone t _ _
  | .backoffEnd t _ | .laneRetry t _ _ | .laneRetrain t _ _ | .trainingBlock t _ _ | .tapRequestTimeout t _
  | .rxReady t _ _ | .trainLimit t _ | .alignBlock t _ _ | .alignLimit t _ | .loopEcho t _ | .creditLimit t _
  | .recoverLimit t _ | .lossOfSignal t _ | .invalidSyncHeader t _ | .keepaliveBlock t _ _ | .adaptFreeze t _
  | .keepaliveSend t _ | .keepaliveMiss t _ | .dispatch t _ _ _ _ _ | .ackBlock t _ _ | .nakBlock t _ _
  | .initBlock t _ _ | .initSend t _ | .ackSendTimer t _ | .replayTimeout t _ | .nakRepeat t _ | .creditWatchdog t _
  | .resyncRepeat t _ | .creditSync t _ | .dispatchSend t _ | .creditRelease t _ _ | .fineBeacon t _
  | .letterPost t _ _ | .laneReturnTimer t _ _ | .peerHello t _ _ | .peerHelloSend t _ | .peerSyncSend t
  | .peerSync t _ _ _ _ _ _ | .peerFrameMiss t _ | .peerLinkLost t _ | .peerStaleHoldEnd t | .peerTrimStep t
  | .peerWhole t _ | .registerWrite t _ _ _ _ | .farWriteApply t | .bar0ReadAbort t _ _ _ | .mspiFrame t _
  | .keyUnlock t _ _ | .keyExpiry t _ | .snapshot t _ | .snapshotDone t | .scrubPass t _ | .ringEnable t _ _
  | .ringDisable t _ _ | .ringStopped t _ | .letterboxWrite t _ _ _ | .letterboxReturnTimer t _
  | .recordDelivery t _ | .moderationTimer t _ | .vectorHoldoffEnd t _ | .msixTableWrite t _ _
  | .functionLevelReset t | .nop t _ | .mark t _ | .repost t _ | .heldPushRelease t _ _ | .holdGrace t
  | .summaryExit t _ | .checkpointPass t | .drainPass t | .passComplete t | .configGeneration t | .generationToken t
  | .endgame t | .endgameDeadline t | .endgameComplete t | .restore t | .restoreComplete t | .mramScrub t _
  | .keeperTick t _ _ | .keeperReset t | .keeperResetEnd t | .xtalFail t | .guardCompare t _ _ _
  | .guardCopyTimeout t _ | .keeperVote t | .wakeClear t _ _ | .pfailAssert t | .pfailRelease t | .droopTrip t _
  | .perstFall t | .perstRise t | .mainRailsPresent t | .mainRailsLost t | .baseUnitsSettled t | .tokenGrant t
  | .tokenReturn t | .coreLow t | .ledgerCheck t | .faultClear t _ _ | .bbEntryToken t | .bbSeal t _ | .bbUnseal t _
  | .bbSelect t _ _ | .bbCopyDone t | .bbMark t _ _ | .partnerSeen t _ | .coreLowEnd t | .d3hotChange t _
  | .pcieLinkChange t _ _ _ | .testEnChange t _ | .jtagTck t _ _ _ => t

open Machine

/-- The registers that a command is a write of (R309, R310, R316). -/
def Instr.target : Instr → List Nat
  | .tbApply _ _ | .tbSlew _ _ | .tbAccept _ _ _ | .tbLatch _ _ => [Reg.TB_CMD]
  | .refSelect _ _ _ => [Reg.TB_CTRL]
  | .feAlarmWrite _ _ n _ => [Reg.FE_ALARM n]
  | .cadenceEnable _ _ c | .cadenceDisable _ _ c => [Reg.CAD_CTRL c]
  | .cadenceGridWrite _ _ c phase _ => [if phase then Reg.CAD_PHASE c else Reg.CAD_PERIOD c]
  | .laneEnable _ _ n | .laneDisable _ _ n => [Reg.COU_CTRL n]
  | .laneRetry _ _ n | .laneRetrain _ _ n => [Reg.COU_CMD n]
  | .peerWhole _ _ => [Reg.PEER_CMD]
  | .keyUnlock _ _ _ => [Reg.GBL_KEY]
  | .snapshot _ _ => [Reg.GBL_SNAP_CMD]
  | .ringEnable _ _ n | .ringDisable _ _ n => [Reg.RING_CFG n]
  | .wakeClear _ _ _ => [Reg.KPR_WAKE_STATUS]
  | .faultClear _ _ _ => [Reg.FLT_ACTIVE]
  | .bbSeal _ _ => [Reg.FLT_BB_CMD]
  | .bbUnseal _ _ => [Reg.FLT_BB_UNSEAL]
  | .bbSelect _ _ _ => [Reg.FLT_BB_SEL]
  | .bbMark _ _ _ => [Reg.FLT_BB_MARK]
  | .registerWrite _ p off data _ => (List.range data.length).filterMap fun i =>
      (if p = .host then regAt (off / 4 * 4 + 4 * i) else mspiAt (off / 4 * 4 + 4 * i)).map Hit.reg
  | _ => []

namespace Machine

/-- The step answers a next state. -/
def State.completes (s : State) : Prop := ∃ t, step s = .next t

/-- Device time lies within its 72 bits (R31, R65). -/
abbrev State.timeInSpan (s : State) : Prop := s.devTime ≤ spanMax

/-- The command completes, and what it leaves satisfies `P`. -/
def Does (c : Instr) (s : State) (P : State → Prop) : Prop := ∃ u, exec c s = .next u ∧ P u

/-- The command finds nothing to act on: only time passes. -/
def Idles (c : Instr) (s : State) : Prop := exec c s = .next (s.advance c.time)

/-- A port takes writes (R310, R315, R330): the hub runs, not in the safe state, and the MSPI may write. -/
abbrev State.portReady (s : State) (p : Port) : Prop :=
  s.pwr.st = .run ∧ s.gbl.safe = false ∧ (p = .mspi → s.bit Reg.GBL_CTRL 0 = true)

/-- The registers that a raised fault or a black-box entry may write (R445, R456): FLT_LAST, its parameter and times, the
fault counters, FLT_BB_STATUS and FLT_BB_SEQ. -/
def reportReg (a : Nat) : Bool := (decide (0x12008 ≤ a) && decide (a < 0x12044)) || a == 0x12060 || a == 0x12064

end Machine

end Sys2Proof
end

