-- ==== Sys2Proof/WellFormed.lean ====
section
/-! DEFINITION. The commands that the outside can issue: list operands have the lengths that the spec's units have,
and offsets lie in their windows. -/

namespace Sys2Proof

/-- A command is well formed. A fetch reads 1 to 8 descriptors (R341); a failed one has read fewer (R343); every engine
reports one load (R221); every dword of a write has its byte enables (R310); a write to BAR2 or BAR4 is to a dword within
it (R333, R334). -/
def Instr.wf : Instr → Bool
  | .descriptorFetch _ _ descs => decide (1 ≤ descs.length ∧ descs.length ≤ 8)
  | .fetchFailed _ _ descs => decide (descs.length ≤ 7)
  | .loadWindowEnd _ loads => decide (loads.length = 16)
  | .registerWrite _ _ _ data be => decide (1 ≤ data.length ∧ be.length = data.length)
  | .letterboxWrite _ off _ _ => decide (off < 0x40000 ∧ off % 4 = 0)
  | .msixTableWrite _ off _ => decide (off < 0x4000 ∧ off % 4 = 0)
  | _ => true

end Sys2Proof
end

