-- ==== Sys2Proof/Certificates/Slice0/Obligations.lean ====
section
/-! DEFINITION. What is claimed of the hub: for every command, its own effect and when it finds nothing to do; for each family
what its commands leave alone; and the rules of the machine as a whole. -/

open Sys2Proof Sys2Proof.Machine

/-! ### The time base (02) -/

/-- R41, R42, R54, R37, R59: the edges of a reference, a reference that stays away, and the return to REFA. An unqualified
reference counts its good periods to 64 and is then qualified; a qualified one that breaks the rules of R41 is
disqualified, and the hub coasts if it was injected; an injected edge within the lock window is kept as P0, one outside is
counted; an edge of the reference being acquired counts towards the lock. -/
def Obligations.ReferenceRowsComplete : Prop :=
  (∀ (s : State) (t : Nat) (r : Ref) (err : Int) (good : Bool) (off : Option Int), (s.tb.ref r).ok = false →
    Does (.refEdge t r err good off) s fun u =>
      (u.tb.ref r).run = (if good then min 64 ((s.tb.ref r).run + 1) else 0) ∧
      (u.tb.ref r).ok = (good && decide (63 ≤ (s.tb.ref r).run))) ∧
  (∀ (s : State) (t : Nat) (r : Ref) (err : Int) (good : Bool) (off : Option Int), (s.tb.ref r).ok = true →
    s.edgeFails r err off = true →
    Does (.refEdge t r err good off) s fun u =>
      (u.tb.ref r).ok = false ∧ (s.tb.injects r = true → u.tb.st = .coasting ∧ u.tb.slewRemain = 0)) ∧
  (∀ (s : State) (t : Nat) (r : Ref) (err : Int) (good : Bool) (off : Option Int), (s.tb.ref r).ok = true →
    s.edgeFails r err off = false → s.tb.injects r = true →
    Does (.refEdge t r err good off) s fun u =>
      (u.tb.ref r).ok = true ∧
      (if err.natAbs ≤ s.fld Reg.TB_LOCK 16 8 then
        (u.tb.ref r).outRun = 0 ∧ u.tb.lastErr = err ∧
        (s.tb.st = .locked → s.tb.ret = .none → u.tb.p0 =
          some ((s.advance t).devTime * (s.tb.ref r).den % (512 * (s.tb.ref r).num), (s.tb.ref r).den))
      else (u.tb.ref r).outRun = (s.tb.ref r).outRun + 1 ∧ u.tb.lastErr = s.tb.lastErr ∧ u.tb.p0 = s.tb.p0)) ∧
  (∀ (s : State) (t : Nat) (r : Ref) (err : Int) (good : Bool) (off : Option Int), (s.tb.ref r).ok = true →
    s.edgeFails r err off = false → s.tb.injects r = false → s.tb.acqRef = r → s.tb.shadow = .acquiring →
    Does (.refEdge t r err good off) s fun u =>
      let n := if err.natAbs ≤ s.fld Reg.TB_LOCK 16 8 then s.tb.lockCount + 1 else 0
      (s.fld Reg.TB_LOCK 0 16 ≤ n → u.tb.shadow = .locked ∧ u.tb.acqFail = 0) ∧
      (n < s.fld Reg.TB_LOCK 0 16 → u.tb.shadow = .acquiring ∧ u.tb.lockCount = n)) ∧
  (∀ (s : State) (t : Nat) (r : Ref),
    ((s.advance t).past (.refEdge r) (s.tb.ref r).lost = true →
      Does (.refEdgeTimeout t r) s fun u => (u.tb.ref r).ok = false ∧ (u.tb.ref r).run = 0) ∧
    ((s.advance t).past (.refEdge r) (s.tb.ref r).lost = false → Idles (.refEdgeTimeout t r) s)) ∧
  (∀ (s : State) (t : Nat), s.bit Reg.TB_CTRL 2 = true → s.selRef = .refA → s.tb.liveRef = .refB → s.tb.refA.ok = true →
    s.tb.refA.since + s.fld Reg.TB_ACQ 16 8 * secQ ≤ max s.now t →
    (s.tb.st = .locked ∨ s.tb.st = .slewing →
      Does (.autoReturn t) s fun u => u.tb.st = .handover ∧ u.tb.handoverOf = some .refSwitch ∧ u.tb.acqRef = .refA ∧
        u.tb.shadow = .searching) ∧
    (s.tb.st = .coasting →
      Does (.autoReturn t) s fun u => u.tb.st = .coasting ∧ u.tb.acqRef = .refA ∧ u.tb.shadow = .searching))

/-- R36, R38, R39, R53, R63: a band search ends in the acquisition; an acquisition limit starts a new search and counts
(TB_NOLOCK at the fourth failure in a row); at the first lock the line becomes live with device time loaded; and the cold
coast on a learned rate. -/
def Obligations.AcquisitionRowsComplete : Prop :=
  (∀ (s : State) (t : Nat) (coarse : Fin 32) (fine : Fin 64),
    (s.tb.shadow = .searching → Does (.bandSearchDone t coarse fine) s fun u =>
      u.tb.shadow = .acquiring ∧ u.tb.lockCount = 0 ∧
      (if s.tb.line then u.tb.band0 else u.tb.band1) = (coarse.val, fine.val) ∧
      u.tb.st = (if s.tb.st = .searching then .acquiring else s.tb.st)) ∧
    (s.tb.shadow ≠ .searching → Idles (.bandSearchDone t coarse fine) s)) ∧
  (∀ (s : State) (t : Nat),
    (s.tb.shadow = .searching ∨ s.tb.shadow = .acquiring → (s.advance t).past .search (s.fld Reg.TB_ACQ 0 8 * msQ) = true →
      Does (.acquisitionLimit t) s fun u =>
      u.tb.shadow = .searching ∧ u.tb.acqRef = s.tb.acqRef ∧ u.tb.acqFail = min 15 (s.tb.acqFail + 1) ∧
      u.tb.st = (if s.tb.st = .acquiring ∨ s.tb.st = .stopped then .searching else s.tb.st) ∧
      (s.tb.acqFail = 3 → u.flt.active.getLsbD FaultCode.tbNolock.cls = true ∧ u.flt.severe = true)) ∧
    (s.tb.shadow = .idle ∨ s.tb.shadow = .locked ∨ (s.advance t).past .search (s.fld Reg.TB_ACQ 0 8 * msQ) = false →
      Idles (.acquisitionLimit t) s)) ∧
  (∀ (s : State) (t d0 : Nat), s.tb.d0 = some d0 → s.tb.st = .acquiring → s.tb.shadow = .locked →
    Does (.acquisitionSwap t) s fun u =>
      u.tb.st = .locked ∧ u.tb.shadow = .idle ∧ u.tb.line = !s.tb.line ∧ u.tb.liveRef = s.tb.acqRef ∧
      u.devTime = max s.devTime (min spanMax (s.startTime d0)) ∧
      (s.bit Reg.TB_TOD_CTRL 0 = false → u.tb.aligned = true ∧ u.tb.u0 = 0)) ∧
  (∀ (s : State) (t : Nat), s.tb.d0 = none ∨ s.tb.st ≠ .acquiring ∨ s.tb.shadow ≠ .locked → Idles (.acquisitionSwap t) s) ∧
  (∀ (s : State) (t d0 : Nat), s.tb.d0 = some d0 → s.bit Reg.TB_CTRL 3 = true → s.tb.st = .stopped →
    s.tb.granted = true → s.tb.drift ≠ [] → s.tb.refA.ok = false → s.tb.refB.ok = false →
    s.tb.started + s.fld Reg.TB_ACQ 8 8 * msQ ≤ max s.now t →
    Does (.coldCoast t) s fun u =>
      u.tb.st = .coasting ∧ u.tb.cold = true ∧ u.tb.hold = s.tb.u0 * 100000000 ∧
      u.devTime = max s.devTime (min spanMax (s.startTime d0)))

/-- R32, R43, R46, R48, R54, R56, R61, R62: the handover and the return of lines whose edges lie within 4 Q, the measured offset and
its correction (slew, hold or forward step), a step of a slew, and TOD_IN: its first edge aligns, later ones are checked. -/
def Obligations.CorrectionRowsComplete : Prop :=
  (∀ (s : State) (t : Nat) (misalign : Int),
    (s.tb.st = .handover → s.tb.shadow = .locked → misalign.natAbs ≤ 4 → Does (.handoverSwap t misalign) s fun u =>
      u.tb.line = !s.tb.line ∧ u.tb.liveRef = s.tb.acqRef ∧
      u.fld Reg.TB_CNT 24 8 = (s.fld Reg.TB_CNT 24 8 + 1) % 256 ∧
      u.fld (Reg.GBL_EPOCH 0) 16 16 = (s.fld (Reg.GBL_EPOCH 0) 16 16 + 1) % 65536 ∧
      (s.tb.selPending = false → u.tb.st = (if s.tb.slewRemain = 0 then .locked else .slewing) ∧ u.tb.ret = .measuring)) ∧
    (s.tb.st ≠ .handover ∨ s.tb.shadow ≠ .locked ∨ 4 < misalign.natAbs → Idles (.handoverSwap t misalign) s)) ∧
  (∀ (s : State) (t edge : Nat) (gap : Int), s.tb.shadow = .locked → s.tb.st = .coasting → s.tb.ret = .measuring → gap.natAbs ≤ 4 →
    (s.bit Reg.TB_RET_POLICY 1 = true → s.bit Reg.TB_TOD_CTRL 0 = true →
      Does (.returnOffsetMeasured t ⟨edge, gap⟩) s fun u => u.tb.ret = .awaitTod ∧ u.tb.st = .coasting) ∧
    (s.bit Reg.TB_RET_POLICY 1 = false ∨ s.bit Reg.TB_TOD_CTRL 0 = false → ∀ p0, s.tb.p0 = some p0 →
      Does (.returnOffsetMeasured t ⟨edge, gap⟩) s fun u =>
        let off := residue p0 edge (s.tb.ref s.tb.acqRef).num (s.tb.ref s.tb.acqRef).den
        let hold := (s.fld Reg.TB_RET_SLEW_MAX 0 48 : Int) < off ∧ 0 < off ∧ s.bit Reg.TB_RET_POLICY 0 = true
        let step := (s.fld Reg.TB_RET_SLEW_MAX 0 48 : Int) < off ∧ 0 < off ∧ s.bit Reg.TB_RET_POLICY 0 = false
        (hold → u.tb.st = .coasting ∧ u.tb.ret = .held ∧ u.tb.line = s.tb.line ∧ u.reg Reg.TB_OFFSET = wordOf off) ∧
        (¬hold → u.tb.ret = .none ∧ u.tb.line = !s.tb.line ∧ u.tb.liveRef = s.tb.acqRef ∧ u.tb.shadow = .idle) ∧
        (step → u.devTime = min spanMax ((s.advance t).devTime + (off - off % 512).toNat) ∧ u.tb.slewRemain = off % 512 ∧
          u.tb.st = (if off % 512 = 0 then .locked else .slewing)) ∧
        (¬hold → ¬step → u.devTime = (s.advance t).devTime ∧ u.tb.slewRemain = off ∧ u.reg Reg.TB_OFFSET = wordOf off ∧
          u.tb.st = (if off = 0 then .locked else .slewing)))) ∧
  (∀ (s : State) (t edge : Nat) (gap : Int),
    (s.tb.st = .coasting → 4 < gap.natAbs → Idles (.returnOffsetMeasured t ⟨edge, gap⟩) s) ∧
    (s.tb.ret = .none ∨ s.tb.ret = .awaitTod → Idles (.returnOffsetMeasured t ⟨edge, gap⟩) s)) ∧
  (∀ (s : State) (t : Nat), s.tb.st = .slewing → s.tb.slewRemain ≠ 0 → s.slewDue ≤ (s.advance t).devTime →
    Does (.slewStep t) s fun u =>
      let k := max (-8) (min 8 s.tb.slewRemain)
      u.tb.slewRemain = s.tb.slewRemain - k ∧ u.tb.slewTotal = s.tb.slewTotal + k ∧ u.tb.slewN = s.tb.slewN + 1 ∧
      u.tb.steps = (s.boundaryTo (s.advance t).devTime, k) :: s.tb.steps ∧ u.devTime = (s.advance t).devTime ∧
      u.tb.st = (if s.tb.slewRemain = k then .locked else .slewing)) ∧
  (∀ (s : State) (t : Nat), (s.tb.st ≠ .slewing ∨ s.tb.slewRemain = 0 ∨ (s.advance t).devTime < s.slewDue) →
    Idles (.slewStep t) s) ∧
  (∀ (s : State) (t : Nat) (rising : Bool), s.todActive rising = true → s.tb.ret ≠ .awaitTod → s.tb.ret ≠ .held →
    s.tb.st = .locked → (s.tb.aligned = false ∨ s.tb.todFirst = true) →
    Does (.todEdge ⟨t, rising⟩) s fun u =>
      let off := todOffset (s.fld Reg.TB_TOD_OFFSET 0 41) (s.advance t).devTime
      u.reg Reg.TB_OFFSET = wordOf off ∧ u.tb.todRejects = 0 ∧
      (off ≤ (s.fld Reg.TB_RET_SLEW_MAX 0 48 : Int) → u.tb.aligned = true ∧ u.tb.u0 = 0 ∧ u.tb.todFirst = false) ∧
      (off ≠ 0 → off ≤ (s.fld Reg.TB_RET_SLEW_MAX 0 48 : Int) → u.tb.st = .slewing ∧ u.tb.slewRemain = off) ∧
      ((s.fld Reg.TB_RET_SLEW_MAX 0 48 : Int) < off → 0 < off → s.bit Reg.TB_RET_POLICY 0 = true →
        u.tb.st = .coasting ∧ u.tb.ret = .held ∧ u.tb.todHold = true)) ∧
  (∀ (s : State) (t : Nat) (rising : Bool), s.todActive rising = true → s.tb.ret ≠ .awaitTod → s.tb.ret ≠ .held →
    s.tb.st = .locked → s.tb.aligned = true → s.tb.todFirst = false →
    Does (.todEdge ⟨t, rising⟩) s fun u =>
      let off := todOffset (s.fld Reg.TB_TOD_OFFSET 0 41) (s.advance t).devTime
      if off.natAbs ≤ s.fld Reg.TB_TOD_TOL 0 32 then
        u.tb.todRejects = 0 ∧ u.tb.aligned = true ∧
        (off.natAbs ≤ s.fld Reg.TB_LOCK 16 8 → u.tb.st = .locked) ∧
        (s.fld Reg.TB_LOCK 16 8 < off.natAbs → u.tb.st = .slewing ∧ u.tb.slewRemain = off)
      else
        u.fld Reg.TB_TOD_STATUS 0 16 = min 65535 (s.fld Reg.TB_TOD_STATUS 0 16 + 1) ∧ u.tb.st = .locked ∧
        u.tb.aligned = !decide (s.tb.todRejects = 2)) ∧
  (∀ (s : State) (t : Nat) (rising : Bool), s.bit Reg.TB_TOD_CTRL 0 = false ∨ s.tb.st.live = false ∨
    rising = s.bit Reg.TB_TOD_CTRL 1 → Idles (.todEdge ⟨t, rising⟩) s) ∧
  (∀ (s : State) (t : Nat),
    (s.bit Reg.TB_TOD_CTRL 0 = true → s.tb.aligned = true → Does (.todMiss t) s fun u =>
      u.fld Reg.TB_TOD_STATUS 16 16 = min 65535 (s.fld Reg.TB_TOD_STATUS 16 16 + 1) ∧ u.tb = s.tb) ∧
    (s.bit Reg.TB_TOD_CTRL 0 = false ∨ s.tb.aligned = false → Idles (.todMiss t) s))

/-- R45, R50, R51, R52, R65, R450: what is learned in LOCKED, the holdover bound's growth once in each microsecond, a swallowed pulse, the end of the span,
and a reading of the die temperature. -/
def Obligations.HoldoverRowsComplete : Prop :=
  (∀ (s : State) (t : Nat) (word : Dword) (b since : Nat), s.tb.bin = some (b, since) → s.tb.st = .locked →
    since + 10 * secQ ≤ max s.now t →
    Does (.driftLearn t word) s fun u => tget? u.tb.drift b = some word ∧ u.tb.word = word ∧ u.pst.changed = true ∧
      u.tb.saved = some ((if s.tb.line then s.tb.band1 else s.tb.band0).1, (if s.tb.line then s.tb.band1 else s.tb.band0).2, word)) ∧
  (∀ (s : State) (t : Nat) (word : Dword), s.tb.bin = none ∨ s.tb.st ≠ .locked → Idles (.driftLearn t word) s) ∧
  (∀ (s : State) (t : Nat),
    (s.tb.st = .coasting ∨ s.tb.st = .handover → s.tb.holdDue ≤ (s.advance t).devTime → Does (.holdoverTick t) s fun u =>
      let r := if s.tb.binLearned && !s.tb.cold then s.fld Reg.TB_HOLD_RATE 0 16 else s.fld Reg.TB_HOLD_RATE 16 16
      u.tb.hold = s.tb.hold + r * usQ ∧ u.tb.holdLog = (s.tb.holdDue, u.tb.hold) :: s.tb.holdLog) ∧
    (s.tb.st ≠ .coasting → s.tb.st ≠ .handover → Idles (.holdoverTick t) s) ∧
    ((s.advance t).devTime < s.tb.holdDue → Idles (.holdoverTick t) s)) ∧
  (∀ (s : State) (t : Nat),
    (s.tb.st.live = true → Does (.runtSwallowed t) s fun u =>
      u.fld Reg.TB_CNT 16 8 = min 255 (s.fld Reg.TB_CNT 16 8 + 1) ∧ u.flt.active.getLsbD 1 = true ∧
      u.flt.severe = true) ∧
    (s.tb.st.live = false → Idles (.runtSwallowed t) s)) ∧
  (∀ (s : State) (t : Nat),
    ((s.advance t).devTime = spanMax → s.tb.spanRaised = false → Does (.tbSpan t) s fun u =>
      u.tb.spanRaised = true ∧ u.devTime = spanMax ∧ u.flt.active.getLsbD 1 = true ∧ u.flt.severe = true) ∧
    ((s.advance t).devTime ≠ spanMax ∨ s.tb.spanRaised = true → Idles (.tbSpan t) s)) ∧
  (∀ (s : State) (t : Nat) (raw : BitVec 12),
    (s.pwr.st = .run → (s.advance t).past .therm (100 * usQ) = true → Does (.thermRead t raw) s fun u =>
      u.reg Reg.TB_TEMP = raw.setWidth 64 ∧ (s.flt.tempSeen = false → u.reg Reg.FLT_TEMP_MAX = raw.setWidth 64) ∧
      (-440 ≤ raw.toInt ∧ raw.toInt ≤ 1200 → u.tb.temp = raw.toInt ∧ (∃ since, u.tb.bin = some (binOf raw.toInt, since)) ∧
        (s.tb.st = .coasting → u.tb.steered = steerWord s.tb.drift raw.toInt)) ∧
      (raw.toInt < -440 ∨ 1200 < raw.toInt → u.tb = s.tb ∧ u.flt.active.getLsbD FaultCode.thermSensor.cls = true) ∧
      (u.flt.warnRun = if 8 * sx 8 (s.fld Reg.FLT_THERM 0 8) < raw.toInt then min 10 (s.flt.warnRun + 1) else 0)) ∧
    (s.pwr.st ≠ .run ∨ (s.advance t).past .therm (100 * usQ) = false → Idles (.thermRead t raw) s))

/-- R47, R48, R58, R60, R66: the commands of TB_CMD and the selection of a reference, through a port that takes writes. A
command that the time base's state refuses is answered with TB_CMD_STATE, or with TB_STEP_BACK. -/
def Obligations.TbCommandRowsComplete : Prop :=
  (∀ (s : State) (t : Nat) (p : Port), s.portReady p → Does (.tbApply t p) s fun u => u.tb.applyPend = true) ∧
  (∀ (s : State) (t : Nat) (p : Port), s.portReady p →
    let req := sx 64 (s.reg Reg.TB_SLEW_REQ).toNat
    (s.tb.st = .locked → req ≠ 0 → Does (.tbSlew t p) s fun u =>
      u.tb.st = .slewing ∧ u.tb.slewRemain = req ∧ u.tb.slewTotal = 0) ∧
    (s.tb.st = .slewing → Does (.tbSlew t p) s fun u =>
      u.tb.slewRemain = s.tb.slewRemain + req ∧ u.tb.st = (if s.tb.slewRemain + req = 0 then .locked else .slewing)) ∧
    (s.tb.st ≠ .locked → s.tb.st ≠ .slewing → Does (.tbSlew t p) s fun u =>
      u.tb = s.tb ∧ u.reg Reg.FLT_LAST = BitVec.ofNat 64 FaultCode.tbCmdState.code)) ∧
  (∀ (s : State) (t : Nat) (p : Port) (byStep : Bool), s.portReady p →
    let off := sx 64 (s.reg Reg.TB_OFFSET).toNat
    (s.tb.ret = .held → byStep = false → Does (.tbAccept t p byStep) s fun u =>
      u.tb.ret = .none ∧ u.tb.line = !s.tb.line ∧ u.tb.slewRemain = off ∧
      u.tb.st = (if off = 0 then .locked else .slewing)) ∧
    (s.tb.ret = .held → byStep = true → 0 ≤ off → Does (.tbAccept t p byStep) s fun u =>
      u.tb.ret = .none ∧ u.tb.line = !s.tb.line ∧ u.tb.slewRemain = off % 512 ∧
      u.devTime = min spanMax ((s.advance t).devTime + (off - off % 512).toNat)) ∧
    (s.tb.ret = .held → byStep = true → off < 0 → Does (.tbAccept t p byStep) s fun u =>
      u.tb = s.tb ∧ u.reg Reg.FLT_LAST = BitVec.ofNat 64 FaultCode.tbStepBack.code) ∧
    (s.tb.ret ≠ .held → Does (.tbAccept t p byStep) s fun u =>
      u.tb = s.tb ∧ u.reg Reg.FLT_LAST = BitVec.ofNat 64 FaultCode.tbCmdState.code)) ∧
  (∀ (s : State) (t : Nat) (p : Port), s.portReady p → Does (.tbLatch t p) s fun u =>
    u.reg Reg.TB_LATCH_LO = BitVec.ofNat 64 (s.advance t).devTime ∧
    u.fld Reg.TB_LATCH_HI 0 8 = (s.advance t).devTime / 2 ^ 64 % 256 ∧
    u.fld Reg.TB_LATCH_HI 8 16 = (s.fld Reg.TB_LATCH_HI 8 16 + 1) % 65536) ∧
  (∀ (s : State) (t : Nat) (p : Port) (sel : Ref), s.portReady p → Does (.refSelect t p sel) s fun u =>
    u.selRef = sel ∧
    (s.selRef ≠ sel → (s.tb.ref sel).ok = false → u.tb.selPending = true) ∧
    (s.selRef ≠ sel → (s.tb.ref sel).ok = true → (s.tb.st = .locked ∨ s.tb.st = .slewing) → s.tb.liveRef ≠ sel →
      u.tb.st = .handover ∧ u.tb.acqRef = sel ∧ u.tb.shadow = .searching))

/-! ### Front ends and capture (03, 04) -/

/-- R71, R72, R74, R76, R78 to R82, R86, R89, R93: a voltage moves a comparator's zone, and the change is an accepted edge outside
blanking and a blanked one inside; a settled input has its zone; a trigger opens a window and its end closes it, once no
stamp can lie inside it; a sample decides the zone once at each instant; a write to FE_ALARM re-evaluates the alarm at
once. -/
def Obligations.FrontEndRowsComplete : Prop :=
  (∀ (s : State) (t : Nat) (n : Fin 256) (v : Int) (code : Fin 512), (s.advance t).fePowered n = true → s.feOn n = true →
    (s.input n).settling = false → s.feBit n 3 = false →
    (Does (.inputTransition t n ⟨v, code⟩) s fun u => (u.input n).zone = (s.feDecide n v).zone) ∧
    (s.tb.st.live = true → (s.input n).zone ≠ .unresolved → (s.feDecide n v).zone ≠ (s.input n).zone →
      (s.input n).cross = none → (s.input n).windows = [] →
      Does (.inputTransition t n ⟨v, code⟩) s fun u =>
        (u.input n).accepted = (s.feDecide n v).zone ∧
        u.fld (Reg.CAP_CNT_IN n) 0 48 = (s.fld (Reg.CAP_CNT_IN n) 0 48 + 1) % 2 ^ 48) ∧
    (∀ a b, s.tb.st.live = true → (s.input n).zone ≠ .unresolved → (s.feDecide n v).zone ≠ (s.input n).zone →
      (s.input n).cross = none → (s.input n).windows = [(a, b)] →
      (let st := (s.advance t).stampOf n (decide ((s.input n).zone.code < (s.feDecide n v).zone.code)) code.val; a ≤ st ∧ st < b) →
      Does (.inputTransition t n ⟨v, code⟩) s fun u =>
        (u.input n).accepted = (s.input n).accepted ∧
        u.fld (Reg.CAP_CNT_IN n) 0 48 = s.fld (Reg.CAP_CNT_IN n) 0 48 ∧
        u.fld (Reg.FE_BLANKED n) 0 32 = (s.fld (Reg.FE_BLANKED n) 0 32 + 1) % 2 ^ 32)) ∧
  (∀ (s : State) (t : Nat) (n : Fin 256) (v : Int),
    ((s.advance t).fePowered n = true → s.feOn n = true → (s.input n).settling = true →
      Does (.zoneSettle t n v) s fun u => (u.input n).settling = false ∧
        (s.feBit n 3 = false → (u.input n).zone = (s.feDecide n v).zone)) ∧
    ((s.input n).settling = false ∨ s.feOn n = false → Idles (.zoneSettle t n v) s)) ∧
  (∀ (s : State) (t : Nat) (pin : Fin 4) (rising : Bool),
    Does (.blankTrigEdge t pin rising) s fun u =>
      u.trig = (if rising then s.trig ||| (1#4 <<< pin.val) else s.trig &&& ~~~(1#4 <<< pin.val)) ∧
      (∀ n : Fin 256, s.tb.st.live = true → s.fld (Reg.FE_BLANK_SRC n) 0 3 = pin.val + 2 →
        s.bit (Reg.FE_BLANK_SRC n) 3 = !rising → s.fld (Reg.FE_BLANK n) 0 16 ≠ 0 → (s.input n).windows = [] →
        let start := s.boundaryTo (s.advance t).devTime + 512 * s.fld (Reg.FE_BLANK n) 16 16
        (u.input n).windows = [(start, start + 512 * s.fld (Reg.FE_BLANK n) 0 16)])) ∧
  (∀ (s : State) (t : Nat) (n : Fin 256),
    (∀ a e, (s.input n).windows = [(a, e)] → e ≤ (s.advance t).stampFloor n →
      Does (.blankWindowEnd t n) s fun u => (u.input n).windows = [] ∧
        (s.tb.st.live = true → (s.input n).zone ≠ .unresolved → (s.input n).accepted ≠ .unresolved →
          (s.input n).zone ≠ (s.input n).accepted →
          (u.input n).accepted = (s.input n).zone ∧
          u.fld (Reg.CAP_CNT_IN n) 0 48 = (s.fld (Reg.CAP_CNT_IN n) 0 48 + 1) % 2 ^ 48)) ∧
    ((s.advance t).mayMerge n = false →
      Does (.blankWindowEnd t n) s fun u => (u.input n).alarmDue = none ∧
        ((s.input n).windows = [] → u.reg (Reg.CAP_CNT_IN n) = s.reg (Reg.CAP_CNT_IN n))) ∧
    ((s.input n).windows = [] ∨ (∃ a e r, (s.input n).windows = (a, e) :: r ∧ (s.advance t).stampFloor n < e) →
      (s.input n).alarmDue = none → Idles (.blankWindowEnd t n) s)) ∧
  (∀ (s : State) (t : Nat) (n : Fin 256) (v : Int),
    ((s.advance t).fePowered n = true → s.feOn n = true → s.feBit n 3 = true → (s.input n).settling = false →
      s.tb.st.live = true → s.farFld (Reg.FE_SAMP n) 0 16 ≠ 0 →
      let p := 131072 * s.farFld (Reg.FE_SAMP n) 0 16
      let at_ := (s.advance t).devTime / p * p
      ((s.input n).lastSample ≠ some at_ →
        Does (.feSample t n v) s fun u => (u.input n).zone = (s.feDecide n v).zone ∧ (u.input n).lastSample = some at_) ∧
      ((s.input n).lastSample = some at_ → Idles (.feSample t n v) s)) ∧
    (s.feOn n = false ∨ s.feBit n 3 = false ∨ (s.input n).settling = true ∨ s.tb.st.live = false →
      Idles (.feSample t n v) s)) ∧
  (∀ (s : State) (t : Nat) (p : Port) (n : Fin 256) (value : Dword), s.portReady p →
    Does (.feAlarmWrite t p n value) s fun u =>
      u.reg (Reg.FE_ALARM n) &&& 0x3F1F = (value &&& 0x3F1F).setWidth 64 ∧ (u.input n).alarmDue = none ∧
      (u.input n).inAlarm = (value.getLsbD 3 && (match (s.input n).zone with
        | .low => value.getLsbD 0 | .mid => value.getLsbD 1 | .high => value.getLsbD 2 | .unresolved => false)))

/-- R98, R100, R101, R106 to R110: the token bucket and the thinning rate, a calibration hit and its window, a flushed word,
the OVFL marker, and the idle ANCHOR. -/
def Obligations.CaptureRowsComplete : Prop :=
  (∀ (s : State) (t : Nat) (n : Fin 256),
    (s.tb.st.live = true → (s.input n).bucket < 64 → (s.input n).refillAt + 61440 ≤ max s.now t →
      Does (.bucketRefill t n) s fun u =>
        (u.input n).bucket = (s.input n).bucket + 1 ∧ (u.input n).refillAt = (s.input n).refillAt + 61440 ∧
        (u.input n).rate = (s.input n).rate) ∧
    (s.tb.st.live = false ∨ 64 ≤ (s.input n).bucket ∨ max s.now t < (s.input n).refillAt + 61440 →
      (s.input n).alarmDue = none → Idles (.bucketRefill t n) s)) ∧
  (∀ (s : State) (t : Nat),
    (s.tb.st.live = true → s.decayed < (s.advance t).devTime / usQ → Does (.thinRateDecay t) s fun u =>
      u.decayed = (s.advance t).devTime / usQ ∧
      ∀ n : Fin 256, (u.input n).rate =
          (if 0 < (s.input n).rate ∧ (s.input n).bucket = 64 then (s.input n).rate - 1 else (s.input n).rate) ∧
        (u.input n).bucket = (s.input n).bucket) ∧
    (s.tb.st.live = false → Idles (.thinRateDecay t) s) ∧
    ((s.advance t).devTime / usQ ≤ s.decayed → Does (.thinRateDecay t) s fun u =>
      ∀ n : Fin 256, (u.input n).rate = (s.input n).rate ∧ (u.input n).bucket = (s.input n).bucket)) ∧
  (∀ (s : State) (t : Nat) (n : Fin 256) (code : Fin 512),
    (s.tb.st.live = true → s.bit (Reg.CAP_CTRL n) 0 = true → (s.input n).hitCount < 2 ^ 20 →
      (s.input n).lastEdge ≠ some (s.boundaryTo (s.advance t).devTime) →
      Does (.calHit t n code) s fun u =>
        (u.input n).hitCount = (s.input n).hitCount + 1 ∧
        ∀ k, tget 0 (u.input n).hits k = tget 0 (s.input n).hits k + (if k = code.val then 1 else 0)) ∧
    (s.tb.st.live = false ∨ s.bit (Reg.CAP_CTRL n) 0 = false ∨
      (s.input n).lastEdge = some (s.boundaryTo (s.advance t).devTime) → Idles (.calHit t n code) s)) ∧
  (∀ (s : State) (t : Nat) (n : Fin 256),
    ((s.input n).hitCount = 2 ^ 20 → Does (.calWindowDone t n) s fun u =>
      (u.input n).codes = (s.input n).hits ∧ (u.input n).hitCount = 0 ∧ (u.input n).calOk = true ∧
      u.fld (Reg.CAP_CAL n) 0 16 = (s.fld (Reg.CAP_CAL n) 0 16 + 1) % 2 ^ 16 ∧
      u.fld (Reg.CAP_CAL n) 16 8 = dnlMax (s.input n).hits) ∧
    ((s.input n).hitCount ≠ 2 ^ 20 → Idles (.calWindowDone t n) s)) ∧
  (∀ (s : State) (t : Nat) (n : Fin 256),
    ((s.input n).openFrags ≠ [] →
      (s.input n).openAt + s.fld (Reg.CAP_FLUSH n) 0 12 * 512 ≤ max s.now t → (s.input n).fifo.length < 256 →
      Does (.mailbagFlush t n) s fun u =>
        (u.input n).openFrags = [] ∧ (u.input n).seq = (s.input n).seq + 1 ∧
        (u.input n).fifo = (s.input n).fifo ++ [{ frags := (s.input n).openFrags, seq := (s.input n).seq, flushed := true,
                                                  items := (s.input n).openItems }]) ∧
    ((s.input n).openFrags = [] ∨ 256 ≤ (s.input n).fifo.length ∨
      max s.now t < (s.input n).openAt + s.fld (Reg.CAP_FLUSH n) 0 12 * 512 → Idles (.mailbagFlush t n) s)) ∧
  (∀ (s : State) (t : Nat) (n : Fin 256),
    ((s.input n).ovfl ≠ 0 → ((Mark.ovfl (s.input n).ovfl).encode.length : Int) ≤ (s.input n).ovflRoom →
      Does (.ovflWrite t n) s fun u =>
        (u.input n).ovfl = 0 ∧ (u.input n).ovflOut = (s.input n).ovflOut + (s.input n).ovfl) ∧
    ((s.input n).ovfl = 0 → Idles (.ovflWrite t n) s)) ∧
  (∀ (s : State) (t : Nat) (n : Fin 256),
    (s.tb.st.live = true → (s.input n).lastTime + 2 ^ 52 ≤ (s.advance t).devTime → (s.input n).ovfl = 0 →
      6 ≤ (s.input n).dataRoom →
      Does (.idleAnchor t n) s fun u => (u.input n).lastTime = (s.advance t).devTime) ∧
    (s.tb.st.live = false ∨ (s.advance t).devTime < (s.input n).lastTime + 2 ^ 52 → Idles (.idleAnchor t n) s))

/-- R107, R109, R115 to R119, R142, R143: the sorting office routes a popped word, which it is handed in the form of R107, and takes
NOT_VALID from an empty mailbag; the engine counts an edge of a counting channel, with the unstamped edges that the head
stands for, and a quadrature change that stands alone makes its step. -/
def Obligations.EngineRowsComplete : Prop :=
  (∀ (s : State) (t : Nat) (n : Fin 256),
    (∀ w rest, (s.input n).fifo = w :: rest → s.arbiterHeld (.local n) = false →
      (rest = [] → (s.input n).openFrags = [] → (s.advance t).mayMerge n = false) →
      Does (.mailbagPop t n) s fun u =>
        (u.input n).routerSeq = w.seq + 1 ∧ (u.input n).popped = some (w.out n) ∧
        ((s.input n).openFrags.length < 8 → (u.input n).fifo = rest) ∧
        u.flt.routed % 2 ^ 48 = (s.flt.routed + (w.items.map Item.edges).sum) % 2 ^ 48 ∧
        (w.seq ≠ (s.input n).routerSeq → u.flt.active.getLsbD FaultCode.mailbagSeq.cls = true)) ∧
    ((s.input n).fifo = [] → Does (.mailbagPop t n) s fun u =>
      (u.input n).popped = some ((s.input n).notValid n) ∧ (u.input n).fifo = [] ∧ u.flt.routed = s.flt.routed) ∧
    ((s.input n).fifo ≠ [] → s.arbiterHeld (.local n) = true → Idles (.mailbagPop t n) s)) ∧
  (∀ (s : State) (t : Nat) (c : BitVec 20) (use : Nat) (i : Item) (rest : List (Nat × Item)),
    (s.chan c.toNat).inbox = (use, i) :: rest → s.engineHeld (s.chan c.toNat).place.engine = false →
    s.sealedCastling c.toNat = none → (s.chan c.toNat).waits i.stamp = false → s.pst.endgame = none →
    ((s.chan c.toNat).takes i.stamp = true → i.kind = .edge →
      ((s.chan c.toNat).decl.kind = .edge ∨ (s.chan c.toNat).decl.kind = .window ∨ (s.chan c.toNat).decl.kind = .remote) →
      Does (.engineEdge t c) s fun u =>
        let sel := (s.chan c.toNat).decl.selA
        (u.chan c.toNat).inbox = rest ∧
        (u.chan c.toNat).count =
          ((s.chan c.toNat).count + (i.share sel).1 + b2n (sel.takes i.rising)) % 2 ^ 48) ∧
    ((s.chan c.toNat).takes i.stamp = false →
      Does (.engineEdge t c) s fun u =>
        (u.chan c.toNat).inbox = rest ∧ (u.chan c.toNat).count = (s.chan c.toNat).count ∧
        u.flt.unbound = (s.flt.unbound + i.edges) % 2 ^ 48)) ∧
  (∀ (s : State) (t : Nat) (c : BitVec 20) (e : QuadChange), (s.chan c.toNat).quad.todo = [e] →
    s.engineHeld (s.chan c.toNat).place.engine = false → s.sealedCastling c.toNat = none → (s.chan c.toNat).quad.ready = true →
    e.est = none → e.headless = false → e.unstamped = 0 →
    e.stamp + 860652 ≤ (s.advance t).devTime →
    Does (.quadDecide t c) s fun u =>
      let q := (s.chan c.toNat).quad
      let other := if e.onB then q.zoneA else q.zoneB
      (u.chan c.toNat).quad.todo = [] ∧
      (u.chan c.toNat).quad.position = q.position + quadStep (s.chan c.toNat).decl.decode e.onB e.rising other ∧
      (u.chan c.toNat).count = toField 48 (u.chan c.toNat).quad.position)

/-! ### Descriptors, channels and cadences (14, 05) -/

/-- R341, R343, R353: a fetch adds the descriptors to the ring's, one with a bad header is rejected in its turn; a fetch that
fails keeps those before the failed one and stops the ring. A ring that is not fetched from leaves the hub as it is. -/
def Obligations.FetchRowsComplete : Prop :=
  (∀ (s : State) (t : Nat) (ring : Fin 64) (descs : List Desc), 1 ≤ descs.length → descs.length ≤ 8 →
    (s.fetches ring = true → descs.length ≤ s.unfetched ring →
      (∀ d, ((s.ring ring).fetched ++ descs).head? = some d → headerOk d = true) →
      Does (.descriptorFetch t ring descs) s fun u => (u.ring ring).fetched = (s.ring ring).fetched ++ descs) ∧
    (∀ d, s.fetches ring = true → 1 ≤ s.unfetched ring → (s.ring ring).fetched = [] → descs = [d] → headerOk d = false →
      Does (.descriptorFetch t ring descs) s fun u =>
        (u.ring ring).fetched = [] ∧ (u.ring ring).pos = ((s.ring ring).pos + 1) % (2 * s.depth ring) ∧
        u.fld (Reg.RING_REJ ring) 0 32 = (s.fld (Reg.RING_REJ ring) 0 32 + 1) % 2 ^ 32 ∧
        u.fld (Reg.RING_SEQ ring) 0 48 = (s.fld (Reg.RING_SEQ ring) 0 48 + 1) % 2 ^ 48) ∧
    (s.fetches ring = false ∨ s.unfetched ring < descs.length → Idles (.descriptorFetch t ring descs) s)) ∧
  (∀ (s : State) (t : Nat) (ring : Fin 64) (descs : List Desc), descs.length ≤ 7 →
    (s.fetches ring = true → descs.length < s.unfetched ring →
      (∀ d, ((s.ring ring).fetched ++ descs).head? = some d → headerOk d = true) →
      Does (.fetchFailed t ring descs) s fun u =>
        (u.ring ring).fetched = (s.ring ring).fetched ++ descs ∧ (u.ring ring).st = .stopped ∧
        u.flt.active.getLsbD FaultCode.dmaRead.cls = true) ∧
    (s.fetches ring = false ∨ s.unfetched ring ≤ descs.length → Idles (.fetchFailed t ring descs) s))

/-- R120 to R126, R353: a DECLARE that passes every check declares the channel; one for a channel that is not VACANT is
rejected with STATE and leaves every channel as it is; a declared channel goes LIVE at t_live; REDECLARE, PAUSE and RETIRE
are held until they apply, and RESUME acts at once. -/
def Obligations.LifecycleRowsComplete : Prop :=
  (∀ (s : State) (t : Nat) (ring : Fin 64) (d : Desc), s.head ring.val 0x10 = some d →
    (s.chan (descChan d)).waitsDesc = false → s.slotLoading (declOf d) = false →
    declFieldOk d = true → declRangeOk d = true →
    ((s.chan (descChan d)).st = .vacant → s.bindOk (declOf d) = true → s.capacityOk (descChan d) (declOf d) = true →
      s.pinRoom (descChan d) (declOf d) = true → s.guardOk (descChan d) (declOf d) = true →
      Does (.declare t ring) s fun u =>
        (u.chan (descChan d)).st = .declared ∧ (u.chan (descChan d)).decl = declOf d ∧
        (u.chan (descChan d)).count = (declOf d).countInit ∧ (u.chan (descChan d)).tB = (s.advance t).devTime) ∧
    ((s.chan (descChan d)).st ≠ .vacant → (s.ring ring).fetched = [d] →
      Does (.declare t ring) s fun u =>
        u.chans = s.chans ∧ u.fld (Reg.RING_REJ ring) 0 32 = (s.fld (Reg.RING_REJ ring) 0 32 + 1) % 2 ^ 32 ∧
        (u.ring ring).fetched = [] ∧ (u.ring ring).pos = ((s.ring ring).pos + 1) % (2 * s.depth ring))) ∧
  (∀ (s : State) (t : Nat) (c : BitVec 20), (s.chan c.toNat).st = .declared → (s.chan c.toNat).op = none →
    (s.chan c.toNat).restoring = none → (s.chan c.toNat).decl.start ≤ (s.advance t).devTime →
    Does (.channelLive t c) s fun u =>
      (u.chan c.toNat).st = .live ∧ (u.chan c.toNat).tLive =
        max (min (s.advance t).devTime ((s.chan c.toNat).tB + 10 * usQ)) (s.chan c.toNat).decl.start) ∧
  (∀ (s : State) (t : Nat) (c : BitVec 20), (s.chan c.toNat).st ≠ .declared → Idles (.channelLive t c) s) ∧
  (∀ (s : State) (t : Nat) (ring : Fin 64) (d : Desc), s.head ring.val 0x11 = some d →
    let c := descChan d
    let x := { declOf d with start := (s.chan c).decl.start, countInit := (s.chan c).decl.countInit }
    (s.chan c).waitsDesc = false → s.slotLoading x = false → declFieldOk d = true → declRangeOk d = true →
    ((s.chan c).st = .live ∨ (s.chan c).st = .paused) → s.bindOk x = true → x.kind = (s.chan c).decl.kind →
    x.guarded = (s.chan c).decl.guarded → s.capacityOk c x = true → s.guardOk c x = true →
    Does (.redeclare t ring) s fun u =>
      (u.chan c).op = some (.redeclare x (descTag d) (s.advance t).devTime ring) ∧
      (u.chan c).opAt = (s.advance t).applyAt (s.chan c) ∧ (u.chan c).decl = (s.chan c).decl) ∧
  (∀ (s : State) (t : Nat) (c : BitVec 20) (d : Decl) (tag : Dword) (a r tr : Nat),
    let s0 := ((s.advance t).quadAll c.toNat).pairAll c.toNat
    (s0.chan c.toNat).op = some (.redeclare d tag a r) → s0.opTime (s0.chan c.toNat) = some tr →
    (s0.chan c.toNat).old = none →
    (s0.drained c.toNat tr = true → s0.sealedCastling c.toNat = none →
      Does (.redeclareApply t c) s fun u =>
        (u.chan c.toNat).decl = d ∧ (u.chan c.toNat).op = none ∧ (u.chan c.toNat).count = (s0.chan c.toNat).count) ∧
    (s0.drained c.toNat tr = false → Idles (.redeclareApply t c) s)) ∧
  (∀ (s : State) (t : Nat) (ring : Fin 64) (d : Desc), s.head ring.val 0x12 = some d →
    (s.chan (descChan d)).waitsDesc = false → shortOk d true = true → (s.chan (descChan d)).st = .live →
    Does (.pause t ring) s fun u =>
      (u.chan (descChan d)).op = some (.pause (df d 8 20 1 = 1) (descTag d) (s.advance t).devTime ring) ∧
      (u.chan (descChan d)).st = .live) ∧
  (∀ (s : State) (t : Nat) (c : BitVec 20) (countOnly : Bool) (tag : Dword) (a r tp : Nat),
    let s0 := ((s.advance t).quadAll c.toNat).pairAll c.toNat
    (s0.chan c.toNat).op = some (.pause countOnly tag a r) → s0.opTime (s0.chan c.toNat) = some tp →
    (s0.chan c.toNat).st = .live → (s0.chan c.toNat).gap = none → s0.caughtUp c.toNat tp = true →
    (countOnly = true → (s0.chan c.toNat).resolved = tp ∨ s0.bracketDone c.toNat tp = true) →
    Does (.pauseApply t c) s fun u =>
      (u.chan c.toNat).st = .paused ∧ (u.chan c.toNat).countOnly = countOnly ∧ (u.chan c.toNat).op = none) ∧
  (∀ (s : State) (t : Nat) (ring : Fin 64) (d : Desc), s.head ring.val 0x13 = some d →
    (s.chan (descChan d)).waitsDesc = false → shortOk d false = true → (s.chan (descChan d)).st = .paused →
    Does (.resume t ring) s fun u =>
      (u.chan (descChan d)).st = .live ∧ (u.chan (descChan d)).countOnly = false ∧
      (u.chan (descChan d)).sampleFrom = (s.advance t).devTime + 1 ∧
      (u.chan (descChan d)).stampFrom = (s.advance t).devTime) ∧
  (∀ (s : State) (t : Nat) (c : BitVec 20) (g : GapOwed), (s.chan c.toNat).gap = some g → (s.chan c.toNat).st = .live →
    s.sealedCastling c.toNat = none →
    (g.frozen = false → let s0 := ((s.advance t).quadAll c.toNat).pairAll c.toNat
      s0.caughtUp c.toNat g.to_ = true ∧ s0.bracketDone c.toNat g.to_ = true) →
    Does (.resumeGap t c) s fun u => (u.chan c.toNat).gap = none ∧ (u.chan c.toNat).st = .live) ∧
  (∀ (s : State) (t : Nat) (c : BitVec 20) (g : GapOwed), (s.chan c.toNat).gap = none → s.sealedCastling c.toNat = none →
    let s0 := ((s.advance t).quadAll c.toNat).pairAll c.toNat
    (s0.chan c.toNat).laneGap = some g →
    (g.startOwed = true → s0.caughtUp c.toNat g.from_ = true → s0.bracketDone c.toNat g.from_ = true →
      Does (.resumeGap t c) s fun u => ∃ h, (u.chan c.toNat).laneGap = some h ∧ h.startOwed = false ∧ h.from_ = g.from_ ∧
        h.count = (s0.solveAt c.toNat g.from_).count) ∧
    (g.startOwed = false → g.endOwed = false → s0.caughtUp c.toNat g.to_ = true → s0.bracketDone c.toNat g.to_ = true →
      Does (.resumeGap t c) s fun u => (u.chan c.toNat).laneGap = none)) ∧
  (∀ (s : State) (t : Nat) (ring : Fin 64) (d : Desc), s.head ring.val 0x14 = some d →
    (s.chan (descChan d)).waitsDesc = false → shortOk d true = true →
    ((s.chan (descChan d)).st = .declared ∨ (s.chan (descChan d)).st = .live ∨ (s.chan (descChan d)).st = .paused) →
    Does (.retire t ring) s fun u =>
      (u.chan (descChan d)).op = some (.retire (df d 8 20 1 = 1) (descTag d) (s.advance t).devTime ring)) ∧
  (∀ (s : State) (t : Nat) (c : BitVec 20) (now : Bool) (tag : Dword) (a r tx : Nat),
    let s0 := ((s.advance t).quadAll c.toNat).pairAll c.toNat
    (s0.chan c.toNat).op = some (.retire now tag a r) → s0.opTime (s0.chan c.toNat) = some tx →
    (s0.chan c.toNat).st ≠ .castling → ((s0.chan c.toNat).gap = none ∨ (s0.chan c.toNat).st ≠ .live) →
    ((s0.chan c.toNat).counting = true → s0.caughtUp c.toNat tx = true) →
    Does (.retireApply t c) s fun u =>
      (u.chan c.toNat).st = .retired ∧ (u.chan c.toNat).op = none ∧ (u.chan c.toNat).instants = [])

/-- R135 to R141: a running cadence issues its next instant and holds its output for out_width core cycles, the output pulse ends, and the enable and the grid are
written through a port that takes writes. -/
def Obligations.CadenceRowsComplete : Prop :=
  (∀ (s : State) (t : Nat) (c : Fin 16),
    ((s.cadence c).running = true → s.tb.st.live = true → (s.cadence c).next ≤ (s.advance t).devTime →
      Does (.cadenceInstant t c) s fun u =>
        (u.cadence c).next = (s.cadence c).next + s.cadP c ∧ u.reg (Reg.CAD_COUNT c) = s.reg (Reg.CAD_COUNT c) + 1 ∧
        (∀ p, s.cadPin c = some p → p < 4 → u.cadOut.getLsbD p = true ∧
          tget 0 u.cadEnd p = max (max s.now t + ((s.advance t).nextCycle - (s.advance t).devTime) +
            512 * max 1 (s.fld (Reg.CAD_CTRL c) 4 8)) (tget 0 s.cadEnd p))) ∧
    ((s.cadence c).running = false ∨ s.tb.st.live = false ∨ (s.advance t).devTime < (s.cadence c).next →
      Idles (.cadenceInstant t c) s)) ∧
  (∀ (s : State) (t : Nat) (pin : Fin 4),
    (tget 0 s.cadEnd pin.val ≤ max s.now t → Does (.cadenceOutEnd t pin) s fun u =>
      ∀ i : Fin 4, u.cadOut.getLsbD i.val = (s.cadOut.getLsbD i.val && decide (i ≠ pin))) ∧
    (max s.now t < tget 0 s.cadEnd pin.val → Idles (.cadenceOutEnd t pin) s)) ∧
  (∀ (s : State) (t : Nat) (p : Port) (c : Fin 16), s.portReady p → s.bit (Reg.CAD_CTRL c) 0 = false →
    Does (.cadenceEnable t p c) s fun u =>
      u.bit (Reg.CAD_CTRL c) 0 = true ∧
      (s.tb.st.live = true → (u.cadence c).running = true ∧
        (u.cadence c).next = gridFrom (s.cadP c) (s.cadPhase c) (max (s.advance t).devTime (u.cadence c).tStart)) ∧
      (u.cadence c).tStart = max ((s.reg (Reg.CAD_START_LO c)).toNat + s.fld (Reg.CAD_START_HI c) 0 8 * 2 ^ 64)
        (s.advance t).devTime) ∧
  (∀ (s : State) (t : Nat) (p : Port) (c : Fin 16), s.portReady p → s.bit (Reg.CAD_CTRL c) 0 = true →
    Does (.cadenceDisable t p c) s fun u => u.bit (Reg.CAD_CTRL c) 0 = false ∧ (u.cadence c).running = false) ∧
  (∀ (s : State) (t : Nat) (p : Port) (c : Fin 16) (phase : Bool) (value : Word), s.portReady p →
    let p' := if phase then s.cadP c else periodOf value
    let f' := if phase then fieldOf value.toNat 0 54 else s.cadPhase c
    (gridOk p' f' = true → Does (.cadenceGridWrite t p c phase value) s fun u =>
      u.cadP c = p' ∧ u.cadPhase c = f' ∧
      ((s.cadence c).running = true → (u.cadence c).next =
        gridFrom p' f' (max ((s.advance t).devTime + 1) (s.cadence c).tStart))) ∧
    (gridOk p' f' = false → Does (.cadenceGridWrite t p c phase value) s fun u =>
      u.cadP c = s.cadP c ∧ u.cadPhase c = s.cadPhase c ∧
      u.reg Reg.FLT_LAST = BitVec.ofNat 64 FaultCode.cadRange.code))

/-! ### Instants, recipes and statistics (06, 07, 08) -/

/-- R146 to R149: the due instant of a channel whose bracket is known is resolved, and one whose wait has expired is resolved
without it. -/
def Obligations.InstantRowsComplete : Prop :=
  (∀ (s : State) (t i : Nat) (c : BitVec 20),
    let s0 := (s.advance t).quadNow c.toNat
    let ch := s0.chan c.toNat
    s0.dueInstant c.toNat = some i →
    (s0.bracketReady ch (ch.declAt i) i = true →
      Does (.instantResolve t c) s fun u => (u.chan c.toNat).resolved = i) ∧
    (s0.bracketReady ch (ch.declAt i) i = false →
      Idles (.instantResolve t c) s ∧
      (ch.allOverdue (ch.declAt i) i (s.advance t).devTime = true →
        Does (.bracketWaitExpiry t c) s fun u => (u.chan c.toNat).resolved = i) ∧
      (ch.allOverdue (ch.declAt i) i (s.advance t).devTime = false →
        Idles (.bracketWaitExpiry t c) s))) ∧
  (∀ (s : State) (t : Nat) (c : BitVec 20), ((s.advance t).quadNow c.toNat).dueInstant c.toNat = none →
    Idles (.instantResolve t c) s ∧ Idles (.bracketWaitExpiry t c) s)

/-- R165, R178, R179, R353: an accepted RECIPE_LOAD or COEF_LOAD waits; the oldest load is applied whole. -/
def Obligations.LoadRowsComplete : Prop :=
  (∀ (s : State) (t : Nat) (ring : Fin 64) (d : Desc) (buf : List Dword), s.head ring.val 0x20 = some d →
    descOnly d [(8, 0, 14), (0x10, 0, 64), (0x18, 0, 32)] = true → df d 0x10 0 3 = 0 → 416 ≤ df d 0x18 0 32 →
    buf.length = 104 → imageCheck buf = none → s.slotUsed (df d 8 0 8) = false →
    Does (.recipeLoad t ring (some buf)) s fun u =>
      u.loads = s.loads ++ [.recipe (df d 8 0 8) (df d 8 8 6) (descTag d) buf ring] ∧ u.recipes = s.recipes) ∧
  (∀ (s : State) (t : Nat) (ring : Fin 64) (d : Desc), s.head ring.val 0x20 = some d → (s.ring ring).fetched = [d] →
    descOnly d [(8, 0, 14), (0x10, 0, 64), (0x18, 0, 32)] = true → df d 0x10 0 3 = 0 → 416 ≤ df d 0x18 0 32 →
    Does (.recipeLoad t ring none) s fun u =>
      u.loads = s.loads ∧ u.fld (Reg.RING_REJ ring) 0 32 = (s.fld (Reg.RING_REJ ring) 0 32 + 1) % 2 ^ 32 ∧
      u.flt.active.getLsbD FaultCode.dmaRead.cls = true) ∧
  (∀ (s : State) (t : Nat) (ring : Fin 64) (d : Desc) (buf : List Dword), s.head ring.val 0x21 = some d →
    descOnly d [(8, 0, 6), (8, 8, 6), (0xC, 0, 10), (0xC, 16, 11), (0x10, 0, 64), (0x18, 0, 32)] = true →
    df d 0x10 0 2 = 0 → df d 0xC 0 10 % 4 = 0 → df d 0xC 16 11 % 4 = 0 → df d 0xC 16 11 ≠ 0 →
    df d 0xC 0 10 + df d 0xC 16 11 ≤ 1024 → df d 0xC 16 11 ≤ df d 0x18 0 32 → 4 * buf.length = df d 0xC 16 11 →
    Does (.coefLoad t ring (some buf)) s fun u =>
      u.loads = s.loads ++ [.bank (df d 8 0 6) (df d 8 8 6) (descTag d) (df d 0xC 0 10 / 4) buf ring] ∧
      u.banks = s.banks) ∧
  (∀ (s : State) (t slot ack : Nat) (tag : Dword) (img : List Dword) (r : Nat) (rest : List Load),
    s.loads = .recipe slot ack tag img r :: rest →
    Does (.loadApply t) s fun u =>
      u.loads = rest ∧ u.recipe slot = trimZeros img ∧ (∀ k, k ≠ slot → u.recipe k = s.recipe k) ∧ u.banks = s.banks) ∧
  (∀ (s : State) (t b ack : Nat) (tag : Dword) (first : Nat) (data : List Dword) (r : Nat) (rest : List Load),
    s.loads = .bank b ack tag first data r :: rest →
    Does (.loadApply t) s fun u =>
      let old := (s.bank b ++ List.replicate 256 0).take 256
      u.loads = rest ∧ u.bank b = trimZeros (old.take first ++ data ++ old.drop (first + data.length)) ∧
      (∀ k, k ≠ b → u.bank k = s.bank k) ∧ u.recipes = s.recipes) ∧
  (∀ (s : State) (t : Nat), s.loads = [] → Idles (.loadApply t) s)

/-- R192, R199, R205, R353: an accepted DEV_SETUP, HISTO_SETUP or STATS_READ joins the channel's targets; the oldest target
applies at its instant; and the reports that are due. -/
def Obligations.StatisticsRowsComplete : Prop :=
  (∀ (s : State) (t : Nat) (ring : Fin 64) (d : Desc), s.head ring.val 0x30 = some d →
    (s.chan (descChan d)).waitsDesc = false → df d 8 20 1 = 0 →
    descOnly d [(8, 0, 22), (0xC, 0, 8), (0x10, 0, 64), (0x18, 0, 32)] = true →
    f64Positive (BitVec.ofNat 64 (df d 0x10 0 64)) = true → -64 ≤ sx 8 (df d 0xC 0 8) → sx 8 (df d 0xC 0 8) ≤ 63 →
    (s.chan (descChan d)).holds = true → s.devUse < 8192 →
    Does (.devSetup t ring) s fun u => (u.chan (descChan d)).targets = [
      (.dev false (df d 8 21 1 = 1) (sx 8 (df d 0xC 0 8)) (BitVec.ofNat 64 (df d 0x10 0 64)) (df d 0x18 0 32) (descTag d)
        (s.advance t).devTime ring,
       if (s.cadence (s.chan (descChan d)).decl.cadence).running then none else some (s.advance t).devTime)]) ∧
  (∀ (s : State) (t : Nat) (ring : Fin 64) (d : Desc), s.head ring.val 0x30 = some d →
    (s.chan (descChan d)).waitsDesc = false → df d 8 20 1 = 1 → descOnly d [(8, 0, 21)] = true →
    (s.chan (descChan d)).holds = true → (s.chan (descChan d)).dev.isSome = true →
    Does (.devSetup t ring) s fun u =>
      ∃ y dq unit n q, (u.chan (descChan d)).targets = [(.dev true y dq unit n (descTag d) (s.advance t).devTime ring, q)]) ∧
  (∀ (s : State) (t : Nat) (ring : Fin 64) (d : Desc), s.head ring.val 0x31 = some d →
    (s.chan (descChan d)).waitsDesc = false → df d 8 20 1 = 1 → descOnly d [(8, 0, 21), (8, 25, 2)] = true →
    (s.chan (descChan d)).holds = true → (tget? (s.chan (descChan d)).histos (df d 8 25 2)).isSome = true →
    Does (.histoSetup t ring) s fun u => ∃ h q,
      (u.chan (descChan d)).targets = [(.histo true (df d 8 25 2) h (descTag d) (s.advance t).devTime ring, q)]) ∧
  (∀ (s : State) (t : Nat) (ring : Fin 64) (d : Desc), s.head ring.val 0x31 = some d →
    (s.chan (descChan d)).waitsDesc = false → df d 8 20 1 = 0 →
    descOnly d [(8, 0, 27), (0xC, 0, 6), (0xC, 8, 7), (0x10, 0, 64), (0x18, 0, 32), (0x20, 0, 64), (0x28, 0, 8)] = true →
    df d 8 22 3 ≤ 4 → df d 0xC 0 6 ≤ 40 → (df d 0x18 0 32 ≠ 0 ∨ df d 8 21 1 = 0) → (s.chan (descChan d)).holds = true →
    histoSuits (s.chan (descChan d)).decl (df d 8 22 3) = true → s.histoUse + 2 ≤ 4096 →
    (∀ x ∈ (s.chan (descChan d)).histos, x.2.mode = 0 → x.1 = df d 8 25 2) →
    Does (.histoSetup t ring) s fun u => ∃ h q,
      (u.chan (descChan d)).targets = [(.histo false (df d 8 25 2) h (descTag d) (s.advance t).devTime ring, q)] ∧
      h.mode = df d 8 22 3 ∧ h.w = df d 0xC 0 6 ∧ h.target = df d 0x18 0 32 ∧ h.origin = sx 64 (df d 0x10 0 64)) ∧
  (∀ (s : State) (t : Nat) (ring : Fin 64) (d : Desc), s.head ring.val 0x32 = some d →
    (s.chan (descChan d)).waitsDesc = false → descOnly d [(8, 0, 27)] = true →
    (df d 8 20 1 = 1 ∨ df d 8 21 1 = 1 ∨ df d 8 22 4 ≠ 0) → (s.chan (descChan d)).holds = true →
    (df d 8 21 1 = 1 → (s.chan (descChan d)).dev.isSome = true) →
    (∀ no : Fin 4, (BitVec.ofNat 4 (df d 8 22 4)).getLsbD no.val = true →
      (tget? (s.chan (descChan d)).histos no.val).isSome = true) →
    Does (.statsRead t ring) s fun u => ∃ q, (u.chan (descChan d)).targets =
      [(.read (df d 8 20 1 = 1) (df d 8 21 1 = 1) (BitVec.ofNat 4 (df d 8 22 4)) (df d 8 26 1 = 1) (s.advance t).devTime
        ring, q)]) ∧
  (∀ (s : State) (t x : Nat) (c : BitVec 20) (release y : Bool) (dq : Int) (unit : Word) (n : Nat) (tag : Dword) (a r : Nat)
    (rest : List (TargetOp × Option Nat)),
    (s.chan c.toNat).targets = (.dev release y dq unit n tag a r, some x) :: rest → x ≤ (s.advance t).devTime →
    (∀ i ∈ (s.chan c.toNat).instants, x ≤ i) → s.engineHeld (s.chan c.toNat).place.engine = false →
    s.sealedCastling c.toNat = none → (s.advance t).settled (s.chan c.toNat).decl x = true →
    (∀ i ∈ (s.chan c.toNat).inbox, x ≤ i.2.stamp) → (s.chan c.toNat).pair.todo = [] →
    Does (.statsTargetApply t c) s fun u =>
      (u.chan c.toNat).targets = rest ∧
      (release = true → (u.chan c.toNat).dev = none) ∧
      (release = false → ∃ b, (u.chan c.toNat).dev = some { modeY := y, dq := dq, unit := unit, reportN := n, bank := b })) ∧
  (∀ (s : State) (t : Nat) (c : BitVec 20), (s.chan c.toNat).targets = [] → Idles (.statsTargetApply t c) s) ∧
  (∀ (s : State) (t : Nat) (c : BitVec 20) (d : DevSet), (s.chan c.toNat).dev = some d → s.sealedCastling c.toNat = none →
    (d.due = true → Does (.devReport t c) s fun u =>
      (u.chan c.toNat).dev = some { d with due := false, restored := false }) ∧
    (d.due = false → Idles (.devReport t c) s)) ∧
  (∀ (s : State) (t : Nat) (c : BitVec 20) (no : Fin 4) (h : Histo), tget? (s.chan c.toNat).histos no.val = some h →
    s.sealedCastling c.toNat = none →
    (h.reasons ≠ 0 → h.auto = false → Does (.histoComplete t c no) s fun u =>
      tget? (u.chan c.toNat).histos no.val = some { h with reasons := 0, restored := false }) ∧
    (h.reasons = 0 ∨ h.auto = true → Idles (.histoComplete t c no) s) ∧
    (h.reasons ≠ 0 → h.auto = true → Does (.autoPeriodEnd t c no) s fun u =>
      tget? (u.chan c.toNat).histos no.val = some (h.clear h.began)) ∧
    (h.auto = true → h.reasons = 0 → h.stop ≠ 0 → h.began + h.stop + 860652 ≤ (s.advance t).devTime →
      (∀ i ∈ (s.chan c.toNat).instants, h.began + h.stop ≤ i) →
      Does (.autoPeriodEnd t c no) s fun u =>
        tget? (u.chan c.toNat).histos no.val = some (h.clear (h.began + h.stop))) ∧
    (h.auto = false → Idles (.autoPeriodEnd t c no) s))

/-! ### The sorting office (09) -/

/-- R221 to R223, R227, R229, R230: the end of a load window, and the life of a castling. -/
def Obligations.CastlingRowsComplete : Prop :=
  (∀ (s : State) (t : Nat) (loads : List LoadSample), loads.length = 16 →
    (s.plc.windowNo < (s.advance t).devTime / windowQ → Does (.loadWindowEnd t loads) s fun u =>
      u.plc.windowNo = (s.advance t).devTime / windowQ ∧
      u.fld Reg.PLC_WINDOW 0 32 = (s.fld Reg.PLC_WINDOW 0 32 + 1) % 2 ^ 32 ∧
      ∀ (e : Fin 16) (l : LoadSample), loads[e.val]? = some l →
        tget 0 u.plc.busy e = l.busy ∧ tget 0 u.plc.work e = tget 0 s.plc.workNow e ∧
        u.fld (Reg.PLC_ENGINE_LOAD e) 0 10 = min 1023 (l.busy * 1024 / windowQ) ∧
        u.fld (Reg.PLC_ENGINE_LOAD e) 10 10 = min 1023 l.xbar) ∧
    ((s.advance t).devTime / windowQ ≤ s.plc.windowNo → Idles (.loadWindowEnd t loads) s)) ∧
  (∀ (s : State) (t : Nat) (m : Move) (rest : List Move), s.castleHeld = false → s.plc.tokens ≠ 0 →
    takeFirst s.mayBegin s.plc.plan = some (m, rest) →
    Does (.castlingBegin t) s fun u =>
      u.plc.tokens = s.plc.tokens - 1 ∧ u.plc.plan = rest ∧
      u.plc.castlings = s.plc.castlings ++ [{ move := m, dest := ((s.advance t).reserve m).1 }] ∧
      (s.plc.tokens = s.castleCap → u.plc.tokenAt = max s.now t) ∧
      u.flt.begun = (s.flt.begun + 1) % 2 ^ 48 ∧
      (m.target = none → (u.chan m.chan).st = .castling ∧ (u.chan m.chan).back = (s.chan m.chan).st) ∧
      (m.target ≠ none → u.chans = s.chans)) ∧
  (∀ (s : State) (t : Nat), s.castleHeld = true ∨ s.plc.tokens = 0 ∨ takeFirst s.mayBegin s.plc.plan = none →
    Idles (.castlingBegin t) s) ∧
  (∀ (s : State) (t : Nat) (c : BitVec 20), Does (.castlingSealAck t c) s fun u =>
    u.plc.castlings = s.plc.castlings.map (fun k => if k.move.chan = c.toNat ∧ k.sealed = false then
      { k with sealed := true, sealAt := (s.advance t).devTime } else k)) ∧
  (∀ (s : State) (t : Nat) (c : BitVec 20) (k : Castling), s.castlingOf c.toNat = some k →
    (k.sealed = true → Does (.castlingCopyDone t c true) s fun u =>
      u.castlingOf c.toNat = none ∧
      u.fld Reg.PLC_CNT_CASTLED 0 48 = (s.fld Reg.PLC_CNT_CASTLED 0 48 + 1) % 2 ^ 48 ∧
      u.flt.completed = (s.flt.completed + 1) % 2 ^ 48 ∧
      (k.move.target = none → (u.chan c.toNat).st = (s.chan c.toNat).back ∧
        (k.move.twin = false → (u.chan c.toNat).inbox = (s.chan c.toNat).inbox ++ (k.diverted ++ k.waiting).flatten) ∧
        (k.move.twin = false → (u.chan c.toNat).place.engine = k.move.toEngine) ∧
        (k.move.twin = true → (u.chan c.toNat).place.twin = some k.move.toEngine))) ∧
    (k.sealed = true → s.copies k = false → Does (.castlingCopyDone t c false) s fun u =>
      u.castlingOf c.toNat = none ∧ u.flt.completed = (s.flt.completed + 1) % 2 ^ 48) ∧
    (k.sealed = true → s.copies k = true → Does (.castlingCopyDone t c false) s fun u =>
      u.castlingOf c.toNat = none ∧
      u.fld Reg.PLC_CNT_ABORTED 0 32 = (s.fld Reg.PLC_CNT_ABORTED 0 32 + 1) % 2 ^ 32 ∧
      u.flt.aborted = (s.flt.aborted + 1) % 2 ^ 48 ∧ u.flt.active.getLsbD FaultCode.plcCopy.cls = true ∧
      (u.chan c.toNat).place.engine = (s.chan c.toNat).place.engine ∧
      (k.move.target = none → (u.chan c.toNat).st = (s.chan c.toNat).back)) ∧
    (k.sealed = false → ∀ crc, Idles (.castlingCopyDone t c crc) s)) ∧
  (∀ (s : State) (t : Nat) (c : BitVec 20) (crc : Bool), s.castlingOf c.toNat = none →
    Idles (.castlingCopyDone t c crc) s) ∧
  (∀ (s : State) (t : Nat),
    (s.plc.tokens < s.castleCap → s.plc.tokenAt + ceilDiv secQ s.plc.limit ≤ max s.now t →
      Does (.castleToken t) s fun u => u.plc.tokens = s.plc.tokens + 1 ∧ u.plc.tokens ≤ s.castleCap) ∧
    (s.castleCap ≤ s.plc.tokens ∨ max s.now t < s.plc.tokenAt + ceilDiv secQ s.plc.limit → Idles (.castleToken t) s))

/-- R236 to R238, R353: PLACE pins, unpins or hints a channel; PLACE_READ sends one PLACEMENT record for each channel asked
for. -/
def Obligations.PlaceRowsComplete : Prop :=
  (∀ (s : State) (t : Nat) (ring : Fin 64) (d : Desc), s.head ring.val 0x40 = some d →
    (s.chan (descChan d)).waitsDesc = false → (s.chan (descChan d)).st ≠ .retired →
    (df d 8 20 3 = 0 → descOnly d [(8, 0, 23), (8, 24, 6), (0xC, 0, 11)] = true →
      (df d 0xC 10 1 = 1 → df d 0xC 4 6 = 0) → s.pinnedCount < 65536 →
      (df d 0xC 10 1 = 0 → s.squareRoom (descChan d) (df d 0xC 4 6) = true) →
      Does (.place t ring) s fun u =>
        (u.wish (descChan d)).pinned = true ∧ (u.wish (descChan d)).engine = df d 0xC 0 4 ∧
        (u.wish (descChan d)).square = (if df d 0xC 10 1 = 1 then none else some (df d 0xC 4 6))) ∧
    (df d 8 20 3 = 1 → descOnly d [(8, 0, 23), (8, 24, 6)] = true → (s.wish (descChan d)).pinned = true →
      Does (.place t ring) s fun u =>
        (u.wish (descChan d)).pinned = false ∧
        (u.wish (descChan d)).rate = (s.wish (descChan d)).rate ∧
        (∀ m ∈ u.plc.plan, m.chan = descChan d → m.target ≠ none ∨ m.twin = true)) ∧
    (df d 8 20 3 = 2 → descOnly d [(8, 0, 23), (8, 24, 6), (0x10, 0, 32), (0x14, 0, 18)] = true →
      df d 0x14 16 2 ≠ 3 →
      Does (.place t ring) s fun u =>
        (u.wish (descChan d)).rate = df d 0x10 0 32 ∧ (u.wish (descChan d)).group = df d 0x14 0 16 ∧
        (u.wish (descChan d)).groupMode = df d 0x14 16 2 ∧
        (u.wish (descChan d)).pinned = (s.wish (descChan d)).pinned)) ∧
  (∀ (s : State) (t : Nat) (ring : Fin 64) (d : Desc), s.head ring.val 0x41 = some d → (s.ring ring).fetched = [d] →
    descOnly d [(8, 0, 32), (0xC, 0, 6)] = true →
    let n := if df d 8 20 12 = 0 then 4096 else df d 8 20 12
    df d 8 0 20 + n ≤ 1048576 →
    Does (.placeRead t ring) s fun u =>
      (u.ring (df d 0xC 0 6)).produced = (s.ring (df d 0xC 0 6)).produced + n ∧ u.chans = s.chans)

/-! ### Lanes, physical (10) -/

/-- R247 to R252, R439: a lane is enabled and disabled, probes for a partner and answers the commands of COU_CMD. -/
def Obligations.LaneDetectRowsComplete : Prop :=
  (∀ (s : State) (t : Nat) (p : Port) (n : Fin 16), s.portReady p → s.bit (Reg.COU_CTRL n) 0 = false →
    Does (.laneEnable t p n) s fun u =>
      u.bit (Reg.COU_CTRL n) 0 = true ∧
      ((s.lane n).st = .off → (s.lane n).tokens = false →
        (u.lane n).tokens = true ∧ u.pwr.queue = s.pwr.queue ++ [.lane n]) ∧
      ((s.lane n).st ≠ .off → (u.lane n) = (s.lane n) ∧ u.pwr.queue = s.pwr.queue)) ∧
  (∀ (s : State) (t : Nat) (p : Port) (n : Fin 16), s.portReady p → s.bit (Reg.COU_CTRL n) 0 = true →
    Does (.laneDisable t p n) s fun u =>
      u.bit (Reg.COU_CTRL n) 0 = false ∧ (u.lane n).st = .off ∧ (u.lane n).tokens = false ∧ (u.lane n).attempt = 0 ∧
      .lane n.val ∉ u.pwr.queue) ∧
  (∀ (s : State) (t : Nat) (n : Fin 16),
    ((s.lane n).st = .detect → (s.lane n).backoff = false → (s.lane n).probing = false → s.tb.st.live = true →
      (s.lane n).probed = false ∨ (s.advance t).past (.lane .probe n) (2000 * usQ) = true → Does (.laneProbe t n) s fun u =>
        (u.lane n).probing = true ∧ (u.lane n).probed = true ∧ u.fld (Reg.COU_PROBE n) 0 32 = (s.fld (Reg.COU_PROBE n) 0 32 + 1) % 2 ^ 32) ∧
    ((s.lane n).st ≠ .detect ∨ (s.lane n).backoff = true ∨ (s.lane n).probing = true ∨ s.tb.st.live = false ∨
      (s.lane n).probed = true ∧ (s.advance t).past (.lane .probe n) (2000 * usQ) = false → Idles (.laneProbe t n) s)) ∧
  (∀ (s : State) (t : Nat) (n : Fin 16) (found : Bool),
    ((s.lane n).st = .detect → (s.lane n).probing = true → Does (.probeDone t n found) s fun u =>
      (found = true → (u.lane n).st = .train ∧ (u.lane n).partner = true ∧ (u.lane n).empty = 0) ∧
      (found = false → (u.lane n).empty = (s.lane n).empty + 1 ∧ (u.lane n).partner = false ∧ (u.lane n).probing = false ∧
        (let lim := s.fld (Reg.COU_CTRL n) 2 8
         if lim ≠ 0 ∧ lim ≤ (s.lane n).empty + 1 then
           (u.lane n).st = .absent ∧ u.flt.active.getLsbD FaultCode.laneAbsent.cls = true
         else (u.lane n).st = .detect))) ∧
    ((s.lane n).st ≠ .detect ∨ (s.lane n).probing = false → Idles (.probeDone t n found) s)) ∧
  (∀ (s : State) (t : Nat) (n : Fin 16),
    ((s.lane n).st = .detect → (s.lane n).backoff = true →
      (s.advance t).past (.lane .state n) (2000 * usQ * 2 ^ ((s.lane n).attempt - 1)) = true → Does (.backoffEnd t n) s fun u =>
      (u.lane n).st = .detect ∧ (u.lane n).backoff = false ∧ (s.tb.st.live = true → (u.lane n).probing = true)) ∧
    ((s.lane n).st ≠ .detect ∨ (s.lane n).backoff = false ∨
      (s.advance t).past (.lane .state n) (2000 * usQ * 2 ^ ((s.lane n).attempt - 1)) = false → Idles (.backoffEnd t n) s)) ∧
  (∀ (s : State) (t : Nat) (p : Port) (n : Fin 16), s.portReady p →
    ((s.lane n).st = .absent ∨ (s.lane n).st = .detect → Does (.laneRetry t p n) s fun u =>
      (u.lane n).st = .detect ∧ (u.lane n).attempt = 0 ∧ (u.lane n).backoff = false ∧
      (s.tb.st.live = true → (u.lane n).probing = true)) ∧
    ((s.lane n).st ≠ .absent → (s.lane n).st ≠ .detect → Does (.laneRetry t p n) s fun u =>
      u.lanes = s.lanes ∧ u.reg Reg.FLT_LAST = BitVec.ofNat 64 FaultCode.couCmdState.code) ∧
    ((s.lane n).st = .active → Does (.laneRetrain t p n) s fun u => (u.lane n).st = .recover) ∧
    ((s.lane n).st ≠ .active → Does (.laneRetrain t p n) s fun u =>
      u.lanes = s.lanes ∧ u.reg Reg.FLT_LAST = BitVec.ofNat 64 FaultCode.couCmdState.code)) ∧
  (∀ (s : State) (t : Nat) (n : Fin 16),
    ((s.lane n).st = .absent → Does (.partnerSeen t n) s fun u =>
      u.lane n = { s.lane n with signal := true, partnerSeen := true }) ∧
    ((s.lane n).st ≠ .absent → Idles (.partnerSeen t n) s))

/-- R247, R248, R254 to R259, R262: training and ALIGN blocks, the limits of TRAIN, ALIGN, CREDIT and RECOVER, and what a
failed attempt leaves. -/
def Obligations.LaneTrainRowsComplete : Prop :=
  (∀ (s : State) (t : Nat) (n : Fin 16) (p : Ctl), (s.lane n).st = .train →
    Does (.trainingBlock t n p) s fun u =>
      (u.lane n).signal = true ∧ (u.lane n).validRun = min 64 ((s.lane n).validRun + 32) ∧
      (badTraining p = true →
        (u.lane n).train.clean = 0 ∧ u.fld (Reg.COU_ERR n) 0 16 = (s.fld (Reg.COU_ERR n) 0 16 + 1) % 2 ^ 16) ∧
      ((s.lane n).blockLock = true → checkOk p = true → cf p 0 2 ≠ 3 → cf p 2 2 ≠ 3 → cf p 4 2 ≠ 3 → cf p 6 1 = 1 →
        ((u.lane n).train.pre, (u.lane n).train.main, (u.lane n).train.post) = tapPreset (cf p 7 3))) ∧
  (∀ (s : State) (t : Nat) (n : Fin 16) (p : Ctl), badTraining p = true →
    (s.lane n).st = .align ∨ (s.lane n).st = .credit ∨ (s.lane n).st = .recover ∨ (s.lane n).st = .active →
    Does (.trainingBlock t n p) s fun u =>
      (u.lane n).st = (s.lane n).st ∧ u.fld (Reg.COU_ERR n) 0 16 = (s.fld (Reg.COU_ERR n) 0 16 + 1) % 2 ^ 16) ∧
  (∀ (s : State) (t : Nat) (n : Fin 16),
    ((s.lane n).st = .train →
      ((s.lane n).train.preset = true ∧ (s.lane n).train.asked = true ∨ (s.lane n).train.reqTap.isSome = true) →
      (s.advance t).past (.lane .request n) (1000 * usQ) = true → Does (.tapRequestTimeout t n) s fun u =>
        (u.lane n).train.preset = false ∧ (u.lane n).train.reqTap = none ∧
        u.fld (Reg.COU_TRAIN_STATUS n) 8 8 = min 255 (s.fld (Reg.COU_TRAIN_STATUS n) 8 8 + 1)) ∧
    ((s.lane n).st ≠ .train ∨ (s.advance t).past (.lane .request n) (1000 * usQ) = false ∨
      ((s.lane n).train.preset = false ∨ (s.lane n).train.asked = false) ∧ (s.lane n).train.reqTap = none →
      Idles (.tapRequestTimeout t n) s)) ∧
  (∀ (s : State) (t : Nat) (n : Fin 16) (margin : Byte),
    ((s.lane n).st = .train → (s.lane n).blockLock = true → (s.lane n).train.preset = false →
      2 ^ 20 ≤ (s.lane n).train.clean → s.fld (Reg.COU_TRAIN n) 8 8 ≤ margin.toNat →
      Does (.rxReady t n margin) s fun u => (u.lane n).train.rxReady = true ∧ (u.lane n).st = .train) ∧
    ((s.lane n).st ≠ .train ∨ (s.lane n).blockLock = false ∨ (s.lane n).train.preset = true ∨ (s.lane n).train.clean < 2 ^ 20 ∨ margin.toNat < s.fld (Reg.COU_TRAIN n) 8 8 →
      Idles (.rxReady t n margin) s)) ∧
  (∀ (s : State) (t : Nat) (n : Fin 16),
    ((s.lane n).st = .train → (s.advance t).past (.lane .state n) (24000 * usQ) = true → Does (.trainLimit t n) s fun u =>
      (u.lane n).attempt = (s.lane n).attempt + 1 ∧ u.fld (Reg.COU_TRAIN_STATUS n) 17 3 = 2 ∧
      (u.lane n).st = (if (s.lane n).attempt = 7 then .absent else .detect)) ∧
    ((s.lane n).st ≠ .train ∨ (s.advance t).past (.lane .state n) (24000 * usQ) = false → Idles (.trainLimit t n) s) ∧
    ((s.lane n).st = .align → (s.advance t).past (.lane .state n) (2000 * usQ) = true → Does (.alignLimit t n) s fun u =>
      (u.lane n).attempt = (s.lane n).attempt + 1 ∧ u.fld (Reg.COU_TRAIN_STATUS n) 17 3 = 3 ∧
      (u.lane n).st = (if (s.lane n).attempt = 7 then .absent else .detect)) ∧
    ((s.lane n).st ≠ .align ∨ (s.advance t).past (.lane .state n) (2000 * usQ) = false → Idles (.alignLimit t n) s) ∧
    ((s.lane n).st = .credit → (s.advance t).past (.lane .state n) (2000 * usQ) = true → Does (.creditLimit t n) s fun u =>
      (u.lane n).attempt = (s.lane n).attempt + 1 ∧ u.fld (Reg.COU_TRAIN_STATUS n) 17 3 = 4 ∧
      (u.lane n).st = (if (s.lane n).attempt = 7 then .absent else .detect)) ∧
    ((s.lane n).st ≠ .credit ∨ (s.advance t).past (.lane .state n) (2000 * usQ) = false → Idles (.creditLimit t n) s) ∧
    ((s.lane n).st = .recover → (s.advance t).past (.lane .state n) (1000 * usQ) = true → Does (.recoverLimit t n) s fun u =>
      (u.lane n).st = .train ∧ (u.lane n).attempt = (s.lane n).attempt ∧ u.fld (Reg.COU_TRAIN_STATUS n) 17 3 = 5 ∧
      (u.lane n).train.pre = (s.lane n).train.pre ∧ (u.lane n).train.main = (s.lane n).train.main ∧
      (u.lane n).train.post = (s.lane n).train.post) ∧
    ((s.lane n).st ≠ .recover ∨ (s.advance t).past (.lane .state n) (1000 * usQ) = false → Idles (.recoverLimit t n) s)) ∧
  (∀ (s : State) (t : Nat) (n : Fin 16) (p : Ctl),
    ((s.lane n).st = .align → checkOk p = true → (s.lane n).alignRun + 1 < 64 →
      Does (.alignBlock t n p) s fun u => (u.lane n).st = .align ∧ (u.lane n).alignRun = (s.lane n).alignRun + 1) ∧
    ((s.lane n).st = .align → checkOk p = true → 63 ≤ (s.lane n).alignRun → (s.lane n).echoed = true →
      Does (.alignBlock t n p) s fun u => (u.lane n).st = .credit ∧ (u.lane n).initGood = false ∧
        (cf p 6 1 = 0 → u.fld (Reg.COU_LOOP_DELAY n) 0 32 = (s.lane n).loopNew % 2 ^ 32)) ∧
    ((s.lane n).st = .align → checkOk p = false →
      Does (.alignBlock t n p) s fun u => (u.lane n).st = .align ∧ (u.lane n).alignRun = 0) ∧
    ((s.lane n).st = .recover → (s.lane n).blockLock = true → checkOk p = true → 63 ≤ (s.lane n).alignRun →
      Does (.alignBlock t n p) s fun u => (u.lane n).st = .active))

/-- R241, R247, R250, R258, R260, R261: the echo of an ACTIVE lane, loss of signal, invalid sync headers, adaptation and
keep-alives. -/
def Obligations.LaneActiveRowsComplete : Prop :=
  (∀ (s : State) (t : Nat) (n : Fin 16),
    ((s.lane n).st = .active → (s.advance t).past (.lane .echo n) (1000000 * usQ) = true → Does (.loopEcho t n) s fun u => (u.lane n).echoAt = some (s.advance t).nextCycle) ∧
    ((s.lane n).st ≠ .active ∨ (s.advance t).past (.lane .echo n) (1000000 * usQ) = false → Idles (.loopEcho t n) s) ∧
    ((s.lane n).st = .active → (s.advance t).past (.lane .data n) (1024 * 3168) = true → Does (.adaptFreeze t n) s fun u => u.lane n = { s.lane n with frozen := true }) ∧
    ((s.lane n).st ≠ .active ∨ (s.advance t).past (.lane .data n) (1024 * 3168) = false → Idles (.adaptFreeze t n) s) ∧
    ((s.lane n).st = .active → (s.advance t).past (.lane .keepalive n) (s.fld (Reg.COU_ADAPT n) 0 8 * usQ) = true → Does (.keepaliveSend t n) s fun u =>
      u.sent = s.sent ++ [.data n (s.lane n).kaCount] ∧ (u.lane n).kaCount = (s.lane n).kaCount + 1 ∧
      u.began (.lane .keepalive n) = (s.advance t).now) ∧
    ((s.lane n).st ≠ .active ∨ (s.advance t).past (.lane .keepalive n) (s.fld (Reg.COU_ADAPT n) 0 8 * usQ) = false → Idles (.keepaliveSend t n) s) ∧
    ((s.lane n).st = .active → (s.advance t).past (.lane .miss n) (64 * usQ) = true → Does (.keepaliveMiss t n) s fun u =>
      u.fld (Reg.COU_KA n) 0 16 = min 65535 (s.fld (Reg.COU_KA n) 0 16 + 1) ∧ (u.lane n).kaMissing = true ∧
      ((s.lane n).kaMissing = false → u.flt.active.getLsbD FaultCode.keepaliveMiss.cls = true)) ∧
    ((s.lane n).st ≠ .active ∨ (s.advance t).past (.lane .miss n) (64 * usQ) = false → Idles (.keepaliveMiss t n) s)) ∧
  (∀ (s : State) (t : Nat) (n : Fin 16) (payload : Word),
    ((s.lane n).st = .active → Does (.keepaliveBlock t n payload) s fun u =>
      (u.lane n).frozen = false ∧ (u.lane n).kaMissing = false ∧ (u.lane n).buffer = (s.lane n).buffer ∧
      (s.bit (Reg.COU_ADAPT n) 8 = true → (u.lane n).eq = (s.lane n).eq)) ∧
    ((s.lane n).st ≠ .active → Idles (.keepaliveBlock t n payload) s)) ∧
  (∀ (s : State) (t : Nat) (n : Fin 16),
    ((s.lane n).st = .active ∨ (s.lane n).st = .recover → Does (.lossOfSignal t n) s fun u =>
      (u.lane n).st = .detect ∧ (u.lane n).attempt = 0 ∧ (u.lane n).signal = false ∧ (u.lane n).blockLock = false ∧
      u.flt.active.getLsbD FaultCode.laneDown.cls = true) ∧
    ((s.lane n).st = .train ∨ (s.lane n).st = .align ∨ (s.lane n).st = .credit → Does (.lossOfSignal t n) s fun u =>
      (u.lane n).attempt = (s.lane n).attempt + 1 ∧ u.fld (Reg.COU_TRAIN_STATUS n) 17 3 = 1 ∧
      (u.lane n).st = (if (s.lane n).attempt = 7 then .absent else .detect)) ∧
    ((s.lane n).st = .off ∨ (s.lane n).st = .detect ∨ (s.lane n).st = .absent → Does (.lossOfSignal t n) s fun u =>
      u.lane n = { s.lane n with signal := false })) ∧
  (∀ (s : State) (t : Nat) (n : Fin 16),
    ((s.lane n).st ≠ .off → (s.lane n).st ≠ .detect → (s.lane n).st ≠ .absent → Does (.invalidSyncHeader t n) s fun u =>
      (u.lane n).validRun = 0 ∧ u.fld (Reg.COU_ERR n) 0 16 = (s.fld (Reg.COU_ERR n) 0 16 + 1) % 2 ^ 16 ∧
      (let recent := ((s.lane n).recentBad.filter fun x => decide (max s.now t < x + 64 * 3168)).length + 1
       (recent < 16 → (u.lane n).st = (s.lane n).st ∧ (u.lane n).blockLock = (s.lane n).blockLock) ∧
       (16 ≤ recent → (s.lane n).blockLock = true → (u.lane n).blockLock = false ∧
         (u.lane n).st = (if (s.lane n).st = .active then .recover else (s.lane n).st)))) ∧
    ((s.lane n).st = .detect ∨ (s.lane n).st = .absent → Does (.invalidSyncHeader t n) s fun u =>
      u.lane n = s.lane n ∧ u.fld (Reg.COU_ERR n) 0 16 = (s.fld (Reg.COU_ERR n) 0 16 + 1) % 2 ^ 16) ∧
    ((s.lane n).st = .off → Idles (.invalidSyncHeader t n) s))

/-! ### Lanes, protocol (11) -/

/-- R267 to R273, R275, R291: a dispatch in its turn is accepted, one already accepted is counted as a duplicate, and one that
is malformed or fails its CRC is refused; ACK and NAK blocks move the hub's own sequence. -/
def Obligations.DispatchRowsComplete : Prop :=
  (∀ (s : State) (t : Nat) (n : Fin 16) (head : Ctl) (data : List Word) (tail : Ctl) (clean : Bool),
    (s.carries n = false → Idles (.dispatch t n head data tail clean) s) ∧
    (s.carries n = true → (clean = false ∨ data.length ≠ headLen head ∨ cf tail 32 16 ≠ cf head 8 16) →
      Does (.dispatch t n head data tail clean) s fun u =>
        (u.lane n).blocksRef = ledgerAdd (s.lane n).blocksRef data.length ∧
        (u.lane n).rxNext = (s.lane n).rxNext ∧
        u.fld (Reg.COU_PROTO_ERR n) 16 8 = min 255 (s.fld (Reg.COU_PROTO_ERR n) 16 8 + 1)) ∧
    (s.carries n = true → clean = true → data.length = headLen head → cf tail 32 16 = cf head 8 16 →
      cf tail 0 32 ≠ dispatchCrc head data →
      Does (.dispatch t n head data tail clean) s fun u =>
        (u.lane n).blocksRef = ledgerAdd (s.lane n).blocksRef data.length ∧
        (u.lane n).rxNext = (s.lane n).rxNext ∧
        u.fld (Reg.COU_PROTO_ERR n) 0 8 = min 255 (s.fld (Reg.COU_PROTO_ERR n) 0 8 + 1)) ∧
    (s.carries n = true → clean = true → data.length = headLen head → cf tail 32 16 = cf head 8 16 →
      cf tail 0 32 = dispatchCrc head data → cf head 6 2 ≤ 1 → (s.lane n).firstDispatch = false →
      (BitVec.ofNat 16 (cf head 8 16) = (s.lane n).rxNext →
        data.length ≤ (s.lane n).limitTx - (s.lane n).accepted →
        Does (.dispatch t n head data tail clean) s fun u =>
          (u.lane n).rxNext = (s.lane n).rxNext + 1 ∧
          (u.lane n).blocksAcc = ledgerAdd (s.lane n).blocksAcc data.length ∧
          (u.lane n).accepted = (s.lane n).accepted + data.length ∧
          u.fld (Reg.COU_CNT_DISPATCH n) 0 48 = (s.fld (Reg.COU_CNT_DISPATCH n) 0 48 + 1) % 2 ^ 48) ∧
      (BitVec.ofNat 16 (cf head 8 16) ≠ (s.lane n).rxNext →
        ((s.lane n).rxNext - BitVec.ofNat 16 (cf head 8 16)).toNat ≤ 32768 →
        Does (.dispatch t n head data tail clean) s fun u =>
          (u.lane n).rxNext = (s.lane n).rxNext ∧ (u.lane n).accepted = (s.lane n).accepted ∧
          (u.lane n).blocksDup = ledgerAdd (s.lane n).blocksDup data.length))) ∧
  (∀ (s : State) (t : Nat) (n : Fin 16) (p : Ctl),
    let j := ((s.lane n).txNext - BitVec.ofNat 16 (cf p 0 16)).toNat
    (s.carries n = false → Idles (.ackBlock t n p) s ∧ Idles (.nakBlock t n p) s) ∧
    (s.carries n = true → checkOk p = true → j ≤ 32768 → Does (.ackBlock t n p) s fun u =>
      (u.lane n).replay = (s.lane n).replay.drop ((s.lane n).replay.length - j) ∧ (u.lane n).limitRx = cf p 16 12 ∧
      (u.lane n).sent = (if cf p 40 1 = 1 then cf p 28 12 else (s.lane n).sent)) ∧
    (s.carries n = true → checkOk p = false → Does (.ackBlock t n p) s fun u =>
      (u.lane n).replay = (s.lane n).replay ∧ (u.lane n).limitRx = (s.lane n).limitRx ∧
      u.fld (Reg.COU_PROTO_ERR n) 16 8 = min 255 (s.fld (Reg.COU_PROTO_ERR n) 16 8 + 1)) ∧
    (s.carries n = true → checkOk p = true → j ≤ 32768 → 1 ≤ cf p 16 4 → cf p 16 4 ≤ 4 → Does (.nakBlock t n p) s fun u =>
      (u.lane n).replay = (s.lane n).replay ∧
      u.fld (Reg.COU_NAK n) 16 16 = (s.fld (Reg.COU_NAK n) 16 16 + 1) % 2 ^ 16 ∧
      u.fld (Reg.COU_REPLAY n) 0 16 = (s.fld (Reg.COU_REPLAY n) 0 16 + min j (s.lane n).replay.length) % 2 ^ 16))

/-- R269 to R277, R291, R296: the timers of a lane that carries dispatches, and the INIT exchange. -/
def Obligations.LinkRowsComplete : Prop :=
  (∀ (s : State) (t : Nat) (n : Fin 16),
    (s.carries n = true → (s.advance t).past (.lane .ack n) (8 * usQ) = true → Does (.ackSendTimer t n) s fun u =>
      (∃ p, u.sent = s.sent ++ [.ctl n 0xA5 p]) ∧ (u.lane n).freedSinceAck = 0) ∧
    ((s.advance t).past (.lane .ack n) (8 * usQ) = false → Idles (.ackSendTimer t n) s) ∧
    (s.carries n = true → (s.lane n).replay ≠ [] →
      (s.advance t).past (.lane .replay n) (s.fld (Reg.COU_PROTO_CTRL n) 0 8 * usQ) = true → Does (.replayTimeout t n) s fun u =>
      u.fld (Reg.COU_REPLAY n) 0 16 = (s.fld (Reg.COU_REPLAY n) 0 16 + (s.lane n).replay.length) % 2 ^ 16 ∧
      u.lane n = { s.lane n with scrambler := (u.lane n).scrambler, lineBlock := (u.lane n).lineBlock }) ∧
    ((s.lane n).replay = [] ∨ (s.advance t).past (.lane .replay n) (s.fld (Reg.COU_PROTO_CTRL n) 0 8 * usQ) = false →
      Idles (.replayTimeout t n) s) ∧
    (∀ x, s.carries n = true → (s.lane n).nakOut = some x → (s.advance t).past (.lane .nak n) (20 * usQ) = true → Does (.nakRepeat t n) s fun u =>
      u.fld (Reg.COU_NAK n) 0 16 = (s.fld (Reg.COU_NAK n) 0 16 + 1) % 2 ^ 16) ∧
    ((s.lane n).nakOut = none ∨ (s.advance t).past (.lane .nak n) (20 * usQ) = false → Idles (.nakRepeat t n) s) ∧
    (∀ x rest, s.carries n = true → (s.lane n).letters = x :: rest → (s.lane n).txCredit < x.blocks → (s.lane n).sync = false →
      (s.advance t).past (.lane .ackRx n) (8 * s.fld (Reg.COU_PROTO_CTRL n) 8 8 * usQ) = true → Does (.creditWatchdog t n) s fun u => (u.lane n).sync = true ∧ (u.lane n).letters = (s.lane n).letters) ∧
    ((s.lane n).letters = [] → Idles (.creditWatchdog t n) s ∧ Idles (.dispatchSend t n) s) ∧
    ((s.lane n).sync = true ∨ (s.advance t).past (.lane .ackRx n) (8 * s.fld (Reg.COU_PROTO_CTRL n) 8 8 * usQ) = false →
      Idles (.creditWatchdog t n) s) ∧
    (s.carries n = true → (s.lane n).sync = true → (s.advance t).past (.lane .syncReq n) (16 * usQ) = true → Does (.resyncRepeat t n) s fun u =>
      ∃ p, u.sent = s.sent ++ [.ctl n 0xA5 p]) ∧
    (s.carries n = true → (s.lane n).sync = true → (s.advance t).past (.lane .sync n) (1000 * usQ) = true → Does (.creditSync t n) s fun u =>
      (u.lane n).st = .recover ∧ u.flt.active.getLsbD FaultCode.creditSync.cls = true) ∧
    ((s.lane n).sync = false → Idles (.resyncRepeat t n) s ∧ Idles (.creditSync t n) s) ∧
    ((s.advance t).past (.lane .syncReq n) (16 * usQ) = false → Idles (.resyncRepeat t n) s) ∧
    ((s.advance t).past (.lane .sync n) (1000 * usQ) = false → Idles (.creditSync t n) s) ∧
    (s.carries n = false → Idles (.ackSendTimer t n) s ∧ Idles (.replayTimeout t n) s ∧ Idles (.nakRepeat t n) s ∧
      Idles (.creditWatchdog t n) s ∧ Idles (.resyncRepeat t n) s ∧ Idles (.creditSync t n) s ∧
      Idles (.dispatchSend t n) s ∧ Idles (.fineBeacon t n) s)) ∧
  (∀ (s : State) (t : Nat) (n : Fin 16) (x : Letter) (rest : List Letter), s.carries n = true →
    (s.lane n).letters = x :: rest → x.blocks ≤ (s.lane n).txCredit →
    ((s.lane n).replay.map fun d => d.data.length).sum + x.blocks ≤ 256 →
    Does (.dispatchSend t n) s fun u =>
      (u.lane n).letters = rest ∧ (u.lane n).txNext = (s.lane n).txNext + 1 ∧
      (u.lane n).sent = (s.lane n).sent + x.blocks ∧ (u.lane n).replay.length = (s.lane n).replay.length + 1 ∧
      u.sent.length = s.sent.length + x.blocks + 2) ∧
  (∀ (s : State) (t : Nat) (n : Fin 16) (blocks : Nat), s.plc.castlings = [] →
    Does (.creditRelease t n blocks) s fun u => (u.lane n).buffer = (s.lane n).buffer.drop blocks) ∧
  (∀ (s : State) (t : Nat) (n : Fin 16) (p : Ctl), (s.lane n).st = .credit → s.isPeer n = false → checkOk p = true →
    (16 ≤ cf p 0 12 → 8 ≤ cf p 32 8 → cf p 45 3 = 1 → cf p 40 1 = 1 → Does (.initBlock t n p) s fun u =>
      (u.lane n).initGood = true ∧ (u.lane n).pCredits = cf p 0 12 ∧
      (u.lane n).initSeen = ((s.lane n).initSeen || decide (cf p 12 1 = 1))) ∧
    (cf p 0 12 < 16 ∨ cf p 32 8 < 8 ∨ cf p 45 3 ≠ 1 ∨ cf p 40 1 = 0 → Does (.initBlock t n p) s fun u =>
      (u.lane n).initGood = (s.lane n).initGood ∧ u.flt.active.getLsbD FaultCode.satParam.cls = true)) ∧
  (∀ (s : State) (t : Nat) (n : Fin 16),
    ((s.lane n).st = .credit → s.isPeer n = false → (s.advance t).past (.lane .init n) (usQ) = true → Does (.initSend t n) s fun u =>
      ((s.lane n).initGood = true → (s.lane n).initSeen = true → (u.lane n).st = .active ∧ (u.lane n).attempt = 0) ∧
      ((s.lane n).initGood = false ∨ (s.lane n).initSeen = false →
        u.lane n = { s.lane n with scrambler := (u.lane n).scrambler, lineBlock := (u.lane n).lineBlock } ∧
        ∃ p, u.sent = s.sent ++ [.ctl n 0xC3 p])) ∧
    ((s.lane n).st ≠ .credit ∨ s.isPeer n = true ∨ (s.advance t).past (.lane .init n) (usQ) = false → Idles (.initSend t n) s)) ∧
  (∀ (s : State) (t : Nat) (n : Fin 16),
    (s.carries n = true → s.tb.st.live = true → s.fld (Reg.COU_BEACON n) 0 16 ≠ 0 →
      (s.lane n).beacons = 0 ∨ (s.advance t).past (.lane .beacon n) (s.fld (Reg.COU_BEACON n) 0 16 * usQ) = true →
      Does (.fineBeacon t n) s fun u =>
        (u.lane n).beacons = (s.lane n).beacons + 1 ∧ ∃ l p, u.sent = s.sent ++ l ++ [.ctl n 0x4B p]) ∧
    (s.tb.st.live = false ∨ s.fld (Reg.COU_BEACON n) 0 16 = 0 ∨
      (s.lane n).beacons ≠ 0 ∧ (s.advance t).past (.lane .beacon n) (s.fld (Reg.COU_BEACON n) 0 16 * usQ) = false →
      Idles (.fineBeacon t n) s))

/-- R290, R292, R353: a letter that passes its checks waits for its lane; the RETURN timer of a lane. -/
def Obligations.LetterRowsComplete : Prop :=
  (∀ (s : State) (t : Nat) (ring : Fin 64) (d : Desc) (buf : List Byte), s.head ring.val 0x50 = some d →
    descOnly d [(8, 0, 4), (8, 8, 6), (8, 16, 10), (0x10, 0, 64), (0x18, 0, 32)] = true → df d 0x10 0 3 = 0 →
    1 ≤ df d 8 16 10 → df d 8 16 10 ≤ 512 → df d 8 16 10 ≤ df d 0x18 0 32 → s.isPeer (df d 8 0 4) = false →
    (s.lane (df d 8 0 4)).st = .active →
    (s.lane (df d 8 0 4)).letters.length + (s.lane (df d 8 0 4)).replay.length < 16 →
    Does (.letterPost t ring (some buf)) s fun u =>
      ∃ x, (u.lane (df d 8 0 4)).letters = (s.lane (df d 8 0 4)).letters ++ [x] ∧
        x.bytes = (buf ++ List.replicate (df d 8 16 10) 0).take (df d 8 16 10) ∧ x.tag = descTag d ∧ x.ackRing = df d 8 8 6) ∧
  (∀ (s : State) (t : Nat) (n : Fin 16) (reason : Fin 32),
    let o := tget {} (s.lane n).occurs reason.val
    (o.running = true → 0 < o.count → (s.advance t).past (.laneReturn n reason) (1000 * usQ) = true → Does (.laneReturnTimer t n reason) s fun u =>
      tget {} (u.lane n).occurs reason.val = { running := true } ∧
      (u.ring (s.fld (Reg.COU_PROTO_CTRL n) 16 6)).produced = (s.ring (s.fld (Reg.COU_PROTO_CTRL n) 16 6)).produced + 1) ∧
    (o.running = true → o.count = 0 → (s.advance t).past (.laneReturn n reason) (1000 * usQ) = true → Does (.laneReturnTimer t n reason) s fun u =>
      tget {} (u.lane n).occurs reason.val = {} ∧ u.rings = s.rings) ∧
    (o.running = false ∨ (s.advance t).past (.laneReturn n reason) (1000 * usQ) = false → Idles (.laneReturnTimer t n reason) s))

/-! ### Peers (12) -/

/-- R296 to R305, R308: the exchange of PEER_HELLO, the frames sent and received, a link that is lost, and the steps of a
follower's trim. -/
def Obligations.PeerRowsComplete : Prop :=
  (∀ (s : State) (t : Nat) (n : Fin 16) (p : Ctl), (s.lane n).st = .credit → s.isPeer n = true → checkOk p = true →
    cf p 9 3 = 1 → cf p 12 1 = 0 →
    (cf p 0 8 ≠ s.peerRank → Does (.peerHello t n p) s fun u =>
      (u.lane n).initGood = true ∧ (u.peerLane n).rank = cf p 0 8 ∧
      (u.lane n).initSeen = ((s.lane n).initSeen || decide (cf p 8 1 = 1))) ∧
    (cf p 0 8 = s.peerRank → Does (.peerHello t n p) s fun u =>
      u.lanes = s.lanes ∧ u.reg Reg.FLT_LAST = BitVec.ofNat 64 FaultCode.peerRankDup.code)) ∧
  (∀ (s : State) (t : Nat) (n : Fin 16),
    ((s.lane n).st = .credit → s.isPeer n = true → (s.advance t).past (.lane .init n) (usQ) = true → Does (.peerHelloSend t n) s fun u =>
      ((s.lane n).initGood = true → (s.lane n).initSeen = true → (u.lane n).st = .active ∧ (u.lane n).attempt = 0) ∧
      ((s.lane n).initGood = false ∨ (s.lane n).initSeen = false →
        u.lane n = { s.lane n with scrambler := (u.lane n).scrambler, lineBlock := (u.lane n).lineBlock } ∧
        ∃ p, u.sent = s.sent ++ [.ctl n 0x69 p])) ∧
    ((s.lane n).st ≠ .credit ∨ s.isPeer n = false ∨ (s.advance t).past (.lane .init n) (usQ) = false → Idles (.peerHelloSend t n) s)) ∧
  (∀ (s : State) (t : Nat),
    let k := (s.advance t).devTime / slotQ
    (s.tb.st.live = true → s.peer.slot < k → Does (.peerSyncSend t) s fun u =>
      u.peer.slot = k ∧ ∀ n : Fin 16, (u.peerLane n).seq = (s.peerLane n).seq + (if s.peerActive n then 1 else 0)) ∧
    (s.tb.st.live = false ∨ k ≤ s.peer.slot → Idles (.peerSyncSend t) s)) ∧
  (∀ (s : State) (t : Nat) (n : Fin 16) (sync : Ctl) (d0 d1 d2 d3 : Word),
    (s.peerActive n = false → Idles (.peerSync t n sync d0 d1 d2 d3) s) ∧
    (s.peerActive n = true → checkOk sync = true → fieldOf d3.toNat 0 32 = frameCrc sync d0 d1 d2 d3 →
      (cf sync 24 5 ≤ 16 ∨ cf sync 24 5 = 31) →
      Does (.peerSync t n sync d0 d1 d2 d3) s fun u =>
        (u.peerLane n).link = .up ∧ (u.peerLane n).misses = 0 ∧ (u.peerLane n).rank = cf sync 8 8 ∧
        (u.peerLane n).masterRank = cf sync 16 8 ∧ (u.peerLane n).hops = cf sync 24 5 ∧ (u.peerLane n).tde = cf sync 32 16) ∧
    (s.peerActive n = true → checkOk sync = false → Does (.peerSync t n sync d0 d1 d2 d3) s fun u =>
      (u.peerLane n).misses = (s.peerLane n).misses + 1 ∧
      u.fld (Reg.PEER_LANE_STAT n) 16 16 = (s.fld (Reg.PEER_LANE_STAT n) 16 16 + 1) % 2 ^ 16)) ∧
  (∀ (s : State) (t : Nat) (n : Fin 16),
    ((s.peerLane n).link = .up ∨ (s.peerLane n).link = .suspect →
      (s.advance t).past (.lane .frame n) (slotQ) = true → Does (.peerFrameMiss t n) s fun u =>
      (u.peerLane n).misses = (s.peerLane n).misses + 1 ∧
      (u.peerLane n).link = (if (s.peerLane n).misses < 2 then (s.peerLane n).link else .suspect)) ∧
    ((s.peerLane n).link = .up ∨ (s.peerLane n).link = .suspect →
      (s.advance t).past (.lane .good n) (1000 * usQ) = true → Does (.peerLinkLost t n) s fun u =>
      (u.peerLane n).link = .lost ∧ (u.peerLane n).thetas = [] ∧
      (s.peerOn = true → s.peer.parent = some n.val → u.tb.aligned = false) ∧
      (s.peerOn = true → s.peer.parent ≠ some n.val → (s.peerLane n).masterRank = s.peer.masterRank → u.peer.part = true)) ∧
    ((s.peerLane n).link = .none ∨ (s.peerLane n).link = .lost →
      (s.peerActive n = true → (s.advance t).past (.lane .frame n) (slotQ) = true → Does (.peerFrameMiss t n) s fun u =>
        (u.peerLane n).misses = (s.peerLane n).misses + 1 ∧ (u.peerLane n).link = (s.peerLane n).link) ∧
      (s.peerActive n = false → Idles (.peerFrameMiss t n) s) ∧ Idles (.peerLinkLost t n) s) ∧
    ((s.advance t).past (.lane .frame n) (slotQ) = false → Idles (.peerFrameMiss t n) s) ∧
    ((s.advance t).past (.lane .good n) (1000 * usQ) = false → Idles (.peerLinkLost t n) s)) ∧
  (∀ (s : State) (t : Nat),
    (s.peer.stale.isSome = true → (s.advance t).past .stale (2000 * usQ) = true → Does (.peerStaleHoldEnd t) s fun u => u.peer.stale = none) ∧
    (s.peer.stale = none ∨ (s.advance t).past .stale (2000 * usQ) = false → Idles (.peerStaleHoldEnd t) s)) ∧
  (∀ (s : State) (t l : Nat), s.peerOn = true → s.peer.parent = some l → (s.peerLane l).link = .up →
    (s.tb.st = .locked ∨ s.tb.st = .slewing) → s.peer.trimRemain ≠ 0 →
    s.trimDue ≤ (s.advance t).devTime → Does (.peerTrimStep t) s fun u =>
      let k := max (-8) (min 8 s.peer.trimRemain)
      u.peer.trimRemain = s.peer.trimRemain - k ∧ u.peer.trimN = s.peer.trimN + 1 ∧
      u.tb.steps = ((s.advance t).boundaryTo (s.advance t).devTime, k) :: s.tb.steps) ∧
  (∀ (s : State) (t : Nat), s.peer.trimRemain = 0 ∨ (s.advance t).devTime < s.trimDue → Idles (.peerTrimStep t) s) ∧
  (∀ (s : State) (t : Nat) (p : Port), s.portReady p →
    (s.peerOn = true → s.peer.master = true → Does (.peerWhole t p) s fun u => u.peer = { s.peer with part := false }) ∧
    (s.peerOn = false ∨ s.peer.master = false → Does (.peerWhole t p) s fun u =>
      u.peer = s.peer ∧ u.reg Reg.FLT_LAST = BitVec.ofNat 64 FaultCode.peerState.code))

/-! ### Rings and delivery (14, 15) -/

/-- R338, R339, R346: a ring is started, stopped and started again. -/
def Obligations.RingStateRowsComplete : Prop :=
  (∀ (s : State) (t : Nat) (p : Port) (n : Fin 64), s.portReady p → 4 ≤ s.fld (Reg.RING_CFG n) 2 5 →
    s.fld (Reg.RING_CFG n) 2 5 ≤ 24 →
    (s.bit (Reg.RING_CFG n) 0 = false → (s.ring n).st = .disabled → s.ringOk n = true →
      Does (.ringEnable t p n) s fun u => u.ringOn n = true ∧ (u.ring n).st = .active ∧ (u.ring n).pos = 0 ∧
        (u.ring n).lb = 0 ∧ (u.ring n).fetched = []) ∧
    (s.bit (Reg.RING_CFG n) 0 = false → (s.ring n).st = .disabled → s.ringOk n = false →
      Does (.ringEnable t p n) s fun u => u.ringOn n = false ∧ (u.ring n).st = .disabled ∧
        u.reg Reg.FLT_LAST = BitVec.ofNat 64 FaultCode.ringRange.code) ∧
    (s.bit (Reg.RING_CFG n) 0 = false → (s.ring n).st = .stopping →
      Does (.ringEnable t p n) s fun u => u.ringOn n = true ∧ (u.ring n).st = .stopping ∧ (u.ring n).again = true) ∧
    (s.bit (Reg.RING_CFG n) 0 = true → ((s.ring n).st = .active ∨ (s.ring n).st = .stopped) →
      Does (.ringDisable t p n) s fun u => u.ringOn n = false ∧ (u.ring n).st = .stopping) ∧
    (s.bit (Reg.RING_CFG n) 0 = true → (s.ring n).st = .stopping →
      Does (.ringDisable t p n) s fun u => u.ringOn n = false ∧ (u.ring n).st = .stopping ∧ (u.ring n).again = false)) ∧
  (∀ (s : State) (t : Nat) (n : Fin 64),
    ((s.ring n).st = .stopping → (s.ring n).fetched = [] → (s.ring n).part = none →
      ((s.ring n).again = false → Does (.ringStopped t n) s fun u => (u.ring n).st = .disabled) ∧
      ((s.ring n).again = true → s.ringOk n = true → Does (.ringStopped t n) s fun u =>
        (u.ring n).st = .active ∧ (u.ring n).pos = 0 ∧ (u.ring n).again = false)) ∧
    ((s.ring n).st ≠ .stopping ∨ (s.ring n).fetched ≠ [] ∨ (s.ring n).part ≠ none → Idles (.ringStopped t n) s)) ∧
  (∀ (s : State) (t : Nat), Does (.functionLevelReset t) s fun u =>
    u.msix = [] ∧ u.pba = 0 ∧ (∀ n, (u.ring n).st = .disabled ∧ (u.ring n).pos = 0 ∧ (u.ring n).fetched = []) ∧
    (∀ a, 0xE000 ≤ a → a < 0xF000 → a % 64 ≠ 0x28 → u.reg a = resetOf a) ∧
    (∀ a, a < 0xE000 ∨ 0xF000 ≤ a → u.reg a = s.reg a))

/-- R334, R348, R349, R356 to R358: letterbox writes and their RETURNs, the moderation timer, the vectors' holdoff, and the
MSI-X table. -/
def Obligations.LetterboxRowsComplete : Prop :=
  (∀ (s : State) (t off : Nat) (data : List Dword) (be : BitVec 4), off < 0x40000 → off % 4 = 0 →
    let n := off / 0x1000
    (∀ v : Dword, data = [v] → be = 15 → off % 0x1000 = 0 → s.lbOk n v.toNat = true →
      Does (.letterboxWrite t off data be) s fun u =>
        (u.ring n).lb = fieldOf v.toNat 24 1 * s.depth n + fieldOf v.toNat 0 24 ∧ (u.ring n).pos = (s.ring n).pos) ∧
    (∀ v : Dword, data = [v] → be = 15 → off % 0x1000 = 0 → s.lbOk n v.toNat = false →
      Does (.letterboxWrite t off data be) s fun u =>
        (u.ring n).lb = (s.ring n).lb ∧ (u.ring n).lbTimer = true ∧
        u.fld (Reg.RING_ERR n) 0 16 = min 65535 (s.fld (Reg.RING_ERR n) 0 16 + 1) ∧
        u.flt.active.getLsbD FaultCode.ringLbValue.cls = true) ∧
    (2 ≤ data.length ∨ (data.length = 1 ∧ be ≠ 0 ∧ (be ≠ 15 ∨ off % 0x1000 ≠ 0)) →
      Does (.letterboxWrite t off data be) s fun u =>
        u.rings = s.rings ∧ u.fld (Reg.RING_ERR n) 16 16 = min 65535 (s.fld (Reg.RING_ERR n) 16 16 + 1) ∧
        u.flt.active.getLsbD FaultCode.ringLbAccess.cls = true) ∧
    (data = [] ∨ (data.length = 1 ∧ be = 0) → Idles (.letterboxWrite t off data be) s)) ∧
  (∀ (s : State) (t : Nat) (n : Fin 64),
    (∀ x, (s.ring n).lbTimer = true → (s.ring n).lbFirst = some x → (s.advance t).past (.lbReturn n) (1000 * usQ) = true →
      Does (.letterboxReturnTimer t n) s fun u =>
      (u.ring n).lbFirst = none ∧ (u.ring n).lbCount = 0 ∧ (u.ring n).lbTimer = true) ∧
    ((s.ring n).lbTimer = true → (s.ring n).lbFirst = none → (s.advance t).past (.lbReturn n) (1000 * usQ) = true →
      Does (.letterboxReturnTimer t n) s fun u =>
      (u.ring n).lbTimer = false) ∧
    ((s.ring n).lbTimer = false ∨ (s.advance t).past (.lbReturn n) (1000 * usQ) = false →
      Idles (.letterboxReturnTimer t n) s)) ∧
  (∀ (s : State) (t : Nat) (n : Fin 64),
    (s.bit (Reg.RING_CFG n) 14 = true → s.fld (Reg.RING_MOD n) 0 16 ≠ 0 → (s.ring n).pendingEntries ≠ 0 →
      (s.ring n).pendingAt + s.fld (Reg.RING_MOD n) 0 16 * 122880 ≤ max s.now t →
      Does (.moderationTimer t n) s fun u => (u.ring n).pendingEntries = 0) ∧
    (s.bit (Reg.RING_CFG n) 14 = false ∨ s.fld (Reg.RING_MOD n) 0 16 = 0 ∨ (s.ring n).pendingEntries = 0 ∨
      max s.now t < (s.ring n).pendingAt + s.fld (Reg.RING_MOD n) 0 16 * 122880 → Idles (.moderationTimer t n) s)) ∧
  (∀ (s : State) (t : Nat) (i : Fin 4),
    (s.flt.holdoff.getLsbD i.val = true → (s.advance t).past (.vector i.val) (10 * usQ) = true →
      Does (.vectorHoldoffEnd t ⟨64 + i.val, Nat.add_lt_add_left i.isLt 64⟩) s fun u =>
      u.flt.holdoff.getLsbD i.val = s.flt.again.getLsbD i.val ∧ u.flt.again.getLsbD i.val = false) ∧
    (s.flt.holdoff.getLsbD i.val = false ∨ (s.advance t).past (.vector i.val) (10 * usQ) = false →
      Idles (.vectorHoldoffEnd t ⟨64 + i.val, Nat.add_lt_add_left i.isLt 64⟩) s)) ∧
  (∀ (s : State) (t off : Nat) (value : Dword), off % 4 = 0 →
    (off < 68 * 16 → Does (.msixTableWrite t off value) s fun u =>
      u.msixDword off =
        (if off % 16 = 12 then value &&& 1 else if off % 16 = 0 then value &&& 0xFFFFFFFC else value) ∧
      (∀ a, a ≠ off → u.msixDword a = s.msixDword a) ∧
      (off % 16 = 12 → value.getLsbD 0 = false → s.pba.getLsbD (off / 16) = true →
        u.pba.getLsbD (off / 16) = false ∧ ∃ a d, u.sent = s.sent ++ [.msix (off / 16) a d])) ∧
    (68 * 16 ≤ off → off < 0x4000 → Idles (.msixTableWrite t off value) s))

/-- R353 to R355, R378, R380: NOP, MARK and REPOST at the head of a submission ring. -/
def Obligations.MarkRowsComplete : Prop :=
  (∀ (s : State) (t : Nat) (ring : Fin 64) (d : Desc), s.head ring.val 0x01 = some d → descOnly d [] = true →
    (s.unapplied ring = false → (s.ring ring).fetched = [d] → Does (.nop t ring) s fun u =>
      (u.ring (descRet d)).produced = (s.ring (descRet d)).produced + 1 ∧
      (u.ring ring).pos = ((s.ring ring).pos + 1) % (2 * s.depth ring) ∧ (u.ring ring).fetched = [] ∧
      u.fld (Reg.RING_REJ ring) 0 32 = s.fld (Reg.RING_REJ ring) 0 32) ∧
    (s.unapplied ring = true → Idles (.nop t ring) s)) ∧
  (∀ (s : State) (t : Nat) (ring : Fin 64) (d : Desc), s.head ring.val 0x60 = some d →
    descOnly d [(8, 0, 6), (8, 8, 3), (0x10, 0, 49)] = true → s.marks? (df d 8 0 6) = true →
    let n := df d 8 0 6
    let m := df d 8 8 2
    let q := df d 0x10 0 48
    (df d 8 10 1 = 0 → df d 0x10 48 1 = 1 → q = 0 →
      Does (.mark t ring) s fun u => tget? (u.ring n).marks m = some (s.ringSeq n)) ∧
    (df d 8 10 1 = 1 → df d 0x10 48 1 = 0 → q = 0 →
      Does (.mark t ring) s fun u => tget? (u.ring n).marks m = none) ∧
    (df d 8 10 1 = 0 → df d 0x10 48 1 = 0 → q = s.ringSeq n →
      Does (.mark t ring) s fun u => tget? (u.ring n).marks m = some q) ∧
    (df d 8 10 1 = 0 → df d 0x10 48 1 = 0 → q < s.ringSeq n → s.oldest n ≤ q → (s.ring n).marks ≠ [] →
      Does (.mark t ring) s fun u => tget? (u.ring n).marks m = some (headOf (s.ring n).kept q))) ∧
  (∀ (s : State) (t : Nat) (ring : Fin 64) (d : Desc), s.head ring.val 0x61 = some d →
    descOnly d [(8, 0, 6), (8, 8, 2), (0xC, 0, 24)] = true → s.marks? (df d 8 0 6) = true →
    ∀ mk, tget? (s.ring (df d 8 0 6)).marks (df d 8 8 2) = some mk →
    let n := df d 8 0 6
    let todo := copiesOf ((s.ring n).kept.filter fun k => decide (max mk (s.oldest n) ≤ k.seq)) (df d 0xC 0 24)
    ((s.ring n).repost.isSome = true → Idles (.repost t ring) s) ∧
    ((s.ring n).repost = none → todo ≠ [] → Does (.repost t ring) s fun u =>
      ∃ p, (u.ring n).repost = some p ∧ p.todo = todo ∧ p.mark = df d 8 8 2 ∧ p.tag = descTag d) ∧
    ((s.ring n).repost = none → todo = [] → Does (.repost t ring) s fun u => (u.ring n).repost = none))

/-- R344, R345, R367, R370 to R377: a record is written, or held; a held push completes; and summary mode. -/
def Obligations.DeliveryRowsComplete : Prop :=
  (∀ (s : State) (t : Nat) (n : Fin 64), (s.pwr.st = .run ∨ s.pwr.st = .endgame) → (s.ring n).part = none →
    (s.ring n).repost = none →
    (∀ cls x rest, (s.ring n).held = [] → (s.advance t).nextUnit n = some (cls, x, rest) → (s.advance t).serves n = true →
      s.writesTo n = true → s.fits n x 0 = true → Does (.recordDelivery t n) s fun u =>
        (u.ring n).pos = ((s.ring n).pos + x.partSlots (s.depth n) 0) % (2 * s.depth n) ∧
        (u.ring n).delivered = (s.ring n).delivered + 1 ∧ (u.ring n).queue cls = rest ∧
        u.fld (Reg.RING_SEQ n) 0 48 = (s.fld (Reg.RING_SEQ n) 0 48 + x.partSlots (s.depth n) 0) % 2 ^ 48) ∧
    (∀ h hs, (s.ring n).held = h :: hs → s.writesTo n = true → s.fits n h 0 = true →
      Does (.recordDelivery t n) s fun u =>
        (u.ring n).pos = ((s.ring n).pos + h.partSlots (s.depth n) 0) % (2 * s.depth n) ∧
        (u.ring n).delivered = (s.ring n).delivered + 1 ∧ (u.ring n).held = hs) ∧
    (∀ cls x rest, (s.advance t).nextUnit n = some (cls, x, rest) → s.writesTo n = false → x.blks ≠ [] →
      (s.advance t).serves n = true →
      Does (.recordDelivery t n) s fun u =>
        (u.ring n).held = (s.ring n).held ++ [x] ∧ (u.ring n).queue cls = rest ∧
        (u.ring n).delivered = (s.ring n).delivered) ∧
    ((s.ring n).held = [] → (s.advance t).nextUnit n = none ∨ (s.advance t).serves n = false → Idles (.recordDelivery t n) s)) ∧
  (∀ (s : State) (t : Nat) (n : Fin 64), s.pwr.st ≠ .run → s.pwr.st ≠ .endgame → Idles (.recordDelivery t n) s) ∧
  (∀ (s : State) (t : Nat) (n : Fin 64) (cls : Fin 3),
    (∀ p rest s', takePush cls (s.ring n).waiting = some (p, rest) → (s.advance t).tryPush n p = some s' →
      Does (.heldPushRelease t n cls) s fun u => (u.ring n).waiting = rest) ∧
    (∀ p rest, takePush cls (s.ring n).waiting = some (p, rest) → (s.advance t).tryPush n p = none →
      Idles (.heldPushRelease t n cls) s) ∧
    (takePush cls (s.ring n).waiting = none → Idles (.heldPushRelease t n cls) s)) ∧
  (∀ (s : State) (t : Nat),
    (s.flt.grace = true → s.free? ≤ 64 → (s.advance t).past .grace (s.fld Reg.FLT_HOLD_GRACE 0 16 * 1000 * usQ) = true → Does (.holdGrace t) s fun u =>
      ∀ n : Fin 64, (s.ring n).summary = false → s.dataWaits n = true → (u.ring n).summary = true) ∧
    (s.flt.grace = false ∨ 64 < s.free? ∨ (s.advance t).past .grace (s.fld Reg.FLT_HOLD_GRACE 0 16 * 1000 * usQ) = false → Idles (.holdGrace t) s)) ∧
  (∀ (s : State) (t : Nat) (n : Fin 64),
    ((s.ring n).summary = true → (s.ring n).held = [] → (s.ring n).part = none → (s.ring n).express = [] →
      (s.ring n).standard = [] → (s.ring n).bulk = [] → s.fld Reg.FLT_HOLD_CTRL 16 14 ≤ s.free? →
      Does (.summaryExit t n) s fun u => (u.ring n).summary = false) ∧
    ((s.ring n).summary = false → Idles (.summaryExit t n) s))

/-! ### The register interface (13) -/

/-- R310, R321, R325: an accepted write stores its value in the fields that may be written and advances the block's epoch; a
value outside its range leaves the register as it was, and its fault is raised; a write to an offset without a register is
counted with its place and raises ACCESS_FAULT; outside RUN and ENDGAME the host's request comes to nothing. -/
def Obligations.RegisterWriteRowsComplete : Prop :=
  (∀ (s : State) (t off : Nat) (p : Port) (v : Dword) (h : Hit), s.portReady p → regAt off = some h → mspiAt off = some h →
    off % 4 = 0 → off < 0x100000 → h.row.wide = false → h.row.msk = false → h.row.key = false → h.row.far = false →
    h.row.mask ≠ 0 → h.reg ≠ Reg.GBL_CTRL →
    let old := s.reg h.reg
    let new := (old &&& ~~~BitVec.ofNat 64 h.row.mask) ||| (v.setWidth 64 &&& BitVec.ofNat 64 h.row.mask)
    (h.epoch = some 2 ∨ h.epoch = some 8 → s.rangeFaults h old new (v.setWidth 64) = [] →
      Does (.registerWrite t p off [v] [15]) s fun u => u.reg h.reg = new ∧
        (∀ e, h.epoch = some e → u.fld (Reg.GBL_EPOCH (e / 2)) (16 * (e % 2)) 16 =
          (s.fld (Reg.GBL_EPOCH (e / 2)) (16 * (e % 2)) 16 + 1) % 65536)) ∧
    (s.rangeFaults h old new (v.setWidth 64) ≠ [] → h.reg ≠ Reg.GBL_KEY → h.reg ≠ Reg.GBL_SNAP_CMD →
      reportReg h.reg = false →
      Does (.registerWrite t p off [v] [15]) s fun u => u.reg h.reg = s.reg h.reg ∧
        ∀ f ∈ s.rangeFaults h old new (v.setWidth 64), u.flt.active.getLsbD f.1.cls = true)) ∧
  (∀ (s : State) (t off : Nat) (v : Dword) (be : BitVec 4), s.hostUp = true → off < 0x100000 → be ≠ 0 →
    regAt (off / 4 * 4) = none → Does (.registerWrite t .host off [v] [be]) s fun u =>
      u.reg Reg.GBL_ACC_LAST = BitVec.ofNat 64 (off / 4 * 4 + 2 ^ 25) ∧
      u.fld Reg.GBL_ACC_COUNT 0 32 = (s.fld Reg.GBL_ACC_COUNT 0 32 + 1) % 2 ^ 32 ∧
      u.reg Reg.FLT_LAST = BitVec.ofNat 64 FaultCode.accessFault.code) ∧
  (∀ (s : State) (t off : Nat) (v : Dword) (be : BitVec 4), s.hostUp = false → Idles (.registerWrite t .host off [v] [be]) s) ∧
  (∀ (s : State) (t off : Nat) (p : Port) (data : List Dword) (be : List (BitVec 4)), data = [] ∨ be.length ≠ data.length →
    exec (.registerWrite t p off data be) s = .fault .illFormed)

/-- R317, R318, R320, R326, R416: the key and its expiry; a snapshot and its end; a far write applied. -/
def Obligations.RegisterRowsComplete : Prop :=
  (∀ (s : State) (t : Nat) (p : Port) (v : Dword), s.portReady p →
    (v = 0x5AC3 → Does (.keyUnlock t p v) s fun u => u.keyOpen p = true ∧ u.regs = s.regs) ∧
    (v ≠ 0x5AC3 → Does (.keyUnlock t p v) s fun u => u.keyOpen p = false ∧
      u.fld Reg.GBL_KEY_FAULT (16 * portBit p) 16 = min 65535 (s.fld Reg.GBL_KEY_FAULT (16 * portBit p) 16 + 1) ∧
      u.reg Reg.FLT_LAST = BitVec.ofNat 64 FaultCode.keyFault.code)) ∧
  (∀ (s : State) (t : Nat) (p q : Port),
    ((s.advance t).past (.key p) (1000 * usQ) = true → Does (.keyExpiry t p) s fun u =>
      u.keyOpen p = false ∧ (q ≠ p → u.keyOpen q = (s.advance t).keyOpen q) ∧ u.regs = s.regs) ∧
    ((s.advance t).past (.key p) (1000 * usQ) = false → Idles (.keyExpiry t p) s)) ∧
  (∀ (s : State) (t : Nat) (p : Port), s.portReady p →
    (s.gbl.snap = none → Does (.snapshot t p) s fun u =>
      u.gbl.snap = some ((s.advance t).nextCycle, listed (s.advance t).snapValues)) ∧
    (s.gbl.snap.isSome = true → Does (.snapshot t p) s fun u => u.gbl.snap = s.gbl.snap ∧
      u.reg Reg.FLT_LAST = BitVec.ofNat 64 FaultCode.snapOverrun.code)) ∧
  (∀ (s : State) (t : Nat),
    (∀ at_ vals, s.gbl.snap = some (at_, vals) → (∀ x ∈ vals, 0x14020 ≤ x.1) → Does (.snapshotDone t) s fun u =>
      u.gbl.snap = none ∧ u.fld Reg.SNAP_SEQ 0 32 = (s.fld Reg.SNAP_SEQ 0 32 + 1) % 2 ^ 32 ∧
      u.reg Reg.SNAP_TIME_LO = BitVec.ofNat 64 at_ ∧ (∀ a, a < 0x14000 → u.reg a = s.reg a) ∧
      (∀ a, 0x14020 ≤ a → u.reg a = (tget? vals a).getD (resetOf a))) ∧
    (s.gbl.snap = none → Idles (.snapshotDone t) s)) ∧
  (∀ (s : State) (t a : Nat) (v : Word), s.gbl.far = some (a, v) →
    (isKpr a = false → Does (.farWriteApply t) s fun u => u.gbl.far = none ∧ u.farReg a = v) ∧
    (isKpr a = true → s.kpr.reset = false → a ≠ Reg.KPR_WAKE_STATUS →
      Does (.farWriteApply t) s fun u => u.gbl.far = none ∧ u.farReg a = v) ∧
    (a = Reg.KPR_WAKE_STATUS → s.kpr.reset = false → s.kpr.tickNow ≠ max s.now t →
      Does (.farWriteApply t) s fun u => u.gbl.far = none ∧ u.far = s.far ∧
        u.kpr.cause = s.kpr.cause &&& ~~~BitVec.ofNat 5 v.toNat) ∧
    (isKpr a = true → s.kpr.reset = true → Does (.farWriteApply t) s fun u => u.gbl.far = none ∧ u.far = s.far)) ∧
  (∀ (s : State) (t : Nat), s.gbl.far = none → Idles (.farWriteApply t) s)

/-- R310, R313 to R315, R328 to R330: a host read and its answer; MSPI frames and theirs; a scrub pass. -/
def Obligations.AccessRowsComplete : Prop :=
  (∀ (s : State) (t off len : Nat),
    (s.hostUp = true → off < 0x100000 →
      Does (.bar0ReadAbort t off len .zeroLen) s (fun u => u.sent = s.sent ++ [.completion (off / 4 * 4) [0]] ∧ u.regs = s.regs) ∧
      Does (.bar0ReadAbort t off len .atomic) s (fun u => u.sent = s.sent ++ [.unsupported (off / 4 * 4)] ∧ u.regs = s.regs) ∧
      (rejected (hostHits off len) [] false = none → len ≠ 0 → Does (.bar0ReadAbort t off len .plain) s fun u =>
        u.regs = s.regs ∧
        u.sent = s.sent ++ [.completion (off / 4 * 4) (((hostHits off len).filterMap id).map (s.advance t).readDword)]) ∧
      (∀ r, rejected (hostHits off len) [] false = some r → Does (.bar0ReadAbort t off len .plain) s fun u =>
        u.reg Reg.GBL_ACC_LAST = BitVec.ofNat 64 (off / 4 * 4 + r % 16 * 2 ^ 21) ∧
        u.reg Reg.FLT_LAST = BitVec.ofNat 64 FaultCode.accessFault.code ∧
        ∃ l, u.sent = s.sent ++ l ++ [.completerAbort (off / 4 * 4)])) ∧
    (∀ k, s.hostUp = false ∨ 0x100000 ≤ off → Idles (.bar0ReadAbort t off len k) s)) ∧
  (∀ (s : State) (t : Nat) (a b c : Byte) (d0 d1 d2 d3 : Byte), s.pwr.st = .run →
    let addr := a.toNat * 65536 + b.toNat * 256 + c.toNat
    (∀ h, s.bit Reg.GBL_CTRL 1 = true → mspiAt (addr / 4 * 4) = some h → Does (.mspiFrame t [0x03, a, b, c]) s fun u =>
      u.regs = s.regs ∧ u.sent = s.sent ++ [.mspi ([0, 0] ++ dwordBytes ((s.advance t).readDword h) ++ [1])]) ∧
    (s.bit Reg.GBL_CTRL 1 = false → Does (.mspiFrame t [0x03, a, b, c]) s fun u =>
      u.regs = s.regs ∧ u.sent = s.sent ++ [.mspi [0, 0, 0, 0, 0, 0, 28]]) ∧
    (s.bit Reg.GBL_CTRL 0 = false → Does (.mspiFrame t [0x02, a, b, c, d0, d1, d2, d3]) s fun u =>
      u.reg Reg.FLT_LAST = BitVec.ofNat 64 FaultCode.accessFault.code ∧
      ∃ l, u.sent = s.sent ++ l ++ [.mspi [0, 0, 30]]) ∧
    (s.bit Reg.GBL_CTRL 0 = true → mspiAt (addr / 4 * 4) = none → Does (.mspiFrame t [0x02, a, b, c, d0, d1, d2, d3]) s fun u =>
      u.regs = s.regs ∧ u.sent = s.sent ++ [.mspi [0, 0, 1]]) ∧
    (Does (.mspiFrame t [0x02, a, b, c, d0]) s fun u =>
      u.reg Reg.FLT_LAST = BitVec.ofNat 64 FaultCode.accessFault.code ∧
      u.fld Reg.GBL_ACC_COUNT 0 32 = (s.fld Reg.GBL_ACC_COUNT 0 32 + 1) % 2 ^ 32)) ∧
  (∀ (s : State) (t : Nat) (rest : List Byte), s.pwr.st = .waking ∨ s.pwr.st = .endgame →
    Does (.mspiFrame t (0x02 :: rest)) s fun u => u.regs = s.regs ∧ u.sent = s.sent ++ [.mspi [0, 0, 64]]) ∧
  (∀ (s : State) (t : Nat), Idles (.mspiFrame t []) s) ∧
  (∀ (s : State) (t : Nat) (bad : List Nat), Does (.scrubPass t bad) s fun u =>
    u.fld Reg.GBL_SCRUB 0 16 = (s.fld Reg.GBL_SCRUB 0 16 + 1) % 65536) ∧
  (∀ (s : State) (t a : Nat) (h : Hit), regAt a = some h → h.row.mask ≠ 0 → h.reg = a → Does (.scrubPass t [a]) s fun u =>
    a ∈ u.gbl.mismatched ∧ u.gbl.safe = (s.gbl.safe || h.guarded) ∧
    u.fld Reg.GBL_SCRUB 16 16 = min 65535 (s.fld Reg.GBL_SCRUB 16 16 + 1) ∧
    u.flt.active.getLsbD FaultCode.cfgParity.cls = true)

/-! ### Persistence (16) -/

/-- R386, R391, R394: checkpoints, DRAIN passes, the end of a pass, generations of the configuration image. -/
def Obligations.PassRowsComplete : Prop :=
  (∀ (s : State) (t : Nat),
    let m := (s.advance t).devTime / s.ckptQ * s.ckptQ
    (s.passes = true → s.bit Reg.PST_CTRL 0 = true → s.ckptQ ≠ 0 → s.pst.lastCkpt < m →
      (s.pst.pass = none → Does (.checkpointPass t) s fun u => u.pst.lastCkpt = m ∧ u.pst.lateRun = false ∧
        ∃ p, u.pst.pass = some p ∧ p.kind = .checkpoint ∧ p.num = (s.pst.passNum + 1) % 2 ^ 32 ∧
          p.images + p.todo.length = s.dirtyChans.length) ∧
      (∀ p, s.pst.pass = some p → Does (.checkpointPass t) s fun u =>
        u.pst.lastCkpt = m ∧ u.pst.late = true ∧ u.pst.pass = some p)) ∧
    (s.passes = false ∨ s.bit Reg.PST_CTRL 0 = false ∨ m ≤ s.pst.lastCkpt → Idles (.checkpointPass t) s)) ∧
  (∀ (s : State) (t : Nat),
    (s.passes = true → s.pst.pass = none → s.pst.covered = false → s.bit Reg.PST_CTRL 1 = true → s.dirtyChans ≠ [] →
      Does (.drainPass t) s fun u => ∃ p, u.pst.pass = some p ∧ p.kind = .drain ∧
        p.num = (s.pst.passNum + 1) % 2 ^ 32 ∧ p.todo = []) ∧
    (s.passes = false ∨ s.pst.pass ≠ none ∨ s.pst.covered = true ∨ s.bit Reg.PST_CTRL 1 = false ∨ s.dirtyChans = [] →
      Idles (.drainPass t) s)) ∧
  (∀ (s : State) (t : Nat),
    (∀ p, s.pst.pass = some p → p.todo.all (s.advance t).imageReady = true → (s.advance t).passWritten p = true →
      s.pst.late = false → Does (.passComplete t) s fun u =>
      u.pst.pass = none ∧ u.reg Reg.PST_PASS = BitVec.ofNat 64 p.num) ∧
    (∀ p, s.pst.pass = some p → p.todo.all (s.advance t).imageReady = true → (s.advance t).passWritten p = true →
      s.pst.late = true → Does (.passComplete t) s fun u =>
      u.pst.late = false ∧ u.fld Reg.PST_CKPT_LATE 0 32 = (s.fld Reg.PST_CKPT_LATE 0 32 + 1) % 2 ^ 32 ∧
      ∃ q, u.pst.pass = some q ∧ q.kind = .checkpoint ∧ q.num = (s.pst.passNum + 1) % 2 ^ 32) ∧
    (∀ p, s.pst.pass = some p → p.todo.all (s.advance t).imageReady = false ∨ (s.advance t).passWritten p = false → Idles (.passComplete t) s) ∧
    (s.pst.pass = none → Idles (.passComplete t) s)) ∧
  (∀ (s : State) (t : Nat),
    (s.pst.changed = true → s.pst.changedAt + 100 * usQ ≤ max s.now t → 0 < s.pst.genTokens → s.pwr.st = .run → s.pst.endgame = none →
      Does (.configGeneration t) s fun u => u.pst.changed = false ∧ u.pst.genTokens = s.pst.genTokens - 1 ∧
        (if s.pst.newest then u.pst.half0 else u.pst.half1).generation = s.pst.half.generation + 1 ∧
        (if s.pst.newest then u.pst.half1 else u.pst.half0) = s.pst.half) ∧
    (s.pst.changed = false ∨ max s.now t < s.pst.changedAt + 100 * usQ ∨ s.pst.genTokens = 0 ∨ s.pwr.st ≠ .run ∨ s.pst.endgame ≠ none →
      Idles (.configGeneration t) s)) ∧
  (∀ (s : State) (t : Nat),
    ((s.advance t).past .genToken (10000 * usQ) = true → Does (.generationToken t) s fun u =>
      u.pst = { s.pst with genTokens := min 1000 (s.pst.genTokens + 1) } ∧ u.regs = s.regs) ∧
    ((s.advance t).past .genToken (10000 * usQ) = false → Idles (.generationToken t) s))

/-- R395 to R400, R403: the Endgame from its cut to its end, the restore, and the retention scrub. -/
def Obligations.EndgameRowsComplete : Prop :=
  (∀ (s : State) (t : Nat),
    (∀ e, s.pst.endgame = some e → e.begun = false → e.bare = true → Does (.endgame t) s fun u =>
      u.pst.endgame = some { e with begun := true } ∧
      u.fld Reg.FLT_BB_SEQ 0 32 = (s.fld Reg.FLT_BB_SEQ 0 32 + 1) % 2 ^ 32) ∧
    (∀ e, s.pst.endgame = some e → e.begun = false → e.bare = false → s.awaitsTick e = false →
      Does (.endgame t) s fun u => ∃ x, u.pst.endgame = some x ∧ x.begun = true ∧ x.tCut = e.tCut ∧
        x.num = (s.pst.passNum + 1) % 2 ^ 32 ∧ x.wroteFrom = max s.now t) ∧
    (∀ e, s.pst.endgame = some e → e.begun = true ∨ (e.bare = false ∧ s.awaitsTick e = true) → Idles (.endgame t) s) ∧
    (s.pst.endgame = none → Idles (.endgame t) s)) ∧
  (∀ (s : State) (t : Nat),
    (∀ e, s.pst.endgame = some e → e.begun = true → e.bare = false → s.kpr.lastCause ≠ 3 →
      e.nowPf + e.holdup - 10 * usQ ≤ max s.now t → Does (.endgameDeadline t) s fun u =>
        ∃ x, u.pst.endgame = some x ∧ x.deadline = true ∧ x.num = e.num) ∧
    (∀ e, s.pst.endgame = some e → e.begun = false → Idles (.endgameDeadline t) s) ∧
    (s.pst.endgame = none → Idles (.endgameDeadline t) s)) ∧
  (∀ (s : State) (t : Nat),
    (∀ e, s.pst.endgame = some e → e.begun = true → e.todo = [] ∨ e.deadline = true →
      Does (.endgameComplete t) s fun u => u.pst.endgame = none ∧ u.chans = [] ∧ u.tb.st = .stopped ∧
        (s.pwr.pfail = false → s.pwr.rails = true → s.pwr.droop = 0 → u.pwr.st = .waking) ∧
        ((s.pwr.pfail = true ∨ s.pwr.rails = false ∨ s.pwr.droop ≠ 0) → u.quiet = true)) ∧
    (∀ e, s.pst.endgame = some e → e.begun = false → Idles (.endgameComplete t) s) ∧
    (s.pst.endgame = none → Idles (.endgameComplete t) s)) ∧
  (∀ (s : State) (t : Nat),
    (s.pst.restore = .granted → s.pwr.st = .run → Does (.restore t) s fun u => u.pst.restore = .read ∧
      u.tb.drift = (if s.pst.half.good then s.pst.half.drift else []) ∧ (∃ d, u.tb.d0 = some d) ∧
      (s.pst.journal = [] → u.tb.d0 = some 0 ∧ u.tb.u0 = 0 ∧ u.fld Reg.PST_STATUS 4 2 = 0)) ∧
    (s.pst.restore ≠ .granted ∨ s.pwr.st ≠ .run → Idles (.restore t) s)) ∧
  (∀ (s : State) (t : Nat),
    (s.pst.restore = .read → s.pwr.st = .run → s.pst.endgame = none → s.tb.st.live = true → s.pst.pass = none →
      s.restoredAll = true → (∀ c ∈ tkeys s.chans, (s.advance t).imageReady c = true) → Does (.restoreComplete t) s fun u =>
        u.pst.restore = .done ∧ u.pst.pass = none ∧ u.bit Reg.PST_STATUS 3 = true ∧
        u.kpr.por = false ∧ u.kpr.xtalFail = false ∧ u.kpr.skipAny = 0) ∧
    (s.pst.restore ≠ .read ∨ s.pwr.st ≠ .run ∨ s.pst.endgame ≠ none ∨ s.tb.st.live = false ∨ s.pst.pass ≠ none ∨
      s.restoredAll = false → Idles (.restoreComplete t) s)) ∧
  (∀ (s : State) (t : Nat) (errors : List ScrubError),
    (s.bit Reg.PST_CTRL 2 = true → s.pwr.st = .run → s.pst.endgame = none → (s.advance t).past .scrub (86400 * secQ) = true →
      Does (.mramScrub t errors) s (fun u => u.fld Reg.PST_SCRUB 0 16 = (s.fld Reg.PST_SCRUB 0 16 + 1) % 65536) ∧
      (∀ e, errors = [e] → e.correctable = true → Does (.mramScrub t errors) s fun u =>
        u.fld Reg.PST_ECC 0 16 = min 65535 (s.fld Reg.PST_ECC 0 16 + 1) ∧
        u.pst.records = s.pst.records ∧ u.pst.journal = s.pst.journal ∧ u.pst.half0 = s.pst.half0 ∧ u.pst.half1 = s.pst.half1) ∧
      (∀ e, errors = [e] → e.correctable = false → Does (.mramScrub t errors) s fun u =>
        u.fld Reg.PST_ECC 16 16 = min 65535 (s.fld Reg.PST_ECC 16 16 + 1) ∧
        u.flt.active.getLsbD FaultCode.eccUncorr.cls = true)) ∧
    (s.bit Reg.PST_CTRL 2 = false ∨ s.pwr.st ≠ .run ∨ s.pst.endgame ≠ none ∨
      (s.advance t).past .scrub (86400 * secQ) = false → Idles (.mramScrub t errors) s))

/-! ### The keeper and guarded channels (17) -/

/-- R406, R408, R412, R415, R416, R431: a tick advances the time counter, its mirror and the wake-time cause; keeper reset; the
crystal fails; and the far write that clears wake causes. -/
def Obligations.KeeperRowsComplete : Prop :=
  (∀ (s : State) (t x : Nat) (levels : List (Fin 64 × Int)), s.kpr.reset = false → s.kpr.time = { x := x, y := x, z := x } →
    Does (.keeperTick t levels []) s fun u =>
      let n := (x + 1) % 2 ^ 48
      u.kpr.time = { x := n, y := n, z := n } ∧ u.reg Reg.KPR_TIME = BitVec.ofNat 64 n ∧ u.kpr.tickNow = max s.now t ∧
      (n = s.farFld Reg.KPR_WAKE_TIME 0 48 → u.kpr.cause.getLsbD 2 = true)) ∧
  (∀ (s : State) (t : Nat) (levels : List (Fin 64 × Int)) (upsets : List Upset), s.kpr.reset = true →
    Idles (.keeperTick t levels upsets) s) ∧
  (∀ (s : State) (t : Nat), s.kpr.reset = false →
    (s.pwr.st = .keeper → Does (.keeperReset t) s fun u => u.pwr.st = .off ∧ u.kpr.reset = true ∧ u.kpr.counters = [] ∧
      u.kpr.cause = 0 ∧ ∀ a, 0x11000 ≤ a → a < 0x12000 → u.reg a = resetOf a ∧ u.farReg a = resetOf a) ∧
    (s.pwr.st = .off → Does (.keeperReset t) s fun u => u.pwr.st = .off ∧ u.kpr.reset = true ∧ u.kpr.counters = [] ∧
      ∀ a, 0x11000 ≤ a → a < 0x12000 → u.reg a = resetOf a ∧ u.farReg a = resetOf a) ∧
    (s.pwr.st = .run → Does (.keeperReset t) s fun u => u.pwr.st = .run ∧ u.kpr.reset = true ∧ u.kpr.por = true ∧
      u.pwr.vbakLow = true ∧ u.flt.active.getLsbD FaultCode.vbakLow.cls = true ∧
      ∀ a, 0x11000 ≤ a → a < 0x12000 → u.reg a = resetOf a ∧ u.farReg a = resetOf a) ∧
    (s.pwr.st = .waking ∨ s.pwr.st = .endgame → Does (.keeperReset t) s fun u =>
      u.pwr.st = s.pwr.st ∧ u.kpr.reset = true ∧ u.pwr.vbakLow = s.pwr.vbakLow)) ∧
  (∀ (s : State) (t : Nat), s.kpr.reset = true → Does (.keeperReset t) s fun u =>
    u.kpr = s.kpr ∧ u.regs = s.regs ∧ u.pwr = s.pwr ∧ u.began .vbak = (s.advance t).now) ∧
  (∀ (s : State) (t : Nat),
    ((s.advance t).past .vbak msQ = true → Does (.keeperResetEnd t) s fun u =>
      u.kpr = { s.kpr with reset := false } ∧ u.pwr = { s.pwr with vbakLow := false } ∧ u.regs = s.regs) ∧
    ((s.advance t).past .vbak msQ = false → Idles (.keeperResetEnd t) s)) ∧
  (∀ (s : State) (t : Nat),
    (s.kpr.onXtal = true → s.kpr.reset = false → Does (.xtalFail t) s fun u =>
      u.kpr.onXtal = false ∧ u.kpr.xtalFail = true ∧ (s.pwr.st = .keeper → u.kpr.cause.getLsbD 4 = true) ∧
      (s.pwr.st ≠ .keeper → u.kpr.cause = s.kpr.cause)) ∧
    (s.kpr.onXtal = false ∨ s.kpr.reset = true → Idles (.xtalFail t) s)) ∧
  (∀ (s : State) (t : Nat) (p : Port) (v : Dword), s.portReady p →
    (s.gbl.far = none → Does (.wakeClear t p v) s fun u =>
      u.gbl.far = some (Reg.KPR_WAKE_STATUS, v.setWidth 64) ∧ u.kpr = s.kpr) ∧
    (s.gbl.far.isSome = true → Does (.wakeClear t p v) s fun u =>
      u.gbl.far = s.gbl.far ∧ u.kpr = s.kpr ∧ u.reg Reg.FLT_LAST = BitVec.ofNat 64 FaultCode.farOverrun.code))

/-- R419, R420: the comparison of a guarded channel's copies, a copy that does not come, and the vote of the keeper. -/
def Obligations.GuardedRowsComplete : Prop :=
  (∀ (s : State) (t : Nat) (c : BitVec 20) (n : BitVec 48) (same : Bool),
    let g := (s.chan c.toNat).guard
    let after (u : State) := (u.chan c.toNat).guard
    (∀ x rest, g.lateDue = x :: rest → Does (.guardCompare t c n same) s fun u => after u =
      { g with lateDue := rest, lateEqual := some (decide (n.toNat = x % 2 ^ 48) && same) }) ∧
    (∀ x rest, g.lateDue = [] → (∀ y ∈ g.heldRecs, y.twin ≠ none) → g.uncompared = x :: rest → g.dispute = false →
      (x.record.count0 % 2 ^ 48 = n.toNat → same = true → Does (.guardCompare t c n same) s fun u =>
        (after u).uncompared = rest ∧ (after u).dispute = false) ∧
      (x.record.count0 % 2 ^ 48 = n.toNat → same = false → Does (.guardCompare t c n same) s fun u =>
        (after u).uncompared = rest ∧ (after u).dispute = false ∧ (after u).twinOff = some 0 ∧
        u.flt.active.getLsbD FaultCode.guardDerived.cls = true) ∧
      (x.record.count0 % 2 ^ 48 ≠ n.toNat → Does (.guardCompare t c n same) s fun u =>
        (after u).uncompared = rest ∧ (after u).dispute = true ∧ (after u).undecided = 0 ∧
        (after u).heldRecs = g.heldRecs ++ [{ x with twin := some n.toNat, same := same }] ∧ u.rings = s.rings)) ∧
    (g.lateDue = [] → (∀ y ∈ g.heldRecs, y.twin ≠ none) → g.uncompared = [] → Idles (.guardCompare t c n same) s)) ∧
  (∀ (s : State) (t : Nat) (c : BitVec 20),
    let g := (s.chan c.toNat).guard
    (∀ x rest, g.uncompared = x :: rest → x.since + 10 * usQ ≤ max s.now t → Does (.guardCopyTimeout t c) s fun u =>
      (u.chan c.toNat).guard.uncompared = rest ∧ (u.chan c.toNat).guard.heldRecs = g.heldRecs ++ [x] ∧
      (u.chan c.toNat).guard.dispute = true ∧ u.rings = s.rings) ∧
    (g.uncompared = [] ∨ (∃ x rest, g.uncompared = x :: rest ∧ max s.now t < x.since + 10 * usQ) →
      Idles (.guardCopyTimeout t c) s)) ∧
  (∀ (s : State) (t : Nat), (∀ x ∈ s.chans, x.2.decl.guarded = false) → Does (.keeperVote t) s fun u =>
    u.chans = s.chans ∧ u.pst.covered = decide (s.need ≤ s.fld Reg.PST_HOLDUP_US 0 15 * 1000000)) ∧
  (∀ (s : State) (t c tk k : Nat) (ch : Chan), s.chans = [(c, ch)] → ch.decl.guarded = true → ch.guard.votes = [(tk, k)] →
    ch.st ≠ .castling → ch.guard.dispute = false → s.keeperWorks ch = true → ch.guard.off ≠ none →
    tk + s.farFld Reg.KPR_VOTE 0 8 * usQ + settleQ ≤ (s.advance t).devTime →
    let w := s.farFld Reg.KPR_VOTE 0 8 * usQ
    let agrees := (match ch.guard.keeperAt k with | some n => inRange (ch.countRange (tk - w) (tk + w)) n | none => false)
    (agrees = true → Does (.keeperVote t) s fun u =>
      (u.chan c).guard.votes = [] ∧ (u.chan c).guard.mismatch = 0 ∧ (u.chan c).guard.off = ch.guard.off) ∧
    (agrees = false → ch.guard.mismatch = 0 → Does (.keeperVote t) s fun u =>
      (u.chan c).guard.votes = [] ∧ (u.chan c).guard.mismatch = 1 ∧ (u.chan c).guard.off = ch.guard.off) ∧
    (agrees = false → ch.guard.mismatch = 1 → Does (.keeperVote t) s fun u =>
      (u.chan c).guard.votes = [] ∧ (u.chan c).guard.mismatch = 0 ∧ (u.chan c).guard.off = none ∧
      u.flt.active.getLsbD FaultCode.keeperMismatch.cls = true))

/-! ### Power (18) -/

/-- R429 to R434, R495: PFAIL_N, droop, PERST_N, the main rails, the base units and TEST_EN move the governor. -/
def Obligations.PowerRowsComplete : Prop :=
  (∀ (s : State) (t : Nat),
    (s.pwr.st = .run → Does (.pfailAssert t) s fun u => u.pwr.st = .endgame ∧ u.pwr.pfail = true ∧ u.pwr.queue = [] ∧
      u.kpr.lastCause = 1 ∧ u.cadOut = 0 ∧ u.pst.pass = none ∧
      ∃ e, u.pst.endgame = some e ∧ e.begun = false ∧ e.tCut = (s.advance t).nextCycle ∧ e.nowPf = max s.now t ∧
        e.holdup = s.fld Reg.PST_HOLDUP_US 0 15 * usQ) ∧
    (s.pwr.st = .waking → Does (.pfailAssert t) s fun u => u.quiet = true ∧ u.pwr.pfail = true ∧ u.chans = []) ∧
    (s.pwr.st ≠ .run → s.pwr.st ≠ .waking → Does (.pfailAssert t) s fun u =>
      u.pwr = { s.pwr with pfail := true } ∧
      (s.quiet = true ∨ s.kpr.lastCause ≠ 2 ∨ s.pst.endgame = none → u.regs = s.regs))) ∧
  (∀ (s : State) (t : Nat),
    ((s.advance t).past .pfail (1000 * usQ * s.fld Reg.PWR_CTRL 8 8) = true → s.quiet = true → s.pwr.rails = true →
      s.pwr.droop = 0 → Does (.pfailRelease t) s fun u =>
      u.pwr.st = .waking ∧ u.pwr.pfail = false ∧ u.reg Reg.PWR_WAKE_CAUSE = BitVec.ofNat 64 s.kpr.cause.toNat) ∧
    ((s.advance t).past .pfail (1000 * usQ * s.fld Reg.PWR_CTRL 8 8) = true →
      s.quiet = false ∨ s.pwr.rails = false ∨ s.pwr.droop ≠ 0 → Does (.pfailRelease t) s fun u =>
      u.pwr = { s.pwr with pfail := false } ∧ u.regs = s.regs) ∧
    ((s.advance t).past .pfail (1000 * usQ * s.fld Reg.PWR_CTRL 8 8) = false → Idles (.pfailRelease t) s)) ∧
  (∀ (s : State) (t : Nat) (rails : BitVec 3),
    let hit := rails &&& BitVec.ofNat 3 (s.fld Reg.PWR_CTRL 0 3)
    (s.pwr.st = .run → hit ≠ 0 → Does (.droopTrip t rails) s fun u => u.pwr.st = .endgame ∧ u.pwr.droop = rails ∧
      u.kpr.lastCause = 2 ∧ u.kpr.lastDroop = hit ∧ u.flt.active.getLsbD FaultCode.droop.cls = true ∧ u.flt.severe = true) ∧
    (s.pwr.st = .endgame → hit ≠ 0 → Does (.droopTrip t rails) s fun u => u.pwr.st = .endgame ∧ u.pwr.droop = rails ∧
      u.kpr.lastDroop = s.kpr.lastDroop ||| hit ∧ u.flt.active.getLsbD FaultCode.droop.cls = true) ∧
    (s.pwr.st = .waking → hit ≠ 0 → Does (.droopTrip t rails) s fun u => u.quiet = true ∧ u.pwr.droop = rails) ∧
    (s.quiet = false → hit = 0 → Does (.droopTrip t rails) s fun u =>
      u.pwr.st = s.pwr.st ∧ u.pwr.droop = rails ∧ u.flt = s.flt) ∧
    (s.quiet = true → rails ≠ 0 → Does (.droopTrip t rails) s fun u => u.pwr.st = s.pwr.st ∧ u.pwr.droop = rails) ∧
    (s.quiet = true → rails = 0 → Does (.droopTrip t rails) s fun u =>
      u.pwr.droop = 0 ∧ u.pwr.st = (if s.pwr.rails = true ∧ s.pwr.pfail = false then .waking else s.pwr.st))) ∧
  (∀ (s : State) (t : Nat),
    (s.pwr.st = .run → Does (.perstFall t) s fun u => u.pwr.st = .endgame ∧ u.pwr.perstN = false ∧ u.pcie = {} ∧
      u.kpr.lastCause = 3 ∧ ∃ e, u.pst.endgame = some e ∧ e.begun = false ∧ e.tCut = (s.advance t).nextCycle) ∧
    (s.pwr.st ≠ .run → Does (.perstFall t) s fun u => u.pwr = { s.pwr with perstN := false } ∧ u.pcie = {} ∧ u.regs = s.regs)) ∧
  (∀ (s : State) (t : Nat),
    (s.pwr.st = .waking → s.pwr.baseSettled = true → s.pwr.testEn = false → Does (.perstRise t) s fun u =>
      u.pwr.st = .run ∧ u.pwr.perstN = true ∧ u.pwr.queue = runUnits ∧ u.kpr.latched = []) ∧
    (s.pwr.st ≠ .waking ∨ s.pwr.baseSettled = false ∨ s.pwr.testEn = true → Does (.perstRise t) s fun u =>
      u.pwr = { s.pwr with perstN := true } ∧ u.regs = s.regs)) ∧
  (∀ (s : State) (t : Nat),
    ((s.advance t).past .rails (1000 * usQ) = true → s.quiet = true → s.pwr.pfail = false → s.pwr.droop = 0 →
      Does (.mainRailsPresent t) s fun u =>
      u.pwr.st = .waking ∧ u.pwr.rails = true) ∧
    ((s.advance t).past .rails (1000 * usQ) = true → s.pwr.droop = 0 → s.quiet = false ∨ s.pwr.pfail = true →
      Does (.mainRailsPresent t) s fun u => u.pwr = { s.pwr with rails := true } ∧ u.regs = s.regs) ∧
    (s.pwr.droop ≠ 0 ∨ (s.advance t).past .rails (1000 * usQ) = false → Idles (.mainRailsPresent t) s)) ∧
  (∀ (s : State) (t : Nat),
    (s.quiet = false → Does (.mainRailsLost t) s fun u =>
      u.quiet = true ∧ u.pwr.rails = false ∧ u.chans = [] ∧ u.inputs = [] ∧ u.tb.st = .stopped ∧ u.pst.endgame = none) ∧
    (s.quiet = true → s.pst.endgame = none → Does (.mainRailsLost t) s fun u =>
      u.pwr = { s.pwr with rails := false } ∧ u.regs = s.regs)) ∧
  (∀ (s : State) (t : Nat),
    (s.pwr.st = .waking → s.pwr.perstN = true → s.pwr.testEn = false → Does (.baseUnitsSettled t) s fun u =>
      u.pwr.st = .run ∧ u.pwr.queue = runUnits) ∧
    (s.pwr.st = .waking → s.pwr.perstN = false ∨ s.pwr.testEn = true → Does (.baseUnitsSettled t) s fun u =>
      u.pwr = { s.pwr with baseSettled := true } ∧ u.regs = s.regs) ∧
    (s.pwr.st ≠ .waking → Idles (.baseUnitsSettled t) s)) ∧
  (∀ (s : State) (t : Nat),
    (Does (.testEnChange t true) s fun u => u.pwr = { s.pwr with testEn := true } ∧ u.regs = s.regs) ∧
    (s.pwr.st = .waking → s.pwr.baseSettled = true → s.pwr.perstN = true → Does (.testEnChange t false) s fun u =>
      u.pwr.st = .run ∧ u.pwr.testEn = false) ∧
    (s.pwr.st ≠ .waking ∨ s.pwr.baseSettled = false ∨ s.pwr.perstN = false → Does (.testEnChange t false) s fun u =>
      u.pwr = { s.pwr with testEn := false } ∧ u.regs = s.regs))

/-- R437 to R441, R451: a grant takes the unit's tokens for 5 us and starts it; settled units return theirs; VDD_CORE. -/
def Obligations.TokenRowsComplete : Prop :=
  (∀ (s : State) (t : Nat) (x : WakeUnit) (rest : List WakeUnit), s.pwr.queue = x :: rest →
    (s.pwr.out + x.cost ≤ s.fld Reg.PWR_TOKEN_CFG 0 8 → Does (.tokenGrant t) s fun u =>
      u.pwr.queue = rest ∧ u.pwr.out = s.pwr.out + x.cost ∧
      u.pwr.settling = s.pwr.settling ++ [(x, max s.now t + 5 * usQ)] ∧
      u.fld Reg.PWR_TOKEN_ISSUED 0 48 = (s.fld Reg.PWR_TOKEN_ISSUED 0 48 + x.cost) % 2 ^ 48 ∧
      (x = .timeBase → u.tb.granted = true) ∧ (x = .mram → s.pst.restore = .idle → u.pst.restore = .granted)) ∧
    (s.fld Reg.PWR_TOKEN_CFG 0 8 < s.pwr.out + x.cost → Idles (.tokenGrant t) s)) ∧
  (∀ (s : State) (t : Nat), s.pwr.queue = [] → Idles (.tokenGrant t) s) ∧
  (∀ (s : State) (t : Nat), Does (.tokenReturn t) s fun u =>
    let due := s.pwr.settling.filter fun x => decide (x.2 ≤ max s.now t)
    let k := (due.map fun x => x.1.cost).sum
    u.pwr.settling = s.pwr.settling.filter (fun x => !decide (x.2 ≤ max s.now t)) ∧ u.pwr.out = s.pwr.out - k ∧
    u.fld Reg.PWR_TOKEN_RETURNED 0 48 = (s.fld Reg.PWR_TOKEN_RETURNED 0 48 + k) % 2 ^ 48 ∧
    (∀ x ∈ due, x.1 ∈ u.pwr.settled)) ∧
  (∀ (s : State) (t : Nat),
    (s.pwr.coreLow = false → s.quiet = false → Does (.coreLow t) s fun u => u.pwr.coreLow = true ∧
      u.reg Reg.FLT_LAST = BitVec.ofNat 64 FaultCode.coreLow.code) ∧
    (s.pwr.coreLow = true ∨ s.quiet = true → Idles (.coreLow t) s) ∧
    (Does (.coreLowEnd t) s fun u => u.pwr = { s.pwr with coreLow := false } ∧ u.regs = s.regs))

/-! ### Faults, the recorder, and the pins outside the register interface (19, 21) -/

/-- R447, R453 to R455: a ledger check passes or fails; a write of ones clears. -/
def Obligations.LedgerRowsComplete : Prop :=
  (∀ (s : State) (t : Nat),
    let bad := (s.advance t).tests.filter fun x => x.left != x.right
    (s.pwr.st = .run → s.pst.endgame = none → s.flt.ledgerAt < (s.advance t).msNow →
      (bad = [] → s.tokensOk = true → Does (.ledgerCheck t) s fun u => u.flt.failing = false ∧ u.rings = s.rings ∧
        u.flt.ledgerAt = (s.advance t).msNow ∧
        u.fld Reg.FLT_LEDGER_CHECKS 0 32 = (s.fld Reg.FLT_LEDGER_CHECKS 0 32 + 1) % 2 ^ 32 ∧
        u.fld Reg.FLT_LEDGER_FAIL 0 32 = s.fld Reg.FLT_LEDGER_FAIL 0 32) ∧
      (∀ x rest, bad = x :: rest → s.tokensOk = true → Does (.ledgerCheck t) s fun u =>
        u.flt.failing = true ∧ u.flt.severe = true ∧ u.flt.active.getLsbD FaultCode.ledgerMismatch.cls = true ∧
        u.fld Reg.FLT_LEDGER_FAIL 0 32 = (s.fld Reg.FLT_LEDGER_FAIL 0 32 + (rest.length + 1)) % 2 ^ 32 ∧
        u.fld Reg.FLT_LEDGER_LAST 0 4 = x.no ∧ u.fld Reg.FLT_LEDGER_LAST 4 12 = x.inst ∧
        (u.ring (s.fld Reg.FLT_REC_RING 8 6)).produced = (s.ring (s.fld Reg.FLT_REC_RING 8 6)).produced + 1) ∧
      (bad = [] → s.tokensOk = false → Does (.ledgerCheck t) s fun u =>
        u.flt.failing = true ∧ u.fld Reg.FLT_LEDGER_LAST 0 4 = 9 ∧
        u.reg Reg.FLT_LAST = BitVec.ofNat 64 FaultCode.tokenAudit.code ∧
        u.fld Reg.FLT_LEDGER_FAIL 0 32 = (s.fld Reg.FLT_LEDGER_FAIL 0 32 + 1) % 2 ^ 32)) ∧
    (s.pwr.st ≠ .run ∨ s.pst.endgame ≠ none ∨ (s.advance t).msNow ≤ s.flt.ledgerAt → Idles (.ledgerCheck t) s)) ∧
  (∀ (s : State) (t : Nat) (p : Port) (v : Dword), s.portReady p → Does (.faultClear t p v) s fun u =>
    u.flt.severe = (s.flt.severe && !v.getLsbD 16) ∧
    (∀ i, i < 9 → u.flt.active.getLsbD i =
      (s.flt.active.getLsbD i && (!v.getLsbD i || (decide (i = 4) && s.flt.failing)))))

/-- R458, R459, R461, R462: the black box sealed and unsealed, its bucket, a marker, and the copy of an entry. -/
def Obligations.RecorderRowsComplete : Prop :=
  (∀ (s : State) (t : Nat),
    ((s.advance t).past .bbEntry (1000 * usQ) = true → Does (.bbEntryToken t) s fun u =>
      u.flt = { s.flt with bbTokens := min 64 (s.flt.bbTokens + 1) } ∧ u.regs = s.regs) ∧
    ((s.advance t).past .bbEntry (1000 * usQ) = false → Idles (.bbEntryToken t) s)) ∧
  (∀ (s : State) (t : Nat) (p : Port), s.portReady p →
    (s.flt.sealed = false → Does (.bbSeal t p) s fun u => u.flt.sealed = true ∧ u.bit Reg.FLT_BB_STATUS 13 = true) ∧
    (s.flt.sealed = true → Does (.bbSeal t p) s fun u => u.flt.sealed = true ∧ u.pst = s.pst)) ∧
  (∀ (s : State) (t : Nat) (p : Port), s.portReady p →
    ((s.advance t).keyOpen p = true → s.flt.sealed = true → Does (.bbUnseal t p) s fun u =>
      u.flt.sealed = false ∧ u.bit Reg.FLT_BB_STATUS 13 = false ∧ u.keyOpen p = false) ∧
    ((s.advance t).keyOpen p = true → s.flt.sealed = false → Does (.bbUnseal t p) s fun u =>
      u.flt.sealed = false ∧ u.keyOpen p = false ∧ u.pst = s.pst) ∧
    ((s.advance t).keyOpen p = false → Does (.bbUnseal t p) s fun u =>
      u.reg Reg.FLT_LAST = BitVec.ofNat 64 FaultCode.keyLocked.code ∧ (s.flt.sealed = true → u.flt.sealed = true))) ∧
  (∀ (s : State) (t : Nat) (p : Port) (e : BitVec 13), s.portReady p → Does (.bbSelect t p e) s fun u =>
    u.flt.selOut = some e.toNat ∧ u.fld Reg.FLT_BB_SEL 0 13 = e.toNat ∧ u.bit Reg.FLT_BB_SEL 16 = false) ∧
  (∀ (s : State) (t : Nat),
    (∀ e, s.flt.selOut = some e → Does (.bbCopyDone t) s fun u => u.flt.selOut = none ∧ u.bit Reg.FLT_BB_SEL 16 = true ∧
      ∀ k, k < 8 → u.reg (Reg.FLT_BB_DATA k) = BitVec.ofNat 64 (fieldOf (tget 0 s.pst.blackBox e).toNat (32 * k) 32)) ∧
    (s.flt.selOut = none → Idles (.bbCopyDone t) s)) ∧
  (∀ (s : State) (t : Nat) (p : Port) (v : Dword), s.portReady p →
    (s.flt.sealed = false → 0 < s.flt.bbTokens → Does (.bbMark t p v) s fun u =>
      u.flt.bbTokens = s.flt.bbTokens - 1 ∧ u.fld Reg.FLT_BB_MARK 0 32 = v.toNat ∧
      u.fld Reg.FLT_BB_SEQ 0 32 = (s.fld Reg.FLT_BB_SEQ 0 32 + 1) % 2 ^ 32) ∧
    (s.flt.sealed = true ∨ s.flt.bbTokens = 0 → Does (.bbMark t p v) s fun u =>
      u.fld Reg.FLT_BB_STATUS 16 16 = min 65535 (s.fld Reg.FLT_BB_STATUS 16 16 + 1) ∧ u.pst = s.pst))

/-- R333, R336, R511: the function's power state, the link, and a cycle of the TAP's clock. -/
def Obligations.PinRowsComplete : Prop :=
  (∀ (s : State) (t : Nat) (entering : Bool), Does (.d3hotChange t entering) s fun u =>
    u.pcie = { s.pcie with d3hot := entering } ∧ u.regs = s.regs) ∧
  (∀ (s : State) (t : Nat) (up : Bool) (rate : Fin 5) (width : Fin 4), Does (.pcieLinkChange t up rate width) s fun u =>
    u.pcie.up = up ∧ u.pcie.rate = rate ∧ u.pcie.width = width ∧ u.pcie.d3hot = s.pcie.d3hot ∧ u.regs = s.regs) ∧
  (∀ (s : State) (t : Nat) (tms tdi : Bool), s.pwr.rails = true →
    (Does (.jtagTck t true tms tdi) s fun u => u.jtag.st = s.jtag.st.next tms ∧ u.regs = s.regs) ∧
    (Does (.jtagTck t false tms tdi) s fun u => u.jtag.st = .reset ∧ u.jtag.idcode = true ∧ u.jtag.tdo = none) ∧
    (s.jtag.st = .shiftDr → Does (.jtagTck t true tms tdi) s fun u => u.jtag.dr = s.jtag.dr.drop 1 ++ [tdi]) ∧
    (s.jtag.st = .shiftIr → Does (.jtagTck t true tms tdi) s fun u => u.jtag.irShift = s.jtag.irShift.drop 1 ++ [tdi]) ∧
    (s.jtag.st = .captureDr → s.jtag.idcode = true → Does (.jtagTck t true tms tdi) s fun u =>
      u.jtag.dr = lowBits 0xB5171A6B 32 ∧ (tms = false → u.jtag.tdo = some true)) ∧
    (s.jtag.st = .captureDr → s.jtag.idcode = false → s.jtag.ir = 0xFF → Does (.jtagTck t true tms tdi) s fun u =>
      u.jtag.dr = [false]) ∧
    (s.jtag.st = .exit1Ir → tms = true → Does (.jtagTck t true tms tdi) s fun u =>
      u.jtag.ir = BitVec.ofNat 8 (bitsNat s.jtag.irShift) ∧ u.jtag.idcode = false)) ∧
  (∀ (s : State) (t : Nat) (trstN tms tdi : Bool), s.pwr.rails = false → Idles (.jtagTck t trstN tms tdi) s)

/-! ### The machine as a whole -/

/-- A step carries out the command that has waited longest on the state with the queue's rest; with an empty queue the hub
idles (log entry 9). -/
def Obligations.StepRunsFront : Prop :=
  (∀ (c : Instr) (s : State), step { s with pending := c :: s.pending } = exec c s) ∧
  (∀ (c : Instr) (rest : List Instr) (s : State), s.pending = c :: rest → step s = exec c { s with pending := rest }) ∧
  (∀ s : State, s.pending = [] → step s = .next s)

/-- R310, R333, R334, R341, R343, R221, log entries 1 and 16: every command that the outside can form completes, in every
state; time does not run back, and no command touches the queue behind it. A command that cannot be formed stops. -/
def Obligations.CommandsComplete : Prop :=
  ∀ (c : Instr) (s : State),
    (c.wf = true → ∃ u, exec c s = .next u ∧ u.now = max s.now c.time ∧ u.pending = s.pending) ∧
    (c.wf = false → exec c s = .fault .illFormed)

/-- R31, R65: in every step device time stays within its 72 bits and never goes back. -/
def Obligations.DeviceTimeKept : Prop :=
  ∀ s u : State, s.timeInSpan → step s = .next u → u.timeInSpan ∧ s.devTime ≤ u.devTime

/-- R31, R65, R431, R471, log entry 3: at reset (the model's State.reset: the entry into RUN from a cold start)
device time is 0 and so within its span; no command waits; the time base is stopped, every channel is vacant, every lane off
and every ring disabled; every register holds the value its table gives, FE_SAMP 1,000 and PWR_TOKEN_CFG 32 among them. -/
def Obligations.ResetState : Prop :=
  State.reset.timeInSpan ∧ State.reset.devTime = 0 ∧ State.reset.pending = [] ∧ State.reset.tb.st = .stopped ∧
  State.reset.pwr.st = .run ∧ State.reset.flt.active = 0 ∧ State.reset.flt.severe = false ∧ State.reset.gbl.safe = false ∧
  (∀ c, (State.reset.chan c).st = .vacant) ∧ (∀ n, (State.reset.lane n).st = .off) ∧
  (∀ n, (State.reset.ring n).st = .disabled) ∧ (∀ n, (State.reset.input n).fifo = []) ∧
  (∀ a h, regAt a = some h → h.row.fused = false → State.reset.reg a = BitVec.ofNat 64 h.row.reset ∧
    State.reset.farReg a = BitVec.ofNat 64 h.row.reset) ∧
  (∀ n : Fin 256, State.reset.reg (Reg.FE_SAMP n) = 1000 ∧ State.reset.reg (Reg.FE_CTRL n) = 0x24 ∧
    State.reset.reg (Reg.FE_THR n) = 0x3EB0015) ∧
  (∀ c : Fin 16, State.reset.reg (Reg.CAD_PERIOD c) = 12288000 ∧ State.reset.reg (Reg.CAD_CTRL c) = 0x180) ∧
  State.reset.reg Reg.PWR_TOKEN_CFG = 32 ∧ State.reset.reg Reg.TB_RET_SLEW_MAX = 1228800

/-- R65: device time that has reached 2^72 − 1 Q holds that value under every command, TB_SPAN is raised there, and device
time never wraps. -/
def Obligations.DeviceTimeHoldsAtItsEnd : Prop :=
  (∀ (c : Instr) (s u : State), s.devTime = 2 ^ 72 - 1 → exec c s = .next u → u.devTime = 2 ^ 72 - 1) ∧
  (∀ (c : Instr) (s u : State), s.devTime < 2 ^ 72 → exec c s = .next u → s.devTime ≤ u.devTime ∧ u.devTime < 2 ^ 72) ∧
  (∀ (s : State) (t : Nat), s.devTime = 2 ^ 72 - 1 → s.tb.spanRaised = false →
    Does (.tbSpan t) s fun u => u.devTime = 2 ^ 72 - 1 ∧ u.flt.active.getLsbD FaultCode.tbSpan.cls = true ∧
      u.reg Reg.FLT_LAST = BitVec.ofNat 64 FaultCode.tbSpan.code)

/-- R103, R104, R105: what the sorting office reads from the fragments that capture writes for an item is that item, with
the fragments behind it left over; for every delta below 2^54 Q, every count that three continuations hold, every device
time and every zone. -/
def Obligations.MarksReadBack : Prop :=
  ∀ (m : Mark) (rest : List Fragment),
    (match m with
      | .head _ d => d < 2 ^ 54
      | .thin n _ => n < 2 ^ 50
      | .ovfl n => n < 2 ^ 51
      | .anchor t => t < 2 ^ 72
      | .cfg _ e => e < 2 ^ 8
      | .zone _ _ | .est _ | .resync _ => True) →
    readMark (m.encode ++ rest) = some (m, rest)

/-! ### Rules stated as they stand -/

/-- R138: a write to CAD_PERIOD or CAD_PHASE that would make P fall outside 1,228,800 Q to 1,228,800,000,000,000 Q, or make
phase not less than P, leaves the register unchanged and raises CAD_RANGE with the cadence number; every other one is
stored, without the reserved bits. -/
def Obligations.CadenceGridIsChecked : Prop :=
  ∀ (s : State) (t : Nat) (p : Port) (c : Fin 16) (phase : Bool) (v : Word) (cmd : Instr), s.portReady p →
    let a := if phase then Reg.CAD_PHASE c else Reg.CAD_PERIOD c
    (cmd = .cadenceGridWrite t p c phase v ∨ cmd = .registerWrite t p a [v.setWidth 32, (v >>> 32).setWidth 32] [15, 15]) →
    let pOf := fun w : Word => (w.toNat % 2 ^ 48) * (if w.getLsbD 48 then 64 else 1)
    let newP := pOf (if phase then s.reg (Reg.CAD_PERIOD c) else v)
    let newPhase := (if phase then v else s.reg (Reg.CAD_PHASE c)).toNat % 2 ^ 54
    let ok := 1228800 ≤ newP ∧ newP ≤ 1228800000000000 ∧ newPhase < newP
    (¬ok → Does cmd s fun u => u.reg a = s.reg a ∧ u.reg Reg.FLT_LAST = BitVec.ofNat 64 FaultCode.cadRange.code ∧
      u.reg Reg.FLT_LAST_PARAM = BitVec.ofNat 64 c) ∧
    (ok → Does cmd s fun u => u.reg a = v &&& (if phase then 0x3FFFFFFFFFFFFF else 0x1FFFFFFFFFFFF))

/-- R88: a write of 0 to FE_SAMP.period leaves the period unchanged and raises FE_RANGE with the input number, on a port that
takes writes and a far path that is free. -/
def Obligations.SamplingPeriodIsNotZero : Prop :=
  ∀ (s : State) (t : Nat) (p : Port) (n : Fin 256) (v : Dword), s.portReady p → s.gbl.far = none → v.toNat % 2 ^ 16 = 0 →
    Does (.registerWrite t p (Reg.FE_SAMP n) [v] [15]) s fun u =>
      u.reg (Reg.FE_SAMP n) = s.reg (Reg.FE_SAMP n) ∧ u.farReg (Reg.FE_SAMP n) = s.farReg (Reg.FE_SAMP n) ∧
      u.gbl.far = none ∧ u.reg Reg.FLT_LAST = BitVec.ofNat 64 FaultCode.feRange.code ∧
      u.reg Reg.FLT_LAST_PARAM = BitVec.ofNat 64 n

/-- R440: a write of 8 to 255 to PWR_TOKEN_CFG.pool decides every later grant, and the tokens already out stay out and return
normally; a value outside leaves the register unchanged and raises PWR_RANGE. -/
def Obligations.TokenPoolIsWritten : Prop :=
  ∀ (s : State) (t : Nat) (p : Port) (v : Dword), s.portReady p →
    (v.toNat % 2 ^ 8 < 8 → Does (.registerWrite t p Reg.PWR_TOKEN_CFG [v] [15]) s fun u =>
      u.reg Reg.PWR_TOKEN_CFG = s.reg Reg.PWR_TOKEN_CFG ∧ u.pwr = s.pwr ∧
      u.reg Reg.FLT_LAST = BitVec.ofNat 64 FaultCode.pwrRange.code) ∧
    (8 ≤ v.toNat % 2 ^ 8 → Does (.registerWrite t p Reg.PWR_TOKEN_CFG [v] [15]) s fun u =>
      u.fld Reg.PWR_TOKEN_CFG 0 8 = v.toNat % 2 ^ 8 ∧ u.pwr = s.pwr ∧
      (∀ (t2 : Nat) (x : WakeUnit) (rest : List WakeUnit), u.pwr.queue = x :: rest →
        (u.pwr.out + x.cost ≤ v.toNat % 2 ^ 8 → Does (.tokenGrant t2) u fun w => w.pwr.out = u.pwr.out + x.cost) ∧
        (v.toNat % 2 ^ 8 < u.pwr.out + x.cost → Idles (.tokenGrant t2) u)) ∧
      (∀ t2 : Nat, Does (.tokenReturn t2) u fun w => w.pwr.out = u.pwr.out -
        ((u.pwr.settling.filter fun x => decide (x.2 ≤ max u.now t2)).map fun x => x.1.cost).sum))

/-- R444: a fault code is 16 bits; its high byte, from 1 to 9, is its class, and the class's bit number is one less; a fault
that is raised sets that bit and stands in FLT_LAST with its code. -/
def Obligations.FaultCodesNameTheirClass : Prop :=
  (∀ (s : State) (f : FaultCode) (param : Nat),
    f.code < 2 ^ 16 ∧ f.code / 2 ^ 8 = f.cls + 1 ∧ f.cls < 9 ∧
    (s.raise f param).flt.active = s.flt.active ||| (1#9 <<< (f.code / 2 ^ 8 - 1)) ∧
    (s.raise f param).reg Reg.FLT_LAST = BitVec.ofNat 64 f.code) ∧
  [FaultCode.cadRange, .tbRefLoss, .laneDown, .dmaRead, .ledgerMismatch, .guardCount, .ckptLate, .thermWarn, .droop].map
    FaultCode.cls = [0, 1, 2, 3, 4, 5, 6, 7, 8]

/-- R445: raising a fault sets its class bit, and severe where the fault table marks FAULT_N; it counts in its class, writes
code, parameter and device time to FLT_LAST, and raises vector 64 where FLT_CTRL enables it. -/
def Obligations.RaisedFaultIsReported : Prop :=
  ∀ (s : State) (f : FaultCode) (param : Nat),
    let u := s.raise f param
    u.flt.active.getLsbD f.cls = true ∧ (∀ i, s.flt.active.getLsbD i = true → u.flt.active.getLsbD i = true) ∧
    u.flt.severe = (s.flt.severe || f.row.2) ∧
    u.fld (Reg.FLT_COUNT f.cls) 0 32 = (s.fld (Reg.FLT_COUNT f.cls) 0 32 + 1) % 2 ^ 32 ∧
    u.reg Reg.FLT_LAST = BitVec.ofNat 64 f.code ∧ u.reg Reg.FLT_LAST_PARAM = BitVec.ofNat 64 (param % 2 ^ 32) ∧
    u.reg Reg.FLT_LAST_TIME_LO = BitVec.ofNat 64 s.devTime ∧
    u.reg Reg.FLT_LAST_TIME_HI = BitVec.ofNat 64 (s.devTime / 2 ^ 64) ∧
    (s.bit Reg.FLT_CTRL f.cls = true →
      if s.flt.holdoff.getLsbD 0 then u.flt.again.getLsbD 0 = true
      else u.flt.holdoff.getLsbD 0 = true ∧ ((s.msixDword 1036).getLsbD 0 = true → u.pba.getLsbD 64 = true) ∧
        ((s.msixDword 1036).getLsbD 0 = false → u.sent = s.sent ++ [.msix 64
          ((s.msixDword 1024).toNat + 2 ^ 32 * (s.msixDword 1028).toNat) (s.msixDword 1032).toNat]))

/-- R184: SCALE gives gain × x + offset, the product and then the sum rounded to binary64, and adds no group delay. -/
def Obligations.ScaleIsGainAndOffset : Prop :=
  ∀ (x : StageState) (k e : Nat) (r : Run), stageType e = some .scale →
    let y := f64Add (f64Mul (BitVec.ofNat 64 (sf e 8 0 64)) r.v.toReal) (BitVec.ofNat 64 (sf e 16 0 64))
    f64Finite y = true →
    (runScale x k e r).1 = true ∧ (runScale x k e r).2.1.v = .real y ∧ (runScale x k e r).2.1.delay = r.delay

/-- R185: POLY of order n takes c_n, and for k from n − 1 down to 0 multiplies by x and adds c_k, each product and sum rounded
to binary64; it adds no group delay. -/
def Obligations.PolyIsHornersRule : Prop :=
  ∀ (x : StageState) (bank : List Dword) (k e : Nat) (r : Run), stageType e = some .poly →
    let n := sf e 0 16 3
    let c := fun i : Nat => bankReal bank (672 + 8 * i)
    let y := (List.range n).reverse.foldl (fun y i => f64Add (f64Mul y r.v.toReal) (c i)) (c n)
    f64Finite y = true →
    (runPoly x bank k e r).1 = true ∧ (runPoly x bank k e r).2.1.v = .real y ∧ (runPoly x bank k e r).2.1.delay = r.delay

/-- R281: a field t of v bits in units of 64 Q names, of all times with those bits, the one within half their span of R; for
the 44 bits of an item that is within 2^49 Q (458.1 s). -/
def Obligations.RemoteTimeIsNearest : Prop :=
  ∀ r v : Nat, v < 2 ^ 44 →
    (extend64 r v 44 - ((v * 64 : Nat) : Int)) % 2 ^ 50 = 0 ∧ (r : Int) - 2 ^ 49 ≤ extend64 r v 44 ∧
      extend64 r v 44 < (r : Int) + 2 ^ 49

/-! ### What a command leaves as it was: the state after it is the state at its moment but for the parts named, and of the
registers only those named change -/

/-- Frame of R31 to R66: the commands of the time base: each changes no part of the hub but those named here, and no
register but those named and, where it can raise a fault or make an entry, those of the report. -/
def Obligations.TimeBaseFrame : Prop :=
  ∀ (c : Instr) (s u : State), exec c s = .next u →
    ((match c with
      | .refEdge .. | .refEdgeTimeout .. | .bandSearchDone .. | .acquisitionLimit .. | .slewStep .. | .autoReturn .. => True
      | _ => False) →
      u = { s.advance c.time with
            regs := u.regs, tb := u.tb, plc := u.plc, rings := u.rings, pba := u.pba, pst := u.pst, flt := u.flt
            sent := u.sent, timers := u.timers } ∧
      (∀ a, reportReg a = false → a ≠ Reg.TB_CNT → a ≠ Reg.TB_SLEW_REQ →
        u.reg a = s.reg a)) ∧
    ((match c with
      | .acquisitionSwap .. | .coldCoast .. => True
      | _ => False) →
      u = { s.advance c.time with
            devTime := u.devTime, phase := u.phase, regs := u.regs, tb := u.tb, inputs := u.inputs, decayed := u.decayed
            cadences := u.cadences, chans := u.chans, plc := u.plc, rings := u.rings, pba := u.pba, pst := u.pst
            kpr := u.kpr, flt := u.flt, sent := u.sent, timers := u.timers } ∧
      (∀ a, reportReg a = false → (∀ n, a ≠ Reg.CAP_FILL_MAX n) →
        u.reg a = s.reg a)) ∧
    ((match c with
      | .handoverSwap .. => True
      | _ => False) →
      u = { s.advance c.time with
            regs := u.regs, tb := u.tb, chans := u.chans, plc := u.plc, rings := u.rings, pba := u.pba, pst := u.pst
            flt := u.flt, sent := u.sent, timers := u.timers } ∧
      (∀ a, reportReg a = false → a ≠ Reg.TB_CNT → a ≠ Reg.TB_SLEW_REQ → (∀ n, a ≠ Reg.GBL_EPOCH n) →
        u.reg a = s.reg a)) ∧
    ((match c with
      | .returnOffsetMeasured .. | .todEdge .. => True
      | _ => False) →
      u = { s.advance c.time with
            devTime := u.devTime, regs := u.regs, tb := u.tb, cadOut := u.cadOut, cadEnd := u.cadEnd
            cadences := u.cadences, chans := u.chans, plc := u.plc, rings := u.rings, pba := u.pba, pst := u.pst
            flt := u.flt, sent := u.sent, timers := u.timers } ∧
      (∀ a, reportReg a = false → a ≠ Reg.TB_OFFSET → a ≠ Reg.TB_TOD_STATUS → (∀ n, a ≠ Reg.CAD_COUNT n) →
        u.reg a = s.reg a)) ∧
    ((match c with
      | .driftLearn .. => True
      | _ => False) →
      u = { s.advance c.time with
            tb := u.tb, pst := u.pst }) ∧
    ((match c with
      | .holdoverTick .. => True
      | _ => False) →
      u = { s.advance c.time with
            tb := u.tb }) ∧
    ((match c with
      | .todMiss .. => True
      | _ => False) →
      u = { s.advance c.time with
            regs := u.regs } ∧
      (∀ a, a ≠ Reg.TB_TOD_STATUS →
        u.reg a = s.reg a)) ∧
    ((match c with
      | .runtSwallowed .. => True
      | _ => False) →
      u = { s.advance c.time with
            regs := u.regs, pba := u.pba, pst := u.pst, flt := u.flt, sent := u.sent, timers := u.timers } ∧
      (∀ a, reportReg a = false → a ≠ Reg.TB_CNT →
        u.reg a = s.reg a)) ∧
    ((match c with
      | .tbSpan .. | .thermRead .. => True
      | _ => False) →
      u = { s.advance c.time with
            regs := u.regs, tb := u.tb, pba := u.pba, pst := u.pst, flt := u.flt, sent := u.sent, timers := u.timers } ∧
      (∀ a, reportReg a = false → a ≠ Reg.FLT_TEMP_MAX → a ≠ Reg.TB_TEMP →
        u.reg a = s.reg a))

/-- Frame of R67 to R119: the commands of the front ends, of capture, of the sorting office and of the counting engines:
each changes no part of the hub but those named here, and no register but those named and, where it can raise a fault or
make an entry, those of the report. -/
def Obligations.CaptureFrame : Prop :=
  ∀ (c : Instr) (s u : State), exec c s = .next u →
    ((match c with
      | .inputTransition .. | .zoneSettle .. | .blankWindowEnd .. | .feSample .. | .thinRateDecay .. => True
      | _ => False) →
      u = { s.advance c.time with
            regs := u.regs, inputs := u.inputs, decayed := u.decayed, plc := u.plc, rings := u.rings, pba := u.pba
            pst := u.pst, kpr := u.kpr, flt := u.flt, sent := u.sent, timers := u.timers } ∧
      (∀ a, reportReg a = false →
        (∀ n, a ≠ Reg.CAP_CNT_IN n ∧ a ≠ Reg.CAP_CNT_OVFL n ∧ a ≠ Reg.CAP_CNT_STAMPED n ∧ a ≠ Reg.CAP_CNT_THIN n ∧
          a ≠ Reg.CAP_FILL_MAX n ∧ a ≠ Reg.FE_BLANKED n) →
        u.reg a = s.reg a)) ∧
    ((match c with
      | .blankTrigEdge .. => True
      | _ => False) →
      u = { s.advance c.time with
            inputs := u.inputs, trig := u.trig }) ∧
    ((match c with
      | .bucketRefill .. => True
      | _ => False) →
      u = { s.advance c.time with
            regs := u.regs, inputs := u.inputs, plc := u.plc, rings := u.rings, pba := u.pba, pst := u.pst, kpr := u.kpr
            flt := u.flt, sent := u.sent, timers := u.timers } ∧
      (∀ a, reportReg a = false →
        u.reg a = s.reg a)) ∧
    ((match c with
      | .calHit .. => True
      | _ => False) →
      u = { s.advance c.time with
            inputs := u.inputs }) ∧
    ((match c with
      | .calWindowDone .. | .mailbagFlush .. | .ovflWrite .. | .idleAnchor .. => True
      | _ => False) →
      u = { s.advance c.time with
            regs := u.regs, inputs := u.inputs } ∧
      (∀ a, (∀ n, a ≠ Reg.CAP_CAL n ∧ a ≠ Reg.CAP_FILL_MAX n) →
        u.reg a = s.reg a)) ∧
    ((match c with
      | .mailbagPop .. => True
      | _ => False) →
      u = { s.advance c.time with
            regs := u.regs, inputs := u.inputs, chans := u.chans, plc := u.plc, rings := u.rings, pba := u.pba
            pst := u.pst, kpr := u.kpr, flt := u.flt, sent := u.sent, timers := u.timers } ∧
      (∀ a, reportReg a = false →
        u.reg a = s.reg a)) ∧
    ((match c with
      | .engineEdge .. | .quadDecide .. => True
      | _ => False) →
      u = { s.advance c.time with
            regs := u.regs, chans := u.chans, plc := u.plc, rings := u.rings, pba := u.pba, pst := u.pst, flt := u.flt
            sent := u.sent, timers := u.timers } ∧
      (∀ a, reportReg a = false → a ≠ Reg.FLT_CNT_WITHHELD →
        u.reg a = s.reg a)) ∧
    (match c with
      | .inputTransition _ n _ | .zoneSettle _ n _ | .blankWindowEnd _ n | .feSample _ n _ | .calHit _ n _
      | .calWindowDone _ n | .mailbagFlush _ n | .ovflWrite _ n | .idleAnchor _ n | .mailbagPop _ n | .bucketRefill _ n => ∀ m, m ≠ n.val → u.input m = s.input m
      | _ => True)

/-- Frame of R113 to R239: the commands of channels, cadences, recipes, statistics and placement: each changes no part of
the hub but those named here, and no register but those named and, where it can raise a fault or make an entry, those of
the report. -/
def Obligations.ChannelFrame : Prop :=
  ∀ (c : Instr) (s u : State), exec c s = .next u →
    ((match c with
      | .descriptorFetch .. | .fetchFailed .. | .place .. | .placeRead .. => True
      | _ => False) →
      u = { s.advance c.time with
            regs := u.regs, plc := u.plc, rings := u.rings, pba := u.pba, pst := u.pst, flt := u.flt, sent := u.sent
            timers := u.timers } ∧
      (∀ a, reportReg a = false → (∀ n, a ≠ Reg.RING_REJ n ∧ a ≠ Reg.RING_SEQ n) →
        u.reg a = s.reg a)) ∧
    ((match c with
      | .declare .. | .redeclareApply .. | .instantResolve .. | .bracketWaitExpiry .. => True
      | _ => False) →
      u = { s.advance c.time with
            regs := u.regs, chans := u.chans, plc := u.plc, rings := u.rings, pba := u.pba, pst := u.pst, flt := u.flt
            sent := u.sent, timers := u.timers, freeIdx := u.freeIdx } ∧
      (∀ a, reportReg a = false → a ≠ Reg.FLT_CNT_SUMMARY → a ≠ Reg.FLT_CNT_WITHHELD →
        (∀ n, a ≠ Reg.RING_REJ n ∧ a ≠ Reg.RING_SEQ n) →
        u.reg a = s.reg a)) ∧
    ((match c with
      | .channelLive .. | .redeclare .. | .pause .. | .pauseApply .. | .resume .. | .resumeGap .. | .retire ..
      | .retireApply .. | .devSetup .. | .histoSetup .. | .statsRead .. | .statsTargetApply .. | .devReport ..
      | .histoComplete .. | .autoPeriodEnd .. | .castlingCopyDone .. => True
      | _ => False) →
      u = { s.advance c.time with
            regs := u.regs, chans := u.chans, plc := u.plc, rings := u.rings, pba := u.pba, pst := u.pst, flt := u.flt
            sent := u.sent, timers := u.timers } ∧
      (∀ a, reportReg a = false → a ≠ Reg.FLT_CNT_SUMMARY → a ≠ Reg.FLT_CNT_WITHHELD → a ≠ Reg.PLC_CNT_ABORTED →
        a ≠ Reg.PLC_CNT_CASTLED → (∀ n, a ≠ Reg.RING_REJ n ∧ a ≠ Reg.RING_SEQ n) →
        u.reg a = s.reg a)) ∧
    ((match c with
      | .cadenceInstant .. => True
      | _ => False) →
      u = { s.advance c.time with
            regs := u.regs, cadOut := u.cadOut, cadEnd := u.cadEnd, cadences := u.cadences, chans := u.chans } ∧
      (∀ a, (∀ n, a ≠ Reg.CAD_COUNT n) →
        u.reg a = s.reg a)) ∧
    ((match c with
      | .cadenceOutEnd .. => True
      | _ => False) →
      u = { s.advance c.time with
            cadOut := u.cadOut, cadEnd := u.cadEnd }) ∧
    ((match c with
      | .recipeLoad .. | .coefLoad .. => True
      | _ => False) →
      u = { s.advance c.time with
            regs := u.regs, loads := u.loads, plc := u.plc, rings := u.rings, pba := u.pba, pst := u.pst, flt := u.flt
            sent := u.sent, timers := u.timers } ∧
      (∀ a, reportReg a = false → (∀ n, a ≠ Reg.RING_REJ n ∧ a ≠ Reg.RING_SEQ n) →
        u.reg a = s.reg a)) ∧
    ((match c with
      | .loadApply .. => True
      | _ => False) →
      u = { s.advance c.time with
            regs := u.regs, chans := u.chans, recipes := u.recipes, banks := u.banks, loads := u.loads, plc := u.plc
            rings := u.rings, pba := u.pba, pst := u.pst, flt := u.flt, sent := u.sent, timers := u.timers } ∧
      (∀ a, reportReg a = false →
        u.reg a = s.reg a)) ∧
    ((match c with
      | .loadWindowEnd .. => True
      | _ => False) →
      u = { s.advance c.time with
            regs := u.regs, chans := u.chans, plc := u.plc, pba := u.pba, pst := u.pst, flt := u.flt, sent := u.sent
            timers := u.timers } ∧
      (∀ a, reportReg a = false → a ≠ Reg.PLC_WINDOW → (∀ n, a ≠ Reg.PLC_ENGINE_LOAD n) →
        u.reg a = s.reg a)) ∧
    ((match c with
      | .castlingBegin .. => True
      | _ => False) →
      u = { s.advance c.time with
            chans := u.chans, plc := u.plc, flt := u.flt, freeIdx := u.freeIdx }) ∧
    ((match c with
      | .castlingSealAck .. | .castleToken .. => True
      | _ => False) →
      u = { s.advance c.time with
            plc := u.plc })

/-- Frame of R240 to R308: the commands of lanes, of their protocol and of peers: each changes no part of the hub but those
named here, and no register but those named and, where it can raise a fault or make an entry, those of the report. -/
def Obligations.LaneFrame : Prop :=
  ∀ (c : Instr) (s u : State), exec c s = .next u →
    ((match c with
      | .laneProbe .. | .backoffEnd .. => True
      | _ => False) →
      u = { s.advance c.time with
            regs := u.regs, lanes := u.lanes, timers := u.timers } ∧
      (∀ a, (∀ n, a ≠ Reg.COU_PROBE n) →
        u.reg a = s.reg a)) ∧
    ((match c with
      | .probeDone .. | .trainLimit .. | .alignLimit .. | .creditLimit .. | .lossOfSignal .. | .keepaliveMiss ..
      | .nakRepeat .. => True
      | _ => False) →
      u = { s.advance c.time with
            regs := u.regs, lanes := u.lanes, pba := u.pba, pst := u.pst, flt := u.flt, sent := u.sent, timers := u.timers } ∧
      (∀ a, reportReg a = false →
        (∀ n, a ≠ Reg.COU_KA n ∧ a ≠ Reg.COU_LANE_CNT n ∧ a ≠ Reg.COU_NAK n ∧ a ≠ Reg.COU_TRAIN_STATUS n) →
        u.reg a = s.reg a)) ∧
    ((match c with
      | .trainingBlock .. => True
      | _ => False) →
      u = { s.advance c.time with
            regs := u.regs, plc := u.plc, lanes := u.lanes, rings := u.rings, pba := u.pba, pst := u.pst, flt := u.flt
            sent := u.sent, timers := u.timers, freeIdx := u.freeIdx } ∧
      (∀ a, reportReg a = false →
        (∀ n, a ≠ Reg.COU_ERR n ∧ a ≠ Reg.COU_LANE_CNT n ∧ a ≠ Reg.COU_PROTO_ERR n ∧ a ≠ Reg.COU_PROTO_ERR2 n ∧
          a ≠ Reg.COU_TRAIN_STATUS n) →
        u.reg a = s.reg a)) ∧
    ((match c with
      | .tapRequestTimeout .. => True
      | _ => False) →
      u = { s.advance c.time with
            regs := u.regs, lanes := u.lanes, sent := u.sent } ∧
      (∀ a, (∀ n, a ≠ Reg.COU_TRAIN_STATUS n) →
        u.reg a = s.reg a)) ∧
    ((match c with
      | .rxReady .. | .adaptFreeze .. | .partnerSeen .. => True
      | _ => False) →
      u = { s.advance c.time with
            lanes := u.lanes }) ∧
    ((match c with
      | .alignBlock .. | .recoverLimit .. | .invalidSyncHeader .. | .peerHelloSend .. => True
      | _ => False) →
      u = { s.advance c.time with
            regs := u.regs, lanes := u.lanes, pba := u.pba, flt := u.flt, sent := u.sent, timers := u.timers } ∧
      (∀ a, (∀ n, a ≠ Reg.COU_ERR n ∧ a ≠ Reg.COU_LANE_CNT n ∧ a ≠ Reg.COU_LOOP_DELAY n ∧ a ≠ Reg.COU_REPLAY n ∧
          a ≠ Reg.COU_TRAIN_STATUS n) →
        u.reg a = s.reg a)) ∧
    ((match c with
      | .loopEcho .. | .keepaliveSend .. | .ackSendTimer .. | .resyncRepeat .. | .dispatchSend .. | .fineBeacon .. => True
      | _ => False) →
      u = { s.advance c.time with
            lanes := u.lanes, sent := u.sent, timers := u.timers }) ∧
    ((match c with
      | .keepaliveBlock .. => True
      | _ => False) →
      u = { s.advance c.time with
            lanes := u.lanes, timers := u.timers, freeIdx := u.freeIdx }) ∧
    ((match c with
      | .dispatch .. => True
      | _ => False) →
      u = { s.advance c.time with
            regs := u.regs, chans := u.chans, plc := u.plc, lanes := u.lanes, rings := u.rings, pba := u.pba, pst := u.pst
            flt := u.flt, sent := u.sent, timers := u.timers, freeIdx := u.freeIdx } ∧
      (∀ a, reportReg a = false →
        (∀ n, a ≠ Reg.COU_CNT_DISPATCH n ∧ a ≠ Reg.COU_CNT_EVENTS n ∧ a ≠ Reg.COU_CNT_ITEM_DISC n ∧
          a ≠ Reg.COU_CNT_VIOL_BLOCKS n ∧ a ≠ Reg.COU_HORIZON_HI n ∧ a ≠ Reg.COU_HORIZON_LO n ∧ a ≠ Reg.COU_LANE_CNT n ∧
          a ≠ Reg.COU_LETTER_STATUS n ∧ a ≠ Reg.COU_NAK n ∧ a ≠ Reg.COU_PROTO_ERR n ∧ a ≠ Reg.COU_PROTO_ERR2 n ∧
          a ≠ Reg.COU_REPLAY n) →
        u.reg a = s.reg a)) ∧
    ((match c with
      | .ackBlock .. | .nakBlock .. | .initBlock .. | .initSend .. | .creditSync .. | .letterPost .. | .laneReturnTimer .. => True
      | _ => False) →
      u = { s.advance c.time with
            regs := u.regs, plc := u.plc, lanes := u.lanes, rings := u.rings, pba := u.pba, pst := u.pst, flt := u.flt
            sent := u.sent, timers := u.timers } ∧
      (∀ a, reportReg a = false →
        (∀ n, a ≠ Reg.COU_LANE_CNT n ∧ a ≠ Reg.COU_NAK n ∧ a ≠ Reg.COU_PROTO_ERR n ∧ a ≠ Reg.COU_PROTO_ERR2 n ∧
          a ≠ Reg.COU_REPLAY n ∧ a ≠ Reg.RING_REJ n ∧ a ≠ Reg.RING_SEQ n) →
        u.reg a = s.reg a)) ∧
    ((match c with
      | .replayTimeout .. | .creditWatchdog .. => True
      | _ => False) →
      u = { s.advance c.time with
            regs := u.regs, lanes := u.lanes, sent := u.sent, timers := u.timers } ∧
      (∀ a, (∀ n, a ≠ Reg.COU_REPLAY n) →
        u.reg a = s.reg a)) ∧
    ((match c with
      | .creditRelease .. => True
      | _ => False) →
      u = { s.advance c.time with
            chans := u.chans, plc := u.plc, lanes := u.lanes, flt := u.flt, sent := u.sent, timers := u.timers }) ∧
    ((match c with
      | .peerHello .. => True
      | _ => False) →
      u = { s.advance c.time with
            regs := u.regs, lanes := u.lanes, peerLanes := u.peerLanes, pba := u.pba, pst := u.pst, flt := u.flt
            sent := u.sent, timers := u.timers } ∧
      (∀ a, reportReg a = false →
        u.reg a = s.reg a)) ∧
    ((match c with
      | .peerSyncSend .. => True
      | _ => False) →
      u = { s.advance c.time with
            lanes := u.lanes, peerLanes := u.peerLanes, peer := u.peer, sent := u.sent, timers := u.timers }) ∧
    ((match c with
      | .peerSync .. => True
      | _ => False) →
      u = { s.advance c.time with
            devTime := u.devTime, regs := u.regs, tb := u.tb, cadOut := u.cadOut, cadEnd := u.cadEnd
            cadences := u.cadences, chans := u.chans, plc := u.plc, lanes := u.lanes, peerLanes := u.peerLanes
            peer := u.peer, rings := u.rings, pba := u.pba, pst := u.pst, flt := u.flt, sent := u.sent, timers := u.timers
            freeIdx := u.freeIdx } ∧
      (∀ a, reportReg a = false → a ≠ Reg.PEER_CNT → a ≠ Reg.TB_OFFSET → (∀ n, a ≠ Reg.CAD_COUNT n ∧ a ≠ Reg.PEER_LANE_STAT n) →
        u.reg a = s.reg a)) ∧
    ((match c with
      | .peerFrameMiss .. => True
      | _ => False) →
      u = { s.advance c.time with
            regs := u.regs, peerLanes := u.peerLanes, pba := u.pba, flt := u.flt, sent := u.sent, timers := u.timers } ∧
      (∀ a, (∀ n, a ≠ Reg.PEER_LANE_STAT n) →
        u.reg a = s.reg a)) ∧
    ((match c with
      | .peerLinkLost .. => True
      | _ => False) →
      u = { s.advance c.time with
            regs := u.regs, tb := u.tb, peerLanes := u.peerLanes, peer := u.peer, pba := u.pba, flt := u.flt
            sent := u.sent, timers := u.timers } ∧
      (∀ a, a ≠ Reg.PEER_CNT →
        u.reg a = s.reg a)) ∧
    ((match c with
      | .peerStaleHoldEnd .. => True
      | _ => False) →
      u = { s.advance c.time with
            regs := u.regs, peer := u.peer, pba := u.pba, flt := u.flt, sent := u.sent, timers := u.timers } ∧
      (∀ a, a ≠ Reg.PEER_CNT →
        u.reg a = s.reg a)) ∧
    ((match c with
      | .peerTrimStep .. => True
      | _ => False) →
      u = { s.advance c.time with
            tb := u.tb, peer := u.peer }) ∧
    (match c with
      | .laneProbe _ n | .probeDone _ n _ | .backoffEnd _ n | .tapRequestTimeout _ n | .creditWatchdog _ n
      | .rxReady _ n _ | .keepaliveBlock _ n _ | .alignBlock _ n _ | .recoverLimit _ n | .invalidSyncHeader _ n
      | .loopEcho _ n | .keepaliveSend _ n | .ackSendTimer _ n | .resyncRepeat _ n | .dispatchSend _ n | .fineBeacon _ n
      | .adaptFreeze _ n | .partnerSeen _ n | .trainLimit _ n | .alignLimit _ n | .creditLimit _ n | .lossOfSignal _ n
      | .keepaliveMiss _ n | .nakRepeat _ n | .trainingBlock _ n _ | .ackBlock _ n _ | .nakBlock _ n _ | .initBlock _ n _
      | .initSend _ n | .creditSync _ n | .dispatch _ n _ _ _ _ | .creditRelease _ n _ => ∀ m, m ≠ n.val → u.lane m = s.lane m
      | _ => True)

/-- Frame of R331 to R381: the commands of rings, letterboxes, delivery and the link to the host: each changes no part of
the hub but those named here, and no register but those named and, where it can raise a fault or make an entry, those of
the report. -/
def Obligations.RingFrame : Prop :=
  ∀ (c : Instr) (s u : State), exec c s = .next u →
    ((match c with
      | .ringStopped .. => True
      | _ => False) →
      u = { s.advance c.time with
            regs := u.regs, rings := u.rings, pba := u.pba, pst := u.pst, flt := u.flt, sent := u.sent, timers := u.timers } ∧
      (∀ a, reportReg a = false → (∀ n, a ≠ Reg.RING_CFG n) →
        u.reg a = s.reg a)) ∧
    ((match c with
      | .letterboxWrite .. | .letterboxReturnTimer .. | .nop .. | .mark .. | .repost .. | .heldPushRelease .. => True
      | _ => False) →
      u = { s.advance c.time with
            regs := u.regs, plc := u.plc, rings := u.rings, pba := u.pba, pst := u.pst, flt := u.flt, sent := u.sent
            timers := u.timers } ∧
      (∀ a, reportReg a = false → (∀ n, a ≠ Reg.RING_ERR n ∧ a ≠ Reg.RING_REJ n ∧ a ≠ Reg.RING_SEQ n) →
        u.reg a = s.reg a)) ∧
    ((match c with
      | .recordDelivery .. => True
      | _ => False) →
      u = { s.advance c.time with
            regs := u.regs, plc := u.plc, rings := u.rings, pba := u.pba, pcie := u.pcie, pst := u.pst, flt := u.flt
            sent := u.sent, timers := u.timers } ∧
      (∀ a, reportReg a = false → (∀ n, a ≠ Reg.RING_SEQ n) →
        u.reg a = s.reg a)) ∧
    ((match c with
      | .moderationTimer .. => True
      | _ => False) →
      u = { s.advance c.time with
            rings := u.rings, pba := u.pba, sent := u.sent }) ∧
    ((match c with
      | .vectorHoldoffEnd .. => True
      | _ => False) →
      u = { s.advance c.time with
            pba := u.pba, flt := u.flt, sent := u.sent, timers := u.timers }) ∧
    ((match c with
      | .msixTableWrite .. => True
      | _ => False) →
      u = { s.advance c.time with
            msix := u.msix, pba := u.pba, sent := u.sent }) ∧
    ((match c with
      | .functionLevelReset .. => True
      | _ => False) →
      u = { s.advance c.time with
            regs := u.regs, rings := u.rings, msix := u.msix, pba := u.pba } ∧
      (∀ a, (a < 0xE000 ∨ 0xF000 ≤ a ∨ a % 64 = 0x28) →
        u.reg a = s.reg a)) ∧
    ((match c with
      | .holdGrace .. => True
      | _ => False) →
      u = { s.advance c.time with
            regs := u.regs, chans := u.chans, plc := u.plc, rings := u.rings, pba := u.pba, pst := u.pst, flt := u.flt
            sent := u.sent, timers := u.timers } ∧
      (∀ a, reportReg a = false → a ≠ Reg.FLT_CNT_WITHHELD →
        u.reg a = s.reg a)) ∧
    ((match c with
      | .summaryExit .. => True
      | _ => False) →
      u = { s.advance c.time with
            rings := u.rings, sent := u.sent }) ∧
    ((match c with
      | .d3hotChange .. | .pcieLinkChange .. => True
      | _ => False) →
      u = { s.advance c.time with
            pcie := u.pcie })

/-- Frame of R309 to R330: the commands that write a register through a port, and those of the register interface itself:
each changes no part of the hub but those named here, and no register but those named and, where it can raise a fault or
make an entry, those of the report. -/
def Obligations.PortFrame : Prop :=
  ∀ (c : Instr) (s u : State), exec c s = .next u →
    ((match c with
      | .tbApply .. | .tbSlew .. | .tbLatch .. | .refSelect .. | .feAlarmWrite .. | .cadenceEnable .. | .cadenceDisable ..
      | .cadenceGridWrite .. | .laneEnable .. | .laneDisable .. | .laneRetry .. | .laneRetrain .. | .peerWhole ..
      | .keyUnlock .. | .snapshot .. | .ringEnable .. | .ringDisable .. | .wakeClear .. | .faultClear .. | .bbSeal ..
      | .bbUnseal .. | .bbSelect .. | .bbMark .. => True
      | _ => False) →
      u = { s.advance c.time with
            regs := u.regs, tb := u.tb, inputs := u.inputs, cadOut := u.cadOut, cadEnd := u.cadEnd, cadences := u.cadences
            chans := u.chans, plc := u.plc, lanes := u.lanes, peer := u.peer, rings := u.rings, pba := u.pba, pst := u.pst
            kpr := u.kpr, pwr := u.pwr, flt := u.flt, gbl := u.gbl, sent := u.sent, timers := u.timers } ∧
      (∀ a, reportReg a = false → a ≠ Reg.FLT_BB_SEL → a ≠ Reg.FLT_CNT_WITHHELD → a ≠ Reg.GBL_ACC_COUNT → a ≠ Reg.GBL_ACC_LAST →
        a ≠ Reg.GBL_FAR_PEND → a ≠ Reg.GBL_KEY_FAULT → a ≠ Reg.PEER_CNT → a ≠ Reg.TB_LATCH_HI → a ≠ Reg.TB_LATCH_LO →
        a ≠ Reg.TB_SLEW_REQ → a ∉ c.target →
        (∀ n, a ≠ Reg.CAD_COUNT n ∧ a ≠ Reg.CAP_FILL_MAX n ∧ a ≠ Reg.COU_LANE_CNT n ∧ a ≠ Reg.COU_PROBE n ∧
          a ≠ Reg.GBL_EPOCH n ∧ a ≠ Reg.RING_CFG n) →
        u.reg a = s.reg a)) ∧
    ((match c with
      | .tbAccept .. | .registerWrite .. => True
      | _ => False) →
      u = { s.advance c.time with
            devTime := u.devTime, regs := u.regs, tb := u.tb, inputs := u.inputs, cadOut := u.cadOut, cadEnd := u.cadEnd
            cadences := u.cadences, chans := u.chans, plc := u.plc, lanes := u.lanes, peer := u.peer, rings := u.rings
            pba := u.pba, pst := u.pst, kpr := u.kpr, pwr := u.pwr, flt := u.flt, gbl := u.gbl, sent := u.sent
            timers := u.timers } ∧
      (∀ a, reportReg a = false → a ≠ Reg.FLT_BB_SEL → a ≠ Reg.FLT_CNT_WITHHELD → a ≠ Reg.GBL_ACC_COUNT → a ≠ Reg.GBL_ACC_LAST →
        a ≠ Reg.GBL_FAR_PEND → a ≠ Reg.GBL_KEY_FAULT → a ≠ Reg.PEER_CNT → a ≠ Reg.TB_LATCH_HI → a ≠ Reg.TB_LATCH_LO →
        a ≠ Reg.TB_SLEW_REQ → a ∉ c.target →
        (∀ n, a ≠ Reg.CAD_COUNT n ∧ a ≠ Reg.CAP_FILL_MAX n ∧ a ≠ Reg.COU_LANE_CNT n ∧ a ≠ Reg.COU_PROBE n ∧
          a ≠ Reg.GBL_EPOCH n ∧ a ≠ Reg.RING_CFG n) →
        u.reg a = s.reg a)) ∧
    ((match c with
      | .mspiFrame .. => True
      | _ => False) →
      u = { s.advance c.time with
            devTime := u.devTime, regs := u.regs, tb := u.tb, inputs := u.inputs, cadOut := u.cadOut, cadEnd := u.cadEnd
            cadences := u.cadences, chans := u.chans, plc := u.plc, lanes := u.lanes, peer := u.peer, rings := u.rings
            pba := u.pba, pst := u.pst, kpr := u.kpr, pwr := u.pwr, flt := u.flt, gbl := u.gbl, sent := u.sent
            timers := u.timers, freeIdx := u.freeIdx }) ∧
    ((match c with
      | .keyExpiry .. => True
      | _ => False) →
      u = { s.advance c.time with
            gbl := u.gbl }) ∧
    ((match c with
      | .snapshotDone .. => True
      | _ => False) →
      u = { s.advance c.time with
            regs := u.regs, gbl := u.gbl } ∧
      (∀ a, a < 0x14000 →
        u.reg a = s.reg a)) ∧
    ((match c with
      | .scrubPass .. => True
      | _ => False) →
      u = { s.advance c.time with
            regs := u.regs, pba := u.pba, pst := u.pst, flt := u.flt, gbl := u.gbl, sent := u.sent, timers := u.timers } ∧
      (∀ a, reportReg a = false → a ≠ Reg.GBL_PARITY_LAST → a ≠ Reg.GBL_SCRUB →
        u.reg a = s.reg a)) ∧
    ((match c with
      | .bar0ReadAbort .. => True
      | _ => False) →
      u = { s.advance c.time with
            regs := u.regs, pba := u.pba, pst := u.pst, flt := u.flt, sent := u.sent, timers := u.timers } ∧
      (∀ a, reportReg a = false → a ≠ Reg.GBL_ACC_COUNT → a ≠ Reg.GBL_ACC_LAST →
        u.reg a = s.reg a)) ∧
    ((match c with
      | .farWriteApply .. => True
      | _ => False) →
      u = { s.advance c.time with
            regs := u.regs, far := u.far, inputs := u.inputs, decayed := u.decayed, chans := u.chans, plc := u.plc
            rings := u.rings, pba := u.pba, pst := u.pst, kpr := u.kpr, pwr := u.pwr, flt := u.flt, gbl := u.gbl
            sent := u.sent, timers := u.timers, freeIdx := u.freeIdx } ∧
      (∀ a, reportReg a = false → isKpr a = false → a ≠ Reg.PWR_TOKEN_ISSUED → a ≠ Reg.PWR_TOKEN_STATUS →
        (∀ n, a ≠ Reg.CAP_CNT_IN n ∧ a ≠ Reg.CAP_CNT_OVFL n ∧ a ≠ Reg.CAP_CNT_STAMPED n ∧ a ≠ Reg.CAP_CNT_THIN n ∧
          a ≠ Reg.CAP_FILL_MAX n ∧ a ≠ Reg.FE_BLANKED n) →
        u.reg a = s.reg a))

/-- Frame of R382 to R470: the commands of passes, of the Endgame, of the keeper, of power, of faults and of pins: each
changes no part of the hub but those named here, and no register but those named and, where it can raise a fault or make
an entry, those of the report. -/
def Obligations.KeeperFrame : Prop :=
  ∀ (c : Instr) (s u : State), exec c s = .next u →
    ((match c with
      | .checkpointPass .. | .drainPass .. | .passComplete .. | .guardCompare .. => True
      | _ => False) →
      u = { s.advance c.time with
            regs := u.regs, chans := u.chans, plc := u.plc, rings := u.rings, pba := u.pba, pst := u.pst, flt := u.flt
            sent := u.sent, timers := u.timers } ∧
      (∀ a, reportReg a = false → a ≠ Reg.FLT_CNT_WITHHELD → a ≠ Reg.PST_CKPT_LATE → a ≠ Reg.PST_PASS →
        u.reg a = s.reg a)) ∧
    ((match c with
      | .configGeneration .. => True
      | _ => False) →
      u = { s.advance c.time with
            regs := u.regs, pba := u.pba, pst := u.pst, flt := u.flt, sent := u.sent, timers := u.timers } ∧
      (∀ a, reportReg a = false →
        u.reg a = s.reg a)) ∧
    ((match c with
      | .generationToken .. => True
      | _ => False) →
      u = { s.advance c.time with
            pst := u.pst, timers := u.timers }) ∧
    ((match c with
      | .endgame .. => True
      | _ => False) →
      u = { s.advance c.time with
            regs := u.regs, inputs := u.inputs, chans := u.chans, plc := u.plc, lanes := u.lanes, rings := u.rings
            pba := u.pba, pst := u.pst, flt := u.flt, sent := u.sent, timers := u.timers, freeIdx := u.freeIdx } ∧
      (∀ a, reportReg a = false → a ≠ Reg.FLT_CNT_WITHHELD →
        u.reg a = s.reg a)) ∧
    ((match c with
      | .endgameDeadline .. => True
      | _ => False) →
      u = { s.advance c.time with
            regs := u.regs, chans := u.chans, pba := u.pba, pst := u.pst, flt := u.flt, sent := u.sent, timers := u.timers } ∧
      (∀ a, reportReg a = false →
        u.reg a = s.reg a)) ∧
    ((match c with
      | .endgameComplete .. | .pfailAssert .. | .droopTrip .. | .mainRailsLost .. => True
      | _ => False) →
      u = { s.advance c.time with
            regs := u.regs, far := u.far, tb := u.tb, inputs := u.inputs, decayed := u.decayed, cadOut := u.cadOut
            cadEnd := u.cadEnd, cadences := u.cadences, chans := u.chans, recipes := u.recipes, banks := u.banks
            loads := u.loads, plc := u.plc, lanes := u.lanes, peerLanes := u.peerLanes, peer := u.peer, rings := u.rings
            msix := u.msix, pba := u.pba, pcie := u.pcie, pst := u.pst, kpr := u.kpr, pwr := u.pwr, flt := u.flt
            gbl := u.gbl, jtag := u.jtag, sent := u.sent, timers := u.timers }) ∧
    ((match c with
      | .restore .. => True
      | _ => False) →
      u = { s.advance c.time with
            regs := u.regs, tb := u.tb, chans := u.chans, plc := u.plc, pba := u.pba, pst := u.pst, flt := u.flt
            sent := u.sent, timers := u.timers, freeIdx := u.freeIdx } ∧
      (∀ a, reportReg a = false → a ≠ Reg.PST_BAD → a ≠ Reg.PST_LOST → a ≠ Reg.PST_OUTAGE → a ≠ Reg.PST_PASS →
        a ≠ Reg.PST_RESTORE → a ≠ Reg.PST_STATUS → a ≠ Reg.PST_U0 →
        u.reg a = s.reg a)) ∧
    ((match c with
      | .restoreComplete .. | .keeperTick .. => True
      | _ => False) →
      u = { s.advance c.time with
            regs := u.regs, chans := u.chans, plc := u.plc, rings := u.rings, pba := u.pba, pst := u.pst, kpr := u.kpr
            flt := u.flt, sent := u.sent, timers := u.timers } ∧
      (∀ a, reportReg a = false → isKpr a = false → a ≠ Reg.FLT_CNT_WITHHELD → a ≠ Reg.PST_PASS → a ≠ Reg.PST_STATUS →
        u.reg a = s.reg a)) ∧
    ((match c with
      | .mramScrub .. => True
      | _ => False) →
      u = { s.advance c.time with
            regs := u.regs, pba := u.pba, pst := u.pst, flt := u.flt, sent := u.sent, timers := u.timers
            freeIdx := u.freeIdx } ∧
      (∀ a, reportReg a = false → a ≠ Reg.PST_ECC → a ≠ Reg.PST_SCRUB →
        u.reg a = s.reg a)) ∧
    ((match c with
      | .keeperReset .. => True
      | _ => False) →
      u = { s.advance c.time with
            regs := u.regs, far := u.far, chans := u.chans, pba := u.pba, pst := u.pst, kpr := u.kpr, pwr := u.pwr
            flt := u.flt, sent := u.sent, timers := u.timers } ∧
      (∀ a, isKpr a = false → reportReg a = false →
        u.reg a = s.reg a)) ∧
    ((match c with
      | .keeperResetEnd .. => True
      | _ => False) →
      u = { s.advance c.time with
            kpr := u.kpr, pwr := u.pwr }) ∧
    ((match c with
      | .xtalFail .. => True
      | _ => False) →
      u = { s.advance c.time with
            kpr := u.kpr }) ∧
    ((match c with
      | .guardCopyTimeout .. => True
      | _ => False) →
      u = { s.advance c.time with
            chans := u.chans }) ∧
    ((match c with
      | .keeperVote .. => True
      | _ => False) →
      u = { s.advance c.time with
            regs := u.regs, chans := u.chans, plc := u.plc, rings := u.rings, pba := u.pba, pst := u.pst, flt := u.flt
            sent := u.sent, timers := u.timers, freeIdx := u.freeIdx } ∧
      (∀ a, reportReg a = false → a ≠ Reg.FLT_CNT_WITHHELD →
        u.reg a = s.reg a)) ∧
    ((match c with
      | .pfailRelease .. | .mainRailsPresent .. => True
      | _ => False) →
      u = { s.advance c.time with
            regs := u.regs, far := u.far, tb := u.tb, inputs := u.inputs, decayed := u.decayed, cadOut := u.cadOut
            cadEnd := u.cadEnd, cadences := u.cadences, chans := u.chans, recipes := u.recipes, banks := u.banks
            loads := u.loads, plc := u.plc, lanes := u.lanes, peerLanes := u.peerLanes, peer := u.peer, rings := u.rings
            msix := u.msix, pba := u.pba, pcie := u.pcie, pst := u.pst, kpr := u.kpr, pwr := u.pwr, flt := u.flt
            gbl := u.gbl, jtag := u.jtag }) ∧
    ((match c with
      | .perstFall .. => True
      | _ => False) →
      u = { s.advance c.time with
            regs := u.regs, cadOut := u.cadOut, cadences := u.cadences, chans := u.chans, plc := u.plc, lanes := u.lanes
            pba := u.pba, pcie := u.pcie, pst := u.pst, kpr := u.kpr, pwr := u.pwr, flt := u.flt, sent := u.sent
            timers := u.timers } ∧
      (∀ a, a ≠ Reg.FLT_BB_SEQ → a ≠ Reg.FLT_BB_STATUS → a ≠ Reg.PLC_CNT_ABORTED → (∀ n, a ≠ Reg.COU_LANE_CNT n) →
        u.reg a = s.reg a)) ∧
    ((match c with
      | .perstRise .. | .baseUnitsSettled .. | .testEnChange .. => True
      | _ => False) →
      u = { s.advance c.time with
            regs := u.regs, pba := u.pba, pst := u.pst, kpr := u.kpr, pwr := u.pwr, flt := u.flt, sent := u.sent
            timers := u.timers } ∧
      (∀ a, a ≠ Reg.FLT_BB_SEQ → a ≠ Reg.FLT_BB_STATUS → isKpr a = false →
        u.reg a = s.reg a)) ∧
    ((match c with
      | .tokenGrant .. => True
      | _ => False) →
      u = { s.advance c.time with
            regs := u.regs, tb := u.tb, plc := u.plc, lanes := u.lanes, rings := u.rings, pba := u.pba, pst := u.pst
            pwr := u.pwr, flt := u.flt, sent := u.sent, timers := u.timers } ∧
      (∀ a, reportReg a = false → a ≠ Reg.PWR_TOKEN_ISSUED → a ≠ Reg.PWR_TOKEN_STATUS →
        (∀ n, a ≠ Reg.COU_LANE_CNT n ∧ a ≠ Reg.COU_PROBE n) →
        u.reg a = s.reg a)) ∧
    ((match c with
      | .tokenReturn .. => True
      | _ => False) →
      u = { s.advance c.time with
            regs := u.regs, pwr := u.pwr } ∧
      (∀ a, a ≠ Reg.PWR_TOKEN_RETURNED →
        u.reg a = s.reg a)) ∧
    ((match c with
      | .coreLow .. => True
      | _ => False) →
      u = { s.advance c.time with
            regs := u.regs, pba := u.pba, pst := u.pst, pwr := u.pwr, flt := u.flt, sent := u.sent, timers := u.timers } ∧
      (∀ a, reportReg a = false →
        u.reg a = s.reg a)) ∧
    ((match c with
      | .coreLowEnd .. => True
      | _ => False) →
      u = { s.advance c.time with
            pwr := u.pwr }) ∧
    ((match c with
      | .ledgerCheck .. => True
      | _ => False) →
      u = { s.advance c.time with
            regs := u.regs, plc := u.plc, rings := u.rings, pba := u.pba, pst := u.pst, flt := u.flt, sent := u.sent
            timers := u.timers } ∧
      (∀ a, reportReg a = false → a ≠ Reg.FLT_LEDGER_CHECKS → a ≠ Reg.FLT_LEDGER_FAIL → a ≠ Reg.FLT_LEDGER_LAST →
        u.reg a = s.reg a)) ∧
    ((match c with
      | .bbEntryToken .. => True
      | _ => False) →
      u = { s.advance c.time with
            flt := u.flt, timers := u.timers }) ∧
    ((match c with
      | .bbCopyDone .. => True
      | _ => False) →
      u = { s.advance c.time with
            regs := u.regs, flt := u.flt } ∧
      (∀ a, a ≠ Reg.FLT_BB_SEL → (∀ n, a ≠ Reg.FLT_BB_DATA n) →
        u.reg a = s.reg a)) ∧
    ((match c with
      | .jtagTck .. => True
      | _ => False) →
      u = { s.advance c.time with
            jtag := u.jtag, freeIdx := u.freeIdx })
end

