-- ==== Sys2Proof/Laws/Table.lean ====
section
/-! SUPPORT. The laws of sparse stores: a read after a write, and every operation keeps the canonical form. -/

namespace Sys2Proof.Machine

variable {α : Type}

theorem tget?_tput (t : Table α) (x y : Nat) (v : α) : tget? (tput t x v) y = if y = x then some v else tget? t y := by
  induction t with
  | nil => rfl
  | cons p r ih => obtain ⟨k, w⟩ := p; simp only [tput, tget?]; grind [tget?]

theorem tget?_tdel (t : Table α) (x y : Nat) : tget? (tdel t x) y = if y = x then none else tget? t y := by
  induction t with
  | nil => simp [tdel, tget?]
  | cons p r ih => obtain ⟨k, w⟩ := p; simp only [tdel, tget?]; grind [tget?]

@[simp] theorem tget_tput (d : α) (t : Table α) (x y : Nat) (v : α) :
    tget d (tput t x v) y = if y = x then v else tget d t y := by
  unfold tget; rw [tget?_tput]; split <;> rfl

variable [DecidableEq α]

/-- A listed value after a write: what was written, or nothing where that is the default. -/
theorem tget?_tset (d : α) (t : Table α) (x y : Nat) (v : α) :
    tget? (tset d t x v) y = if y = x then (if v = d then none else some v) else tget? t y := by
  unfold tset; split <;> simp [tget?_tdel, tget?_tput]

/-- A read after a write. -/
@[simp] theorem tget_tset (d : α) (t : Table α) (x y : Nat) (v : α) :
    tget d (tset d t x v) y = if y = x then v else tget d t y := by
  unfold tget; rw [tget?_tset]; split
  · split <;> simp_all
  · rfl

@[simp] theorem tget_tmod (d : α) (t : Table α) (x y : Nat) (f : α → α) :
    tget d (tmod d t x f) y = if y = x then f (tget d t x) else tget d t y := by simp [tmod]

/-- A read after a change of every value that leaves the default as it is. -/
theorem tget_tmap (d : α) (t : Table α) (f : α → α) (hf : f d = d) (x : Nat) (h : twf (fun _ => d) t) :
    tget d (tmap d t f) x = f (tget d t x) := by
  suffices H : ∀ (t : Table α) (b : Option Nat), twfFrom (fun _ => d) b t → tget d (tmap d t f) x = f (tget d t x) from H t none h
  intro t
  induction t with
  | nil => intro b _; simp [tmap, tget, tget?, hf]
  | cons p r ih =>
    obtain ⟨k, w⟩ := p
    intro b hb
    simp only [twfFrom, Bool.and_eq_true, decide_eq_true_eq] at hb
    have ih' := ih (some k) hb.2
    have hk : ∀ (r : Table α) (m : Nat), twfFrom (fun _ => d) (some m) r → ∀ y, y ≤ m → tget? r y = none := by
      intro r
      induction r with
      | nil => intros; rfl
      | cons q r ihr =>
        obtain ⟨j, v⟩ := q
        intro m hm y hy
        simp only [twfFrom, Bool.and_eq_true, decide_eq_true_eq] at hm
        simp only [tget?]
        rw [if_neg (by omega)]
        exact ihr j hm.2 y (by omega)
    have hm : ∀ (r : Table α), tget? r x = none → tget? (tmap d r f) x = none := by
      intro r
      induction r with
      | nil => intros; rfl
      | cons q r ihr =>
        obtain ⟨j, v⟩ := q
        intro h
        simp only [tget?] at h
        split at h
        · cases h
        · simp only [tmap, List.filterMap_cons]
          split
          · exact ihr h
          · rename_i hv; split at hv <;> cases hv; simp only [tget?]; rw [if_neg (by assumption)]; exact ihr h
    by_cases hx : x = k
    · subst hx
      have h0 := hm r (hk r x hb.2 x (Nat.le_refl x))
      simp only [tmap, List.filterMap_cons, tget, tget?]
      by_cases hw : f w = d
      · simp only [hw, ↓reduceIte]; unfold tmap at h0; rw [h0]; simp [hw]
      · simp [hw, tget?]
    · have e1 : tget d ((k, w) :: r) x = tget d r x := by simp [tget, tget?, hx]
      rw [e1, ← ih']
      simp only [tmap, List.filterMap_cons]
      by_cases hw : f w = d
      · simp [hw]
      · simp [hw, tget, tget?, hx]

/-! ### The canonical form -/

theorem twfFrom_tput (d : Nat → α) (x : Nat) (v : α) (hv : v ≠ d x) :
    ∀ (t : Table α) (b : Option Nat), twfFrom d b t → (∀ m, b = some m → m < x) → twfFrom d b (tput t x v) := by
  intro t
  induction t with
  | nil => intro b _ hb; cases b <;> simp_all [tput, twfFrom]
  | cons p r ih =>
    obtain ⟨k, w⟩ := p
    intro b h hb
    simp only [twfFrom, Bool.and_eq_true, decide_eq_true_eq] at h
    simp only [tput]
    split
    · cases b <;> simp_all [twfFrom]
    · split
      · subst_vars; cases b <;> simp_all [twfFrom]
      · have := ih (some k) h.2 (by intro m hm; cases hm; omega)
        cases b <;> simp_all [twfFrom]

theorem twfFrom_weaken (d : Nat → α) (b b' : Option Nat) (hb : ∀ m, b' = some m → ∃ n, b = some n ∧ m ≤ n) (t : Table α)
    (h : twfFrom d b t) : twfFrom d b' t := by
  cases t with
  | nil => rfl
  | cons p r =>
    obtain ⟨k, w⟩ := p
    simp only [twfFrom, Bool.and_eq_true, decide_eq_true_eq] at h ⊢
    refine ⟨⟨?_, h.1.2⟩, h.2⟩
    cases b' with
    | none => rfl
    | some m => obtain ⟨n, hn, hle⟩ := hb m rfl; subst hn; have := h.1.1; simp at this ⊢; omega

theorem twfFrom_tdel (d : Nat → α) (x : Nat) :
    ∀ (t : Table α) (b : Option Nat), twfFrom d b t → twfFrom d b (tdel t x) := by
  intro t
  induction t with
  | nil => intro b h; exact h
  | cons p r ih =>
    obtain ⟨k, w⟩ := p
    intro b h
    simp only [twfFrom, Bool.and_eq_true, decide_eq_true_eq] at h
    simp only [tdel]
    split
    · refine twfFrom_weaken d (some k) b ?_ _ (ih (some k) h.2)
      intro m hm; subst hm; have := h.1.1; simp at this; exact ⟨k, rfl, by omega⟩
    · simp only [twfFrom, Bool.and_eq_true, decide_eq_true_eq]; exact ⟨h.1, ih (some k) h.2⟩

/-- A write keeps the canonical form. -/
theorem twf_tset (d : Nat → α) (t : Table α) (x : Nat) (v : α) (h : twf d t) : twf d (tset (d x) t x v) := by
  unfold twf tset at *
  split
  · exact twfFrom_tdel d x t none h
  · exact twfFrom_tput d x v (by assumption) t none h (by intro m hm; cases hm)

end Sys2Proof.Machine
end

