-- ==== Sys2Proof/Laws/State.lean ====
section
/-! SUPPORT. The field of a state after an update of another field: true by definition, one lemma per update and field; and
what each update leaves in the field that it changes. -/

namespace Sys2Proof.Machine

/-! ### setReg -/
@[simp] theorem State.setReg_now (s : State) (a : Nat) (v : Word) : (s.setReg a v).now = s.now := rfl
@[simp] theorem State.setReg_devTime (s : State) (a : Nat) (v : Word) : (s.setReg a v).devTime = s.devTime := rfl
@[simp] theorem State.setReg_phase (s : State) (a : Nat) (v : Word) : (s.setReg a v).phase = s.phase := rfl
@[simp] theorem State.setReg_far (s : State) (a : Nat) (v : Word) : (s.setReg a v).far = s.far := rfl
@[simp] theorem State.setReg_tb (s : State) (a : Nat) (v : Word) : (s.setReg a v).tb = s.tb := rfl
@[simp] theorem State.setReg_inputs (s : State) (a : Nat) (v : Word) : (s.setReg a v).inputs = s.inputs := rfl
@[simp] theorem State.setReg_decayed (s : State) (a : Nat) (v : Word) : (s.setReg a v).decayed = s.decayed := rfl
@[simp] theorem State.setReg_trig (s : State) (a : Nat) (v : Word) : (s.setReg a v).trig = s.trig := rfl
@[simp] theorem State.setReg_cadOut (s : State) (a : Nat) (v : Word) : (s.setReg a v).cadOut = s.cadOut := rfl
@[simp] theorem State.setReg_cadEnd (s : State) (a : Nat) (v : Word) : (s.setReg a v).cadEnd = s.cadEnd := rfl
@[simp] theorem State.setReg_cadences (s : State) (a : Nat) (v : Word) : (s.setReg a v).cadences = s.cadences := rfl
@[simp] theorem State.setReg_chans (s : State) (a : Nat) (v : Word) : (s.setReg a v).chans = s.chans := rfl
@[simp] theorem State.setReg_recipes (s : State) (a : Nat) (v : Word) : (s.setReg a v).recipes = s.recipes := rfl
@[simp] theorem State.setReg_banks (s : State) (a : Nat) (v : Word) : (s.setReg a v).banks = s.banks := rfl
@[simp] theorem State.setReg_loads (s : State) (a : Nat) (v : Word) : (s.setReg a v).loads = s.loads := rfl
@[simp] theorem State.setReg_plc (s : State) (a : Nat) (v : Word) : (s.setReg a v).plc = s.plc := rfl
@[simp] theorem State.setReg_lanes (s : State) (a : Nat) (v : Word) : (s.setReg a v).lanes = s.lanes := rfl
@[simp] theorem State.setReg_peerLanes (s : State) (a : Nat) (v : Word) : (s.setReg a v).peerLanes = s.peerLanes := rfl
@[simp] theorem State.setReg_peer (s : State) (a : Nat) (v : Word) : (s.setReg a v).peer = s.peer := rfl
@[simp] theorem State.setReg_rings (s : State) (a : Nat) (v : Word) : (s.setReg a v).rings = s.rings := rfl
@[simp] theorem State.setReg_msix (s : State) (a : Nat) (v : Word) : (s.setReg a v).msix = s.msix := rfl
@[simp] theorem State.setReg_pba (s : State) (a : Nat) (v : Word) : (s.setReg a v).pba = s.pba := rfl
@[simp] theorem State.setReg_pcie (s : State) (a : Nat) (v : Word) : (s.setReg a v).pcie = s.pcie := rfl
@[simp] theorem State.setReg_pst (s : State) (a : Nat) (v : Word) : (s.setReg a v).pst = s.pst := rfl
@[simp] theorem State.setReg_kpr (s : State) (a : Nat) (v : Word) : (s.setReg a v).kpr = s.kpr := rfl
@[simp] theorem State.setReg_pwr (s : State) (a : Nat) (v : Word) : (s.setReg a v).pwr = s.pwr := rfl
@[simp] theorem State.setReg_flt (s : State) (a : Nat) (v : Word) : (s.setReg a v).flt = s.flt := rfl
@[simp] theorem State.setReg_gbl (s : State) (a : Nat) (v : Word) : (s.setReg a v).gbl = s.gbl := rfl
@[simp] theorem State.setReg_jtag (s : State) (a : Nat) (v : Word) : (s.setReg a v).jtag = s.jtag := rfl
@[simp] theorem State.setReg_sent (s : State) (a : Nat) (v : Word) : (s.setReg a v).sent = s.sent := rfl
@[simp] theorem State.setReg_timers (s : State) (a : Nat) (v : Word) : (s.setReg a v).timers = s.timers := rfl
@[simp] theorem State.setReg_freeIdx (s : State) (a : Nat) (v : Word) : (s.setReg a v).freeIdx = s.freeIdx := rfl
@[simp] theorem State.setReg_pending (s : State) (a : Nat) (v : Word) : (s.setReg a v).pending = s.pending := rfl

/-! ### setFar -/
@[simp] theorem State.setFar_now (s : State) (a : Nat) (v : Word) : (s.setFar a v).now = s.now := rfl
@[simp] theorem State.setFar_devTime (s : State) (a : Nat) (v : Word) : (s.setFar a v).devTime = s.devTime := rfl
@[simp] theorem State.setFar_phase (s : State) (a : Nat) (v : Word) : (s.setFar a v).phase = s.phase := rfl
@[simp] theorem State.setFar_regs (s : State) (a : Nat) (v : Word) : (s.setFar a v).regs = s.regs := rfl
@[simp] theorem State.setFar_tb (s : State) (a : Nat) (v : Word) : (s.setFar a v).tb = s.tb := rfl
@[simp] theorem State.setFar_inputs (s : State) (a : Nat) (v : Word) : (s.setFar a v).inputs = s.inputs := rfl
@[simp] theorem State.setFar_decayed (s : State) (a : Nat) (v : Word) : (s.setFar a v).decayed = s.decayed := rfl
@[simp] theorem State.setFar_trig (s : State) (a : Nat) (v : Word) : (s.setFar a v).trig = s.trig := rfl
@[simp] theorem State.setFar_cadOut (s : State) (a : Nat) (v : Word) : (s.setFar a v).cadOut = s.cadOut := rfl
@[simp] theorem State.setFar_cadEnd (s : State) (a : Nat) (v : Word) : (s.setFar a v).cadEnd = s.cadEnd := rfl
@[simp] theorem State.setFar_cadences (s : State) (a : Nat) (v : Word) : (s.setFar a v).cadences = s.cadences := rfl
@[simp] theorem State.setFar_chans (s : State) (a : Nat) (v : Word) : (s.setFar a v).chans = s.chans := rfl
@[simp] theorem State.setFar_recipes (s : State) (a : Nat) (v : Word) : (s.setFar a v).recipes = s.recipes := rfl
@[simp] theorem State.setFar_banks (s : State) (a : Nat) (v : Word) : (s.setFar a v).banks = s.banks := rfl
@[simp] theorem State.setFar_loads (s : State) (a : Nat) (v : Word) : (s.setFar a v).loads = s.loads := rfl
@[simp] theorem State.setFar_plc (s : State) (a : Nat) (v : Word) : (s.setFar a v).plc = s.plc := rfl
@[simp] theorem State.setFar_lanes (s : State) (a : Nat) (v : Word) : (s.setFar a v).lanes = s.lanes := rfl
@[simp] theorem State.setFar_peerLanes (s : State) (a : Nat) (v : Word) : (s.setFar a v).peerLanes = s.peerLanes := rfl
@[simp] theorem State.setFar_peer (s : State) (a : Nat) (v : Word) : (s.setFar a v).peer = s.peer := rfl
@[simp] theorem State.setFar_rings (s : State) (a : Nat) (v : Word) : (s.setFar a v).rings = s.rings := rfl
@[simp] theorem State.setFar_msix (s : State) (a : Nat) (v : Word) : (s.setFar a v).msix = s.msix := rfl
@[simp] theorem State.setFar_pba (s : State) (a : Nat) (v : Word) : (s.setFar a v).pba = s.pba := rfl
@[simp] theorem State.setFar_pcie (s : State) (a : Nat) (v : Word) : (s.setFar a v).pcie = s.pcie := rfl
@[simp] theorem State.setFar_pst (s : State) (a : Nat) (v : Word) : (s.setFar a v).pst = s.pst := rfl
@[simp] theorem State.setFar_kpr (s : State) (a : Nat) (v : Word) : (s.setFar a v).kpr = s.kpr := rfl
@[simp] theorem State.setFar_pwr (s : State) (a : Nat) (v : Word) : (s.setFar a v).pwr = s.pwr := rfl
@[simp] theorem State.setFar_flt (s : State) (a : Nat) (v : Word) : (s.setFar a v).flt = s.flt := rfl
@[simp] theorem State.setFar_gbl (s : State) (a : Nat) (v : Word) : (s.setFar a v).gbl = s.gbl := rfl
@[simp] theorem State.setFar_jtag (s : State) (a : Nat) (v : Word) : (s.setFar a v).jtag = s.jtag := rfl
@[simp] theorem State.setFar_sent (s : State) (a : Nat) (v : Word) : (s.setFar a v).sent = s.sent := rfl
@[simp] theorem State.setFar_timers (s : State) (a : Nat) (v : Word) : (s.setFar a v).timers = s.timers := rfl
@[simp] theorem State.setFar_freeIdx (s : State) (a : Nat) (v : Word) : (s.setFar a v).freeIdx = s.freeIdx := rfl
@[simp] theorem State.setFar_pending (s : State) (a : Nat) (v : Word) : (s.setFar a v).pending = s.pending := rfl

/-! ### setInput -/
@[simp] theorem State.setInput_now (s : State) (n : Nat) (x : Input) : (s.setInput n x).now = s.now := rfl
@[simp] theorem State.setInput_devTime (s : State) (n : Nat) (x : Input) : (s.setInput n x).devTime = s.devTime := rfl
@[simp] theorem State.setInput_phase (s : State) (n : Nat) (x : Input) : (s.setInput n x).phase = s.phase := rfl
@[simp] theorem State.setInput_regs (s : State) (n : Nat) (x : Input) : (s.setInput n x).regs = s.regs := rfl
@[simp] theorem State.setInput_far (s : State) (n : Nat) (x : Input) : (s.setInput n x).far = s.far := rfl
@[simp] theorem State.setInput_tb (s : State) (n : Nat) (x : Input) : (s.setInput n x).tb = s.tb := rfl
@[simp] theorem State.setInput_trig (s : State) (n : Nat) (x : Input) : (s.setInput n x).trig = s.trig := rfl
@[simp] theorem State.setInput_cadOut (s : State) (n : Nat) (x : Input) : (s.setInput n x).cadOut = s.cadOut := rfl
@[simp] theorem State.setInput_cadEnd (s : State) (n : Nat) (x : Input) : (s.setInput n x).cadEnd = s.cadEnd := rfl
@[simp] theorem State.setInput_cadences (s : State) (n : Nat) (x : Input) : (s.setInput n x).cadences = s.cadences := rfl
@[simp] theorem State.setInput_chans (s : State) (n : Nat) (x : Input) : (s.setInput n x).chans = s.chans := rfl
@[simp] theorem State.setInput_recipes (s : State) (n : Nat) (x : Input) : (s.setInput n x).recipes = s.recipes := rfl
@[simp] theorem State.setInput_banks (s : State) (n : Nat) (x : Input) : (s.setInput n x).banks = s.banks := rfl
@[simp] theorem State.setInput_loads (s : State) (n : Nat) (x : Input) : (s.setInput n x).loads = s.loads := rfl
@[simp] theorem State.setInput_plc (s : State) (n : Nat) (x : Input) : (s.setInput n x).plc = s.plc := rfl
@[simp] theorem State.setInput_lanes (s : State) (n : Nat) (x : Input) : (s.setInput n x).lanes = s.lanes := rfl
@[simp] theorem State.setInput_peerLanes (s : State) (n : Nat) (x : Input) : (s.setInput n x).peerLanes = s.peerLanes := rfl
@[simp] theorem State.setInput_peer (s : State) (n : Nat) (x : Input) : (s.setInput n x).peer = s.peer := rfl
@[simp] theorem State.setInput_rings (s : State) (n : Nat) (x : Input) : (s.setInput n x).rings = s.rings := rfl
@[simp] theorem State.setInput_msix (s : State) (n : Nat) (x : Input) : (s.setInput n x).msix = s.msix := rfl
@[simp] theorem State.setInput_pba (s : State) (n : Nat) (x : Input) : (s.setInput n x).pba = s.pba := rfl
@[simp] theorem State.setInput_pcie (s : State) (n : Nat) (x : Input) : (s.setInput n x).pcie = s.pcie := rfl
@[simp] theorem State.setInput_pst (s : State) (n : Nat) (x : Input) : (s.setInput n x).pst = s.pst := rfl
@[simp] theorem State.setInput_kpr (s : State) (n : Nat) (x : Input) : (s.setInput n x).kpr = s.kpr := rfl
@[simp] theorem State.setInput_pwr (s : State) (n : Nat) (x : Input) : (s.setInput n x).pwr = s.pwr := rfl
@[simp] theorem State.setInput_flt (s : State) (n : Nat) (x : Input) : (s.setInput n x).flt = s.flt := rfl
@[simp] theorem State.setInput_gbl (s : State) (n : Nat) (x : Input) : (s.setInput n x).gbl = s.gbl := rfl
@[simp] theorem State.setInput_jtag (s : State) (n : Nat) (x : Input) : (s.setInput n x).jtag = s.jtag := rfl
@[simp] theorem State.setInput_sent (s : State) (n : Nat) (x : Input) : (s.setInput n x).sent = s.sent := rfl
@[simp] theorem State.setInput_timers (s : State) (n : Nat) (x : Input) : (s.setInput n x).timers = s.timers := rfl
@[simp] theorem State.setInput_decayed (s : State) (n : Nat) (x : Input) : (s.setInput n x).decayed = s.decayed := rfl
@[simp] theorem State.setInput_freeIdx (s : State) (n : Nat) (x : Input) : (s.setInput n x).freeIdx = s.freeIdx := rfl
@[simp] theorem State.setInput_pending (s : State) (n : Nat) (x : Input) : (s.setInput n x).pending = s.pending := rfl

/-! ### setCadence -/
@[simp] theorem State.setCadence_now (s : State) (n : Nat) (x : Cadence) : (s.setCadence n x).now = s.now := rfl
@[simp] theorem State.setCadence_devTime (s : State) (n : Nat) (x : Cadence) : (s.setCadence n x).devTime = s.devTime := rfl
@[simp] theorem State.setCadence_phase (s : State) (n : Nat) (x : Cadence) : (s.setCadence n x).phase = s.phase := rfl
@[simp] theorem State.setCadence_regs (s : State) (n : Nat) (x : Cadence) : (s.setCadence n x).regs = s.regs := rfl
@[simp] theorem State.setCadence_far (s : State) (n : Nat) (x : Cadence) : (s.setCadence n x).far = s.far := rfl
@[simp] theorem State.setCadence_tb (s : State) (n : Nat) (x : Cadence) : (s.setCadence n x).tb = s.tb := rfl
@[simp] theorem State.setCadence_inputs (s : State) (n : Nat) (x : Cadence) : (s.setCadence n x).inputs = s.inputs := rfl
@[simp] theorem State.setCadence_decayed (s : State) (n : Nat) (x : Cadence) : (s.setCadence n x).decayed = s.decayed := rfl
@[simp] theorem State.setCadence_trig (s : State) (n : Nat) (x : Cadence) : (s.setCadence n x).trig = s.trig := rfl
@[simp] theorem State.setCadence_cadOut (s : State) (n : Nat) (x : Cadence) : (s.setCadence n x).cadOut = s.cadOut := rfl
@[simp] theorem State.setCadence_cadEnd (s : State) (n : Nat) (x : Cadence) : (s.setCadence n x).cadEnd = s.cadEnd := rfl
@[simp] theorem State.setCadence_chans (s : State) (n : Nat) (x : Cadence) : (s.setCadence n x).chans = s.chans := rfl
@[simp] theorem State.setCadence_recipes (s : State) (n : Nat) (x : Cadence) : (s.setCadence n x).recipes = s.recipes := rfl
@[simp] theorem State.setCadence_banks (s : State) (n : Nat) (x : Cadence) : (s.setCadence n x).banks = s.banks := rfl
@[simp] theorem State.setCadence_loads (s : State) (n : Nat) (x : Cadence) : (s.setCadence n x).loads = s.loads := rfl
@[simp] theorem State.setCadence_plc (s : State) (n : Nat) (x : Cadence) : (s.setCadence n x).plc = s.plc := rfl
@[simp] theorem State.setCadence_lanes (s : State) (n : Nat) (x : Cadence) : (s.setCadence n x).lanes = s.lanes := rfl
@[simp] theorem State.setCadence_peerLanes (s : State) (n : Nat) (x : Cadence) : (s.setCadence n x).peerLanes = s.peerLanes := rfl
@[simp] theorem State.setCadence_peer (s : State) (n : Nat) (x : Cadence) : (s.setCadence n x).peer = s.peer := rfl
@[simp] theorem State.setCadence_rings (s : State) (n : Nat) (x : Cadence) : (s.setCadence n x).rings = s.rings := rfl
@[simp] theorem State.setCadence_msix (s : State) (n : Nat) (x : Cadence) : (s.setCadence n x).msix = s.msix := rfl
@[simp] theorem State.setCadence_pba (s : State) (n : Nat) (x : Cadence) : (s.setCadence n x).pba = s.pba := rfl
@[simp] theorem State.setCadence_pcie (s : State) (n : Nat) (x : Cadence) : (s.setCadence n x).pcie = s.pcie := rfl
@[simp] theorem State.setCadence_pst (s : State) (n : Nat) (x : Cadence) : (s.setCadence n x).pst = s.pst := rfl
@[simp] theorem State.setCadence_kpr (s : State) (n : Nat) (x : Cadence) : (s.setCadence n x).kpr = s.kpr := rfl
@[simp] theorem State.setCadence_pwr (s : State) (n : Nat) (x : Cadence) : (s.setCadence n x).pwr = s.pwr := rfl
@[simp] theorem State.setCadence_flt (s : State) (n : Nat) (x : Cadence) : (s.setCadence n x).flt = s.flt := rfl
@[simp] theorem State.setCadence_gbl (s : State) (n : Nat) (x : Cadence) : (s.setCadence n x).gbl = s.gbl := rfl
@[simp] theorem State.setCadence_jtag (s : State) (n : Nat) (x : Cadence) : (s.setCadence n x).jtag = s.jtag := rfl
@[simp] theorem State.setCadence_sent (s : State) (n : Nat) (x : Cadence) : (s.setCadence n x).sent = s.sent := rfl
@[simp] theorem State.setCadence_timers (s : State) (n : Nat) (x : Cadence) : (s.setCadence n x).timers = s.timers := rfl
@[simp] theorem State.setCadence_freeIdx (s : State) (n : Nat) (x : Cadence) : (s.setCadence n x).freeIdx = s.freeIdx := rfl
@[simp] theorem State.setCadence_pending (s : State) (n : Nat) (x : Cadence) : (s.setCadence n x).pending = s.pending := rfl

/-! ### setChan -/
@[simp] theorem State.setChan_now (s : State) (n : Nat) (x : Chan) : (s.setChan n x).now = s.now := rfl
@[simp] theorem State.setChan_devTime (s : State) (n : Nat) (x : Chan) : (s.setChan n x).devTime = s.devTime := rfl
@[simp] theorem State.setChan_phase (s : State) (n : Nat) (x : Chan) : (s.setChan n x).phase = s.phase := rfl
@[simp] theorem State.setChan_regs (s : State) (n : Nat) (x : Chan) : (s.setChan n x).regs = s.regs := rfl
@[simp] theorem State.setChan_far (s : State) (n : Nat) (x : Chan) : (s.setChan n x).far = s.far := rfl
@[simp] theorem State.setChan_tb (s : State) (n : Nat) (x : Chan) : (s.setChan n x).tb = s.tb := rfl
@[simp] theorem State.setChan_inputs (s : State) (n : Nat) (x : Chan) : (s.setChan n x).inputs = s.inputs := rfl
@[simp] theorem State.setChan_decayed (s : State) (n : Nat) (x : Chan) : (s.setChan n x).decayed = s.decayed := rfl
@[simp] theorem State.setChan_trig (s : State) (n : Nat) (x : Chan) : (s.setChan n x).trig = s.trig := rfl
@[simp] theorem State.setChan_cadOut (s : State) (n : Nat) (x : Chan) : (s.setChan n x).cadOut = s.cadOut := rfl
@[simp] theorem State.setChan_cadEnd (s : State) (n : Nat) (x : Chan) : (s.setChan n x).cadEnd = s.cadEnd := rfl
@[simp] theorem State.setChan_cadences (s : State) (n : Nat) (x : Chan) : (s.setChan n x).cadences = s.cadences := rfl
@[simp] theorem State.setChan_recipes (s : State) (n : Nat) (x : Chan) : (s.setChan n x).recipes = s.recipes := rfl
@[simp] theorem State.setChan_banks (s : State) (n : Nat) (x : Chan) : (s.setChan n x).banks = s.banks := rfl
@[simp] theorem State.setChan_loads (s : State) (n : Nat) (x : Chan) : (s.setChan n x).loads = s.loads := rfl
@[simp] theorem State.setChan_plc (s : State) (n : Nat) (x : Chan) : (s.setChan n x).plc = s.plc := rfl
@[simp] theorem State.setChan_lanes (s : State) (n : Nat) (x : Chan) : (s.setChan n x).lanes = s.lanes := rfl
@[simp] theorem State.setChan_peerLanes (s : State) (n : Nat) (x : Chan) : (s.setChan n x).peerLanes = s.peerLanes := rfl
@[simp] theorem State.setChan_peer (s : State) (n : Nat) (x : Chan) : (s.setChan n x).peer = s.peer := rfl
@[simp] theorem State.setChan_rings (s : State) (n : Nat) (x : Chan) : (s.setChan n x).rings = s.rings := rfl
@[simp] theorem State.setChan_msix (s : State) (n : Nat) (x : Chan) : (s.setChan n x).msix = s.msix := rfl
@[simp] theorem State.setChan_pba (s : State) (n : Nat) (x : Chan) : (s.setChan n x).pba = s.pba := rfl
@[simp] theorem State.setChan_pcie (s : State) (n : Nat) (x : Chan) : (s.setChan n x).pcie = s.pcie := rfl
@[simp] theorem State.setChan_pst (s : State) (n : Nat) (x : Chan) : (s.setChan n x).pst = s.pst := rfl
@[simp] theorem State.setChan_kpr (s : State) (n : Nat) (x : Chan) : (s.setChan n x).kpr = s.kpr := rfl
@[simp] theorem State.setChan_pwr (s : State) (n : Nat) (x : Chan) : (s.setChan n x).pwr = s.pwr := rfl
@[simp] theorem State.setChan_flt (s : State) (n : Nat) (x : Chan) : (s.setChan n x).flt = s.flt := rfl
@[simp] theorem State.setChan_gbl (s : State) (n : Nat) (x : Chan) : (s.setChan n x).gbl = s.gbl := rfl
@[simp] theorem State.setChan_jtag (s : State) (n : Nat) (x : Chan) : (s.setChan n x).jtag = s.jtag := rfl
@[simp] theorem State.setChan_sent (s : State) (n : Nat) (x : Chan) : (s.setChan n x).sent = s.sent := rfl
@[simp] theorem State.setChan_timers (s : State) (n : Nat) (x : Chan) : (s.setChan n x).timers = s.timers := rfl
@[simp] theorem State.setChan_freeIdx (s : State) (n : Nat) (x : Chan) : (s.setChan n x).freeIdx = s.freeIdx := rfl
@[simp] theorem State.setChan_pending (s : State) (n : Nat) (x : Chan) : (s.setChan n x).pending = s.pending := rfl

/-! ### setLane -/
@[simp] theorem State.setLane_now (s : State) (n : Nat) (x : Lane) : (s.setLane n x).now = s.now := rfl
@[simp] theorem State.setLane_devTime (s : State) (n : Nat) (x : Lane) : (s.setLane n x).devTime = s.devTime := rfl
@[simp] theorem State.setLane_phase (s : State) (n : Nat) (x : Lane) : (s.setLane n x).phase = s.phase := rfl
@[simp] theorem State.setLane_regs (s : State) (n : Nat) (x : Lane) : (s.setLane n x).regs = s.regs := rfl
@[simp] theorem State.setLane_far (s : State) (n : Nat) (x : Lane) : (s.setLane n x).far = s.far := rfl
@[simp] theorem State.setLane_tb (s : State) (n : Nat) (x : Lane) : (s.setLane n x).tb = s.tb := rfl
@[simp] theorem State.setLane_inputs (s : State) (n : Nat) (x : Lane) : (s.setLane n x).inputs = s.inputs := rfl
@[simp] theorem State.setLane_decayed (s : State) (n : Nat) (x : Lane) : (s.setLane n x).decayed = s.decayed := rfl
@[simp] theorem State.setLane_trig (s : State) (n : Nat) (x : Lane) : (s.setLane n x).trig = s.trig := rfl
@[simp] theorem State.setLane_cadOut (s : State) (n : Nat) (x : Lane) : (s.setLane n x).cadOut = s.cadOut := rfl
@[simp] theorem State.setLane_cadEnd (s : State) (n : Nat) (x : Lane) : (s.setLane n x).cadEnd = s.cadEnd := rfl
@[simp] theorem State.setLane_cadences (s : State) (n : Nat) (x : Lane) : (s.setLane n x).cadences = s.cadences := rfl
@[simp] theorem State.setLane_chans (s : State) (n : Nat) (x : Lane) : (s.setLane n x).chans = s.chans := rfl
@[simp] theorem State.setLane_recipes (s : State) (n : Nat) (x : Lane) : (s.setLane n x).recipes = s.recipes := rfl
@[simp] theorem State.setLane_banks (s : State) (n : Nat) (x : Lane) : (s.setLane n x).banks = s.banks := rfl
@[simp] theorem State.setLane_loads (s : State) (n : Nat) (x : Lane) : (s.setLane n x).loads = s.loads := rfl
@[simp] theorem State.setLane_plc (s : State) (n : Nat) (x : Lane) : (s.setLane n x).plc = s.plc := rfl
@[simp] theorem State.setLane_peerLanes (s : State) (n : Nat) (x : Lane) : (s.setLane n x).peerLanes = s.peerLanes := rfl
@[simp] theorem State.setLane_peer (s : State) (n : Nat) (x : Lane) : (s.setLane n x).peer = s.peer := rfl
@[simp] theorem State.setLane_rings (s : State) (n : Nat) (x : Lane) : (s.setLane n x).rings = s.rings := rfl
@[simp] theorem State.setLane_msix (s : State) (n : Nat) (x : Lane) : (s.setLane n x).msix = s.msix := rfl
@[simp] theorem State.setLane_pba (s : State) (n : Nat) (x : Lane) : (s.setLane n x).pba = s.pba := rfl
@[simp] theorem State.setLane_pcie (s : State) (n : Nat) (x : Lane) : (s.setLane n x).pcie = s.pcie := rfl
@[simp] theorem State.setLane_pst (s : State) (n : Nat) (x : Lane) : (s.setLane n x).pst = s.pst := rfl
@[simp] theorem State.setLane_kpr (s : State) (n : Nat) (x : Lane) : (s.setLane n x).kpr = s.kpr := rfl
@[simp] theorem State.setLane_pwr (s : State) (n : Nat) (x : Lane) : (s.setLane n x).pwr = s.pwr := rfl
@[simp] theorem State.setLane_flt (s : State) (n : Nat) (x : Lane) : (s.setLane n x).flt = s.flt := rfl
@[simp] theorem State.setLane_gbl (s : State) (n : Nat) (x : Lane) : (s.setLane n x).gbl = s.gbl := rfl
@[simp] theorem State.setLane_jtag (s : State) (n : Nat) (x : Lane) : (s.setLane n x).jtag = s.jtag := rfl
@[simp] theorem State.setLane_sent (s : State) (n : Nat) (x : Lane) : (s.setLane n x).sent = s.sent := rfl
@[simp] theorem State.setLane_timers (s : State) (n : Nat) (x : Lane) : (s.setLane n x).timers = s.timers := rfl
@[simp] theorem State.setLane_freeIdx (s : State) (n : Nat) (x : Lane) : (s.setLane n x).freeIdx = s.freeIdx := rfl
@[simp] theorem State.setLane_pending (s : State) (n : Nat) (x : Lane) : (s.setLane n x).pending = s.pending := rfl

/-! ### setPeerLane -/
@[simp] theorem State.setPeerLane_now (s : State) (n : Nat) (x : PeerLane) : (s.setPeerLane n x).now = s.now := rfl
@[simp] theorem State.setPeerLane_devTime (s : State) (n : Nat) (x : PeerLane) : (s.setPeerLane n x).devTime = s.devTime := rfl
@[simp] theorem State.setPeerLane_phase (s : State) (n : Nat) (x : PeerLane) : (s.setPeerLane n x).phase = s.phase := rfl
@[simp] theorem State.setPeerLane_regs (s : State) (n : Nat) (x : PeerLane) : (s.setPeerLane n x).regs = s.regs := rfl
@[simp] theorem State.setPeerLane_far (s : State) (n : Nat) (x : PeerLane) : (s.setPeerLane n x).far = s.far := rfl
@[simp] theorem State.setPeerLane_tb (s : State) (n : Nat) (x : PeerLane) : (s.setPeerLane n x).tb = s.tb := rfl
@[simp] theorem State.setPeerLane_inputs (s : State) (n : Nat) (x : PeerLane) : (s.setPeerLane n x).inputs = s.inputs := rfl
@[simp] theorem State.setPeerLane_decayed (s : State) (n : Nat) (x : PeerLane) : (s.setPeerLane n x).decayed = s.decayed := rfl
@[simp] theorem State.setPeerLane_trig (s : State) (n : Nat) (x : PeerLane) : (s.setPeerLane n x).trig = s.trig := rfl
@[simp] theorem State.setPeerLane_cadOut (s : State) (n : Nat) (x : PeerLane) : (s.setPeerLane n x).cadOut = s.cadOut := rfl
@[simp] theorem State.setPeerLane_cadEnd (s : State) (n : Nat) (x : PeerLane) : (s.setPeerLane n x).cadEnd = s.cadEnd := rfl
@[simp] theorem State.setPeerLane_cadences (s : State) (n : Nat) (x : PeerLane) : (s.setPeerLane n x).cadences = s.cadences := rfl
@[simp] theorem State.setPeerLane_chans (s : State) (n : Nat) (x : PeerLane) : (s.setPeerLane n x).chans = s.chans := rfl
@[simp] theorem State.setPeerLane_recipes (s : State) (n : Nat) (x : PeerLane) : (s.setPeerLane n x).recipes = s.recipes := rfl
@[simp] theorem State.setPeerLane_banks (s : State) (n : Nat) (x : PeerLane) : (s.setPeerLane n x).banks = s.banks := rfl
@[simp] theorem State.setPeerLane_loads (s : State) (n : Nat) (x : PeerLane) : (s.setPeerLane n x).loads = s.loads := rfl
@[simp] theorem State.setPeerLane_plc (s : State) (n : Nat) (x : PeerLane) : (s.setPeerLane n x).plc = s.plc := rfl
@[simp] theorem State.setPeerLane_lanes (s : State) (n : Nat) (x : PeerLane) : (s.setPeerLane n x).lanes = s.lanes := rfl
@[simp] theorem State.setPeerLane_peer (s : State) (n : Nat) (x : PeerLane) : (s.setPeerLane n x).peer = s.peer := rfl
@[simp] theorem State.setPeerLane_rings (s : State) (n : Nat) (x : PeerLane) : (s.setPeerLane n x).rings = s.rings := rfl
@[simp] theorem State.setPeerLane_msix (s : State) (n : Nat) (x : PeerLane) : (s.setPeerLane n x).msix = s.msix := rfl
@[simp] theorem State.setPeerLane_pba (s : State) (n : Nat) (x : PeerLane) : (s.setPeerLane n x).pba = s.pba := rfl
@[simp] theorem State.setPeerLane_pcie (s : State) (n : Nat) (x : PeerLane) : (s.setPeerLane n x).pcie = s.pcie := rfl
@[simp] theorem State.setPeerLane_pst (s : State) (n : Nat) (x : PeerLane) : (s.setPeerLane n x).pst = s.pst := rfl
@[simp] theorem State.setPeerLane_kpr (s : State) (n : Nat) (x : PeerLane) : (s.setPeerLane n x).kpr = s.kpr := rfl
@[simp] theorem State.setPeerLane_pwr (s : State) (n : Nat) (x : PeerLane) : (s.setPeerLane n x).pwr = s.pwr := rfl
@[simp] theorem State.setPeerLane_flt (s : State) (n : Nat) (x : PeerLane) : (s.setPeerLane n x).flt = s.flt := rfl
@[simp] theorem State.setPeerLane_gbl (s : State) (n : Nat) (x : PeerLane) : (s.setPeerLane n x).gbl = s.gbl := rfl
@[simp] theorem State.setPeerLane_jtag (s : State) (n : Nat) (x : PeerLane) : (s.setPeerLane n x).jtag = s.jtag := rfl
@[simp] theorem State.setPeerLane_sent (s : State) (n : Nat) (x : PeerLane) : (s.setPeerLane n x).sent = s.sent := rfl
@[simp] theorem State.setPeerLane_timers (s : State) (n : Nat) (x : PeerLane) : (s.setPeerLane n x).timers = s.timers := rfl
@[simp] theorem State.setPeerLane_freeIdx (s : State) (n : Nat) (x : PeerLane) : (s.setPeerLane n x).freeIdx = s.freeIdx := rfl
@[simp] theorem State.setPeerLane_pending (s : State) (n : Nat) (x : PeerLane) : (s.setPeerLane n x).pending = s.pending := rfl

/-! ### setRing -/
@[simp] theorem State.setRing_now (s : State) (n : Nat) (x : Ring) : (s.setRing n x).now = s.now := rfl
@[simp] theorem State.setRing_devTime (s : State) (n : Nat) (x : Ring) : (s.setRing n x).devTime = s.devTime := rfl
@[simp] theorem State.setRing_phase (s : State) (n : Nat) (x : Ring) : (s.setRing n x).phase = s.phase := rfl
@[simp] theorem State.setRing_regs (s : State) (n : Nat) (x : Ring) : (s.setRing n x).regs = s.regs := rfl
@[simp] theorem State.setRing_far (s : State) (n : Nat) (x : Ring) : (s.setRing n x).far = s.far := rfl
@[simp] theorem State.setRing_tb (s : State) (n : Nat) (x : Ring) : (s.setRing n x).tb = s.tb := rfl
@[simp] theorem State.setRing_inputs (s : State) (n : Nat) (x : Ring) : (s.setRing n x).inputs = s.inputs := rfl
@[simp] theorem State.setRing_decayed (s : State) (n : Nat) (x : Ring) : (s.setRing n x).decayed = s.decayed := rfl
@[simp] theorem State.setRing_trig (s : State) (n : Nat) (x : Ring) : (s.setRing n x).trig = s.trig := rfl
@[simp] theorem State.setRing_cadOut (s : State) (n : Nat) (x : Ring) : (s.setRing n x).cadOut = s.cadOut := rfl
@[simp] theorem State.setRing_cadEnd (s : State) (n : Nat) (x : Ring) : (s.setRing n x).cadEnd = s.cadEnd := rfl
@[simp] theorem State.setRing_cadences (s : State) (n : Nat) (x : Ring) : (s.setRing n x).cadences = s.cadences := rfl
@[simp] theorem State.setRing_chans (s : State) (n : Nat) (x : Ring) : (s.setRing n x).chans = s.chans := rfl
@[simp] theorem State.setRing_recipes (s : State) (n : Nat) (x : Ring) : (s.setRing n x).recipes = s.recipes := rfl
@[simp] theorem State.setRing_banks (s : State) (n : Nat) (x : Ring) : (s.setRing n x).banks = s.banks := rfl
@[simp] theorem State.setRing_loads (s : State) (n : Nat) (x : Ring) : (s.setRing n x).loads = s.loads := rfl
@[simp] theorem State.setRing_plc (s : State) (n : Nat) (x : Ring) : (s.setRing n x).plc = s.plc := rfl
@[simp] theorem State.setRing_lanes (s : State) (n : Nat) (x : Ring) : (s.setRing n x).lanes = s.lanes := rfl
@[simp] theorem State.setRing_peerLanes (s : State) (n : Nat) (x : Ring) : (s.setRing n x).peerLanes = s.peerLanes := rfl
@[simp] theorem State.setRing_peer (s : State) (n : Nat) (x : Ring) : (s.setRing n x).peer = s.peer := rfl
@[simp] theorem State.setRing_msix (s : State) (n : Nat) (x : Ring) : (s.setRing n x).msix = s.msix := rfl
@[simp] theorem State.setRing_pba (s : State) (n : Nat) (x : Ring) : (s.setRing n x).pba = s.pba := rfl
@[simp] theorem State.setRing_pcie (s : State) (n : Nat) (x : Ring) : (s.setRing n x).pcie = s.pcie := rfl
@[simp] theorem State.setRing_pst (s : State) (n : Nat) (x : Ring) : (s.setRing n x).pst = s.pst := rfl
@[simp] theorem State.setRing_kpr (s : State) (n : Nat) (x : Ring) : (s.setRing n x).kpr = s.kpr := rfl
@[simp] theorem State.setRing_pwr (s : State) (n : Nat) (x : Ring) : (s.setRing n x).pwr = s.pwr := rfl
@[simp] theorem State.setRing_flt (s : State) (n : Nat) (x : Ring) : (s.setRing n x).flt = s.flt := rfl
@[simp] theorem State.setRing_gbl (s : State) (n : Nat) (x : Ring) : (s.setRing n x).gbl = s.gbl := rfl
@[simp] theorem State.setRing_jtag (s : State) (n : Nat) (x : Ring) : (s.setRing n x).jtag = s.jtag := rfl
@[simp] theorem State.setRing_sent (s : State) (n : Nat) (x : Ring) : (s.setRing n x).sent = s.sent := rfl
@[simp] theorem State.setRing_timers (s : State) (n : Nat) (x : Ring) : (s.setRing n x).timers = s.timers := rfl
@[simp] theorem State.setRing_freeIdx (s : State) (n : Nat) (x : Ring) : (s.setRing n x).freeIdx = s.freeIdx := rfl
@[simp] theorem State.setRing_pending (s : State) (n : Nat) (x : Ring) : (s.setRing n x).pending = s.pending := rfl

/-! ### out -/
@[simp] theorem State.out_now (s : State) (o : Output) : (s.out o).now = s.now := rfl
@[simp] theorem State.out_devTime (s : State) (o : Output) : (s.out o).devTime = s.devTime := rfl
@[simp] theorem State.out_phase (s : State) (o : Output) : (s.out o).phase = s.phase := rfl
@[simp] theorem State.out_regs (s : State) (o : Output) : (s.out o).regs = s.regs := rfl
@[simp] theorem State.out_far (s : State) (o : Output) : (s.out o).far = s.far := rfl
@[simp] theorem State.out_tb (s : State) (o : Output) : (s.out o).tb = s.tb := rfl
@[simp] theorem State.out_inputs (s : State) (o : Output) : (s.out o).inputs = s.inputs := rfl
@[simp] theorem State.out_decayed (s : State) (o : Output) : (s.out o).decayed = s.decayed := rfl
@[simp] theorem State.out_trig (s : State) (o : Output) : (s.out o).trig = s.trig := rfl
@[simp] theorem State.out_cadOut (s : State) (o : Output) : (s.out o).cadOut = s.cadOut := rfl
@[simp] theorem State.out_cadEnd (s : State) (o : Output) : (s.out o).cadEnd = s.cadEnd := rfl
@[simp] theorem State.out_cadences (s : State) (o : Output) : (s.out o).cadences = s.cadences := rfl
@[simp] theorem State.out_chans (s : State) (o : Output) : (s.out o).chans = s.chans := rfl
@[simp] theorem State.out_recipes (s : State) (o : Output) : (s.out o).recipes = s.recipes := rfl
@[simp] theorem State.out_banks (s : State) (o : Output) : (s.out o).banks = s.banks := rfl
@[simp] theorem State.out_loads (s : State) (o : Output) : (s.out o).loads = s.loads := rfl
@[simp] theorem State.out_plc (s : State) (o : Output) : (s.out o).plc = s.plc := rfl
@[simp] theorem State.out_lanes (s : State) (o : Output) : (s.out o).lanes = s.lanes := rfl
@[simp] theorem State.out_peerLanes (s : State) (o : Output) : (s.out o).peerLanes = s.peerLanes := rfl
@[simp] theorem State.out_peer (s : State) (o : Output) : (s.out o).peer = s.peer := rfl
@[simp] theorem State.out_rings (s : State) (o : Output) : (s.out o).rings = s.rings := rfl
@[simp] theorem State.out_msix (s : State) (o : Output) : (s.out o).msix = s.msix := rfl
@[simp] theorem State.out_pba (s : State) (o : Output) : (s.out o).pba = s.pba := rfl
@[simp] theorem State.out_pcie (s : State) (o : Output) : (s.out o).pcie = s.pcie := rfl
@[simp] theorem State.out_pst (s : State) (o : Output) : (s.out o).pst = s.pst := rfl
@[simp] theorem State.out_kpr (s : State) (o : Output) : (s.out o).kpr = s.kpr := rfl
@[simp] theorem State.out_pwr (s : State) (o : Output) : (s.out o).pwr = s.pwr := rfl
@[simp] theorem State.out_flt (s : State) (o : Output) : (s.out o).flt = s.flt := rfl
@[simp] theorem State.out_gbl (s : State) (o : Output) : (s.out o).gbl = s.gbl := rfl
@[simp] theorem State.out_jtag (s : State) (o : Output) : (s.out o).jtag = s.jtag := rfl
@[simp] theorem State.out_timers (s : State) (o : Output) : (s.out o).timers = s.timers := rfl
@[simp] theorem State.out_freeIdx (s : State) (o : Output) : (s.out o).freeIdx = s.freeIdx := rfl
@[simp] theorem State.out_pending (s : State) (o : Output) : (s.out o).pending = s.pending := rfl

/-! ### cfgAll -/
@[simp] theorem State.cfgAll_now (s : State) : (s.cfgAll).now = s.now := rfl
@[simp] theorem State.cfgAll_devTime (s : State) : (s.cfgAll).devTime = s.devTime := rfl
@[simp] theorem State.cfgAll_phase (s : State) : (s.cfgAll).phase = s.phase := rfl
@[simp] theorem State.cfgAll_regs (s : State) : (s.cfgAll).regs = s.regs := rfl
@[simp] theorem State.cfgAll_far (s : State) : (s.cfgAll).far = s.far := rfl
@[simp] theorem State.cfgAll_tb (s : State) : (s.cfgAll).tb = s.tb := rfl
@[simp] theorem State.cfgAll_inputs (s : State) : (s.cfgAll).inputs = s.inputs := rfl
@[simp] theorem State.cfgAll_decayed (s : State) : (s.cfgAll).decayed = s.decayed := rfl
@[simp] theorem State.cfgAll_trig (s : State) : (s.cfgAll).trig = s.trig := rfl
@[simp] theorem State.cfgAll_cadOut (s : State) : (s.cfgAll).cadOut = s.cadOut := rfl
@[simp] theorem State.cfgAll_cadEnd (s : State) : (s.cfgAll).cadEnd = s.cadEnd := rfl
@[simp] theorem State.cfgAll_cadences (s : State) : (s.cfgAll).cadences = s.cadences := rfl
@[simp] theorem State.cfgAll_recipes (s : State) : (s.cfgAll).recipes = s.recipes := rfl
@[simp] theorem State.cfgAll_banks (s : State) : (s.cfgAll).banks = s.banks := rfl
@[simp] theorem State.cfgAll_loads (s : State) : (s.cfgAll).loads = s.loads := rfl
@[simp] theorem State.cfgAll_plc (s : State) : (s.cfgAll).plc = s.plc := rfl
@[simp] theorem State.cfgAll_lanes (s : State) : (s.cfgAll).lanes = s.lanes := rfl
@[simp] theorem State.cfgAll_peerLanes (s : State) : (s.cfgAll).peerLanes = s.peerLanes := rfl
@[simp] theorem State.cfgAll_peer (s : State) : (s.cfgAll).peer = s.peer := rfl
@[simp] theorem State.cfgAll_rings (s : State) : (s.cfgAll).rings = s.rings := rfl
@[simp] theorem State.cfgAll_msix (s : State) : (s.cfgAll).msix = s.msix := rfl
@[simp] theorem State.cfgAll_pba (s : State) : (s.cfgAll).pba = s.pba := rfl
@[simp] theorem State.cfgAll_pcie (s : State) : (s.cfgAll).pcie = s.pcie := rfl
@[simp] theorem State.cfgAll_pst (s : State) : (s.cfgAll).pst = s.pst := rfl
@[simp] theorem State.cfgAll_kpr (s : State) : (s.cfgAll).kpr = s.kpr := rfl
@[simp] theorem State.cfgAll_pwr (s : State) : (s.cfgAll).pwr = s.pwr := rfl
@[simp] theorem State.cfgAll_flt (s : State) : (s.cfgAll).flt = s.flt := rfl
@[simp] theorem State.cfgAll_gbl (s : State) : (s.cfgAll).gbl = s.gbl := rfl
@[simp] theorem State.cfgAll_jtag (s : State) : (s.cfgAll).jtag = s.jtag := rfl
@[simp] theorem State.cfgAll_sent (s : State) : (s.cfgAll).sent = s.sent := rfl
@[simp] theorem State.cfgAll_timers (s : State) : (s.cfgAll).timers = s.timers := rfl
@[simp] theorem State.cfgAll_freeIdx (s : State) : (s.cfgAll).freeIdx = s.freeIdx := rfl
@[simp] theorem State.cfgAll_pending (s : State) : (s.cfgAll).pending = s.pending := rfl

/-! ### modTb -/
@[simp] theorem State.modTb_now (s : State) (f : Tb → Tb) : (s.modTb f).now = s.now := rfl
@[simp] theorem State.modTb_devTime (s : State) (f : Tb → Tb) : (s.modTb f).devTime = s.devTime := rfl
@[simp] theorem State.modTb_phase (s : State) (f : Tb → Tb) : (s.modTb f).phase = s.phase := rfl
@[simp] theorem State.modTb_regs (s : State) (f : Tb → Tb) : (s.modTb f).regs = s.regs := rfl
@[simp] theorem State.modTb_far (s : State) (f : Tb → Tb) : (s.modTb f).far = s.far := rfl
@[simp] theorem State.modTb_inputs (s : State) (f : Tb → Tb) : (s.modTb f).inputs = s.inputs := rfl
@[simp] theorem State.modTb_decayed (s : State) (f : Tb → Tb) : (s.modTb f).decayed = s.decayed := rfl
@[simp] theorem State.modTb_trig (s : State) (f : Tb → Tb) : (s.modTb f).trig = s.trig := rfl
@[simp] theorem State.modTb_cadOut (s : State) (f : Tb → Tb) : (s.modTb f).cadOut = s.cadOut := rfl
@[simp] theorem State.modTb_cadEnd (s : State) (f : Tb → Tb) : (s.modTb f).cadEnd = s.cadEnd := rfl
@[simp] theorem State.modTb_cadences (s : State) (f : Tb → Tb) : (s.modTb f).cadences = s.cadences := rfl
@[simp] theorem State.modTb_chans (s : State) (f : Tb → Tb) : (s.modTb f).chans = s.chans := rfl
@[simp] theorem State.modTb_recipes (s : State) (f : Tb → Tb) : (s.modTb f).recipes = s.recipes := rfl
@[simp] theorem State.modTb_banks (s : State) (f : Tb → Tb) : (s.modTb f).banks = s.banks := rfl
@[simp] theorem State.modTb_loads (s : State) (f : Tb → Tb) : (s.modTb f).loads = s.loads := rfl
@[simp] theorem State.modTb_plc (s : State) (f : Tb → Tb) : (s.modTb f).plc = s.plc := rfl
@[simp] theorem State.modTb_lanes (s : State) (f : Tb → Tb) : (s.modTb f).lanes = s.lanes := rfl
@[simp] theorem State.modTb_peerLanes (s : State) (f : Tb → Tb) : (s.modTb f).peerLanes = s.peerLanes := rfl
@[simp] theorem State.modTb_peer (s : State) (f : Tb → Tb) : (s.modTb f).peer = s.peer := rfl
@[simp] theorem State.modTb_rings (s : State) (f : Tb → Tb) : (s.modTb f).rings = s.rings := rfl
@[simp] theorem State.modTb_msix (s : State) (f : Tb → Tb) : (s.modTb f).msix = s.msix := rfl
@[simp] theorem State.modTb_pba (s : State) (f : Tb → Tb) : (s.modTb f).pba = s.pba := rfl
@[simp] theorem State.modTb_pcie (s : State) (f : Tb → Tb) : (s.modTb f).pcie = s.pcie := rfl
@[simp] theorem State.modTb_pst (s : State) (f : Tb → Tb) : (s.modTb f).pst = s.pst := rfl
@[simp] theorem State.modTb_kpr (s : State) (f : Tb → Tb) : (s.modTb f).kpr = s.kpr := rfl
@[simp] theorem State.modTb_pwr (s : State) (f : Tb → Tb) : (s.modTb f).pwr = s.pwr := rfl
@[simp] theorem State.modTb_flt (s : State) (f : Tb → Tb) : (s.modTb f).flt = s.flt := rfl
@[simp] theorem State.modTb_gbl (s : State) (f : Tb → Tb) : (s.modTb f).gbl = s.gbl := rfl
@[simp] theorem State.modTb_jtag (s : State) (f : Tb → Tb) : (s.modTb f).jtag = s.jtag := rfl
@[simp] theorem State.modTb_sent (s : State) (f : Tb → Tb) : (s.modTb f).sent = s.sent := rfl
@[simp] theorem State.modTb_timers (s : State) (f : Tb → Tb) : (s.modTb f).timers = s.timers := rfl
@[simp] theorem State.modTb_freeIdx (s : State) (f : Tb → Tb) : (s.modTb f).freeIdx = s.freeIdx := rfl
@[simp] theorem State.modTb_pending (s : State) (f : Tb → Tb) : (s.modTb f).pending = s.pending := rfl

/-! ### advance -/
@[simp] theorem State.advance_phase (s : State) (t : Nat) : (s.advance t).phase = s.phase := rfl
@[simp] theorem State.advance_regs (s : State) (t : Nat) : (s.advance t).regs = s.regs := rfl
@[simp] theorem State.advance_far (s : State) (t : Nat) : (s.advance t).far = s.far := rfl
@[simp] theorem State.advance_tb (s : State) (t : Nat) : (s.advance t).tb = s.tb := rfl
@[simp] theorem State.advance_inputs (s : State) (t : Nat) : (s.advance t).inputs = s.inputs := rfl
@[simp] theorem State.advance_decayed (s : State) (t : Nat) : (s.advance t).decayed = s.decayed := rfl
@[simp] theorem State.advance_trig (s : State) (t : Nat) : (s.advance t).trig = s.trig := rfl
@[simp] theorem State.advance_cadOut (s : State) (t : Nat) : (s.advance t).cadOut = s.cadOut := rfl
@[simp] theorem State.advance_cadEnd (s : State) (t : Nat) : (s.advance t).cadEnd = s.cadEnd := rfl
@[simp] theorem State.advance_cadences (s : State) (t : Nat) : (s.advance t).cadences = s.cadences := rfl
@[simp] theorem State.advance_chans (s : State) (t : Nat) : (s.advance t).chans = s.chans := rfl
@[simp] theorem State.advance_recipes (s : State) (t : Nat) : (s.advance t).recipes = s.recipes := rfl
@[simp] theorem State.advance_banks (s : State) (t : Nat) : (s.advance t).banks = s.banks := rfl
@[simp] theorem State.advance_loads (s : State) (t : Nat) : (s.advance t).loads = s.loads := rfl
@[simp] theorem State.advance_plc (s : State) (t : Nat) : (s.advance t).plc = s.plc := rfl
@[simp] theorem State.advance_lanes (s : State) (t : Nat) : (s.advance t).lanes = s.lanes := rfl
@[simp] theorem State.advance_peerLanes (s : State) (t : Nat) : (s.advance t).peerLanes = s.peerLanes := rfl
@[simp] theorem State.advance_peer (s : State) (t : Nat) : (s.advance t).peer = s.peer := rfl
@[simp] theorem State.advance_rings (s : State) (t : Nat) : (s.advance t).rings = s.rings := rfl
@[simp] theorem State.advance_msix (s : State) (t : Nat) : (s.advance t).msix = s.msix := rfl
@[simp] theorem State.advance_pba (s : State) (t : Nat) : (s.advance t).pba = s.pba := rfl
@[simp] theorem State.advance_pcie (s : State) (t : Nat) : (s.advance t).pcie = s.pcie := rfl
@[simp] theorem State.advance_pst (s : State) (t : Nat) : (s.advance t).pst = s.pst := rfl
@[simp] theorem State.advance_kpr (s : State) (t : Nat) : (s.advance t).kpr = s.kpr := rfl
@[simp] theorem State.advance_pwr (s : State) (t : Nat) : (s.advance t).pwr = s.pwr := rfl
@[simp] theorem State.advance_flt (s : State) (t : Nat) : (s.advance t).flt = s.flt := rfl
@[simp] theorem State.advance_gbl (s : State) (t : Nat) : (s.advance t).gbl = s.gbl := rfl
@[simp] theorem State.advance_jtag (s : State) (t : Nat) : (s.advance t).jtag = s.jtag := rfl
@[simp] theorem State.advance_sent (s : State) (t : Nat) : (s.advance t).sent = s.sent := rfl
@[simp] theorem State.advance_timers (s : State) (t : Nat) : (s.advance t).timers = s.timers := rfl
@[simp] theorem State.advance_freeIdx (s : State) (t : Nat) : (s.advance t).freeIdx = s.freeIdx := rfl
@[simp] theorem State.advance_pending (s : State) (t : Nat) : (s.advance t).pending = s.pending := rfl

/-! ### start -/
@[simp] theorem State.start_now (s : State) (x : Timer) : (s.start x).now = s.now := rfl
@[simp] theorem State.start_devTime (s : State) (x : Timer) : (s.start x).devTime = s.devTime := rfl
@[simp] theorem State.start_phase (s : State) (x : Timer) : (s.start x).phase = s.phase := rfl
@[simp] theorem State.start_regs (s : State) (x : Timer) : (s.start x).regs = s.regs := rfl
@[simp] theorem State.start_far (s : State) (x : Timer) : (s.start x).far = s.far := rfl
@[simp] theorem State.start_tb (s : State) (x : Timer) : (s.start x).tb = s.tb := rfl
@[simp] theorem State.start_inputs (s : State) (x : Timer) : (s.start x).inputs = s.inputs := rfl
@[simp] theorem State.start_decayed (s : State) (x : Timer) : (s.start x).decayed = s.decayed := rfl
@[simp] theorem State.start_trig (s : State) (x : Timer) : (s.start x).trig = s.trig := rfl
@[simp] theorem State.start_cadOut (s : State) (x : Timer) : (s.start x).cadOut = s.cadOut := rfl
@[simp] theorem State.start_cadEnd (s : State) (x : Timer) : (s.start x).cadEnd = s.cadEnd := rfl
@[simp] theorem State.start_cadences (s : State) (x : Timer) : (s.start x).cadences = s.cadences := rfl
@[simp] theorem State.start_chans (s : State) (x : Timer) : (s.start x).chans = s.chans := rfl
@[simp] theorem State.start_recipes (s : State) (x : Timer) : (s.start x).recipes = s.recipes := rfl
@[simp] theorem State.start_banks (s : State) (x : Timer) : (s.start x).banks = s.banks := rfl
@[simp] theorem State.start_loads (s : State) (x : Timer) : (s.start x).loads = s.loads := rfl
@[simp] theorem State.start_plc (s : State) (x : Timer) : (s.start x).plc = s.plc := rfl
@[simp] theorem State.start_lanes (s : State) (x : Timer) : (s.start x).lanes = s.lanes := rfl
@[simp] theorem State.start_peerLanes (s : State) (x : Timer) : (s.start x).peerLanes = s.peerLanes := rfl
@[simp] theorem State.start_peer (s : State) (x : Timer) : (s.start x).peer = s.peer := rfl
@[simp] theorem State.start_rings (s : State) (x : Timer) : (s.start x).rings = s.rings := rfl
@[simp] theorem State.start_msix (s : State) (x : Timer) : (s.start x).msix = s.msix := rfl
@[simp] theorem State.start_pba (s : State) (x : Timer) : (s.start x).pba = s.pba := rfl
@[simp] theorem State.start_pcie (s : State) (x : Timer) : (s.start x).pcie = s.pcie := rfl
@[simp] theorem State.start_pst (s : State) (x : Timer) : (s.start x).pst = s.pst := rfl
@[simp] theorem State.start_kpr (s : State) (x : Timer) : (s.start x).kpr = s.kpr := rfl
@[simp] theorem State.start_pwr (s : State) (x : Timer) : (s.start x).pwr = s.pwr := rfl
@[simp] theorem State.start_flt (s : State) (x : Timer) : (s.start x).flt = s.flt := rfl
@[simp] theorem State.start_gbl (s : State) (x : Timer) : (s.start x).gbl = s.gbl := rfl
@[simp] theorem State.start_jtag (s : State) (x : Timer) : (s.start x).jtag = s.jtag := rfl
@[simp] theorem State.start_sent (s : State) (x : Timer) : (s.start x).sent = s.sent := rfl
@[simp] theorem State.start_freeIdx (s : State) (x : Timer) : (s.start x).freeIdx = s.freeIdx := rfl
@[simp] theorem State.start_pending (s : State) (x : Timer) : (s.start x).pending = s.pending := rfl

/-! ### wearCount, imageChanged -/
@[simp] theorem State.wearCount_now (s : State) (n : Nat) : (s.wearCount n).now = s.now := rfl
@[simp] theorem State.wearCount_devTime (s : State) (n : Nat) : (s.wearCount n).devTime = s.devTime := rfl
@[simp] theorem State.wearCount_phase (s : State) (n : Nat) : (s.wearCount n).phase = s.phase := rfl
@[simp] theorem State.wearCount_regs (s : State) (n : Nat) : (s.wearCount n).regs = s.regs := rfl
@[simp] theorem State.wearCount_far (s : State) (n : Nat) : (s.wearCount n).far = s.far := rfl
@[simp] theorem State.wearCount_tb (s : State) (n : Nat) : (s.wearCount n).tb = s.tb := rfl
@[simp] theorem State.wearCount_inputs (s : State) (n : Nat) : (s.wearCount n).inputs = s.inputs := rfl
@[simp] theorem State.wearCount_decayed (s : State) (n : Nat) : (s.wearCount n).decayed = s.decayed := rfl
@[simp] theorem State.wearCount_trig (s : State) (n : Nat) : (s.wearCount n).trig = s.trig := rfl
@[simp] theorem State.wearCount_cadOut (s : State) (n : Nat) : (s.wearCount n).cadOut = s.cadOut := rfl
@[simp] theorem State.wearCount_cadEnd (s : State) (n : Nat) : (s.wearCount n).cadEnd = s.cadEnd := rfl
@[simp] theorem State.wearCount_cadences (s : State) (n : Nat) : (s.wearCount n).cadences = s.cadences := rfl
@[simp] theorem State.wearCount_chans (s : State) (n : Nat) : (s.wearCount n).chans = s.chans := rfl
@[simp] theorem State.wearCount_recipes (s : State) (n : Nat) : (s.wearCount n).recipes = s.recipes := rfl
@[simp] theorem State.wearCount_banks (s : State) (n : Nat) : (s.wearCount n).banks = s.banks := rfl
@[simp] theorem State.wearCount_loads (s : State) (n : Nat) : (s.wearCount n).loads = s.loads := rfl
@[simp] theorem State.wearCount_plc (s : State) (n : Nat) : (s.wearCount n).plc = s.plc := rfl
@[simp] theorem State.wearCount_lanes (s : State) (n : Nat) : (s.wearCount n).lanes = s.lanes := rfl
@[simp] theorem State.wearCount_peerLanes (s : State) (n : Nat) : (s.wearCount n).peerLanes = s.peerLanes := rfl
@[simp] theorem State.wearCount_peer (s : State) (n : Nat) : (s.wearCount n).peer = s.peer := rfl
@[simp] theorem State.wearCount_rings (s : State) (n : Nat) : (s.wearCount n).rings = s.rings := rfl
@[simp] theorem State.wearCount_msix (s : State) (n : Nat) : (s.wearCount n).msix = s.msix := rfl
@[simp] theorem State.wearCount_pba (s : State) (n : Nat) : (s.wearCount n).pba = s.pba := rfl
@[simp] theorem State.wearCount_pcie (s : State) (n : Nat) : (s.wearCount n).pcie = s.pcie := rfl
@[simp] theorem State.wearCount_kpr (s : State) (n : Nat) : (s.wearCount n).kpr = s.kpr := rfl
@[simp] theorem State.wearCount_pwr (s : State) (n : Nat) : (s.wearCount n).pwr = s.pwr := rfl
@[simp] theorem State.wearCount_flt (s : State) (n : Nat) : (s.wearCount n).flt = s.flt := rfl
@[simp] theorem State.wearCount_gbl (s : State) (n : Nat) : (s.wearCount n).gbl = s.gbl := rfl
@[simp] theorem State.wearCount_jtag (s : State) (n : Nat) : (s.wearCount n).jtag = s.jtag := rfl
@[simp] theorem State.wearCount_sent (s : State) (n : Nat) : (s.wearCount n).sent = s.sent := rfl
@[simp] theorem State.wearCount_timers (s : State) (n : Nat) : (s.wearCount n).timers = s.timers := rfl
@[simp] theorem State.wearCount_freeIdx (s : State) (n : Nat) : (s.wearCount n).freeIdx = s.freeIdx := rfl
@[simp] theorem State.wearCount_pending (s : State) (n : Nat) : (s.wearCount n).pending = s.pending := rfl
@[simp] theorem State.imageChanged_now (s : State) : (s.imageChanged).now = s.now := rfl
@[simp] theorem State.imageChanged_devTime (s : State) : (s.imageChanged).devTime = s.devTime := rfl
@[simp] theorem State.imageChanged_phase (s : State) : (s.imageChanged).phase = s.phase := rfl
@[simp] theorem State.imageChanged_regs (s : State) : (s.imageChanged).regs = s.regs := rfl
@[simp] theorem State.imageChanged_far (s : State) : (s.imageChanged).far = s.far := rfl
@[simp] theorem State.imageChanged_tb (s : State) : (s.imageChanged).tb = s.tb := rfl
@[simp] theorem State.imageChanged_inputs (s : State) : (s.imageChanged).inputs = s.inputs := rfl
@[simp] theorem State.imageChanged_decayed (s : State) : (s.imageChanged).decayed = s.decayed := rfl
@[simp] theorem State.imageChanged_trig (s : State) : (s.imageChanged).trig = s.trig := rfl
@[simp] theorem State.imageChanged_cadOut (s : State) : (s.imageChanged).cadOut = s.cadOut := rfl
@[simp] theorem State.imageChanged_cadEnd (s : State) : (s.imageChanged).cadEnd = s.cadEnd := rfl
@[simp] theorem State.imageChanged_cadences (s : State) : (s.imageChanged).cadences = s.cadences := rfl
@[simp] theorem State.imageChanged_chans (s : State) : (s.imageChanged).chans = s.chans := rfl
@[simp] theorem State.imageChanged_recipes (s : State) : (s.imageChanged).recipes = s.recipes := rfl
@[simp] theorem State.imageChanged_banks (s : State) : (s.imageChanged).banks = s.banks := rfl
@[simp] theorem State.imageChanged_loads (s : State) : (s.imageChanged).loads = s.loads := rfl
@[simp] theorem State.imageChanged_plc (s : State) : (s.imageChanged).plc = s.plc := rfl
@[simp] theorem State.imageChanged_lanes (s : State) : (s.imageChanged).lanes = s.lanes := rfl
@[simp] theorem State.imageChanged_peerLanes (s : State) : (s.imageChanged).peerLanes = s.peerLanes := rfl
@[simp] theorem State.imageChanged_peer (s : State) : (s.imageChanged).peer = s.peer := rfl
@[simp] theorem State.imageChanged_rings (s : State) : (s.imageChanged).rings = s.rings := rfl
@[simp] theorem State.imageChanged_msix (s : State) : (s.imageChanged).msix = s.msix := rfl
@[simp] theorem State.imageChanged_pba (s : State) : (s.imageChanged).pba = s.pba := rfl
@[simp] theorem State.imageChanged_pcie (s : State) : (s.imageChanged).pcie = s.pcie := rfl
@[simp] theorem State.imageChanged_kpr (s : State) : (s.imageChanged).kpr = s.kpr := rfl
@[simp] theorem State.imageChanged_pwr (s : State) : (s.imageChanged).pwr = s.pwr := rfl
@[simp] theorem State.imageChanged_flt (s : State) : (s.imageChanged).flt = s.flt := rfl
@[simp] theorem State.imageChanged_gbl (s : State) : (s.imageChanged).gbl = s.gbl := rfl
@[simp] theorem State.imageChanged_jtag (s : State) : (s.imageChanged).jtag = s.jtag := rfl
@[simp] theorem State.imageChanged_sent (s : State) : (s.imageChanged).sent = s.sent := rfl
@[simp] theorem State.imageChanged_timers (s : State) : (s.imageChanged).timers = s.timers := rfl
@[simp] theorem State.imageChanged_freeIdx (s : State) : (s.imageChanged).freeIdx = s.freeIdx := rfl
@[simp] theorem State.imageChanged_pending (s : State) : (s.imageChanged).pending = s.pending := rfl

/-! ### What an update leaves -/

@[simp] theorem State.modTb_tb (s : State) (f : Tb → Tb) : (s.modTb f).tb = f s.tb := rfl
@[simp] theorem State.out_sent (s : State) (o : Output) : (s.out o).sent = s.sent ++ [o] := rfl
@[simp] theorem State.advance_now (s : State) (t : Nat) : (s.advance t).now = s.now + (t - s.now) := rfl
@[simp] theorem State.wearCount_pst (s : State) (n : Nat) : (s.wearCount n).pst =
    { s.pst with wear := tput s.pst.wear n (tget 0 s.pst.wear n + 1), written := tput s.pst.written n s.now } := rfl
@[simp] theorem State.imageChanged_pst (s : State) : s.imageChanged.pst =
    { s.pst with changed := true, changedAt := if s.pst.changed then s.pst.changedAt else s.now } := rfl

/-- A register after a write of a register. -/
@[simp] theorem State.reg_setReg (s : State) (a b : Nat) (v : Word) : (s.setReg a v).reg b = if b = a then v else s.reg b := by
  unfold State.reg State.setReg; simp only [tget?_tset]; split
  · subst_vars; split <;> simp_all
  · rfl

/-- Device time never falls as time passes (R31), and stays within its span (R65). -/
theorem State.le_advance (s : State) (t : Nat) : s.devTime ≤ (s.advance t).devTime := by
  unfold State.advance; dsimp only; split <;> omega

theorem State.advance_span (s : State) (t : Nat) (h : s.devTime ≤ spanMax) : (s.advance t).devTime ≤ spanMax := by
  unfold State.advance; dsimp only; split <;> omega

@[simp] theorem State.reg_setFar (s : State) (b : Nat) (v : Word) (a : Nat) : (s.setFar b v).reg a = s.reg a := rfl
@[simp] theorem State.reg_setInput (s : State) (n : Nat) (x : Input) (a : Nat) : (s.setInput n x).reg a = s.reg a := rfl
@[simp] theorem State.reg_setCadence (s : State) (n : Nat) (x : Cadence) (a : Nat) : (s.setCadence n x).reg a = s.reg a := rfl
@[simp] theorem State.reg_setChan (s : State) (n : Nat) (x : Chan) (a : Nat) : (s.setChan n x).reg a = s.reg a := rfl
@[simp] theorem State.reg_setLane (s : State) (n : Nat) (x : Lane) (a : Nat) : (s.setLane n x).reg a = s.reg a := rfl
@[simp] theorem State.reg_setPeerLane (s : State) (n : Nat) (x : PeerLane) (a : Nat) : (s.setPeerLane n x).reg a = s.reg a := rfl
@[simp] theorem State.reg_setRing (s : State) (n : Nat) (x : Ring) (a : Nat) : (s.setRing n x).reg a = s.reg a := rfl
@[simp] theorem State.reg_out (s : State) (o : Output) (a : Nat) : (s.out o).reg a = s.reg a := rfl
@[simp] theorem State.reg_start (s : State) (x : Timer) (a : Nat) : (s.start x).reg a = s.reg a := rfl
@[simp] theorem State.reg_modTb (s : State) (f : Tb → Tb) (a : Nat) : (s.modTb f).reg a = s.reg a := rfl
@[simp] theorem State.reg_advance (s : State) (t a : Nat) : (s.advance t).reg a = s.reg a := rfl
@[simp] theorem State.fld_advance (s : State) (t a lo w : Nat) : (s.advance t).fld a lo w = s.fld a lo w := rfl
@[simp] theorem State.bit_advance (s : State) (t a i : Nat) : (s.advance t).bit a i = s.bit a i := rfl

@[simp] theorem State.input_setInput (s : State) (n m : Nat) (x : Input) : (s.setInput n x).input m = if m = n then x else s.input m := by
  simp [State.input, State.setInput]
@[simp] theorem State.input_advance (s : State) (t n : Nat) : (s.advance t).input n = s.input n := rfl
@[simp] theorem State.cadence_setCadence (s : State) (n m : Nat) (x : Cadence) : (s.setCadence n x).cadence m = if m = n then x else s.cadence m := by
  simp [State.cadence, State.setCadence]
@[simp] theorem State.cadence_advance (s : State) (t n : Nat) : (s.advance t).cadence n = s.cadence n := rfl
@[simp] theorem State.chan_setChan (s : State) (n m : Nat) (x : Chan) : (s.setChan n x).chan m = if m = n then x else s.chan m := by
  simp [State.chan, State.setChan]
@[simp] theorem State.chan_advance (s : State) (t n : Nat) : (s.advance t).chan n = s.chan n := rfl
@[simp] theorem State.lane_setLane (s : State) (n m : Nat) (x : Lane) : (s.setLane n x).lane m = if m = n then x else s.lane m := by
  simp [State.lane, State.setLane]
@[simp] theorem State.lane_advance (s : State) (t n : Nat) : (s.advance t).lane n = s.lane n := rfl
@[simp] theorem State.peerLane_setPeerLane (s : State) (n m : Nat) (x : PeerLane) : (s.setPeerLane n x).peerLane m = if m = n then x else s.peerLane m := by
  simp [State.peerLane, State.setPeerLane]
@[simp] theorem State.peerLane_advance (s : State) (t n : Nat) : (s.advance t).peerLane n = s.peerLane n := rfl
@[simp] theorem State.ring_setRing (s : State) (n m : Nat) (x : Ring) : (s.setRing n x).ring m = if m = n then x else s.ring m := by
  simp [State.ring, State.setRing]
@[simp] theorem State.ring_advance (s : State) (t n : Nat) : (s.advance t).ring n = s.ring n := rfl
@[simp] theorem State.modInput_eq (s : State) (n : Nat) (f : Input → Input) : s.modInput n f = s.setInput n (f (s.input n)) := rfl
@[simp] theorem State.modChan_eq (s : State) (n : Nat) (f : Chan → Chan) : s.modChan n f = s.setChan n (f (s.chan n)) := rfl
@[simp] theorem State.modLane_eq (s : State) (n : Nat) (f : Lane → Lane) : s.modLane n f = s.setLane n (f (s.lane n)) := rfl
@[simp] theorem State.modPeerLane_eq (s : State) (n : Nat) (f : PeerLane → PeerLane) : s.modPeerLane n f = s.setPeerLane n (f (s.peerLane n)) := rfl
@[simp] theorem State.modRing_eq (s : State) (n : Nat) (f : Ring → Ring) : s.modRing n f = s.setRing n (f (s.ring n)) := rfl

end Sys2Proof.Machine
end

