-- ==== Sys2Proof/Laws/Ops.lean ====
section
/-! SUPPORT. What the shared operations of Machine/Ops.lean leave unchanged: messages, the black box, the raising of a fault
and the pushes of records touch only the reporting side of the hub. -/

namespace Sys2Proof.Machine

/-- A property of states that every step of a fold keeps holds after the fold. -/
theorem foldl_keeps {α : Type} (P : State → Prop) (f : State → α → State) (h : ∀ s a, P s → P (f s a)) (l : List α) :
    ∀ s, P s → P (l.foldl f s) := by
  induction l with
  | nil => intro s hs; exact hs
  | cons a r ih => intro s hs; exact ih (f s a) (h s a hs)

/-- A write of a field of a register. -/
@[simp] theorem State.setFld_keeps (s : State) (a lo w v : Nat) :
    (s.setFld a lo w v).now = s.now ∧ (s.setFld a lo w v).devTime = s.devTime ∧ (s.setFld a lo w v).phase = s.phase ∧
    (s.setFld a lo w v).far = s.far ∧ (s.setFld a lo w v).tb = s.tb ∧ (s.setFld a lo w v).inputs = s.inputs ∧
    (s.setFld a lo w v).decayed = s.decayed ∧ (s.setFld a lo w v).trig = s.trig ∧
    (s.setFld a lo w v).cadOut = s.cadOut ∧ (s.setFld a lo w v).cadEnd = s.cadEnd ∧
    (s.setFld a lo w v).cadences = s.cadences ∧ (s.setFld a lo w v).chans = s.chans ∧
    (s.setFld a lo w v).recipes = s.recipes ∧ (s.setFld a lo w v).banks = s.banks ∧
    (s.setFld a lo w v).loads = s.loads ∧ (s.setFld a lo w v).plc = s.plc ∧ (s.setFld a lo w v).lanes = s.lanes ∧
    (s.setFld a lo w v).peerLanes = s.peerLanes ∧ (s.setFld a lo w v).peer = s.peer ∧
    (s.setFld a lo w v).rings = s.rings ∧ (s.setFld a lo w v).msix = s.msix ∧ (s.setFld a lo w v).pba = s.pba ∧
    (s.setFld a lo w v).pcie = s.pcie ∧ (s.setFld a lo w v).pst = s.pst ∧ (s.setFld a lo w v).kpr = s.kpr ∧
    (s.setFld a lo w v).pwr = s.pwr ∧ (s.setFld a lo w v).flt = s.flt ∧ (s.setFld a lo w v).gbl = s.gbl ∧
    (s.setFld a lo w v).jtag = s.jtag ∧ (s.setFld a lo w v).sent = s.sent ∧ (s.setFld a lo w v).timers = s.timers ∧
    (s.setFld a lo w v).freeIdx = s.freeIdx ∧ (s.setFld a lo w v).pending = s.pending := by
  simp [State.setFld]

@[simp] theorem State.bumpBy_keeps (s : State) (a lo w k : Nat) :
    (s.bumpBy a lo w k).now = s.now ∧ (s.bumpBy a lo w k).devTime = s.devTime ∧ (s.bumpBy a lo w k).phase = s.phase ∧
    (s.bumpBy a lo w k).far = s.far ∧ (s.bumpBy a lo w k).tb = s.tb ∧ (s.bumpBy a lo w k).inputs = s.inputs ∧
    (s.bumpBy a lo w k).decayed = s.decayed ∧ (s.bumpBy a lo w k).trig = s.trig ∧
    (s.bumpBy a lo w k).cadOut = s.cadOut ∧ (s.bumpBy a lo w k).cadEnd = s.cadEnd ∧
    (s.bumpBy a lo w k).cadences = s.cadences ∧ (s.bumpBy a lo w k).chans = s.chans ∧
    (s.bumpBy a lo w k).recipes = s.recipes ∧ (s.bumpBy a lo w k).banks = s.banks ∧
    (s.bumpBy a lo w k).loads = s.loads ∧ (s.bumpBy a lo w k).plc = s.plc ∧ (s.bumpBy a lo w k).lanes = s.lanes ∧
    (s.bumpBy a lo w k).peerLanes = s.peerLanes ∧ (s.bumpBy a lo w k).peer = s.peer ∧
    (s.bumpBy a lo w k).rings = s.rings ∧ (s.bumpBy a lo w k).msix = s.msix ∧ (s.bumpBy a lo w k).pba = s.pba ∧
    (s.bumpBy a lo w k).pcie = s.pcie ∧ (s.bumpBy a lo w k).pst = s.pst ∧ (s.bumpBy a lo w k).kpr = s.kpr ∧
    (s.bumpBy a lo w k).pwr = s.pwr ∧ (s.bumpBy a lo w k).flt = s.flt ∧ (s.bumpBy a lo w k).gbl = s.gbl ∧
    (s.bumpBy a lo w k).jtag = s.jtag ∧ (s.bumpBy a lo w k).sent = s.sent ∧ (s.bumpBy a lo w k).timers = s.timers ∧
    (s.bumpBy a lo w k).freeIdx = s.freeIdx ∧ (s.bumpBy a lo w k).pending = s.pending := by
  simp [State.bumpBy]

@[simp] theorem State.bump_keeps (s : State) (a lo w : Nat) :
    (s.bump a lo w).now = s.now ∧ (s.bump a lo w).devTime = s.devTime ∧ (s.bump a lo w).phase = s.phase ∧
    (s.bump a lo w).far = s.far ∧ (s.bump a lo w).tb = s.tb ∧ (s.bump a lo w).inputs = s.inputs ∧
    (s.bump a lo w).decayed = s.decayed ∧ (s.bump a lo w).trig = s.trig ∧ (s.bump a lo w).cadOut = s.cadOut ∧
    (s.bump a lo w).cadEnd = s.cadEnd ∧ (s.bump a lo w).cadences = s.cadences ∧ (s.bump a lo w).chans = s.chans ∧
    (s.bump a lo w).recipes = s.recipes ∧ (s.bump a lo w).banks = s.banks ∧ (s.bump a lo w).loads = s.loads ∧
    (s.bump a lo w).plc = s.plc ∧ (s.bump a lo w).lanes = s.lanes ∧ (s.bump a lo w).peerLanes = s.peerLanes ∧
    (s.bump a lo w).peer = s.peer ∧ (s.bump a lo w).rings = s.rings ∧ (s.bump a lo w).msix = s.msix ∧
    (s.bump a lo w).pba = s.pba ∧ (s.bump a lo w).pcie = s.pcie ∧ (s.bump a lo w).pst = s.pst ∧
    (s.bump a lo w).kpr = s.kpr ∧ (s.bump a lo w).pwr = s.pwr ∧ (s.bump a lo w).flt = s.flt ∧
    (s.bump a lo w).gbl = s.gbl ∧ (s.bump a lo w).jtag = s.jtag ∧ (s.bump a lo w).sent = s.sent ∧
    (s.bump a lo w).timers = s.timers ∧ (s.bump a lo w).freeIdx = s.freeIdx ∧ (s.bump a lo w).pending = s.pending := by
  simp [State.bump]

@[simp] theorem State.bumpSatBy_keeps (s : State) (a lo w k : Nat) :
    (s.bumpSatBy a lo w k).now = s.now ∧ (s.bumpSatBy a lo w k).devTime = s.devTime ∧
    (s.bumpSatBy a lo w k).phase = s.phase ∧ (s.bumpSatBy a lo w k).far = s.far ∧ (s.bumpSatBy a lo w k).tb = s.tb ∧
    (s.bumpSatBy a lo w k).inputs = s.inputs ∧ (s.bumpSatBy a lo w k).decayed = s.decayed ∧
    (s.bumpSatBy a lo w k).trig = s.trig ∧ (s.bumpSatBy a lo w k).cadOut = s.cadOut ∧
    (s.bumpSatBy a lo w k).cadEnd = s.cadEnd ∧ (s.bumpSatBy a lo w k).cadences = s.cadences ∧
    (s.bumpSatBy a lo w k).chans = s.chans ∧ (s.bumpSatBy a lo w k).recipes = s.recipes ∧
    (s.bumpSatBy a lo w k).banks = s.banks ∧ (s.bumpSatBy a lo w k).loads = s.loads ∧
    (s.bumpSatBy a lo w k).plc = s.plc ∧ (s.bumpSatBy a lo w k).lanes = s.lanes ∧
    (s.bumpSatBy a lo w k).peerLanes = s.peerLanes ∧ (s.bumpSatBy a lo w k).peer = s.peer ∧
    (s.bumpSatBy a lo w k).rings = s.rings ∧ (s.bumpSatBy a lo w k).msix = s.msix ∧
    (s.bumpSatBy a lo w k).pba = s.pba ∧ (s.bumpSatBy a lo w k).pcie = s.pcie ∧ (s.bumpSatBy a lo w k).pst = s.pst ∧
    (s.bumpSatBy a lo w k).kpr = s.kpr ∧ (s.bumpSatBy a lo w k).pwr = s.pwr ∧ (s.bumpSatBy a lo w k).flt = s.flt ∧
    (s.bumpSatBy a lo w k).gbl = s.gbl ∧ (s.bumpSatBy a lo w k).jtag = s.jtag ∧
    (s.bumpSatBy a lo w k).sent = s.sent ∧ (s.bumpSatBy a lo w k).timers = s.timers ∧
    (s.bumpSatBy a lo w k).freeIdx = s.freeIdx ∧ (s.bumpSatBy a lo w k).pending = s.pending := by
  simp [State.bumpSatBy]

@[simp] theorem State.bumpSat_keeps (s : State) (a lo w : Nat) :
    (s.bumpSat a lo w).now = s.now ∧ (s.bumpSat a lo w).devTime = s.devTime ∧ (s.bumpSat a lo w).phase = s.phase ∧
    (s.bumpSat a lo w).far = s.far ∧ (s.bumpSat a lo w).tb = s.tb ∧ (s.bumpSat a lo w).inputs = s.inputs ∧
    (s.bumpSat a lo w).decayed = s.decayed ∧ (s.bumpSat a lo w).trig = s.trig ∧
    (s.bumpSat a lo w).cadOut = s.cadOut ∧ (s.bumpSat a lo w).cadEnd = s.cadEnd ∧
    (s.bumpSat a lo w).cadences = s.cadences ∧ (s.bumpSat a lo w).chans = s.chans ∧
    (s.bumpSat a lo w).recipes = s.recipes ∧ (s.bumpSat a lo w).banks = s.banks ∧
    (s.bumpSat a lo w).loads = s.loads ∧ (s.bumpSat a lo w).plc = s.plc ∧ (s.bumpSat a lo w).lanes = s.lanes ∧
    (s.bumpSat a lo w).peerLanes = s.peerLanes ∧ (s.bumpSat a lo w).peer = s.peer ∧
    (s.bumpSat a lo w).rings = s.rings ∧ (s.bumpSat a lo w).msix = s.msix ∧ (s.bumpSat a lo w).pba = s.pba ∧
    (s.bumpSat a lo w).pcie = s.pcie ∧ (s.bumpSat a lo w).pst = s.pst ∧ (s.bumpSat a lo w).kpr = s.kpr ∧
    (s.bumpSat a lo w).pwr = s.pwr ∧ (s.bumpSat a lo w).flt = s.flt ∧ (s.bumpSat a lo w).gbl = s.gbl ∧
    (s.bumpSat a lo w).jtag = s.jtag ∧ (s.bumpSat a lo w).sent = s.sent ∧ (s.bumpSat a lo w).timers = s.timers ∧
    (s.bumpSat a lo w).freeIdx = s.freeIdx ∧ (s.bumpSat a lo w).pending = s.pending := by
  simp [State.bumpSat]

@[simp] theorem State.bumpEpoch_keeps (s : State) (e : Nat) :
    (s.bumpEpoch e).now = s.now ∧ (s.bumpEpoch e).devTime = s.devTime ∧ (s.bumpEpoch e).phase = s.phase ∧
    (s.bumpEpoch e).far = s.far ∧ (s.bumpEpoch e).tb = s.tb ∧ (s.bumpEpoch e).inputs = s.inputs ∧
    (s.bumpEpoch e).decayed = s.decayed ∧ (s.bumpEpoch e).trig = s.trig ∧ (s.bumpEpoch e).cadOut = s.cadOut ∧
    (s.bumpEpoch e).cadEnd = s.cadEnd ∧ (s.bumpEpoch e).cadences = s.cadences ∧ (s.bumpEpoch e).chans = s.chans ∧
    (s.bumpEpoch e).recipes = s.recipes ∧ (s.bumpEpoch e).banks = s.banks ∧ (s.bumpEpoch e).loads = s.loads ∧
    (s.bumpEpoch e).plc = s.plc ∧ (s.bumpEpoch e).lanes = s.lanes ∧ (s.bumpEpoch e).peerLanes = s.peerLanes ∧
    (s.bumpEpoch e).peer = s.peer ∧ (s.bumpEpoch e).rings = s.rings ∧ (s.bumpEpoch e).msix = s.msix ∧
    (s.bumpEpoch e).pba = s.pba ∧ (s.bumpEpoch e).pcie = s.pcie ∧ (s.bumpEpoch e).pst = s.pst ∧
    (s.bumpEpoch e).kpr = s.kpr ∧ (s.bumpEpoch e).pwr = s.pwr ∧ (s.bumpEpoch e).flt = s.flt ∧
    (s.bumpEpoch e).gbl = s.gbl ∧ (s.bumpEpoch e).jtag = s.jtag ∧ (s.bumpEpoch e).sent = s.sent ∧
    (s.bumpEpoch e).timers = s.timers ∧ (s.bumpEpoch e).freeIdx = s.freeIdx ∧ (s.bumpEpoch e).pending = s.pending := by
  simp [State.bumpEpoch]

@[simp] theorem State.reg_setFld (s : State) (a lo w v b : Nat) :
    (s.setFld a lo w v).reg b = if b = a then putField (s.reg a) lo w v else s.reg b := by simp [State.setFld]
@[simp] theorem State.reg_bumpBy (s : State) (a lo w k b : Nat) :
    (s.bumpBy a lo w k).reg b = if b = a then putField (s.reg a) lo w ((s.fld a lo w + k) % 2 ^ w) else s.reg b := by
  simp [State.bumpBy]
@[simp] theorem State.reg_bump (s : State) (a lo w b : Nat) :
    (s.bump a lo w).reg b = if b = a then putField (s.reg a) lo w ((s.fld a lo w + 1) % 2 ^ w) else s.reg b := by
  simp [State.bump]
@[simp] theorem State.reg_bumpSatBy (s : State) (a lo w k b : Nat) :
    (s.bumpSatBy a lo w k).reg b = if b = a then putField (s.reg a) lo w (min (2 ^ w - 1) (s.fld a lo w + k)) else s.reg b := by
  simp [State.bumpSatBy]
@[simp] theorem State.reg_bumpSat (s : State) (a lo w b : Nat) :
    (s.bumpSat a lo w).reg b = if b = a then putField (s.reg a) lo w (min (2 ^ w - 1) (s.fld a lo w + 1)) else s.reg b := by
  simp [State.bumpSat]

/-- A message changes the pending bits or what was sent (R356). -/
@[simp] theorem State.message_keeps (s : State) (v : Nat) :
    (s.message v).now = s.now ∧ (s.message v).devTime = s.devTime ∧ (s.message v).phase = s.phase ∧
    (s.message v).regs = s.regs ∧ (s.message v).far = s.far ∧ (s.message v).tb = s.tb ∧
    (s.message v).inputs = s.inputs ∧ (s.message v).decayed = s.decayed ∧ (s.message v).trig = s.trig ∧
    (s.message v).cadOut = s.cadOut ∧ (s.message v).cadEnd = s.cadEnd ∧ (s.message v).cadences = s.cadences ∧
    (s.message v).chans = s.chans ∧ (s.message v).recipes = s.recipes ∧ (s.message v).banks = s.banks ∧
    (s.message v).loads = s.loads ∧ (s.message v).plc = s.plc ∧ (s.message v).lanes = s.lanes ∧
    (s.message v).peerLanes = s.peerLanes ∧ (s.message v).peer = s.peer ∧ (s.message v).rings = s.rings ∧
    (s.message v).msix = s.msix ∧ (s.message v).pcie = s.pcie ∧ (s.message v).pst = s.pst ∧
    (s.message v).kpr = s.kpr ∧ (s.message v).pwr = s.pwr ∧ (s.message v).flt = s.flt ∧ (s.message v).gbl = s.gbl ∧
    (s.message v).jtag = s.jtag ∧ (s.message v).timers = s.timers ∧ (s.message v).freeIdx = s.freeIdx ∧
    (s.message v).pending = s.pending := by
  unfold State.message; split <;> simp

/-- An event of a vector (R358). -/
@[simp] theorem State.event_keeps (s : State) (v : Nat) :
    (s.event v).now = s.now ∧ (s.event v).devTime = s.devTime ∧ (s.event v).phase = s.phase ∧
    (s.event v).regs = s.regs ∧ (s.event v).far = s.far ∧ (s.event v).tb = s.tb ∧ (s.event v).inputs = s.inputs ∧
    (s.event v).decayed = s.decayed ∧ (s.event v).trig = s.trig ∧ (s.event v).cadOut = s.cadOut ∧
    (s.event v).cadEnd = s.cadEnd ∧ (s.event v).cadences = s.cadences ∧ (s.event v).chans = s.chans ∧
    (s.event v).recipes = s.recipes ∧ (s.event v).banks = s.banks ∧ (s.event v).loads = s.loads ∧
    (s.event v).plc = s.plc ∧ (s.event v).lanes = s.lanes ∧ (s.event v).peerLanes = s.peerLanes ∧
    (s.event v).peer = s.peer ∧ (s.event v).rings = s.rings ∧ (s.event v).msix = s.msix ∧ (s.event v).pcie = s.pcie ∧
    (s.event v).pst = s.pst ∧ (s.event v).kpr = s.kpr ∧ (s.event v).pwr = s.pwr ∧ (s.event v).gbl = s.gbl ∧
    (s.event v).jtag = s.jtag ∧ (s.event v).freeIdx = s.freeIdx ∧ (s.event v).pending = s.pending := by
  unfold State.event; dsimp only; split <;> simp

/-- The header of the black box (R456). -/
@[simp] theorem State.bbHeader_keeps (s : State) :
    (s.bbHeader).now = s.now ∧ (s.bbHeader).devTime = s.devTime ∧ (s.bbHeader).phase = s.phase ∧
    (s.bbHeader).regs = s.regs ∧ (s.bbHeader).far = s.far ∧ (s.bbHeader).tb = s.tb ∧ (s.bbHeader).inputs = s.inputs ∧
    (s.bbHeader).decayed = s.decayed ∧ (s.bbHeader).trig = s.trig ∧ (s.bbHeader).cadOut = s.cadOut ∧
    (s.bbHeader).cadEnd = s.cadEnd ∧ (s.bbHeader).cadences = s.cadences ∧ (s.bbHeader).chans = s.chans ∧
    (s.bbHeader).recipes = s.recipes ∧ (s.bbHeader).banks = s.banks ∧ (s.bbHeader).loads = s.loads ∧
    (s.bbHeader).plc = s.plc ∧ (s.bbHeader).lanes = s.lanes ∧ (s.bbHeader).peerLanes = s.peerLanes ∧
    (s.bbHeader).peer = s.peer ∧ (s.bbHeader).rings = s.rings ∧ (s.bbHeader).msix = s.msix ∧
    (s.bbHeader).pba = s.pba ∧ (s.bbHeader).pcie = s.pcie ∧ (s.bbHeader).kpr = s.kpr ∧ (s.bbHeader).pwr = s.pwr ∧
    (s.bbHeader).gbl = s.gbl ∧ (s.bbHeader).jtag = s.jtag ∧ (s.bbHeader).sent = s.sent ∧
    (s.bbHeader).timers = s.timers ∧ (s.bbHeader).freeIdx = s.freeIdx ∧ (s.bbHeader).pending = s.pending := by
  simp [State.bbHeader]

/-- An entry of the black box (R457). -/
@[simp] theorem State.bbPut_keeps (s : State) (k b c t n p : Nat) :
    (s.bbPut k b c t n p).now = s.now ∧ (s.bbPut k b c t n p).devTime = s.devTime ∧
    (s.bbPut k b c t n p).phase = s.phase ∧ (s.bbPut k b c t n p).far = s.far ∧ (s.bbPut k b c t n p).tb = s.tb ∧
    (s.bbPut k b c t n p).inputs = s.inputs ∧ (s.bbPut k b c t n p).decayed = s.decayed ∧
    (s.bbPut k b c t n p).trig = s.trig ∧ (s.bbPut k b c t n p).cadOut = s.cadOut ∧
    (s.bbPut k b c t n p).cadEnd = s.cadEnd ∧ (s.bbPut k b c t n p).cadences = s.cadences ∧
    (s.bbPut k b c t n p).chans = s.chans ∧ (s.bbPut k b c t n p).recipes = s.recipes ∧
    (s.bbPut k b c t n p).banks = s.banks ∧ (s.bbPut k b c t n p).loads = s.loads ∧
    (s.bbPut k b c t n p).plc = s.plc ∧ (s.bbPut k b c t n p).lanes = s.lanes ∧
    (s.bbPut k b c t n p).peerLanes = s.peerLanes ∧ (s.bbPut k b c t n p).peer = s.peer ∧
    (s.bbPut k b c t n p).rings = s.rings ∧ (s.bbPut k b c t n p).msix = s.msix ∧ (s.bbPut k b c t n p).pba = s.pba ∧
    (s.bbPut k b c t n p).pcie = s.pcie ∧ (s.bbPut k b c t n p).kpr = s.kpr ∧ (s.bbPut k b c t n p).pwr = s.pwr ∧
    (s.bbPut k b c t n p).gbl = s.gbl ∧ (s.bbPut k b c t n p).jtag = s.jtag ∧ (s.bbPut k b c t n p).sent = s.sent ∧
    (s.bbPut k b c t n p).timers = s.timers ∧ (s.bbPut k b c t n p).freeIdx = s.freeIdx ∧
    (s.bbPut k b c t n p).pending = s.pending := by
  unfold State.bbPut; dsimp only; (repeat' split) <;> simp

/-- An entry under the seal and the bucket (R459). -/
@[simp] theorem State.bbEntry_keeps (s : State) (k b c p : Nat) :
    (s.bbEntry k b c p).now = s.now ∧ (s.bbEntry k b c p).devTime = s.devTime ∧ (s.bbEntry k b c p).phase = s.phase ∧
    (s.bbEntry k b c p).far = s.far ∧ (s.bbEntry k b c p).tb = s.tb ∧ (s.bbEntry k b c p).inputs = s.inputs ∧
    (s.bbEntry k b c p).decayed = s.decayed ∧ (s.bbEntry k b c p).trig = s.trig ∧
    (s.bbEntry k b c p).cadOut = s.cadOut ∧ (s.bbEntry k b c p).cadEnd = s.cadEnd ∧
    (s.bbEntry k b c p).cadences = s.cadences ∧ (s.bbEntry k b c p).chans = s.chans ∧
    (s.bbEntry k b c p).recipes = s.recipes ∧ (s.bbEntry k b c p).banks = s.banks ∧
    (s.bbEntry k b c p).loads = s.loads ∧ (s.bbEntry k b c p).plc = s.plc ∧ (s.bbEntry k b c p).lanes = s.lanes ∧
    (s.bbEntry k b c p).peerLanes = s.peerLanes ∧ (s.bbEntry k b c p).peer = s.peer ∧
    (s.bbEntry k b c p).rings = s.rings ∧ (s.bbEntry k b c p).msix = s.msix ∧ (s.bbEntry k b c p).pba = s.pba ∧
    (s.bbEntry k b c p).pcie = s.pcie ∧ (s.bbEntry k b c p).kpr = s.kpr ∧ (s.bbEntry k b c p).pwr = s.pwr ∧
    (s.bbEntry k b c p).gbl = s.gbl ∧ (s.bbEntry k b c p).jtag = s.jtag ∧ (s.bbEntry k b c p).sent = s.sent ∧
    (s.bbEntry k b c p).timers = s.timers ∧ (s.bbEntry k b c p).freeIdx = s.freeIdx ∧
    (s.bbEntry k b c p).pending = s.pending := by
  unfold State.bbEntry; dsimp only; (repeat' split) <;> simp

/-- The seal (R461). -/
@[simp] theorem State.seal_keeps (s : State) (b c : Nat) :
    (s.seal b c).now = s.now ∧ (s.seal b c).devTime = s.devTime ∧ (s.seal b c).phase = s.phase ∧
    (s.seal b c).far = s.far ∧ (s.seal b c).tb = s.tb ∧ (s.seal b c).inputs = s.inputs ∧
    (s.seal b c).decayed = s.decayed ∧ (s.seal b c).trig = s.trig ∧ (s.seal b c).cadOut = s.cadOut ∧
    (s.seal b c).cadEnd = s.cadEnd ∧ (s.seal b c).cadences = s.cadences ∧ (s.seal b c).chans = s.chans ∧
    (s.seal b c).recipes = s.recipes ∧ (s.seal b c).banks = s.banks ∧ (s.seal b c).loads = s.loads ∧
    (s.seal b c).plc = s.plc ∧ (s.seal b c).lanes = s.lanes ∧ (s.seal b c).peerLanes = s.peerLanes ∧
    (s.seal b c).peer = s.peer ∧ (s.seal b c).rings = s.rings ∧ (s.seal b c).msix = s.msix ∧
    (s.seal b c).pba = s.pba ∧ (s.seal b c).pcie = s.pcie ∧ (s.seal b c).kpr = s.kpr ∧ (s.seal b c).pwr = s.pwr ∧
    (s.seal b c).gbl = s.gbl ∧ (s.seal b c).jtag = s.jtag ∧ (s.seal b c).sent = s.sent ∧
    (s.seal b c).timers = s.timers ∧ (s.seal b c).freeIdx = s.freeIdx ∧ (s.seal b c).pending = s.pending := by
  unfold State.seal; dsimp only; split <;> simp

/-- A fault's registers (R445). -/
@[simp] theorem State.logFault_keeps (s : State) (f : FaultCode) (p : Nat) :
    (s.logFault f p).now = s.now ∧ (s.logFault f p).devTime = s.devTime ∧ (s.logFault f p).phase = s.phase ∧
    (s.logFault f p).far = s.far ∧ (s.logFault f p).tb = s.tb ∧ (s.logFault f p).inputs = s.inputs ∧
    (s.logFault f p).decayed = s.decayed ∧ (s.logFault f p).trig = s.trig ∧ (s.logFault f p).cadOut = s.cadOut ∧
    (s.logFault f p).cadEnd = s.cadEnd ∧ (s.logFault f p).cadences = s.cadences ∧ (s.logFault f p).chans = s.chans ∧
    (s.logFault f p).recipes = s.recipes ∧ (s.logFault f p).banks = s.banks ∧ (s.logFault f p).loads = s.loads ∧
    (s.logFault f p).plc = s.plc ∧ (s.logFault f p).lanes = s.lanes ∧ (s.logFault f p).peerLanes = s.peerLanes ∧
    (s.logFault f p).peer = s.peer ∧ (s.logFault f p).rings = s.rings ∧ (s.logFault f p).msix = s.msix ∧
    (s.logFault f p).pba = s.pba ∧ (s.logFault f p).pcie = s.pcie ∧ (s.logFault f p).pst = s.pst ∧
    (s.logFault f p).kpr = s.kpr ∧ (s.logFault f p).pwr = s.pwr ∧ (s.logFault f p).gbl = s.gbl ∧
    (s.logFault f p).jtag = s.jtag ∧ (s.logFault f p).sent = s.sent ∧ (s.logFault f p).timers = s.timers ∧
    (s.logFault f p).freeIdx = s.freeIdx ∧ (s.logFault f p).pending = s.pending := by
  simp [State.logFault]

/-- A fault's entry in the black box (R446). -/
@[simp] theorem State.faultEntry_keeps (s : State) (f : FaultCode) (p : Nat) :
    (s.faultEntry f p).now = s.now ∧ (s.faultEntry f p).devTime = s.devTime ∧ (s.faultEntry f p).phase = s.phase ∧
    (s.faultEntry f p).far = s.far ∧ (s.faultEntry f p).tb = s.tb ∧ (s.faultEntry f p).inputs = s.inputs ∧
    (s.faultEntry f p).decayed = s.decayed ∧ (s.faultEntry f p).trig = s.trig ∧
    (s.faultEntry f p).cadOut = s.cadOut ∧ (s.faultEntry f p).cadEnd = s.cadEnd ∧
    (s.faultEntry f p).cadences = s.cadences ∧ (s.faultEntry f p).chans = s.chans ∧
    (s.faultEntry f p).recipes = s.recipes ∧ (s.faultEntry f p).banks = s.banks ∧
    (s.faultEntry f p).loads = s.loads ∧ (s.faultEntry f p).plc = s.plc ∧ (s.faultEntry f p).lanes = s.lanes ∧
    (s.faultEntry f p).peerLanes = s.peerLanes ∧ (s.faultEntry f p).peer = s.peer ∧
    (s.faultEntry f p).rings = s.rings ∧ (s.faultEntry f p).msix = s.msix ∧ (s.faultEntry f p).pba = s.pba ∧
    (s.faultEntry f p).pcie = s.pcie ∧ (s.faultEntry f p).kpr = s.kpr ∧ (s.faultEntry f p).pwr = s.pwr ∧
    (s.faultEntry f p).gbl = s.gbl ∧ (s.faultEntry f p).jtag = s.jtag ∧ (s.faultEntry f p).sent = s.sent ∧
    (s.faultEntry f p).timers = s.timers ∧ (s.faultEntry f p).freeIdx = s.freeIdx ∧
    (s.faultEntry f p).pending = s.pending := by
  unfold State.faultEntry; dsimp only; (repeat' split) <;> simp

/-- The raising of a fault (R445) touches the reporting side alone. -/
@[simp] theorem State.raise_keeps (s : State) (f : FaultCode) (p : Nat) :
    (s.raise f p).now = s.now ∧ (s.raise f p).devTime = s.devTime ∧ (s.raise f p).phase = s.phase ∧
    (s.raise f p).far = s.far ∧ (s.raise f p).tb = s.tb ∧ (s.raise f p).inputs = s.inputs ∧
    (s.raise f p).decayed = s.decayed ∧ (s.raise f p).trig = s.trig ∧ (s.raise f p).cadOut = s.cadOut ∧
    (s.raise f p).cadEnd = s.cadEnd ∧ (s.raise f p).cadences = s.cadences ∧ (s.raise f p).chans = s.chans ∧
    (s.raise f p).recipes = s.recipes ∧ (s.raise f p).banks = s.banks ∧ (s.raise f p).loads = s.loads ∧
    (s.raise f p).plc = s.plc ∧ (s.raise f p).lanes = s.lanes ∧ (s.raise f p).peerLanes = s.peerLanes ∧
    (s.raise f p).peer = s.peer ∧ (s.raise f p).rings = s.rings ∧ (s.raise f p).msix = s.msix ∧
    (s.raise f p).pcie = s.pcie ∧ (s.raise f p).kpr = s.kpr ∧ (s.raise f p).pwr = s.pwr ∧ (s.raise f p).gbl = s.gbl ∧
    (s.raise f p).jtag = s.jtag ∧ (s.raise f p).freeIdx = s.freeIdx ∧ (s.raise f p).pending = s.pending := by
  unfold State.raise; dsimp only; split <;> split <;> simp

/-- The fill of the holding store (R373, R375). -/
@[simp] theorem State.holdCheck_keeps (s : State) :
    (s.holdCheck).now = s.now ∧ (s.holdCheck).devTime = s.devTime ∧ (s.holdCheck).phase = s.phase ∧
    (s.holdCheck).far = s.far ∧ (s.holdCheck).tb = s.tb ∧ (s.holdCheck).inputs = s.inputs ∧
    (s.holdCheck).decayed = s.decayed ∧ (s.holdCheck).trig = s.trig ∧ (s.holdCheck).cadOut = s.cadOut ∧
    (s.holdCheck).cadEnd = s.cadEnd ∧ (s.holdCheck).cadences = s.cadences ∧ (s.holdCheck).chans = s.chans ∧
    (s.holdCheck).recipes = s.recipes ∧ (s.holdCheck).banks = s.banks ∧ (s.holdCheck).loads = s.loads ∧
    (s.holdCheck).lanes = s.lanes ∧ (s.holdCheck).peerLanes = s.peerLanes ∧ (s.holdCheck).peer = s.peer ∧
    (s.holdCheck).rings = s.rings ∧ (s.holdCheck).msix = s.msix ∧ (s.holdCheck).pcie = s.pcie ∧
    (s.holdCheck).kpr = s.kpr ∧ (s.holdCheck).pwr = s.pwr ∧ (s.holdCheck).gbl = s.gbl ∧ (s.holdCheck).jtag = s.jtag ∧
    (s.holdCheck).freeIdx = s.freeIdx ∧ (s.holdCheck).pending = s.pending := by
  unfold State.holdCheck; dsimp only; (repeat' split) <;> simp

theorem State.reg_of_regs (s t : State) (a : Nat) (h : t.regs = s.regs) : t.reg a = s.reg a := by unfold State.reg; rw [h]

@[simp] theorem State.reg_message (s : State) (v : Nat) (a : Nat) : (s.message v).reg a = s.reg a :=
  State.reg_of_regs _ _ a (by simp)

@[simp] theorem State.reg_event (s : State) (v : Nat) (a : Nat) : (s.event v).reg a = s.reg a :=
  State.reg_of_regs _ _ a (by simp)

@[simp] theorem State.reg_bbHeader (s : State) (a : Nat) : (s.bbHeader).reg a = s.reg a :=
  State.reg_of_regs _ _ a (by simp)

@[simp] theorem State.reg_bbPut (s : State) (k b c t n p : Nat) (a : Nat) (h : reportReg a = false) :
    (s.bbPut k b c t n p).reg a = s.reg a := by
  have h1 : a ≠ Reg.FLT_BB_STATUS := by rintro rfl; exact absurd h (by decide)
  have h2 : a ≠ Reg.FLT_BB_SEQ := by rintro rfl; exact absurd h (by decide)
  unfold State.bbPut; dsimp only; (repeat' split) <;> simp [h1, h2] <;> rfl

@[simp] theorem State.reg_bbEntry (s : State) (k b c p : Nat) (a : Nat) (h : reportReg a = false) :
    (s.bbEntry k b c p).reg a = s.reg a := by
  have h1 : a ≠ Reg.FLT_BB_STATUS := by rintro rfl; exact absurd h (by decide)
  unfold State.bbEntry; dsimp only; split
  · simp [h1]
  · split
    · simp [h]
    · split
      · simp [h1]
      · simp only [State.reg_bbPut, h]; rfl

@[simp] theorem State.reg_seal (s : State) (b c : Nat) (a : Nat) (h : reportReg a = false) :
    (s.seal b c).reg a = s.reg a := by
  have h1 : a ≠ Reg.FLT_BB_STATUS := by rintro rfl; exact absurd h (by decide)
  unfold State.seal; dsimp only; split
  · rfl
  · rw [State.reg_bbHeader]
    simp only [State.reg_setFld, if_neg h1]
    exact State.reg_bbEntry s _ _ _ _ a h

theorem FaultCode.cls_lt (f : FaultCode) : f.cls < 9 := by cases f <;> decide

@[simp] theorem State.reg_logFault (s : State) (f : FaultCode) (p : Nat) (a : Nat) (h : reportReg a = false) :
    (s.logFault f p).reg a = s.reg a := by
  have h1 := FaultCode.cls_lt f
  have h2 : ∀ b, reportReg b = true → a ≠ b := by rintro b hb rfl; rw [h] at hb; cases hb
  have h3 : a ≠ Reg.FLT_COUNT f.cls := h2 _ (by
    have h4 : decide (0x12008 ≤ Reg.FLT_COUNT f.cls) = true := decide_eq_true (by unfold Reg.FLT_COUNT; omega)
    have h5 : decide (Reg.FLT_COUNT f.cls < 0x12044) = true := decide_eq_true (by unfold Reg.FLT_COUNT; omega)
    simp only [reportReg, h4, h5]; rfl)
  simp [State.logFault, h3, h2 Reg.FLT_LAST (by decide), h2 Reg.FLT_LAST_PARAM (by decide),
    h2 Reg.FLT_LAST_TIME_LO (by decide), h2 Reg.FLT_LAST_TIME_HI (by decide)]; rfl

@[simp] theorem State.reg_faultEntry (s : State) (f : FaultCode) (p : Nat) (a : Nat) (h : reportReg a = false) :
    (s.faultEntry f p).reg a = s.reg a := by
  unfold State.faultEntry; dsimp only; (repeat' split) <;> first | rfl | exact State.reg_bbEntry s _ _ _ _ a h

@[simp] theorem State.reg_raise (s : State) (f : FaultCode) (p : Nat) (a : Nat) (h : reportReg a = false) :
    (s.raise f p).reg a = s.reg a := by
  unfold State.raise; dsimp only; split <;> split <;> simp [h]

@[simp] theorem State.reg_holdCheck (s : State) (a : Nat) (h : reportReg a = false) :
    (s.holdCheck).reg a = s.reg a := by
  unfold State.holdCheck; dsimp only
  (repeat' split) <;> first | rfl | exact State.reg_raise _ _ _ a h

/-- Rewind copies are given up ring by ring (R379). -/
theorem State.makeRoom_keeps (k : Nat) : ∀ (s : State) (need : Nat), ∃ rs, State.makeRoom k s need = { s with rings := rs } := by
  induction k with
  | zero => intro s need; exact ⟨s.rings, rfl⟩
  | succ k ih =>
    intro s need
    unfold State.makeRoom
    split
    · split
      · obtain ⟨rs, h⟩ := ih { s with rings := _ } need; exact ⟨rs, h⟩
      · exact ⟨s.rings, rfl⟩
    · exact ⟨s.rings, rfl⟩

/-- Space taken in new blocks (R220). -/
theorem State.place.grant_keeps (s u : State) (n size : Nat) (data : Bool) (bs : List Nat) (h : State.place.grant s n size data = some (bs, u)) :
    u.now = s.now ∧ u.devTime = s.devTime ∧ u.phase = s.phase ∧ u.far = s.far ∧ u.tb = s.tb ∧ u.inputs = s.inputs ∧
    u.decayed = s.decayed ∧ u.trig = s.trig ∧ u.cadOut = s.cadOut ∧ u.cadEnd = s.cadEnd ∧ u.cadences = s.cadences ∧
    u.chans = s.chans ∧ u.recipes = s.recipes ∧ u.banks = s.banks ∧ u.loads = s.loads ∧ u.lanes = s.lanes ∧
    u.peerLanes = s.peerLanes ∧ u.peer = s.peer ∧ u.msix = s.msix ∧ u.pcie = s.pcie ∧ u.kpr = s.kpr ∧ u.pwr = s.pwr ∧
    u.gbl = s.gbl ∧ u.jtag = s.jtag ∧ u.freeIdx = s.freeIdx ∧ u.pending = s.pending ∧
    ∀ a, reportReg a = false → u.reg a = s.reg a := by
  unfold State.place.grant at h
  obtain ⟨rs, e⟩ := State.makeRoom_keeps 8192 s (max 1 (ceilDiv size 4096))
  simp only [e] at h
  rw [Option.ite_none_left_eq_some] at h
  obtain ⟨_, h⟩ := h
  cases h
  simp
  intro a ha; simp [ha]; rfl

/-- Space taken in the holding store (R220). -/
theorem State.place_keeps (s u : State) (n size : Nat) (data : Bool) (bs : List Nat) (h : State.place s n size data = some (bs, u)) :
    u.now = s.now ∧ u.devTime = s.devTime ∧ u.phase = s.phase ∧ u.far = s.far ∧ u.tb = s.tb ∧ u.inputs = s.inputs ∧
    u.decayed = s.decayed ∧ u.trig = s.trig ∧ u.cadOut = s.cadOut ∧ u.cadEnd = s.cadEnd ∧ u.cadences = s.cadences ∧
    u.chans = s.chans ∧ u.recipes = s.recipes ∧ u.banks = s.banks ∧ u.loads = s.loads ∧ u.lanes = s.lanes ∧
    u.peerLanes = s.peerLanes ∧ u.peer = s.peer ∧ u.msix = s.msix ∧ u.pcie = s.pcie ∧ u.kpr = s.kpr ∧ u.pwr = s.pwr ∧
    u.gbl = s.gbl ∧ u.jtag = s.jtag ∧ u.freeIdx = s.freeIdx ∧ u.pending = s.pending ∧
    ∀ a, reportReg a = false → u.reg a = s.reg a := by
  unfold State.place at h
  dsimp only at h
  split at h
  · split at h
    · cases h; simp
    · exact State.place.grant_keeps s u n size data bs h
  · exact State.place.grant_keeps s u n size data bs h

/-- A record put into its queue (R368, R369). -/
theorem State.tryPush_keeps (s u : State) (n : Nat) (p : Push) (h : State.tryPush s n p = some u) :
    u.now = s.now ∧ u.devTime = s.devTime ∧ u.phase = s.phase ∧ u.far = s.far ∧ u.tb = s.tb ∧ u.inputs = s.inputs ∧
    u.decayed = s.decayed ∧ u.trig = s.trig ∧ u.cadOut = s.cadOut ∧ u.cadEnd = s.cadEnd ∧ u.cadences = s.cadences ∧
    u.chans = s.chans ∧ u.recipes = s.recipes ∧ u.banks = s.banks ∧ u.loads = s.loads ∧ u.lanes = s.lanes ∧
    u.peerLanes = s.peerLanes ∧ u.peer = s.peer ∧ u.msix = s.msix ∧ u.pcie = s.pcie ∧ u.kpr = s.kpr ∧ u.pwr = s.pwr ∧
    u.gbl = s.gbl ∧ u.jtag = s.jtag ∧ u.freeIdx = s.freeIdx ∧ u.pending = s.pending ∧
    ∀ a, reportReg a = false → u.reg a = s.reg a := by
  unfold State.tryPush at h
  dsimp only at h
  split at h
  · split at h
    · cases h
    · split at h
      · cases h
      · rename_i e; cases h
        have k := State.place_keeps _ _ _ _ _ _ e
        simp [k]
        intro a ha; exact k.2.2.2.2.2.2.2.2.2.2.2.2.2.2.2.2.2.2.2.2.2.2.2.2.2.2 a ha
  · split at h
    · cases h
    · cases h; simp

/-- The push of a record (R370). -/
@[simp] theorem State.push_keeps (s : State) (n c : Nat) (e : Option Nat) (r : Record) :
    (s.push n c e r).now = s.now ∧ (s.push n c e r).devTime = s.devTime ∧ (s.push n c e r).phase = s.phase ∧
    (s.push n c e r).far = s.far ∧ (s.push n c e r).tb = s.tb ∧ (s.push n c e r).inputs = s.inputs ∧
    (s.push n c e r).decayed = s.decayed ∧ (s.push n c e r).trig = s.trig ∧ (s.push n c e r).cadOut = s.cadOut ∧
    (s.push n c e r).cadEnd = s.cadEnd ∧ (s.push n c e r).cadences = s.cadences ∧ (s.push n c e r).chans = s.chans ∧
    (s.push n c e r).recipes = s.recipes ∧ (s.push n c e r).banks = s.banks ∧ (s.push n c e r).loads = s.loads ∧
    (s.push n c e r).lanes = s.lanes ∧ (s.push n c e r).peerLanes = s.peerLanes ∧ (s.push n c e r).peer = s.peer ∧
    (s.push n c e r).msix = s.msix ∧ (s.push n c e r).pcie = s.pcie ∧ (s.push n c e r).kpr = s.kpr ∧
    (s.push n c e r).pwr = s.pwr ∧ (s.push n c e r).gbl = s.gbl ∧ (s.push n c e r).jtag = s.jtag ∧
    (s.push n c e r).freeIdx = s.freeIdx ∧ (s.push n c e r).pending = s.pending := by
  unfold State.push
  dsimp only
  split
  · simp
  · split
    · rename_i h; have k := State.tryPush_keeps _ _ _ _ h; simp [k]
    · simp

@[simp] theorem State.reg_push (s : State) (n c : Nat) (e : Option Nat) (r : Record) (a : Nat) (h : reportReg a = false) :
    (s.push n c e r).reg a = s.reg a := by
  unfold State.push
  dsimp only
  split
  · rfl
  · split
    · rename_i e; exact (State.tryPush_keeps _ _ _ _ e).2.2.2.2.2.2.2.2.2.2.2.2.2.2.2.2.2.2.2.2.2.2.2.2.2.2 a h
    · rfl

/-- A RETURN record (R364). -/
@[simp] theorem State.sendReturn_keeps (s : State) (d ring reason : Nat) (tag : Dword) (ty pos detail n : Nat) :
    (s.sendReturn d ring reason tag ty pos detail n).now = s.now ∧
    (s.sendReturn d ring reason tag ty pos detail n).devTime = s.devTime ∧
    (s.sendReturn d ring reason tag ty pos detail n).phase = s.phase ∧
    (s.sendReturn d ring reason tag ty pos detail n).far = s.far ∧
    (s.sendReturn d ring reason tag ty pos detail n).tb = s.tb ∧
    (s.sendReturn d ring reason tag ty pos detail n).inputs = s.inputs ∧
    (s.sendReturn d ring reason tag ty pos detail n).decayed = s.decayed ∧
    (s.sendReturn d ring reason tag ty pos detail n).trig = s.trig ∧
    (s.sendReturn d ring reason tag ty pos detail n).cadOut = s.cadOut ∧
    (s.sendReturn d ring reason tag ty pos detail n).cadEnd = s.cadEnd ∧
    (s.sendReturn d ring reason tag ty pos detail n).cadences = s.cadences ∧
    (s.sendReturn d ring reason tag ty pos detail n).chans = s.chans ∧
    (s.sendReturn d ring reason tag ty pos detail n).recipes = s.recipes ∧
    (s.sendReturn d ring reason tag ty pos detail n).banks = s.banks ∧
    (s.sendReturn d ring reason tag ty pos detail n).loads = s.loads ∧
    (s.sendReturn d ring reason tag ty pos detail n).lanes = s.lanes ∧
    (s.sendReturn d ring reason tag ty pos detail n).peerLanes = s.peerLanes ∧
    (s.sendReturn d ring reason tag ty pos detail n).peer = s.peer ∧
    (s.sendReturn d ring reason tag ty pos detail n).msix = s.msix ∧
    (s.sendReturn d ring reason tag ty pos detail n).pcie = s.pcie ∧
    (s.sendReturn d ring reason tag ty pos detail n).kpr = s.kpr ∧
    (s.sendReturn d ring reason tag ty pos detail n).pwr = s.pwr ∧
    (s.sendReturn d ring reason tag ty pos detail n).gbl = s.gbl ∧
    (s.sendReturn d ring reason tag ty pos detail n).jtag = s.jtag ∧
    (s.sendReturn d ring reason tag ty pos detail n).freeIdx = s.freeIdx ∧
    (s.sendReturn d ring reason tag ty pos detail n).pending = s.pending := by
  unfold State.sendReturn; simp

@[simp] theorem State.reg_sendReturn (s : State) (d ring reason : Nat) (tag : Dword) (ty pos detail n : Nat) (a : Nat) (h : reportReg a = false) :
    (s.sendReturn d ring reason tag ty pos detail n).reg a = s.reg a := by
  unfold State.sendReturn; simp [h]

/-- A CONFIG_ACK record (R364). -/
@[simp] theorem State.sendAck_keeps (s : State) (d c ch aux stage : Nat) (tag : Dword) (body : List Word) :
    (s.sendAck d c ch aux stage tag body).now = s.now ∧ (s.sendAck d c ch aux stage tag body).devTime = s.devTime ∧
    (s.sendAck d c ch aux stage tag body).phase = s.phase ∧ (s.sendAck d c ch aux stage tag body).far = s.far ∧
    (s.sendAck d c ch aux stage tag body).tb = s.tb ∧ (s.sendAck d c ch aux stage tag body).inputs = s.inputs ∧
    (s.sendAck d c ch aux stage tag body).decayed = s.decayed ∧ (s.sendAck d c ch aux stage tag body).trig = s.trig ∧
    (s.sendAck d c ch aux stage tag body).cadOut = s.cadOut ∧
    (s.sendAck d c ch aux stage tag body).cadEnd = s.cadEnd ∧
    (s.sendAck d c ch aux stage tag body).cadences = s.cadences ∧
    (s.sendAck d c ch aux stage tag body).chans = s.chans ∧
    (s.sendAck d c ch aux stage tag body).recipes = s.recipes ∧
    (s.sendAck d c ch aux stage tag body).banks = s.banks ∧ (s.sendAck d c ch aux stage tag body).loads = s.loads ∧
    (s.sendAck d c ch aux stage tag body).lanes = s.lanes ∧
    (s.sendAck d c ch aux stage tag body).peerLanes = s.peerLanes ∧
    (s.sendAck d c ch aux stage tag body).peer = s.peer ∧ (s.sendAck d c ch aux stage tag body).msix = s.msix ∧
    (s.sendAck d c ch aux stage tag body).pcie = s.pcie ∧ (s.sendAck d c ch aux stage tag body).kpr = s.kpr ∧
    (s.sendAck d c ch aux stage tag body).pwr = s.pwr ∧ (s.sendAck d c ch aux stage tag body).gbl = s.gbl ∧
    (s.sendAck d c ch aux stage tag body).jtag = s.jtag ∧ (s.sendAck d c ch aux stage tag body).freeIdx = s.freeIdx ∧
    (s.sendAck d c ch aux stage tag body).pending = s.pending := by
  unfold State.sendAck; simp

@[simp] theorem State.reg_sendAck (s : State) (d c ch aux stage : Nat) (tag : Dword) (body : List Word) (a : Nat) (h : reportReg a = false) :
    (s.sendAck d c ch aux stage tag body).reg a = s.reg a := by
  unfold State.sendAck; simp [h]

/-- A TIME record (R67). -/
@[simp] theorem State.timeRecord_keeps (s : State) (r : Nat) (v : Int) :
    (s.timeRecord r v).now = s.now ∧ (s.timeRecord r v).devTime = s.devTime ∧ (s.timeRecord r v).phase = s.phase ∧
    (s.timeRecord r v).far = s.far ∧ (s.timeRecord r v).tb = s.tb ∧ (s.timeRecord r v).inputs = s.inputs ∧
    (s.timeRecord r v).decayed = s.decayed ∧ (s.timeRecord r v).trig = s.trig ∧
    (s.timeRecord r v).cadOut = s.cadOut ∧ (s.timeRecord r v).cadEnd = s.cadEnd ∧
    (s.timeRecord r v).cadences = s.cadences ∧ (s.timeRecord r v).chans = s.chans ∧
    (s.timeRecord r v).recipes = s.recipes ∧ (s.timeRecord r v).banks = s.banks ∧
    (s.timeRecord r v).loads = s.loads ∧ (s.timeRecord r v).lanes = s.lanes ∧
    (s.timeRecord r v).peerLanes = s.peerLanes ∧ (s.timeRecord r v).peer = s.peer ∧
    (s.timeRecord r v).msix = s.msix ∧ (s.timeRecord r v).pcie = s.pcie ∧ (s.timeRecord r v).kpr = s.kpr ∧
    (s.timeRecord r v).pwr = s.pwr ∧ (s.timeRecord r v).gbl = s.gbl ∧ (s.timeRecord r v).jtag = s.jtag ∧
    (s.timeRecord r v).freeIdx = s.freeIdx ∧ (s.timeRecord r v).pending = s.pending := by
  unfold State.timeRecord; dsimp only; split <;> simp

@[simp] theorem State.reg_timeRecord (s : State) (r : Nat) (v : Int) (a : Nat) (h : reportReg a = false) :
    (s.timeRecord r v).reg a = s.reg a := by
  unfold State.timeRecord; dsimp only; split <;> simp [h]

/-- References taken off blocks (R220). -/
@[simp] theorem State.unrefAll_keeps (s : State) (n : Nat) (l : List Nat) :
    (s.unrefAll n l).now = s.now ∧ (s.unrefAll n l).devTime = s.devTime ∧ (s.unrefAll n l).phase = s.phase ∧
    (s.unrefAll n l).far = s.far ∧ (s.unrefAll n l).tb = s.tb ∧ (s.unrefAll n l).inputs = s.inputs ∧
    (s.unrefAll n l).decayed = s.decayed ∧ (s.unrefAll n l).trig = s.trig ∧ (s.unrefAll n l).cadOut = s.cadOut ∧
    (s.unrefAll n l).cadEnd = s.cadEnd ∧ (s.unrefAll n l).cadences = s.cadences ∧ (s.unrefAll n l).chans = s.chans ∧
    (s.unrefAll n l).recipes = s.recipes ∧ (s.unrefAll n l).banks = s.banks ∧ (s.unrefAll n l).loads = s.loads ∧
    (s.unrefAll n l).lanes = s.lanes ∧ (s.unrefAll n l).peerLanes = s.peerLanes ∧ (s.unrefAll n l).peer = s.peer ∧
    (s.unrefAll n l).msix = s.msix ∧ (s.unrefAll n l).pcie = s.pcie ∧ (s.unrefAll n l).kpr = s.kpr ∧
    (s.unrefAll n l).pwr = s.pwr ∧ (s.unrefAll n l).gbl = s.gbl ∧ (s.unrefAll n l).jtag = s.jtag ∧
    (s.unrefAll n l).freeIdx = s.freeIdx ∧ (s.unrefAll n l).pending = s.pending := by
  unfold State.unrefAll; split <;> simp

@[simp] theorem State.reg_unrefAll (s : State) (n : Nat) (l : List Nat) (a : Nat) (h : reportReg a = false) :
    (s.unrefAll n l).reg a = s.reg a := by
  unfold State.unrefAll; split
  · rfl
  · rw [State.reg_holdCheck _ _ h]; rfl

/-! ### The form of every meaning -/

/-- A meaning answers the effect at its moment, with the count of time and the queue set by the machine alone. -/
theorem atMoment_next (t : Nat) (s : State) (f : State → State) :
    atMoment t s f = .next { f (s.advance t) with now := s.now + (t - s.now), pending := s.pending } := rfl

theorem atMoment_now (t : Nat) (s u : State) (f : State → State) (h : atMoment t s f = .next u) :
    u.now = max s.now t ∧ u.pending = s.pending := by
  rw [atMoment_next] at h; cases h; exact ⟨by simp only; omega, rfl⟩

end Sys2Proof.Machine
end

