-- ==== Sys2Proof/Laws/Field.lean ====
section
/-! SUPPORT. Fields of registers: a field read back after a field has been written, counters that wrap and counters that
saturate. -/

namespace Sys2Proof.Machine

theorem testBit_fieldOf (v lo w i : Nat) : (fieldOf v lo w).testBit i = (decide (i < w) && v.testBit (lo + i)) := by
  rw [fieldOf, Nat.testBit_mod_two_pow, Nat.testBit_div_two_pow, Nat.add_comm i lo]

theorem getLsbD_putField (x : Word) (lo w v i : Nat) (hw : lo + w ≤ 64) :
    (putField x lo w v).getLsbD i = if lo ≤ i ∧ i < lo + w then v.testBit (i - lo) else x.getLsbD i := by
  unfold putField
  simp only [BitVec.getLsbD_or, BitVec.getLsbD_and, BitVec.getLsbD_not, BitVec.getLsbD_ofNat,
    Nat.testBit_mul_two_pow, Nat.testBit_mod_two_pow]
  by_cases h64 : i < 64
  · by_cases h1 : lo ≤ i <;> by_cases h2 : i < lo + w
    · have : i - lo < w := by omega
      simp [h64, h1, h2, this]
    · have : ¬(i - lo < w) := by omega
      simp [h64, h1, h2, this]
    · simp [h64, h1]
    · simp [h64, h1]
  · have h2 : ¬(i < lo + w) := by omega
    have h3 : x.getLsbD i = false := BitVec.getLsbD_of_ge x i (by omega)
    simp [h64, h2, h3]

theorem testBit_toNat_putField (x : Word) (lo w v i : Nat) (hw : lo + w ≤ 64) :
    (putField x lo w v).toNat.testBit i = if lo ≤ i ∧ i < lo + w then v.testBit (i - lo) else x.toNat.testBit i := by
  rw [← BitVec.getLsbD, getLsbD_putField x lo w v i hw]; rfl

/-- A field reads as it was written. -/
theorem fieldOf_putField (x : Word) (lo w v : Nat) (hw : lo + w ≤ 64) : fieldOf (putField x lo w v).toNat lo w = v % 2 ^ w := by
  apply Nat.eq_of_testBit_eq; intro i
  rw [testBit_fieldOf, testBit_toNat_putField x lo w v _ hw, Nat.testBit_mod_two_pow]
  by_cases h : i < w <;> simp [h]

/-- A field reads as before when another one has been written. -/
theorem fieldOf_putField_other (x : Word) (lo w v lo' w' : Nat) (hw : lo + w ≤ 64) (h : lo' + w' ≤ lo ∨ lo + w ≤ lo') :
    fieldOf (putField x lo w v).toNat lo' w' = fieldOf x.toNat lo' w' := by
  apply Nat.eq_of_testBit_eq; intro i
  rw [testBit_fieldOf, testBit_fieldOf, testBit_toNat_putField x lo w v _ hw]
  by_cases hi : i < w'
  · have : ¬(lo ≤ lo' + i ∧ lo' + i < lo + w) := by omega
    simp [this]
  · simp [hi]

theorem fieldOf_lt (v lo w : Nat) : fieldOf v lo w < 2 ^ w := Nat.mod_lt _ (Nat.two_pow_pos w)

/-- A field of a register after a field of a register has been written. -/
theorem State.fld_setFld (s : State) (a lo w v : Nat) (hw : lo + w ≤ 64) : (s.setFld a lo w v).fld a lo w = v % 2 ^ w := by
  simp [State.fld, fieldOf_putField _ _ _ _ hw]

theorem State.fld_setFld_other (s : State) (a lo w v lo' w' : Nat) (hw : lo + w ≤ 64) (h : lo' + w' ≤ lo ∨ lo + w ≤ lo') :
    (s.setFld a lo w v).fld a lo' w' = s.fld a lo' w' := by
  simp [State.fld, fieldOf_putField_other _ _ _ _ _ _ hw h]

theorem State.fld_setFld_reg (s : State) (a lo w v b lo' w' : Nat) (h : b ≠ a) : (s.setFld a lo w v).fld b lo' w' = s.fld b lo' w' := by
  simp [State.fld, h]

theorem State.bit_setFld (s : State) (a lo w v i : Nat) (hw : lo + w ≤ 64) :
    (s.setFld a lo w v).bit a i = if lo ≤ i ∧ i < lo + w then v.testBit (i - lo) else s.bit a i := by
  simp [State.bit, getLsbD_putField _ _ _ _ _ hw]

/-- A counter that wraps. -/
theorem State.fld_bumpBy (s : State) (a lo w k : Nat) (hw : lo + w ≤ 64) :
    (s.bumpBy a lo w k).fld a lo w = (s.fld a lo w + k) % 2 ^ w := by
  rw [State.bumpBy, State.fld_setFld _ _ _ _ _ hw, Nat.mod_mod]

theorem State.fld_bump (s : State) (a lo w : Nat) (hw : lo + w ≤ 64) :
    (s.bump a lo w).fld a lo w = (s.fld a lo w + 1) % 2 ^ w := State.fld_bumpBy s a lo w 1 hw

/-- A counter that saturates. -/
theorem State.fld_bumpSatBy (s : State) (a lo w k : Nat) (hw : lo + w ≤ 64) :
    (s.bumpSatBy a lo w k).fld a lo w = min (2 ^ w - 1) (s.fld a lo w + k) := by
  have := Nat.two_pow_pos w
  rw [State.bumpSatBy, State.fld_setFld _ _ _ _ _ hw, Nat.mod_eq_of_lt (by omega)]

theorem State.fld_bumpSat (s : State) (a lo w : Nat) (hw : lo + w ≤ 64) :
    (s.bumpSat a lo w).fld a lo w = min (2 ^ w - 1) (s.fld a lo w + 1) := State.fld_bumpSatBy s a lo w 1 hw

theorem State.fld_bumpBy_other (s : State) (a lo w k lo' w' : Nat) (hw : lo + w ≤ 64) (h : lo' + w' ≤ lo ∨ lo + w ≤ lo') :
    (s.bumpBy a lo w k).fld a lo' w' = s.fld a lo' w' := State.fld_setFld_other _ _ _ _ _ _ _ hw h

theorem State.fld_bumpSatBy_other (s : State) (a lo w k lo' w' : Nat) (hw : lo + w ≤ 64) (h : lo' + w' ≤ lo ∨ lo + w ≤ lo') :
    (s.bumpSatBy a lo w k).fld a lo' w' = s.fld a lo' w' := State.fld_setFld_other _ _ _ _ _ _ _ hw h

end Sys2Proof.Machine
end

