-- ==== Sys2Proof/Laws/Fault.lean ====
section
/-! SUPPORT. What a raised fault and an entry of the black box do and leave alone (R445, R446, R457 to R461). -/

namespace Sys2Proof.Machine

theorem event_flt (s : State) (v) : ∃ a h, (s.event v).flt = { s.flt with again := a, holdoff := h } := by
  unfold State.event; dsimp only; split
  · exact ⟨_, _, rfl⟩
  · unfold State.message; split <;> exact ⟨_, _, rfl⟩
theorem bbHeader_flt (s : State) : s.bbHeader.flt = { s.flt with since3 := 0 } := rfl
theorem bbPut_flt (s : State) (k b c t n p) : ∃ x, (s.bbPut k b c t n p).flt = { s.flt with since3 := x } := by
  refine ⟨(s.bbPut k b c t n p).flt.since3, ?_⟩
  unfold State.bbPut; dsimp only; (repeat' split) <;> simp [bbHeader_flt]
theorem bbEntry_flt (s : State) (k b c p) : ∃ x y, (s.bbEntry k b c p).flt = { s.flt with since3 := x, bbTokens := y } := by
  unfold State.bbEntry; dsimp only; split
  · exact ⟨s.flt.since3, s.flt.bbTokens, by simp⟩
  · split
    · obtain ⟨x, h⟩ := bbPut_flt s k b c s.devTime s.kpr.time.vote p; exact ⟨x, _, h⟩
    · split
      · exact ⟨s.flt.since3, s.flt.bbTokens, by simp⟩
      · obtain ⟨x, h⟩ := bbPut_flt { s with flt := { s.flt with bbTokens := s.flt.bbTokens - 1 } } k b c s.devTime s.kpr.time.vote p
        exact ⟨x, _, h⟩
theorem seal_flt (s : State) (b c) : ∃ x y z, (s.seal b c).flt = { s.flt with since3 := x, bbTokens := y, sealed := z } := by
  unfold State.seal; split
  · exact ⟨s.flt.since3, s.flt.bbTokens, s.flt.sealed, rfl⟩
  · obtain ⟨x, y, h⟩ := bbEntry_flt s 7 b c 0
    refine ⟨0, y, true, ?_⟩; rw [bbHeader_flt]; simp [h]
theorem faultEntry_flt (s : State) (f p) : ∃ x y z, (s.faultEntry f p).flt = { s.flt with since3 := x, bbTokens := y, repeats := z } := by
  refine ⟨(s.faultEntry f p).flt.since3, (s.faultEntry f p).flt.bbTokens, (s.faultEntry f p).flt.repeats, ?_⟩
  unfold State.faultEntry; dsimp only
  (repeat' split) <;> (try rfl)
  all_goals
    generalize hz : s.bbEntry 1 _ f.code p = z
    obtain ⟨x, y, h⟩ : ∃ x y, z.flt = { s.flt with since3 := x, bbTokens := y } := hz ▸ bbEntry_flt s 1 _ f.code p
    rw [h]
theorem raise_flt (s : State) (f p) : ∃ a h x y z w so, (s.raise f p).flt = { s.flt with active := s.flt.active ||| (1#9 <<< f.cls), severe := s.flt.severe || f.row.2, severeOf := so, again := a, holdoff := h, since3 := x, bbTokens := y, repeats := z, sealed := w } := by
  unfold State.raise; dsimp only
  obtain ⟨x1, y1, z1, h1⟩ := faultEntry_flt (s.logFault f p) f p
  have h0 : ∃ so, (s.logFault f p).flt = { s.flt with active := s.flt.active ||| (1#9 <<< f.cls), severe := s.flt.severe || f.row.2, severeOf := so } := ⟨_, by unfold State.logFault; simp; rfl⟩
  obtain ⟨so, h0⟩ := h0
  generalize (s.logFault f p).faultEntry f p = s1 at *
  have h2 : ∃ a h, (if s1.bit Reg.FLT_CTRL f.cls = true then s1.event 64 else s1).flt = { s1.flt with again := a, holdoff := h } := by
    split
    · exact event_flt s1 64
    · exact ⟨_, _, rfl⟩
  generalize (if s1.bit Reg.FLT_CTRL f.cls = true then s1.event 64 else s1) = s2 at *
  obtain ⟨a, h, h2⟩ := h2
  split
  · obtain ⟨x, y, w, h3⟩ := seal_flt s2 2 f.code
    exact ⟨a, h, x, y, z1, w, so, by rw [h3, h2, h1, h0]⟩
  · exact ⟨a, h, x1, y1, z1, s.flt.sealed, so, by rw [h2, h1, h0]⟩
@[simp] theorem raise_active (s : State) (f p) : (s.raise f p).flt.active = s.flt.active ||| (1#9 <<< f.cls) := by
  obtain ⟨_, _, _, _, _, _, _, h⟩ := raise_flt s f p; rw [h]
@[simp] theorem raise_severe (s : State) (f p) : (s.raise f p).flt.severe = (s.flt.severe || f.row.2) := by
  obtain ⟨_, _, _, _, _, _, _, h⟩ := raise_flt s f p; rw [h]
@[simp] theorem FaultCode.cls_bit (f : FaultCode) : (1#9 <<< f.cls).getLsbD f.cls = true := by cases f <;> decide
theorem reg_bbPut_other (s : State) (k b c t n p) (a : Nat) (h1 : a ≠ Reg.FLT_BB_STATUS) (h2 : a ≠ Reg.FLT_BB_SEQ) : (s.bbPut k b c t n p).reg a = s.reg a := by
  unfold State.bbPut; dsimp only; (repeat' split) <;> simp [h1, h2] <;> rfl
theorem reg_bbEntry_other (s : State) (k b c p) (a : Nat) (h1 : a ≠ Reg.FLT_BB_STATUS) (h2 : a ≠ Reg.FLT_BB_SEQ) : (s.bbEntry k b c p).reg a = s.reg a := by
  unfold State.bbEntry; dsimp only; split
  · simp [h1]
  · split
    · exact reg_bbPut_other _ _ _ _ _ _ _ _ h1 h2
    · split
      · simp [h1]
      · rw [reg_bbPut_other _ _ _ _ _ _ _ _ h1 h2]; rfl
theorem reg_seal_other (s : State) (b c) (a : Nat) (h1 : a ≠ Reg.FLT_BB_STATUS) (h2 : a ≠ Reg.FLT_BB_SEQ) : (s.seal b c).reg a = s.reg a := by
  unfold State.seal; split
  · rfl
  · simp only [State.reg_bbHeader, State.reg_setFld, h1, if_false]; exact reg_bbEntry_other _ _ _ _ _ _ h1 h2
theorem reg_faultEntry_other (s : State) (f p) (a : Nat) (h1 : a ≠ Reg.FLT_BB_STATUS) (h2 : a ≠ Reg.FLT_BB_SEQ) : (s.faultEntry f p).reg a = s.reg a := by
  unfold State.faultEntry; dsimp only
  (repeat' split) <;> first | rfl | exact reg_bbEntry_other _ _ _ _ _ _ h1 h2
theorem reg_raise_other (s : State) (f p) (a : Nat) (h1 : a ≠ Reg.FLT_BB_STATUS) (h2 : a ≠ Reg.FLT_BB_SEQ) : (s.raise f p).reg a = (s.logFault f p).reg a := by
  unfold State.raise; dsimp only; split <;> split <;> simp [reg_seal_other, reg_faultEntry_other, h1, h2]
@[simp] theorem raise_last (s : State) (f p) : (s.raise f p).reg Reg.FLT_LAST = BitVec.ofNat 64 f.code := by
  rw [reg_raise_other _ _ _ _ (by decide) (by decide)]; unfold State.logFault
  simp [Reg.FLT_LAST, Reg.FLT_LAST_PARAM, Reg.FLT_LAST_TIME_LO, Reg.FLT_LAST_TIME_HI]

/-- A black-box entry advances the sequence (R457). -/
theorem bbPut_seq (s : State) (k b c t n p) : (s.bbPut k b c t n p).fld Reg.FLT_BB_SEQ 0 32 = (s.fld Reg.FLT_BB_SEQ 0 32 + 1) % 2 ^ 32 := by
  unfold State.bbPut; dsimp only
  have h : ∀ x : State, x.bbHeader.fld Reg.FLT_BB_SEQ 0 32 = x.fld Reg.FLT_BB_SEQ 0 32 := fun x => by simp [State.fld]
  have k : ∀ x : State, x.regs = s.regs → ∀ v, ((x.setFld Reg.FLT_BB_STATUS 0 13 v).bump Reg.FLT_BB_SEQ 0 32).fld Reg.FLT_BB_SEQ 0 32 =
      (s.fld Reg.FLT_BB_SEQ 0 32 + 1) % 2 ^ 32 := by
    intro x hx v
    rw [State.fld_bump _ _ _ _ (by decide), State.fld_setFld_reg _ _ _ _ _ _ _ _ (by decide)]
    simp only [State.fld, State.reg_of_regs s x _ hx]
  have e : ∀ (c : Prop) [Decidable c] (x : State), (if c then x.bbHeader else x).fld Reg.FLT_BB_SEQ 0 32 = x.fld Reg.FLT_BB_SEQ 0 32 := by
    intro c _ x; split
    · exact h x
    · rfl
  rw [e]; apply k; rfl

/-- An entry that never waits advances the sequence (R459). -/
theorem bbEntry_seq (s : State) (k b c p) (h : bbUrgent k = true) :
    (s.bbEntry k b c p).fld Reg.FLT_BB_SEQ 0 32 = (s.fld Reg.FLT_BB_SEQ 0 32 + 1) % 2 ^ 32 := by
  unfold State.bbEntry; simp only [h, Bool.true_or, Bool.not_true, Bool.and_false, Bool.false_eq_true, if_false, if_true]
  exact bbPut_seq _ _ _ _ _ _ _

/-- Of the persistent die a raised fault writes the black box alone, with the wear and the write times of its stripes. -/
theorem bbEntry_pst (s : State) (k b c p) : ∃ bb w l, (s.bbEntry k b c p).pst = { s.pst with blackBox := bb, wear := w, written := l } := by
  refine ⟨(s.bbEntry k b c p).pst.blackBox, (s.bbEntry k b c p).pst.wear, (s.bbEntry k b c p).pst.written, ?_⟩
  unfold State.bbEntry; dsimp only
  (repeat' split) <;> simp [State.bbPut] <;> (repeat' split) <;> simp [State.bbHeader]

/-- Of the persistent die the header of the black box writes the same. -/
theorem bbHeader_pst (s : State) : ∃ bb w l, s.bbHeader.pst = { s.pst with blackBox := bb, wear := w, written := l } := ⟨_, _, _, rfl⟩

theorem raise_pst (s : State) (f p) : ∃ bb w l, (s.raise f p).pst = { s.pst with blackBox := bb, wear := w, written := l } := by
  have hs : ∀ (x : State) b c, ∃ bb w l, (x.seal b c).pst = { x.pst with blackBox := bb, wear := w, written := l } := by
    intro x b c; unfold State.seal; split
    · exact ⟨_, _, _, rfl⟩
    · obtain ⟨bb, w, l, h⟩ := bbEntry_pst x 7 b c 0
      obtain ⟨b2, w2, l2, h2⟩ := bbHeader_pst (({ (x.bbEntry 7 b c 0) with flt := { (x.bbEntry 7 b c 0).flt with sealed := true } } : State).setFld Reg.FLT_BB_STATUS 13 1 1)
      exact ⟨b2, w2, l2, by rw [h2]; simp only [State.setFld_keeps, h]⟩
  have hf : ∃ bb w l, ((s.logFault f p).faultEntry f p).pst = { s.pst with blackBox := bb, wear := w, written := l } := by
    have h0 : (s.logFault f p).pst = s.pst := by simp
    unfold State.faultEntry; dsimp only
    (repeat' split)
    · exact ⟨_, _, _, h0⟩
    all_goals
      generalize hz : State.bbEntry _ _ _ _ _ = z
      obtain ⟨bb, w, l, h⟩ := bbEntry_pst (s.logFault f p) 1 _ f.code p
      exact ⟨bb, w, l, by rw [← hz, h, h0]⟩
  obtain ⟨bb, w, l, hf⟩ := hf
  unfold State.raise; dsimp only
  have he : ∀ x : State, (x.event 64).pst = x.pst := fun x => by simp
  split <;> split
  · obtain ⟨b2, w2, l2, h2⟩ := hs (((s.logFault f p).faultEntry f p).event 64) 2 f.code; exact ⟨b2, w2, l2, by rw [h2, he, hf]⟩
  · exact ⟨bb, w, l, by rw [he, hf]⟩
  · obtain ⟨b2, w2, l2, h2⟩ := hs ((s.logFault f p).faultEntry f p) 2 f.code; exact ⟨b2, w2, l2, by rw [h2, hf]⟩
  · exact ⟨bb, w, l, hf⟩

end Sys2Proof.Machine
end

