-- ==== Sys2Proof/Laws/RegWrite.lean ====
section
/-! SUPPORT. What a write of one register does at a port that takes writes: it reaches `State.writeReg`, and behind the
checks of R321 the register's own effect. -/

namespace Sys2Proof.Machine

/-- A write of a whole 32-bit register through an open port reaches the register (R310, R315, R321). -/
theorem State.write32_open (s : State) (p : Port) (off v : Nat) (h : Hit) (hp : s.portReady p)
    (hr : regAt off = some h) (hm : mspiAt off = some h) (hw : h.row.wide = false) (ha : off % 4 = 0)
    (hb : off < 0x100000) (hg : h.reg ≠ Reg.GBL_CTRL) :
    s.write32 p off v = (s.writeReg p h (BitVec.setWidth 64 (BitVec.ofNat 32 v))).2 := by
  obtain ⟨h1, h2, h3⟩ := hp
  have e : off / 4 * 4 = off := by omega
  have hb' : ¬ 0x100000 ≤ off := by omega
  have hm1 : beMask (15#4) = 0xFFFFFFFF#32 := by decide
  have hm2 : ∀ y : Dword, y.setWidth 64 &&& 4294967295#64 = y.setWidth 64 := by
    intro y; apply BitVec.eq_of_toNat_eq
    have h := Nat.and_two_pow_sub_one_eq_mod (y.toNat % 2 ^ 64) 32
    have hy := y.isLt
    simp only [BitVec.toNat_and, BitVec.toNat_setWidth, BitVec.toNat_ofNat]
    rw [show 4294967295 % 2 ^ 64 = 2 ^ 32 - 1 by decide, h]; omega
  have hN : ∀ be, (be == 0xF) = true → rejected [some h] [be] true = none := by
    intro be hbe; simp only [beq_iff_eq] at hbe; subst hbe; simp [rejected, hw]
  have hN' : rejected [some h] [] true = none := by simp [rejected, hw]
  cases p with
  | host =>
    simp [State.write32, State.portWrite, State.hostWrite, State.hostUp, h1, hb', hostHits, List.range_succ, e, hr,
      hN, State.applyDwords, hm1, hm2]
  | mspi =>
    simp [State.write32, State.portWrite, State.mspiWrite, h1, h3 rfl, List.range_succ, e, hm, hg, hN', State.applyDwords, hm1, hm2]

/-- A write of a whole 64-bit register through an open port reaches the register. -/
theorem State.write64_open (s : State) (p : Port) (off v : Nat) (h k : Hit) (hp : s.portReady p)
    (hr : regAt off = some h) (hm : mspiAt off = some h) (hr' : regAt (off + 4) = some k) (hm' : mspiAt (off + 4) = some k)
    (hw : h.row.wide = true) (hk : k.reg = h.reg) (hu : h.upper = false) (hkw : k.row = h.row)
    (ha : off % 8 = 0) (hb : off < 0x100000) (hg : h.reg ≠ Reg.GBL_CTRL) :
    s.write64 p off v = (s.writeReg p h ((BitVec.ofNat 32 v).setWidth 64 ||| ((BitVec.ofNat 32 (v / 2 ^ 32)).setWidth 64 <<< 32))).2 := by
  obtain ⟨h1, h2, h3⟩ := hp
  have e : off / 4 * 4 = off := by omega
  have hb' : ¬ 0x100000 ≤ off := by omega
  cases p with
  | host =>
    simp [State.write64, State.portWrite, State.hostWrite, State.hostUp, h1, hb', hostHits, List.range_succ, e, hr, hr',
      rejected, hw, hk, hu, hkw, State.applyDwords]
  | mspi =>
    simp [State.write64, State.portWrite, State.mspiWrite, h1, h3 rfl, List.range_succ, e, hm, hm', hg, hk,
      rejected, hw, hu, hkw, State.applyDwords]

/-- A near register without a key takes a value that its block accepts (R321). -/
theorem State.writeReg_takes (s : State) (p : Port) (h : Hit) (raw : Word) (hs : s.gbl.safe = false)
    (hm : h.row.msk = false) (hk : h.row.key = false) (hf : h.row.far = false) (hn : h.row.mask ≠ 0 ∨ h.row.w1c ≠ 0)
    (h1 : h.reg ≠ Reg.GBL_KEY) (h2 : h.reg ≠ Reg.GBL_SNAP_CMD) (new : Word)
    (hnew : new = (s.reg h.reg &&& ~~~BitVec.ofNat 64 h.row.mask) ||| (raw &&& BitVec.ofNat 64 h.row.mask))
    (hr : s.rangeFaults h (s.reg h.reg) new raw = []) :
    (s.writeReg p h raw).2 = ((s.rewritten h.reg).countEpoch h).takeWrite h (s.reg h.reg) new raw := by
  subst hnew
  have hn' : ¬(h.row.mask = 0 ∧ h.row.w1c = 0) := by omega
  simp [State.writeReg, hs, hm, hk, hf, h1, h2, hr, hn']

end Sys2Proof.Machine
end

