-- ==== Sys2Proof/Tests/Slice0.lean ====
section
/-! SUPPORT. Tests: the checks of WellFormed refuse an ill-formed command each, every statement's hypotheses are met by
a state and operands written out, and the spec's worked examples come out of the model. -/

namespace Sys2Proof.Tests

open Sys2Proof.Machine

-- one theorem after the other: each evaluates in the kernel, and side by side they would take too much memory
set_option Elab.async false

/-! ### WellFormed: one ill-formed command for each check (R221, R310, R333, R334, R341, R343) -/

theorem test_wf_fetch_of_none : (Instr.descriptorFetch 0 0 []).wf = false := by decide

theorem test_wf_fetch_of_nine : (Instr.descriptorFetch 0 0 (List.replicate 9 (0 : Desc))).wf = false := by decide

theorem test_wf_failed_fetch_of_eight : (Instr.fetchFailed 0 0 (List.replicate 8 (0 : Desc))).wf = false := by decide

theorem test_wf_load_window_of_none : (Instr.loadWindowEnd 0 []).wf = false := by decide

theorem test_wf_write_of_nothing : (Instr.registerWrite 0 .host 0x2000 [] []).wf = false := by decide

theorem test_wf_write_without_enables : (Instr.registerWrite 0 .host 0x2000 [1] []).wf = false := by decide

theorem test_wf_letterbox_past_the_end : (Instr.letterboxWrite 0 0x40000 [1] 15).wf = false := by decide

theorem test_wf_letterbox_unaligned : (Instr.letterboxWrite 0 2 [1] 15).wf = false := by decide

theorem test_wf_msix_past_the_end : (Instr.msixTableWrite 0 0x4000 1).wf = false := by decide

theorem test_wf_msix_unaligned : (Instr.msixTableWrite 0 1 1).wf = false := by decide

theorem test_wf_last_letterbox_dword : (Instr.letterboxWrite 0 0x3FFFC [1] 15).wf = true := by decide

/-! ### Small states -/

/-- A hub in RUN whose time base is in a given state, long after reset. -/
def hub (st : TbState) (f : Tb → Tb) : State :=
  { State.reset with
    now := 10 ^ 16, devTime := 2 ^ 62, pwr := {}
    tb := f { st := st, granted := true, refA := { ok := true, run := 64 }, refB := { num := 200 }, p0 := some (7, 1)
              d0 := some 0, bin := some (5, 0), aligned := true } }
def locked : State := hub .locked id
def coasting : State := hub .coasting fun b => { b with shadow := .locked, ret := .measuring }
def slewing : State := hub .slewing fun b => { b with slewRemain := 20 }
def searching : State := hub .searching fun b => { b with shadow := .searching }
def firstLock : State := hub .acquiring fun b => { b with shadow := .locked }
def handover : State := hub .handover fun b => { b with shadow := .locked, handoverOf := some .refSwitch, acqRef := .refB }
def held : State := hub .coasting fun b => { b with ret := .held, shadow := .locked }
def acquiring : State := hub .acquiring fun b => { b with shadow := .acquiring }
def onRefB (st : TbState) : State := (hub st fun b => { b with liveRef := .refB }).setFld Reg.TB_CTRL 2 1 1
/-- A hub with lane 0 in a given state. -/
def lane (st : LaneState) (f : Lane → Lane) : State :=
  locked.setLane 0 (f { st := st, session := true, signal := true, blockLock := true, limitTx := 64, limitRx := 64 })
/-- A hub with channel 5 as given. -/
def chan (x : Chan) : State := locked.setChan 5 x
/-- A descriptor of a type with fields (byte offset, bit, width, value) and tag 7. -/
def desc (ty : Nat) (fs : List (Nat × Nat × Nat × Nat)) : Desc :=
  BitVec.ofNat 512 (packBits ((0, 8, ty) :: (32, 32, 7) :: fs.map fun (o, l, w, v) => (8 * o + l, w, v)))
/-- Ring 2 made an active submission ring of 16 slots that holds these descriptors. -/
def given (s : State) (ds : List Desc) : State :=
  { (s.setReg (Reg.RING_CFG 2) 17).setRing 2 { st := .active, fetched := ds, lb := 12 } with pcie := { up := true } }
/-- Ring 1 made an active delivery ring of 1024 slots. -/
def delivers (s : State) (x : Ring) : State :=
  { (s.setReg (Reg.RING_CFG 1) 43).setRing 1 { x with st := .active } with pcie := { up := true } }
def inputOn (ctrl : Nat) (x : Input) : State :=
  { (locked.setInput 0 x) with far := [(Reg.FE_CTRL 0, BitVec.ofNat 64 ctrl)] }
/-- A hub with lane 0 as a peer lane. -/
def peerLane (st : LaneState) (x : PeerLane) : State := ((lane st id).setFld (Reg.COU_CTRL 0) 1 1 1).setPeerLane 0 x
/-- A hub whose restore is done, with its persistent die as given. -/
def restored (x : Pst) : State :=
  { locked with pst := { x with restore := if x.restore = .idle then .done else x.restore } }
def setPlan (s : State) (l : List Move) : State := { s with plc := { plan := l } }
def castles (s : State) (k : Castling) : State := { s with plc := { castlings := [k] } }
/-- A guarded channel with one vote due at device time 9, its keeper offset and its run of mismatches. -/
def votingChan (off : Int) (run : Nat) : Chan :=
  { st := .live, decl := { guarded := true }, guard := { off := some off, votes := [(9, 0)], mismatch := run } }
def voting (off : Int) (run : Nat) : State :=
  { chan (votingChan off run) with far := [(Reg.KPR_IN_CFG 0, 1)] }
/-- PWR_TOKEN_CFG and the first word of the identification in the register map. -/
def tokenCfg : Hit :=
  { reg := 0x3008, upper := false, row := { off := 8, mask := 255, reset := 32 }, epoch := some 2, inst := 0 }
def ident : Hit :=
  { reg := 0, upper := false, row := { off := 0, step := 4, num := 4, fused := true, mask := 0 }, epoch := none, inst := 0 }
/-- Ring 1 with an express push that waits and fits. -/
def pushing : State := locked.setRing 1 { waiting := [⟨0, none, { type := 1 }⟩] }
/-- The one descriptor at the head of a list is the one with a good header. -/
theorem head_ok {o : Option Desc} (x : Desc) (h : o = some x) (hx : headerOk x = true) :
    ∀ d, o = some d → headerOk d = true := by
  intro d hd
  rw [h] at hd
  cases hd
  exact hx

/-! ### Witnesses: for each completion statement a state and operands that meet each clause's hypotheses together -/

theorem witness_ReferenceRowsComplete :
  (∃ (s : State) (r : Ref), (s.tb.ref r).ok = false) ∧
  (∃ (s : State) (r : Ref) (err : Int) (off : Option Int), (s.tb.ref r).ok = true ∧ s.edgeFails r err off = true) ∧
  (∃ (s : State) (r : Ref) (err : Int) (off : Option Int), (s.tb.ref r).ok = true ∧ s.edgeFails r err off = false ∧
    s.tb.injects r = true) ∧
  (∃ (s : State) (r : Ref) (err : Int) (off : Option Int), (s.tb.ref r).ok = true ∧ s.edgeFails r err off = false ∧
    s.tb.injects r = false ∧ s.tb.acqRef = r ∧ s.tb.shadow = ShadowState.acquiring) ∧
  (∃ (s : State) (t : Nat) (r : Ref), (s.advance t).past (Timer.refEdge r) (s.tb.ref r).lost = true) ∧
  (∃ (s : State) (t : Nat) (r : Ref), (s.advance t).past (Timer.refEdge r) (s.tb.ref r).lost = false) ∧
  (∃ (s : State) (t : Nat), s.bit Reg.TB_CTRL 2 = true ∧ s.selRef = Ref.refA ∧ s.tb.liveRef = Ref.refB ∧ s.tb.refA.ok =
    true ∧ s.tb.refA.since + s.fld Reg.TB_ACQ 16 8 * secQ ≤ max s.now t ∧ (s.tb.st = TbState.locked ∨ s.tb.st =
    TbState.slewing)) ∧
  (∃ (s : State) (t : Nat), s.bit Reg.TB_CTRL 2 = true ∧ s.selRef = Ref.refA ∧ s.tb.liveRef = Ref.refB ∧ s.tb.refA.ok =
    true ∧ s.tb.refA.since + s.fld Reg.TB_ACQ 16 8 * secQ ≤ max s.now t ∧ s.tb.st = TbState.coasting) :=
  ⟨⟨State.reset, .refA, by decide +kernel⟩,
   ⟨(locked.setFld Reg.TB_LOCK 24 8 1), .refA, 1000, none, by decide +kernel⟩,
   ⟨locked, .refA, 0, none, by decide +kernel⟩,
   ⟨acquiring, .refA, 0, none, by decide +kernel⟩,
   ⟨locked, 0, .refA, by decide +kernel⟩,
   ⟨locked.start (.refEdge .refA), 0, .refA, by decide +kernel⟩,
   ⟨onRefB .locked, 0, by decide +kernel⟩,
   ⟨onRefB .coasting, 0, by decide +kernel⟩⟩

theorem witness_AcquisitionRowsComplete :
  (∃ (s : State), s.tb.shadow = ShadowState.searching) ∧
  (∃ (s : State), s.tb.shadow ≠ ShadowState.searching) ∧
  (∃ (s : State) (t : Nat), (s.tb.shadow = ShadowState.searching ∨ s.tb.shadow = ShadowState.acquiring) ∧ (s.advance
    t).past Timer.search (s.fld Reg.TB_ACQ 0 8 * msQ) = true) ∧
  (∃ (s : State) (t : Nat), (s.tb.shadow = ShadowState.idle ∨ s.tb.shadow = ShadowState.locked ∨ (s.advance t).past
    Timer.search (s.fld Reg.TB_ACQ 0 8 * msQ) = false)) ∧
  (∃ (s : State) (d0 : Nat), s.tb.d0 = some d0 ∧ s.tb.st = TbState.acquiring ∧ s.tb.shadow = ShadowState.locked) ∧
  (∃ (s : State), (s.tb.d0 = none ∨ s.tb.st ≠ TbState.acquiring ∨ s.tb.shadow ≠ ShadowState.locked)) ∧
  (∃ (s : State) (t : Nat) (d0 : Nat), s.tb.d0 = some d0 ∧ s.bit Reg.TB_CTRL 3 = true ∧ s.tb.st = TbState.stopped ∧
    s.tb.granted = true ∧ s.tb.drift ≠ [] ∧ s.tb.refA.ok = false ∧ s.tb.refB.ok = false ∧ s.tb.started + s.fld Reg.TB_ACQ
    8 8 * msQ ≤ max s.now t) :=
  ⟨⟨searching, by decide +kernel⟩,
   ⟨State.reset, by decide +kernel⟩,
   ⟨searching, 0, by decide +kernel⟩,
   ⟨State.reset, 0, by decide +kernel⟩,
   ⟨firstLock, 0, by decide +kernel⟩,
   ⟨State.reset, by decide +kernel⟩,
   ⟨(hub .stopped fun b => { b with drift := [(1, 5)], refA := {} }).setFld Reg.TB_CTRL 3 1 1, 0, 0, by decide +kernel⟩⟩

theorem witness_CorrectionRowsComplete :
  (∃ (s : State) (misalign : Int), s.tb.st = TbState.handover ∧ s.tb.shadow = ShadowState.locked ∧ misalign.natAbs ≤ 4) ∧
  (∃ (s : State) (misalign : Int), (s.tb.st ≠ TbState.handover ∨ s.tb.shadow ≠ ShadowState.locked ∨ 4 <
    misalign.natAbs)) ∧
  (∃ (s : State) (gap : Int), s.tb.shadow = ShadowState.locked ∧ s.tb.st = TbState.coasting ∧ s.tb.ret =
    ReturnPhase.measuring ∧ gap.natAbs ≤ 4 ∧ s.bit Reg.TB_RET_POLICY 1 = true ∧ s.bit Reg.TB_TOD_CTRL 0 = true) ∧
  (∃ (s : State) (gap : Int) (p0 : Nat × Nat), s.tb.shadow = ShadowState.locked ∧ s.tb.st = TbState.coasting ∧ s.tb.ret
    = ReturnPhase.measuring ∧ gap.natAbs ≤ 4 ∧ (s.bit Reg.TB_RET_POLICY 1 = false ∨ s.bit Reg.TB_TOD_CTRL 0 = false) ∧
    s.tb.p0 = some p0) ∧
  (∃ (s : State) (gap : Int), s.tb.st = TbState.coasting ∧ 4 < gap.natAbs) ∧
  (∃ (s : State), (s.tb.ret = ReturnPhase.none ∨ s.tb.ret = ReturnPhase.awaitTod)) ∧
  (∃ (s : State) (t : Nat), s.tb.st = TbState.slewing ∧ s.tb.slewRemain ≠ 0 ∧ s.slewDue ≤ (s.advance t).devTime) ∧
  (∃ (s : State) (t : Nat), (s.tb.st ≠ TbState.slewing ∨ s.tb.slewRemain = 0 ∨ (s.advance t).devTime < s.slewDue)) ∧
  (∃ (s : State) (rising : Bool), s.todActive rising = true ∧ s.tb.ret ≠ ReturnPhase.awaitTod ∧ s.tb.ret ≠
    ReturnPhase.held ∧ s.tb.st = TbState.locked ∧ (s.tb.aligned = false ∨ s.tb.todFirst = true)) ∧
  (∃ (s : State) (rising : Bool), s.todActive rising = true ∧ s.tb.ret ≠ ReturnPhase.awaitTod ∧ s.tb.ret ≠
    ReturnPhase.held ∧ s.tb.st = TbState.locked ∧ s.tb.aligned = true ∧ s.tb.todFirst = false) ∧
  (∃ (s : State) (rising : Bool), (s.bit Reg.TB_TOD_CTRL 0 = false ∨ s.tb.st.live = false ∨ rising = s.bit
    Reg.TB_TOD_CTRL 1)) ∧
  (∃ (s : State), s.bit Reg.TB_TOD_CTRL 0 = true ∧ s.tb.aligned = true) ∧
  (∃ (s : State), (s.bit Reg.TB_TOD_CTRL 0 = false ∨ s.tb.aligned = false)) :=
  ⟨⟨handover, 0, by decide +kernel⟩,
   ⟨State.reset, 0, by decide +kernel⟩,
   ⟨(coasting.setFld Reg.TB_TOD_CTRL 0 1 1).setFld Reg.TB_RET_POLICY 1 1 1, 4, by decide +kernel⟩,
   ⟨coasting, -4, (7, 1), by decide +kernel⟩,
   ⟨coasting, 5, by decide +kernel⟩,
   ⟨locked, by decide +kernel⟩,
   ⟨slewing, 10 ^ 17, by decide +kernel⟩,
   ⟨State.reset, 0, by decide +kernel⟩,
   ⟨(locked.setFld Reg.TB_TOD_CTRL 0 1 1).modTb fun b => { b with todFirst := true }, true, by decide +kernel⟩,
   ⟨locked.setFld Reg.TB_TOD_CTRL 0 1 1, true, by decide +kernel⟩,
   ⟨locked.setFld Reg.TB_TOD_CTRL 0 2 3, true, by decide +kernel⟩,
   ⟨locked.setFld Reg.TB_TOD_CTRL 0 1 1, by decide +kernel⟩,
   ⟨State.reset, by decide +kernel⟩⟩

theorem witness_HoldoverRowsComplete :
  (∃ (s : State) (t : Nat) (b : Nat) (since : Nat), s.tb.bin = some (b, since) ∧ s.tb.st = TbState.locked ∧ since + 10 *
    secQ ≤ max s.now t) ∧
  (∃ (s : State), (s.tb.bin = none ∨ s.tb.st ≠ TbState.locked)) ∧
  (∃ (s : State) (t : Nat), (s.tb.st = TbState.coasting ∨ s.tb.st = TbState.handover) ∧ s.tb.holdDue ≤ (s.advance
    t).devTime) ∧
  (∃ (s : State), s.tb.st ≠ TbState.coasting ∧ s.tb.st ≠ TbState.handover) ∧
  (∃ (s : State) (t : Nat), (s.advance t).devTime < s.tb.holdDue) ∧
  (∃ (s : State), s.tb.st.live = true) ∧
  (∃ (s : State), s.tb.st.live = false) ∧
  (∃ (s : State) (t : Nat), (s.advance t).devTime = spanMax ∧ s.tb.spanRaised = false) ∧
  (∃ (s : State) (t : Nat), ((s.advance t).devTime ≠ spanMax ∨ s.tb.spanRaised = true)) ∧
  (∃ (s : State) (t : Nat), s.pwr.st = PowerState.run ∧ (s.advance t).past Timer.therm (100 * usQ) = true) ∧
  (∃ (s : State) (t : Nat), (s.pwr.st ≠ PowerState.run ∨ (s.advance t).past Timer.therm (100 * usQ) = false)) :=
  ⟨⟨locked, 10 ^ 17, 5, 0, by decide +kernel⟩,
   ⟨State.reset, by decide +kernel⟩,
   ⟨coasting, 0, by decide +kernel⟩,
   ⟨State.reset, by decide +kernel⟩,
   ⟨coasting.modTb fun b => { b with holdLog := [(2 ^ 62, 0)] }, 0, by decide +kernel⟩,
   ⟨locked, by decide +kernel⟩,
   ⟨State.reset, by decide +kernel⟩,
   ⟨{ locked with devTime := spanMax }, 0, by decide +kernel⟩,
   ⟨State.reset, 0, by decide +kernel⟩,
   ⟨locked, 0, by decide +kernel⟩,
   ⟨{ State.reset with pwr := { st := .keeper } }, 0, by decide +kernel⟩⟩

theorem witness_TbCommandRowsComplete :
  (∃ (s : State) (p : Port), s.portReady p) ∧
  (∃ (s : State) (p : Port), s.portReady p ∧ s.tb.st = TbState.locked ∧ sx 64 (BitVec.toNat (s.reg Reg.TB_SLEW_REQ)) ≠
    0) ∧
  (∃ (s : State) (p : Port), s.portReady p ∧ s.tb.st = TbState.slewing) ∧
  (∃ (s : State) (p : Port), s.portReady p ∧ s.tb.st ≠ TbState.locked ∧ s.tb.st ≠ TbState.slewing) ∧
  (∃ (s : State) (p : Port) (byStep : Bool), s.portReady p ∧ s.tb.ret = ReturnPhase.held ∧ byStep = false) ∧
  (∃ (s : State) (p : Port) (byStep : Bool), s.portReady p ∧ s.tb.ret = ReturnPhase.held ∧ byStep = true ∧ 0 ≤ sx 64
    (BitVec.toNat (s.reg Reg.TB_OFFSET))) ∧
  (∃ (s : State) (p : Port) (byStep : Bool), s.portReady p ∧ s.tb.ret = ReturnPhase.held ∧ byStep = true ∧ sx 64
    (BitVec.toNat (s.reg Reg.TB_OFFSET)) < 0) ∧
  (∃ (s : State) (p : Port), s.portReady p ∧ s.tb.ret ≠ ReturnPhase.held) :=
  ⟨⟨locked, .host, by decide +kernel⟩,
   ⟨locked.setReg Reg.TB_SLEW_REQ 9, .host, by decide +kernel⟩,
   ⟨slewing, .host, by decide +kernel⟩,
   ⟨coasting, .host, by decide +kernel⟩,
   ⟨held.setReg Reg.TB_OFFSET 1000, .host, false, by decide +kernel⟩,
   ⟨held.setReg Reg.TB_OFFSET 1000, .host, true, by decide +kernel⟩,
   ⟨held.setReg Reg.TB_OFFSET (-1), .host, true, by decide +kernel⟩,
   ⟨locked, .host, by decide +kernel⟩⟩

theorem witness_FrontEndRowsComplete :
  (∃ (s : State) (t : Nat) (n : Fin 256), (s.advance t).fePowered n.val = true ∧ s.feOn n.val = true ∧ (s.input
    n.val).settling = false ∧ s.feBit n.val 3 = false) ∧
  (∃ (s : State) (t : Nat) (n : Fin 256) (v : Int), (s.advance t).fePowered n.val = true ∧ s.feOn n.val = true ∧
    (s.input n.val).settling = false ∧ s.feBit n.val 3 = false ∧ s.tb.st.live = true ∧ (s.input n.val).zone ≠
    Zone.unresolved ∧ (s.feDecide n.val v).zone ≠ (s.input n.val).zone ∧ (s.input n.val).cross = none ∧ (s.input
    n.val).windows = []) ∧
  (∃ (s : State) (t : Nat) (n : Fin 256) (v : Int) (code : Fin 512) (a : Nat) (b : Nat), (s.advance t).fePowered n.val =
    true ∧ s.feOn n.val = true ∧ (s.input n.val).settling = false ∧ s.feBit n.val 3 = false ∧ s.tb.st.live = true ∧
    (s.input n.val).zone ≠ Zone.unresolved ∧ (s.feDecide n.val v).zone ≠ (s.input n.val).zone ∧ (s.input n.val).cross =
    none ∧ (s.input n.val).windows = [(a, b)] ∧ (a ≤ (s.advance t).stampOf n.val (decide ((s.input n.val).zone.code <
    (s.feDecide n.val v).zone.code)) code.val ∧ (s.advance t).stampOf n.val (decide ((s.input n.val).zone.code <
    (s.feDecide n.val v).zone.code)) code.val < b)) ∧
  (∃ (s : State) (t : Nat) (n : Fin 256), (s.advance t).fePowered n.val = true ∧ s.feOn n.val = true ∧ (s.input
    n.val).settling = true) ∧
  (∃ (s : State) (n : Fin 256), ((s.input n.val).settling = false ∨ s.feOn n.val = false)) ∧
  (∃ (s : State) (t : Nat) (n : Fin 256) (a : Nat) (e : Nat), (s.input n.val).windows = [(a, e)] ∧ e ≤ (s.advance
    t).stampFloor n.val) ∧
  (∃ (s : State) (t : Nat) (n : Fin 256), (s.advance t).mayMerge n.val = false) ∧
  (∃ (s : State) (t : Nat) (n : Fin 256), ((s.input n.val).windows = [] ∨ ∃ a e r, (s.input n.val).windows = (a, e) :: r
    ∧ (s.advance t).stampFloor n.val < e) ∧ (s.input n.val).alarmDue = none) ∧
  (∃ (s : State) (t : Nat) (n : Fin 256), (s.advance t).fePowered n.val = true ∧ s.feOn n.val = true ∧ s.feBit n.val 3 =
    true ∧ (s.input n.val).settling = false ∧ s.tb.st.live = true ∧ s.farFld (Reg.FE_SAMP n.val) 0 16 ≠ 0 ∧ (s.input
    n.val).lastSample ≠ some ((s.advance t).devTime / (131072 * s.farFld (Reg.FE_SAMP n.val) 0 16) * (131072 * s.farFld
    (Reg.FE_SAMP n.val) 0 16))) ∧
  (∃ (s : State) (t : Nat) (n : Fin 256), (s.advance t).fePowered n.val = true ∧ s.feOn n.val = true ∧ s.feBit n.val 3 =
    true ∧ (s.input n.val).settling = false ∧ s.tb.st.live = true ∧ s.farFld (Reg.FE_SAMP n.val) 0 16 ≠ 0 ∧ (s.input
    n.val).lastSample = some ((s.advance t).devTime / (131072 * s.farFld (Reg.FE_SAMP n.val) 0 16) * (131072 * s.farFld
    (Reg.FE_SAMP n.val) 0 16))) ∧
  (∃ (s : State) (n : Fin 256), (s.feOn n.val = false ∨ s.feBit n.val 3 = false ∨ (s.input n.val).settling = true ∨
    s.tb.st.live = false)) ∧
  (∃ (s : State) (p : Port), s.portReady p) :=
  ⟨⟨inputOn 0x25 {}, 0, 0, by decide +kernel⟩,
   ⟨inputOn 0x25 { zone := .low, accepted := .low }, 0, 0, 2000000, by decide +kernel⟩,
   ⟨inputOn 0x25 { zone := .low, accepted := .low, windows := [(0, 2 ^ 63)] }, 0, 0, 2000000, 0, 0, 2 ^ 63,
    by decide +kernel⟩,
   ⟨inputOn 0x25 { settling := true }, 0, 0, by decide +kernel⟩,
   ⟨State.reset, 0, by decide +kernel⟩,
   ⟨locked.setInput 0 { windows := [(1, 2)] }, 0, 0, 1, 2, by decide +kernel⟩,
   ⟨locked.setInput 0 { alarmDue := some (.low, 5) }, 0, 0, by decide +kernel⟩,
   ⟨locked.setInput 0 { windows := [(1, 2 ^ 63)] }, 0, 0, .inr ⟨1, 2 ^ 63, [], by decide +kernel, by decide +kernel⟩,
    by decide +kernel⟩,
   ⟨inputOn 0x2D {}, 0, 0, by decide +kernel⟩,
   ⟨(inputOn 0x2D { zone := .low, lastSample := some (2 ^ 62 / 131072000 * 131072000) }), 0, 0, by decide +kernel⟩,
   ⟨State.reset, 0, by decide +kernel⟩,
   ⟨locked.setInput 0 { zone := .low }, .host, by decide +kernel⟩⟩

theorem witness_CaptureRowsComplete :
  (∃ (s : State) (t : Nat) (n : Fin 256), s.tb.st.live = true ∧ (s.input n.val).bucket < 64 ∧ (s.input n.val).refillAt +
    61440 ≤ max s.now t) ∧
  (∃ (s : State) (t : Nat) (n : Fin 256), (s.tb.st.live = false ∨ 64 ≤ (s.input n.val).bucket ∨ max s.now t < (s.input
    n.val).refillAt + 61440) ∧ (s.input n.val).alarmDue = none) ∧
  (∃ (s : State) (t : Nat), s.tb.st.live = true ∧ s.decayed < (s.advance t).devTime / usQ) ∧
  (∃ (s : State), s.tb.st.live = false) ∧
  (∃ (s : State) (t : Nat), (s.advance t).devTime / usQ ≤ s.decayed) ∧
  (∃ (s : State) (t : Nat) (n : Fin 256), s.tb.st.live = true ∧ s.bit (Reg.CAP_CTRL n.val) 0 = true ∧ (s.input
    n.val).hitCount < 2 ^ 20 ∧ (s.input n.val).lastEdge ≠ some (s.boundaryTo (s.advance t).devTime)) ∧
  (∃ (s : State) (t : Nat) (n : Fin 256), (s.tb.st.live = false ∨ s.bit (Reg.CAP_CTRL n.val) 0 = false ∨ (s.input
    n.val).lastEdge = some (s.boundaryTo (s.advance t).devTime))) ∧
  (∃ (s : State) (n : Fin 256), (s.input n.val).hitCount = 2 ^ 20) ∧
  (∃ (s : State) (n : Fin 256), (s.input n.val).hitCount ≠ 2 ^ 20) ∧
  (∃ (s : State) (t : Nat) (n : Fin 256), (s.input n.val).openFrags ≠ [] ∧ (s.input n.val).openAt + s.fld (Reg.CAP_FLUSH
    n.val) 0 12 * 512 ≤ max s.now t ∧ (s.input n.val).fifo.length < 256) ∧
  (∃ (s : State) (t : Nat) (n : Fin 256), ((s.input n.val).openFrags = [] ∨ 256 ≤ (s.input n.val).fifo.length ∨ max
    s.now t < (s.input n.val).openAt + s.fld (Reg.CAP_FLUSH n.val) 0 12 * 512)) ∧
  (∃ (s : State) (n : Fin 256), (s.input n.val).ovfl ≠ 0 ∧ (Mark.ovfl (s.input n.val).ovfl).encode.length.cast ≤
    (s.input n.val).ovflRoom) ∧
  (∃ (s : State) (n : Fin 256), (s.input n.val).ovfl = 0) ∧
  (∃ (s : State) (t : Nat) (n : Fin 256), s.tb.st.live = true ∧ (s.input n.val).lastTime + 2 ^ 52 ≤ (s.advance
    t).devTime ∧ (s.input n.val).ovfl = 0 ∧ 6 ≤ (s.input n.val).dataRoom) ∧
  (∃ (s : State) (t : Nat) (n : Fin 256), (s.tb.st.live = false ∨ (s.advance t).devTime < (s.input n.val).lastTime + 2 ^
    52)) :=
  ⟨⟨locked.setInput 0 { bucket := 63 }, 0, 0, by decide +kernel⟩,
   ⟨locked.setInput 0 { bucket := 64 }, 0, 0, by decide +kernel⟩,
   ⟨locked.setInput 0 { rate := 2 }, 0, by decide +kernel⟩,
   ⟨State.reset, by decide +kernel⟩,
   ⟨{ locked.setInput 0 { rate := 2 } with decayed := 2 ^ 62 }, 0, by decide +kernel⟩,
   ⟨locked, 0, 0, by decide +kernel⟩,
   ⟨State.reset, 0, 0, by decide +kernel⟩,
   ⟨locked.setInput 0 { hitCount := 2 ^ 20 }, 0, by decide +kernel⟩,
   ⟨State.reset, 0, by decide +kernel⟩,
   ⟨locked.setInput 0 { openFrags := [0x4000] }, 0, 0, by decide +kernel⟩,
   ⟨State.reset, 0, 0, by decide +kernel⟩,
   ⟨locked.setInput 0 { ovfl := 3 }, 0, by decide +kernel⟩,
   ⟨State.reset, 0, by decide +kernel⟩,
   ⟨locked, 0, 0, by decide +kernel⟩,
   ⟨State.reset, 0, 0, by decide +kernel⟩⟩

theorem witness_EngineRowsComplete :
  (∃ (s : State) (t : Nat) (n : Fin 256) (w : MailWord) (rest : List MailWord), (s.input n.val).fifo = w :: rest ∧
    s.arbiterHeld (Source.local n.val) = false ∧ (rest = [] → (s.input n.val).openFrags = [] → (s.advance t).mayMerge
    n.val = false)) ∧
  (∃ (s : State) (n : Fin 256), (s.input n.val).fifo = []) ∧
  (∃ (s : State) (n : Fin 256), (s.input n.val).fifo ≠ [] ∧ s.arbiterHeld (Source.local n.val) = true) ∧
  (∃ (s : State) (c : BitVec 20) (use : Nat) (i : Item) (rest : List (Nat × Item)), (s.chan c.toNat).inbox = (use, i) ::
    rest ∧ s.engineHeld (s.chan c.toNat).place.engine = false ∧ s.sealedCastling c.toNat = none ∧ (s.chan c.toNat).waits
    i.stamp = false ∧ s.pst.endgame = none ∧ (s.chan c.toNat).takes i.stamp = true ∧ i.kind = ItemKind.edge ∧ ((s.chan
    c.toNat).decl.kind = Kind.edge ∨ (s.chan c.toNat).decl.kind = Kind.window ∨ (s.chan c.toNat).decl.kind = Kind.remote)) ∧
  (∃ (s : State) (c : BitVec 20) (use : Nat) (i : Item) (rest : List (Nat × Item)), (s.chan c.toNat).inbox = (use, i) ::
    rest ∧ s.engineHeld (s.chan c.toNat).place.engine = false ∧ s.sealedCastling c.toNat = none ∧ (s.chan c.toNat).waits
    i.stamp = false ∧ s.pst.endgame = none ∧ (s.chan c.toNat).takes i.stamp = false) ∧
  (∃ (s : State) (t : Nat) (c : BitVec 20) (e : QuadChange), (s.chan c.toNat).quad.todo = [e] ∧ s.engineHeld (s.chan
    c.toNat).place.engine = false ∧ s.sealedCastling c.toNat = none ∧ (s.chan c.toNat).quad.ready = true ∧ e.est = none ∧
    e.headless = false ∧ e.unstamped = 0 ∧ e.stamp + 860652 ≤ (s.advance t).devTime) :=
  ⟨⟨locked.setInput 0 { fifo := [{ frags := [], seq := 1, flushed := false, items := [] }] }, 0, 0,
    { frags := [], seq := 1, flushed := false, items := [] }, [], by decide +kernel⟩,
   ⟨locked, 255, by decide +kernel⟩,
   ⟨{ (chan { st := .castling, back := .live, decl := { srcA := .local 0 } }).setInput 0 { fifo := [⟨[], 0, false, []⟩] } with plc := { castlings := [{ move := { chan := 5, toEngine := 3, window := 0 }, sealed := true, diverted := List.replicate 32 [] }] } },
    0, by decide +kernel⟩,
   ⟨chan { st := .live, inbox := [(0, { kind := .edge, stamp := 2 ^ 61, rising := true })] }, 5, 0,
    { kind := .edge, stamp := 2 ^ 61, rising := true }, [], by decide +kernel⟩,
   ⟨chan { inbox := [(0, { kind := .edge, stamp := 2 ^ 61, rising := true })] }, 5, 0,
    { kind := .edge, stamp := 2 ^ 61, rising := true }, [], by decide +kernel⟩,
   ⟨chan
    { st := .live, decl := { kind := .quad }, quad := { zoneA := .low, zoneB := .low, todo := [{ stamp := 9, onB := false, rising := true, timed := true }] } },
    0, 5, { stamp := 9, onB := false, rising := true, timed := true }, by decide +kernel⟩⟩

theorem witness_FetchRowsComplete :
  (∃ (s : State) (ring : Fin 64) (descs : List Desc), 1 ≤ descs.length ∧ descs.length ≤ 8 ∧ s.fetches ring.val = true ∧
    descs.length ≤ s.unfetched ring.val ∧ (∀ (d : Desc), ((s.ring ring.val).fetched ++ descs).head? = some d → headerOk d
    = true)) ∧
  (∃ (s : State) (ring : Fin 64) (descs : List Desc) (d : Desc), 1 ≤ descs.length ∧ descs.length ≤ 8 ∧ s.fetches
    ring.val = true ∧ 1 ≤ s.unfetched ring.val ∧ (s.ring ring.val).fetched = [] ∧ descs = [d] ∧ headerOk d = false) ∧
  (∃ (s : State) (ring : Fin 64) (descs : List Desc), 1 ≤ descs.length ∧ descs.length ≤ 8 ∧ (s.fetches ring.val = false
    ∨ s.unfetched ring.val < descs.length)) ∧
  (∃ (s : State) (ring : Fin 64) (descs : List Desc), descs.length ≤ 7 ∧ s.fetches ring.val = true ∧ descs.length <
    s.unfetched ring.val ∧ (∀ (d : Desc), ((s.ring ring.val).fetched ++ descs).head? = some d → headerOk d = true)) ∧
  (∃ (s : State) (ring : Fin 64) (descs : List Desc), descs.length ≤ 7 ∧ (s.fetches ring.val = false ∨ s.unfetched
    ring.val ≤ descs.length)) :=
  ⟨⟨given locked [], 2, [desc 1 []], by decide +kernel, by decide +kernel, by decide +kernel, by decide +kernel, head_ok
    (desc 1 []) (by decide +kernel) (by decide +kernel)⟩,
   ⟨given locked [], 2, [desc 0 []], desc 0 [], by decide +kernel⟩,
   ⟨locked, 2, [desc 1 []], by decide +kernel⟩,
   ⟨given locked [], 2, [desc 1 []], by decide +kernel, by decide +kernel, by decide +kernel, head_ok (desc 1 [])
    (by decide +kernel) (by decide +kernel)⟩,
   ⟨State.reset, 0, [], by decide +kernel⟩⟩

theorem witness_LifecycleRowsComplete :
  (∃ (s : State) (ring : Fin 64) (d : Desc), s.head ring.val 16 = some d ∧ (s.chan (descChan d)).waitsDesc = false ∧
    s.slotLoading (declOf d) = false ∧ declFieldOk d = true ∧ declRangeOk d = true ∧ (s.chan (descChan d)).st =
    ChanState.vacant ∧ s.bindOk (declOf d) = true ∧ s.capacityOk (descChan d) (declOf d) = true ∧ s.pinRoom (descChan d)
    (declOf d) = true ∧ s.guardOk (descChan d) (declOf d) = true) ∧
  (∃ (s : State) (ring : Fin 64) (d : Desc), s.head ring.val 16 = some d ∧ (s.chan (descChan d)).waitsDesc = false ∧
    s.slotLoading (declOf d) = false ∧ declFieldOk d = true ∧ declRangeOk d = true ∧ (s.chan (descChan d)).st ≠
    ChanState.vacant ∧ (s.ring ring.val).fetched = [d]) ∧
  (∃ (s : State) (t : Nat) (c : BitVec 20), (s.chan c.toNat).st = ChanState.declared ∧ (s.chan c.toNat).op = none ∧
    (s.chan c.toNat).restoring = none ∧ (s.chan c.toNat).decl.start ≤ (s.advance t).devTime) ∧
  (∃ (s : State) (c : BitVec 20), (s.chan c.toNat).st ≠ ChanState.declared) ∧
  (∃ (s : State) (ring : Fin 64) (d : Desc) (x : Decl), x =
    { declOf d with start := (s.chan (descChan d)).decl.start, countInit := (s.chan (descChan d)).decl.countInit } ∧
    s.head ring.val 17 = some d ∧ (s.chan (descChan d)).waitsDesc = false ∧ s.slotLoading x = false ∧ declFieldOk d = true
    ∧ declRangeOk d = true ∧ ((s.chan (descChan d)).st = ChanState.live ∨ (s.chan (descChan d)).st = ChanState.paused) ∧
    s.bindOk x = true ∧ x.kind = (s.chan (descChan d)).decl.kind ∧ x.guarded = (s.chan (descChan d)).decl.guarded ∧
    s.capacityOk (descChan d) x = true ∧ s.guardOk (descChan d) x = true) ∧
  (∃ (s : State) (t : Nat) (c : BitVec 20) (d : Decl) (tag : Dword) (a : Nat) (r : Nat) (tr : Nat), ((((s.advance
    t).quadAll c.toNat).pairAll c.toNat).chan c.toNat).op = some (ChanOp.redeclare d tag a r) ∧ (((s.advance t).quadAll
    c.toNat).pairAll c.toNat).opTime ((((s.advance t).quadAll c.toNat).pairAll c.toNat).chan c.toNat) = some tr ∧
    ((((s.advance t).quadAll c.toNat).pairAll c.toNat).chan c.toNat).old = none ∧ (((s.advance t).quadAll c.toNat).pairAll
    c.toNat).drained c.toNat tr = true ∧ (((s.advance t).quadAll c.toNat).pairAll c.toNat).sealedCastling c.toNat = none) ∧
  (∃ (s : State) (t : Nat) (c : BitVec 20) (d : Decl) (tag : Dword) (a : Nat) (r : Nat) (tr : Nat), ((((s.advance
    t).quadAll c.toNat).pairAll c.toNat).chan c.toNat).op = some (ChanOp.redeclare d tag a r) ∧ (((s.advance t).quadAll
    c.toNat).pairAll c.toNat).opTime ((((s.advance t).quadAll c.toNat).pairAll c.toNat).chan c.toNat) = some tr ∧
    ((((s.advance t).quadAll c.toNat).pairAll c.toNat).chan c.toNat).old = none ∧ (((s.advance t).quadAll c.toNat).pairAll
    c.toNat).drained c.toNat tr = false) ∧
  (∃ (s : State) (ring : Fin 64) (d : Desc), s.head ring.val 18 = some d ∧ (s.chan (descChan d)).waitsDesc = false ∧
    shortOk d true = true ∧ (s.chan (descChan d)).st = ChanState.live) ∧
  (∃ (s : State) (t : Nat) (c : BitVec 20) (countOnly : Bool) (tag : Dword) (a : Nat) (r : Nat) (tp : Nat),
    ((((s.advance t).quadAll c.toNat).pairAll c.toNat).chan c.toNat).op = some (ChanOp.pause countOnly tag a r) ∧
    (((s.advance t).quadAll c.toNat).pairAll c.toNat).opTime ((((s.advance t).quadAll c.toNat).pairAll c.toNat).chan
    c.toNat) = some tp ∧ ((((s.advance t).quadAll c.toNat).pairAll c.toNat).chan c.toNat).st = ChanState.live ∧
    ((((s.advance t).quadAll c.toNat).pairAll c.toNat).chan c.toNat).gap = none ∧ (((s.advance t).quadAll c.toNat).pairAll
    c.toNat).caughtUp c.toNat tp = true ∧ (countOnly = true → ((((s.advance t).quadAll c.toNat).pairAll c.toNat).chan
    c.toNat).resolved = tp ∨ (((s.advance t).quadAll c.toNat).pairAll c.toNat).bracketDone c.toNat tp = true)) ∧
  (∃ (s : State) (ring : Fin 64) (d : Desc), s.head ring.val 19 = some d ∧ (s.chan (descChan d)).waitsDesc = false ∧
    shortOk d false = true ∧ (s.chan (descChan d)).st = ChanState.paused) ∧
  (∃ (s : State) (t : Nat) (c : BitVec 20) (g : GapOwed), (s.chan c.toNat).gap = some g ∧ (s.chan c.toNat).st =
    ChanState.live ∧ s.sealedCastling c.toNat = none ∧ (g.frozen = false → (((s.advance t).quadAll c.toNat).pairAll
    c.toNat).caughtUp c.toNat g.to_ = true ∧ (((s.advance t).quadAll c.toNat).pairAll c.toNat).bracketDone c.toNat g.to_ =
    true)) ∧
  (∃ (s : State) (t : Nat) (c : BitVec 20) (g : GapOwed), (s.chan c.toNat).gap = none ∧ s.sealedCastling c.toNat = none
    ∧ ((((s.advance t).quadAll c.toNat).pairAll c.toNat).chan c.toNat).laneGap = some g ∧ g.startOwed = true ∧
    (((s.advance t).quadAll c.toNat).pairAll c.toNat).caughtUp c.toNat g.from_ = true ∧ (((s.advance t).quadAll
    c.toNat).pairAll c.toNat).bracketDone c.toNat g.from_ = true) ∧
  (∃ (s : State) (t : Nat) (c : BitVec 20) (g : GapOwed), (s.chan c.toNat).gap = none ∧ s.sealedCastling c.toNat = none
    ∧ ((((s.advance t).quadAll c.toNat).pairAll c.toNat).chan c.toNat).laneGap = some g ∧ g.startOwed = false ∧ g.endOwed
    = false ∧ (((s.advance t).quadAll c.toNat).pairAll c.toNat).caughtUp c.toNat g.to_ = true ∧ (((s.advance t).quadAll
    c.toNat).pairAll c.toNat).bracketDone c.toNat g.to_ = true) ∧
  (∃ (s : State) (ring : Fin 64) (d : Desc), s.head ring.val 20 = some d ∧ (s.chan (descChan d)).waitsDesc = false ∧
    shortOk d true = true ∧ ((s.chan (descChan d)).st = ChanState.declared ∨ (s.chan (descChan d)).st = ChanState.live ∨
    (s.chan (descChan d)).st = ChanState.paused)) ∧
  (∃ (s : State) (t : Nat) (c : BitVec 20) (now : Bool) (tag : Dword) (a : Nat) (r : Nat) (tx : Nat), ((((s.advance
    t).quadAll c.toNat).pairAll c.toNat).chan c.toNat).op = some (ChanOp.retire now tag a r) ∧ (((s.advance t).quadAll
    c.toNat).pairAll c.toNat).opTime ((((s.advance t).quadAll c.toNat).pairAll c.toNat).chan c.toNat) = some tx ∧
    ((((s.advance t).quadAll c.toNat).pairAll c.toNat).chan c.toNat).st ≠ ChanState.castling ∧ (((((s.advance t).quadAll
    c.toNat).pairAll c.toNat).chan c.toNat).gap = none ∨ ((((s.advance t).quadAll c.toNat).pairAll c.toNat).chan
    c.toNat).st ≠ ChanState.live) ∧ (((((s.advance t).quadAll c.toNat).pairAll c.toNat).chan c.toNat).counting = true →
    (((s.advance t).quadAll c.toNat).pairAll c.toNat).caughtUp c.toNat tx = true)) :=
  ⟨⟨given locked [desc 0x10 [(8, 0, 20, 5), (12, 20, 2, 1), (0x18, 0, 5, 31)]], 2, desc 0x10 [(8, 0, 20, 5), (12, 20, 2,
    1), (0x18, 0, 5, 31)], by decide +kernel⟩,
   ⟨given (chan { st := .live }) [desc 0x10 [(8, 0, 20, 5), (12, 20, 2, 1), (0x18, 0, 5, 31)]], 2, desc 0x10 [(8, 0, 20,
    5), (12, 20, 2, 1), (0x18, 0, 5, 31)], by decide +kernel⟩,
   ⟨chan { st := .declared, tB := 2 ^ 62 }, 10 ^ 17, 5, by decide +kernel⟩,
   ⟨State.reset, 0, by decide +kernel⟩,
   ⟨given (chan { st := .live, decl := { srcA := .local 0 } }) [desc 0x11 [(8, 0, 20, 5), (12, 20, 2, 1), (12, 0, 16, 1),
    (0x18, 0, 5, 31)]], 2, desc 0x11 [(8, 0, 20, 5), (12, 20, 2, 1), (12, 0, 16, 1), (0x18, 0, 5, 31)], _, rfl,
    by decide +kernel⟩,
   ⟨chan { st := .live, op := some (.redeclare { samples := true } 7 3 2), opAt := some (2 ^ 61) }, 0, 5,
    { samples := true }, 7, 3, 2, 2 ^ 61, by decide +kernel⟩,
   ⟨chan { st := .live, op := some (.redeclare { samples := true } 7 3 2), opAt := some (2 ^ 62) }, 0, 5,
    { samples := true }, 7, 3, 2, 2 ^ 62, by decide +kernel⟩,
   ⟨given (chan { st := .live }) [desc 0x12 [(8, 0, 20, 5)]], 2, desc 0x12 [(8, 0, 20, 5)], by decide +kernel⟩,
   ⟨chan { st := .live, op := some (.pause false 7 3 2), opAt := some 9 }, 0, 5, false, 7, 3, 2, 9, by decide +kernel⟩,
   ⟨given (chan { st := .paused }) [desc 0x13 [(8, 0, 20, 5)]], 2, desc 0x13 [(8, 0, 20, 5)], by decide +kernel⟩,
   ⟨chan { st := .live, gap := some { code := 1, from_ := 3, to_ := 9, count := 4, phase := 0 } }, 0, 5,
    { code := 1, from_ := 3, to_ := 9, count := 4, phase := 0 }, by decide +kernel⟩,
   ⟨chan
    { st := .live, laneGap := some { code := 2, from_ := 9, to_ := 0, count := 0, phase := 0, startOwed := true, endOwed := true } },
    0, 5, { code := 2, from_ := 9, to_ := 0, count := 0, phase := 0, startOwed := true, endOwed := true },
    by decide +kernel⟩,
   ⟨chan { st := .live, laneGap := some { code := 1, from_ := 3, to_ := 9, count := 4, phase := 0 } }, 0, 5,
    { code := 1, from_ := 3, to_ := 9, count := 4, phase := 0 }, by decide +kernel⟩,
   ⟨given (chan { st := .live }) [desc 0x14 [(8, 0, 20, 5)]], 2, desc 0x14 [(8, 0, 20, 5)], by decide +kernel⟩,
   ⟨chan { st := .live, op := some (.retire true 7 3 2), opAt := some 9 }, 0, 5, true, 7, 3, 2, 9, by decide +kernel⟩⟩

theorem witness_CadenceRowsComplete :
  (∃ (s : State) (t : Nat) (c : Fin 16), (s.cadence c.val).running = true ∧ s.tb.st.live = true ∧ (s.cadence c.val).next
    ≤ (s.advance t).devTime) ∧
  (∃ (s : State) (t : Nat) (c : Fin 16), ((s.cadence c.val).running = false ∨ s.tb.st.live = false ∨ (s.advance
    t).devTime < (s.cadence c.val).next)) ∧
  (∃ (s : State) (t : Nat) (pin : Fin 4), tget 0 s.cadEnd pin.val ≤ max s.now t) ∧
  (∃ (s : State) (t : Nat) (pin : Fin 4), max s.now t < tget 0 s.cadEnd pin.val) ∧
  (∃ (s : State) (p : Port) (c : Fin 16), s.portReady p ∧ s.bit (Reg.CAD_CTRL c.val) 0 = false) ∧
  (∃ (s : State) (p : Port) (c : Fin 16), s.portReady p ∧ s.bit (Reg.CAD_CTRL c.val) 0 = true) ∧
  (∃ (s : State) (p : Port) (c : Fin 16) (phase : Bool) (value : Word), s.portReady p ∧ (gridOk (if phase = true then
    s.cadP c.val else periodOf value) (if phase = true then fieldOf (BitVec.toNat value) 0 54 else s.cadPhase c.val) =
    true)) ∧
  (∃ (s : State) (p : Port) (c : Fin 16) (phase : Bool) (value : Word), s.portReady p ∧ (gridOk (if phase = true then
    s.cadP c.val else periodOf value) (if phase = true then fieldOf (BitVec.toNat value) 0 54 else s.cadPhase c.val) =
    false)) :=
  ⟨⟨locked.setCadence 0 { running := true, next := 2 ^ 61 }, 0, 0, by decide +kernel⟩,
   ⟨State.reset, 0, 0, by decide +kernel⟩,
   ⟨State.reset, 0, 0, by decide +kernel⟩,
   ⟨{ locked with cadEnd := [(0, 10 ^ 17)] }, 0, 0, by decide +kernel⟩,
   ⟨locked, .host, 0, by decide +kernel⟩,
   ⟨locked.setFld (Reg.CAD_CTRL 0) 0 1 1, .host, 0, by decide +kernel⟩,
   ⟨locked, .host, 0, false, 1228800, by decide +kernel⟩,
   ⟨locked, .host, 0, false, 1228799, by decide +kernel⟩⟩

theorem witness_InstantRowsComplete :
  (∃ (s : State) (t : Nat) (i : Nat) (c : BitVec 20), ((s.advance t).quadNow c.toNat).dueInstant c.toNat = some i ∧
    ((s.advance t).quadNow c.toNat).bracketReady (((s.advance t).quadNow c.toNat).chan c.toNat) ((((s.advance t).quadNow
    c.toNat).chan c.toNat).declAt i) i = true) ∧
  (∃ (s : State) (t : Nat) (i : Nat) (c : BitVec 20), ((s.advance t).quadNow c.toNat).dueInstant c.toNat = some i ∧
    ((s.advance t).quadNow c.toNat).bracketReady (((s.advance t).quadNow c.toNat).chan c.toNat) ((((s.advance t).quadNow
    c.toNat).chan c.toNat).declAt i) i = false) ∧
  (∃ (s : State) (t : Nat) (i : Nat) (c : BitVec 20), ((s.advance t).quadNow c.toNat).dueInstant c.toNat = some i ∧
    ((s.advance t).quadNow c.toNat).bracketReady (((s.advance t).quadNow c.toNat).chan c.toNat) ((((s.advance t).quadNow
    c.toNat).chan c.toNat).declAt i) i = false ∧ (((s.advance t).quadNow c.toNat).chan c.toNat).allOverdue ((((s.advance
    t).quadNow c.toNat).chan c.toNat).declAt i) i (s.advance t).devTime = true) ∧
  (∃ (s : State) (t : Nat) (i : Nat) (c : BitVec 20), ((s.advance t).quadNow c.toNat).dueInstant c.toNat = some i ∧
    ((s.advance t).quadNow c.toNat).bracketReady (((s.advance t).quadNow c.toNat).chan c.toNat) ((((s.advance t).quadNow
    c.toNat).chan c.toNat).declAt i) i = false ∧ (((s.advance t).quadNow c.toNat).chan c.toNat).allOverdue ((((s.advance
    t).quadNow c.toNat).chan c.toNat).declAt i) i (s.advance t).devTime = false) ∧
  (∃ (s : State) (t : Nat) (c : BitVec 20), ((s.advance t).quadNow c.toNat).dueInstant c.toNat = none) :=
  ⟨⟨chan { st := .live, decl := { srcA := .local 0 }, instants := [2 ^ 61] }, 0, 2 ^ 61, 5, by decide +kernel⟩,
   ⟨(chan { st := .live, decl := { srcA := .local 0, wait := 1000000 }, instants := [2 ^ 62 - 1000000] }).setInput 0
    { zone := .low, known := [(0, true)] }, 0, 2 ^ 62 - 1000000, 5, by decide +kernel⟩,
   ⟨(chan { st := .live, decl := { srcA := .local 0, wait := 1000000 }, instants := [2 ^ 61] }).setInput 0
    { zone := .low, known := [(0, true)] }, 0, 2 ^ 61, 5, by decide +kernel⟩,
   ⟨(chan { st := .live, decl := { srcA := .local 0, wait := 1000000 }, instants := [2 ^ 62 - 1000000] }).setInput 0
    { zone := .low, known := [(0, true)] }, 0, 2 ^ 62 - 1000000, 5, by decide +kernel⟩,
   ⟨State.reset, 0, 0, by decide +kernel⟩⟩

theorem witness_LoadRowsComplete :
  (∃ (s : State) (ring : Fin 64) (d : Desc) (buf : List Dword), s.head ring.val 32 = some d ∧ descOnly d [(8, 0, 14),
    (16, 0, 64), (24, 0, 32)] = true ∧ df d 16 0 3 = 0 ∧ 416 ≤ df d 24 0 32 ∧ buf.length = 104 ∧ imageCheck buf = none ∧
    s.slotUsed (df d 8 0 8) = false) ∧
  (∃ (s : State) (ring : Fin 64) (d : Desc), s.head ring.val 32 = some d ∧ (s.ring ring.val).fetched = [d] ∧ descOnly d
    [(8, 0, 14), (16, 0, 64), (24, 0, 32)] = true ∧ df d 16 0 3 = 0 ∧ 416 ≤ df d 24 0 32) ∧
  (∃ (s : State) (ring : Fin 64) (d : Desc) (buf : List Dword), s.head ring.val 33 = some d ∧ descOnly d [(8, 0, 6), (8,
    8, 6), (12, 0, 10), (12, 16, 11), (16, 0, 64), (24, 0, 32)] = true ∧ df d 16 0 2 = 0 ∧ df d 12 0 10 % 4 = 0 ∧ df d 12
    16 11 % 4 = 0 ∧ df d 12 16 11 ≠ 0 ∧ df d 12 0 10 + df d 12 16 11 ≤ 1024 ∧ df d 12 16 11 ≤ df d 24 0 32 ∧ 4 *
    buf.length = df d 12 16 11) ∧
  (∃ (s : State) (slot : Nat) (ack : Nat) (tag : Dword) (img : List Dword) (r : Nat) (rest : List Load), s.loads =
    Load.recipe slot ack tag img r :: rest) ∧
  (∃ (s : State) (b : Nat) (ack : Nat) (tag : Dword) (first : Nat) (data : List Dword) (r : Nat) (rest : List Load),
    s.loads = Load.bank b ack tag first data r :: rest) ∧
  (∃ (s : State), s.loads = []) :=
  ⟨⟨given (delivers locked {}) [desc 32 [(8, 0, 8, 255), (8, 8, 6, 1), (24, 0, 32, 416)]], 2, desc 32 [(8, 0, 8, 255),
    (8, 8, 6, 1), (24, 0, 32, 416)], List.replicate 104 0, by decide +kernel⟩,
   ⟨given (delivers locked {}) [desc 32 [(24, 0, 32, 416)]], 2, desc 32 [(24, 0, 32, 416)], by decide +kernel⟩,
   ⟨given (delivers locked {}) [desc 33 [(8, 8, 6, 1), (12, 16, 11, 1024), (24, 0, 32, 1024)]], 2, desc 33 [(8, 8, 6, 1),
    (12, 16, 11, 1024), (24, 0, 32, 1024)], List.replicate 256 1, by decide +kernel⟩,
   ⟨{ delivers locked {} with loads := [.recipe 255 1 7 (List.replicate 104 0) 2] }, 255, 1, 7, List.replicate 104 0, 2,
    [], by decide +kernel⟩,
   ⟨{ delivers locked {} with loads := [.bank 63 1 7 255 [9] 2] }, 63, 1, 7, 255, [9], 2, [], by decide +kernel⟩,
   ⟨State.reset, by decide +kernel⟩⟩

theorem witness_StatisticsRowsComplete :
  (∃ (s : State) (ring : Fin 64) (d : Desc), s.head ring.val 48 = some d ∧ (s.chan (descChan d)).waitsDesc = false ∧ df
    d 8 20 1 = 0 ∧ descOnly d [(8, 0, 22), (12, 0, 8), (16, 0, 64), (24, 0, 32)] = true ∧ f64Positive (BitVec.ofNat 64 (df
    d 16 0 64)) = true ∧ -64 ≤ sx 8 (df d 12 0 8) ∧ sx 8 (df d 12 0 8) ≤ 63 ∧ (s.chan (descChan d)).holds = true ∧
    s.devUse < 8192) ∧
  (∃ (s : State) (ring : Fin 64) (d : Desc), s.head ring.val 48 = some d ∧ (s.chan (descChan d)).waitsDesc = false ∧ df
    d 8 20 1 = 1 ∧ descOnly d [(8, 0, 21)] = true ∧ (s.chan (descChan d)).holds = true ∧ (s.chan (descChan d)).dev.isSome
    = true) ∧
  (∃ (s : State) (ring : Fin 64) (d : Desc), s.head ring.val 49 = some d ∧ (s.chan (descChan d)).waitsDesc = false ∧ df
    d 8 20 1 = 1 ∧ descOnly d [(8, 0, 21), (8, 25, 2)] = true ∧ (s.chan (descChan d)).holds = true ∧ (tget? (s.chan
    (descChan d)).histos (df d 8 25 2)).isSome = true) ∧
  (∃ (s : State) (ring : Fin 64) (d : Desc), s.head ring.val 49 = some d ∧ (s.chan (descChan d)).waitsDesc = false ∧ df
    d 8 20 1 = 0 ∧ descOnly d [(8, 0, 27), (12, 0, 6), (12, 8, 7), (16, 0, 64), (24, 0, 32), (32, 0, 64), (40, 0, 8)] =
    true ∧ df d 8 22 3 ≤ 4 ∧ df d 12 0 6 ≤ 40 ∧ (df d 24 0 32 ≠ 0 ∨ df d 8 21 1 = 0) ∧ (s.chan (descChan d)).holds = true
    ∧ histoSuits (s.chan (descChan d)).decl (df d 8 22 3) = true ∧ s.histoUse + 2 ≤ 4096 ∧ (∀ x ∈ (s.chan (descChan
    d)).histos, x.2.mode = 0 → x.1 = df d 8 25 2)) ∧
  (∃ (s : State) (ring : Fin 64) (d : Desc), s.head ring.val 50 = some d ∧ (s.chan (descChan d)).waitsDesc = false ∧
    descOnly d [(8, 0, 27)] = true ∧ (df d 8 20 1 = 1 ∨ df d 8 21 1 = 1 ∨ df d 8 22 4 ≠ 0) ∧ (s.chan (descChan d)).holds =
    true ∧ (df d 8 21 1 = 1 → (s.chan (descChan d)).dev.isSome = true) ∧ (∀ (no : Fin 4), (BitVec.ofNat 4 (df d 8 22
    4)).getLsbD no.val = true → (tget? (s.chan (descChan d)).histos no.val).isSome = true)) ∧
  (∃ (s : State) (t : Nat) (x : Nat) (c : BitVec 20) (release : Bool) (y : Bool) (dq : Int) (unit : Word) (n : Nat) (tag
    : Dword) (a : Nat) (r : Nat) (rest : List (TargetOp × Option Nat)), (s.chan c.toNat).targets = (TargetOp.dev release y
    dq unit n tag a r, some x) :: rest ∧ x ≤ (s.advance t).devTime ∧ (∀ i ∈ (s.chan c.toNat).instants, x ≤ i) ∧
    s.engineHeld (s.chan c.toNat).place.engine = false ∧ s.sealedCastling c.toNat = none ∧ (s.advance t).settled (s.chan
    c.toNat).decl x = true ∧ (∀ i ∈ (s.chan c.toNat).inbox, x ≤ i.2.stamp) ∧ (s.chan c.toNat).pair.todo = []) ∧
  (∃ (s : State) (c : BitVec 20), (s.chan c.toNat).targets = []) ∧
  (∃ (s : State) (c : BitVec 20) (d : DevSet), (s.chan c.toNat).dev = some d ∧ s.sealedCastling c.toNat = none ∧ d.due =
    true) ∧
  (∃ (s : State) (c : BitVec 20) (d : DevSet), (s.chan c.toNat).dev = some d ∧ s.sealedCastling c.toNat = none ∧ d.due =
    false) ∧
  (∃ (s : State) (c : BitVec 20) (no : Fin 4) (h : Histo), tget? (s.chan c.toNat).histos no.val = some h ∧
    s.sealedCastling c.toNat = none ∧ h.reasons ≠ 0 ∧ h.auto = false) ∧
  (∃ (s : State) (c : BitVec 20) (no : Fin 4) (h : Histo), tget? (s.chan c.toNat).histos no.val = some h ∧
    s.sealedCastling c.toNat = none ∧ (h.reasons = 0 ∨ h.auto = true)) ∧
  (∃ (s : State) (c : BitVec 20) (no : Fin 4) (h : Histo), tget? (s.chan c.toNat).histos no.val = some h ∧
    s.sealedCastling c.toNat = none ∧ h.reasons ≠ 0 ∧ h.auto = true) ∧
  (∃ (s : State) (t : Nat) (c : BitVec 20) (no : Fin 4) (h : Histo), tget? (s.chan c.toNat).histos no.val = some h ∧
    s.sealedCastling c.toNat = none ∧ h.auto = true ∧ h.reasons = 0 ∧ h.stop ≠ 0 ∧ h.began + h.stop + 860652 ≤ (s.advance
    t).devTime ∧ (∀ i ∈ (s.chan c.toNat).instants, h.began + h.stop ≤ i)) ∧
  (∃ (s : State) (c : BitVec 20) (no : Fin 4) (h : Histo), tget? (s.chan c.toNat).histos no.val = some h ∧
    s.sealedCastling c.toNat = none ∧ h.auto = false) :=
  ⟨⟨given (chan { st := .live }) [desc 48 [(8, 0, 20, 5), (12, 0, 8, 63), (16, 0, 64, 0x3FF0000000000000)]], 2, desc 48
    [(8, 0, 20, 5), (12, 0, 8, 63), (16, 0, 64, 0x3FF0000000000000)], by decide +kernel⟩,
   ⟨given (chan { st := .live, dev := some {} }) [desc 48 [(8, 0, 20, 5), (8, 20, 1, 1)]], 2, desc 48 [(8, 0, 20, 5), (8,
    20, 1, 1)], by decide +kernel⟩,
   ⟨given (chan { st := .live, histos := [(3, { w := 1 })] }) [desc 49 [(8, 0, 20, 5), (8, 20, 1, 1), (8, 25, 2, 3)]], 2,
    desc 49 [(8, 0, 20, 5), (8, 20, 1, 1), (8, 25, 2, 3)], by decide +kernel⟩,
   ⟨given (chan { st := .live }) [desc 49 [(8, 0, 20, 5), (8, 21, 1, 1), (8, 25, 2, 3), (12, 0, 6, 40), (24, 0, 32, 1)]],
    2, desc 49 [(8, 0, 20, 5), (8, 21, 1, 1), (8, 25, 2, 3), (12, 0, 6, 40), (24, 0, 32, 1)], by decide +kernel⟩,
   ⟨given (chan { st := .live, dev := some {}, histos := [(3, { w := 1 })] }) [desc 50 [(8, 0, 20, 5), (8, 20, 1, 1), (8,
    21, 1, 1), (8, 22, 4, 8)]], 2, desc 50 [(8, 0, 20, 5), (8, 20, 1, 1), (8, 21, 1, 1), (8, 22, 4, 8)],
    by decide +kernel⟩,
   ⟨(delivers locked {}).setChan 5 { st := .live, targets := [(.dev false false 0 0x3FF0000000000000 0 7 1 2, some 9)] },
    0, 9, 5, false, false, 0, 0x3FF0000000000000, 0, 7, 1, 2, [], by decide +kernel⟩,
   ⟨locked, 0, by decide +kernel⟩,
   ⟨chan { st := .live, dev := some { due := true } }, 5, { due := true }, by decide +kernel⟩,
   ⟨chan { st := .live, dev := some {} }, 5, {}, by decide +kernel⟩,
   ⟨chan { st := .live, histos := [(3, { reasons := 1 })] }, 5, 3, { reasons := 1 }, by decide +kernel⟩,
   ⟨chan { st := .live, histos := [(3, { w := 1 })] }, 5, 3, { w := 1 }, by decide +kernel⟩,
   ⟨chan { st := .live, histos := [(3, { auto := true, reasons := 1 })] }, 5, 3, { auto := true, reasons := 1 },
    by decide +kernel⟩,
   ⟨chan { st := .live, histos := [(3, { auto := true, stop := 1, began := 9 })] }, 0, 5, 3,
    { auto := true, stop := 1, began := 9 }, by decide +kernel⟩,
   ⟨chan { st := .live, histos := [(3, { w := 1 })] }, 5, 3, { w := 1 }, by decide +kernel⟩⟩

theorem witness_CastlingRowsComplete :
  (∃ (s : State) (t : Nat) (loads : List LoadSample), loads.length = 16 ∧ s.plc.windowNo < (s.advance t).devTime /
    windowQ) ∧
  (∃ (s : State) (t : Nat) (loads : List LoadSample), loads.length = 16 ∧ (s.advance t).devTime / windowQ ≤
    s.plc.windowNo) ∧
  (∃ (s : State) (m : Move) (rest : List Move), s.castleHeld = false ∧ s.plc.tokens ≠ 0 ∧ takeFirst s.mayBegin
    s.plc.plan = some (m, rest)) ∧
  (∃ (s : State), (s.castleHeld = true ∨ s.plc.tokens = 0 ∨ takeFirst s.mayBegin s.plc.plan = none)) ∧
  (∃ (s : State) (c : BitVec 20) (k : Castling), s.castlingOf c.toNat = some k ∧ k.sealed = true) ∧
  (∃ (s : State) (c : BitVec 20) (k : Castling), s.castlingOf c.toNat = some k ∧ k.sealed = true ∧ s.copies k = false) ∧
  (∃ (s : State) (c : BitVec 20) (k : Castling), s.castlingOf c.toNat = some k ∧ k.sealed = true ∧ s.copies k = true) ∧
  (∃ (s : State) (c : BitVec 20) (k : Castling), s.castlingOf c.toNat = some k ∧ k.sealed = false) ∧
  (∃ (s : State) (c : BitVec 20), s.castlingOf c.toNat = none) ∧
  (∃ (s : State) (t : Nat), s.plc.tokens < s.castleCap ∧ s.plc.tokenAt + ceilDiv secQ s.plc.limit ≤ max s.now t) ∧
  (∃ (s : State) (t : Nat), (s.castleCap ≤ s.plc.tokens ∨ max s.now t < s.plc.tokenAt + ceilDiv secQ s.plc.limit)) :=
  ⟨⟨locked, 0, List.replicate 16 ⟨7, 9⟩, by decide +kernel⟩,
   ⟨{ locked with plc := { windowNo := 2 ^ 62 / windowQ } }, 0, List.replicate 16 ⟨0, 0⟩, by decide +kernel⟩,
   ⟨setPlan (chan { st := .live }) [{ chan := 5, toEngine := 3, window := 0 }],
    { chan := 5, toEngine := 3, window := 0 }, [], by decide +kernel⟩,
   ⟨State.reset, by decide +kernel⟩,
   ⟨castles (chan { st := .castling }) { move := { chan := 5, toEngine := 3, window := 0 }, sealed := true }, 5,
    { move := { chan := 5, toEngine := 3, window := 0 }, sealed := true }, by decide +kernel⟩,
   ⟨castles (chan { st := .castling }) { move := { chan := 5, toEngine := 3, window := 0 }, sealed := true }, 5,
    { move := { chan := 5, toEngine := 3, window := 0 }, sealed := true }, by decide +kernel⟩,
   ⟨castles (chan { st := .castling })
    { move := { chan := 5, toEngine := 3, window := 0 }, sealed := true, dest := [(9, 1)] }, 5,
    { move := { chan := 5, toEngine := 3, window := 0 }, sealed := true, dest := [(9, 1)] }, by decide +kernel⟩,
   ⟨castles (chan { st := .castling }) { move := { chan := 5, toEngine := 3, window := 0 } }, 5,
    { move := { chan := 5, toEngine := 3, window := 0 } }, by decide +kernel⟩,
   ⟨State.reset, 0, by decide +kernel⟩,
   ⟨{ locked with plc := { tokens := 2 } }, 0, by decide +kernel⟩,
   ⟨{ locked with plc := { tokens := 41 } }, 0, by decide +kernel⟩⟩

theorem witness_PlaceRowsComplete :
  (∃ (s : State) (ring : Fin 64) (d : Desc), s.head ring.val 64 = some d ∧ (s.chan (descChan d)).waitsDesc = false ∧
    (s.chan (descChan d)).st ≠ ChanState.retired ∧ df d 8 20 3 = 0 ∧ descOnly d [(8, 0, 23), (8, 24, 6), (12, 0, 11)] =
    true ∧ (df d 12 10 1 = 1 → df d 12 4 6 = 0) ∧ s.pinnedCount < 65536 ∧ (df d 12 10 1 = 0 → s.squareRoom (descChan d)
    (df d 12 4 6) = true)) ∧
  (∃ (s : State) (ring : Fin 64) (d : Desc), s.head ring.val 64 = some d ∧ (s.chan (descChan d)).waitsDesc = false ∧
    (s.chan (descChan d)).st ≠ ChanState.retired ∧ df d 8 20 3 = 1 ∧ descOnly d [(8, 0, 23), (8, 24, 6)] = true ∧ (s.wish
    (descChan d)).pinned = true) ∧
  (∃ (s : State) (ring : Fin 64) (d : Desc), s.head ring.val 64 = some d ∧ (s.chan (descChan d)).waitsDesc = false ∧
    (s.chan (descChan d)).st ≠ ChanState.retired ∧ df d 8 20 3 = 2 ∧ descOnly d [(8, 0, 23), (8, 24, 6), (16, 0, 32), (20,
    0, 18)] = true ∧ df d 20 16 2 ≠ 3) ∧
  (∃ (s : State) (ring : Fin 64) (d : Desc), s.head ring.val 65 = some d ∧ (s.ring ring.val).fetched = [d] ∧ descOnly d
    [(8, 0, 32), (12, 0, 6)] = true ∧ ((df d 8 0 20 + if df d 8 20 12 = 0 then 4096 else df d 8 20 12) ≤ 1048576)) :=
  ⟨⟨given (chan { st := .live }) [desc 64 [(8, 0, 20, 5), (12, 0, 4, 3), (12, 4, 6, 60)]], 2, desc 64 [(8, 0, 20, 5),
    (12, 0, 4, 3), (12, 4, 6, 60)], by decide +kernel⟩,
   ⟨given { locked with plc := { wishes := [(5, { pinned := true })] } } [desc 64 [(8, 0, 20, 5), (8, 20, 3, 1)]], 2,
    desc 64 [(8, 0, 20, 5), (8, 20, 3, 1)], by decide +kernel⟩,
   ⟨given locked [desc 64 [(8, 0, 20, 5), (8, 20, 3, 2), (16, 0, 32, 9), (20, 16, 2, 2)]], 2, desc 64 [(8, 0, 20, 5), (8,
    20, 3, 2), (16, 0, 32, 9), (20, 16, 2, 2)], by decide +kernel⟩,
   ⟨given (delivers locked {}) [desc 65 [(8, 0, 20, 1048575), (8, 20, 12, 1), (12, 0, 6, 1)]], 2, desc 65 [(8, 0, 20,
    1048575), (8, 20, 12, 1), (12, 0, 6, 1)], by decide +kernel⟩⟩

theorem witness_LaneDetectRowsComplete :
  (∃ (s : State) (p : Port) (n : Fin 16), s.portReady p ∧ s.bit (Reg.COU_CTRL n.val) 0 = false) ∧
  (∃ (s : State) (p : Port) (n : Fin 16), s.portReady p ∧ s.bit (Reg.COU_CTRL n.val) 0 = true) ∧
  (∃ (s : State) (t : Nat) (n : Fin 16), (s.lane n.val).st = LaneState.detect ∧ (s.lane n.val).backoff = false ∧ (s.lane
    n.val).probing = false ∧ s.tb.st.live = true ∧ ((s.lane n.val).probed = false ∨ (s.advance t).past (Timer.lane
    LaneTimer.probe n.val) (2000 * usQ) = true)) ∧
  (∃ (s : State) (t : Nat) (n : Fin 16), ((s.lane n.val).st ≠ LaneState.detect ∨ (s.lane n.val).backoff = true ∨ (s.lane
    n.val).probing = true ∨ s.tb.st.live = false ∨ (s.lane n.val).probed = true ∧ (s.advance t).past (Timer.lane
    LaneTimer.probe n.val) (2000 * usQ) = false)) ∧
  (∃ (s : State) (n : Fin 16), (s.lane n.val).st = LaneState.detect ∧ (s.lane n.val).probing = true) ∧
  (∃ (s : State) (n : Fin 16), ((s.lane n.val).st ≠ LaneState.detect ∨ (s.lane n.val).probing = false)) ∧
  (∃ (s : State) (t : Nat) (n : Fin 16), (s.lane n.val).st = LaneState.detect ∧ (s.lane n.val).backoff = true ∧
    (s.advance t).past (Timer.lane LaneTimer.state n.val) (2000 * usQ * 2 ^ ((s.lane n.val).attempt - 1)) = true) ∧
  (∃ (s : State) (t : Nat) (n : Fin 16), ((s.lane n.val).st ≠ LaneState.detect ∨ (s.lane n.val).backoff = false ∨
    (s.advance t).past (Timer.lane LaneTimer.state n.val) (2000 * usQ * 2 ^ ((s.lane n.val).attempt - 1)) = false)) ∧
  (∃ (s : State) (p : Port) (n : Fin 16), s.portReady p ∧ ((s.lane n.val).st = LaneState.absent ∨ (s.lane n.val).st =
    LaneState.detect)) ∧
  (∃ (s : State) (p : Port) (n : Fin 16), s.portReady p ∧ (s.lane n.val).st ≠ LaneState.absent ∧ (s.lane n.val).st ≠
    LaneState.detect) ∧
  (∃ (s : State) (p : Port) (n : Fin 16), s.portReady p ∧ (s.lane n.val).st = LaneState.active) ∧
  (∃ (s : State) (p : Port) (n : Fin 16), s.portReady p ∧ (s.lane n.val).st ≠ LaneState.active) ∧
  (∃ (s : State) (n : Fin 16), (s.lane n.val).st = LaneState.absent) ∧
  (∃ (s : State) (n : Fin 16), (s.lane n.val).st ≠ LaneState.absent) :=
  ⟨⟨State.reset, .host, 0, by decide +kernel⟩,
   ⟨locked.setFld (Reg.COU_CTRL 0) 0 1 1, .host, 0, by decide +kernel⟩,
   ⟨lane .detect id, 0, 0, by decide +kernel⟩,
   ⟨State.reset, 0, 0, by decide +kernel⟩,
   ⟨lane .detect fun l => { l with probing := true }, 0, by decide +kernel⟩,
   ⟨State.reset, 0, by decide +kernel⟩,
   ⟨lane .detect fun l => { l with backoff := true }, 0, 0, by decide +kernel⟩,
   ⟨State.reset, 0, 0, by decide +kernel⟩,
   ⟨lane .detect id, .host, 0, by decide +kernel⟩,
   ⟨State.reset, .host, 0, by decide +kernel⟩,
   ⟨lane .active id, .host, 0, by decide +kernel⟩,
   ⟨State.reset, .host, 0, by decide +kernel⟩,
   ⟨lane .absent id, 0, by decide +kernel⟩,
   ⟨State.reset, 0, by decide +kernel⟩⟩

theorem witness_LaneTrainRowsComplete :
  (∃ (s : State) (n : Fin 16), (s.lane n.val).st = LaneState.train) ∧
  (∃ (s : State) (n : Fin 16) (p : Ctl), badTraining p = true ∧ ((s.lane n.val).st = LaneState.align ∨ (s.lane n.val).st
    = LaneState.credit ∨ (s.lane n.val).st = LaneState.recover ∨ (s.lane n.val).st = LaneState.active)) ∧
  (∃ (s : State) (t : Nat) (n : Fin 16), (s.lane n.val).st = LaneState.train ∧ ((s.lane n.val).train.preset = true ∧
    (s.lane n.val).train.asked = true ∨ (s.lane n.val).train.reqTap.isSome = true) ∧ (s.advance t).past (Timer.lane
    LaneTimer.request n.val) (1000 * usQ) = true) ∧
  (∃ (s : State) (t : Nat) (n : Fin 16), ((s.lane n.val).st ≠ LaneState.train ∨ (s.advance t).past (Timer.lane
    LaneTimer.request n.val) (1000 * usQ) = false ∨ ((s.lane n.val).train.preset = false ∨ (s.lane n.val).train.asked =
    false) ∧ (s.lane n.val).train.reqTap = none)) ∧
  (∃ (s : State) (n : Fin 16) (margin : Byte), (s.lane n.val).st = LaneState.train ∧ (s.lane n.val).blockLock = true ∧
    (s.lane n.val).train.preset = false ∧ 2 ^ 20 ≤ (s.lane n.val).train.clean ∧ s.fld (Reg.COU_TRAIN n.val) 8 8 ≤
    BitVec.toNat margin) ∧
  (∃ (s : State) (n : Fin 16) (margin : Byte), ((s.lane n.val).st ≠ LaneState.train ∨ (s.lane n.val).blockLock = false ∨
    (s.lane n.val).train.preset = true ∨ (s.lane n.val).train.clean < 2 ^ 20 ∨ BitVec.toNat margin < s.fld (Reg.COU_TRAIN
    n.val) 8 8)) ∧
  (∃ (s : State) (t : Nat) (n : Fin 16), (s.lane n.val).st = LaneState.train ∧ (s.advance t).past (Timer.lane
    LaneTimer.state n.val) (24000 * usQ) = true) ∧
  (∃ (s : State) (t : Nat) (n : Fin 16), ((s.lane n.val).st ≠ LaneState.train ∨ (s.advance t).past (Timer.lane
    LaneTimer.state n.val) (24000 * usQ) = false)) ∧
  (∃ (s : State) (t : Nat) (n : Fin 16), (s.lane n.val).st = LaneState.align ∧ (s.advance t).past (Timer.lane
    LaneTimer.state n.val) (2000 * usQ) = true) ∧
  (∃ (s : State) (t : Nat) (n : Fin 16), ((s.lane n.val).st ≠ LaneState.align ∨ (s.advance t).past (Timer.lane
    LaneTimer.state n.val) (2000 * usQ) = false)) ∧
  (∃ (s : State) (t : Nat) (n : Fin 16), (s.lane n.val).st = LaneState.credit ∧ (s.advance t).past (Timer.lane
    LaneTimer.state n.val) (2000 * usQ) = true) ∧
  (∃ (s : State) (t : Nat) (n : Fin 16), ((s.lane n.val).st ≠ LaneState.credit ∨ (s.advance t).past (Timer.lane
    LaneTimer.state n.val) (2000 * usQ) = false)) ∧
  (∃ (s : State) (t : Nat) (n : Fin 16), (s.lane n.val).st = LaneState.recover ∧ (s.advance t).past (Timer.lane
    LaneTimer.state n.val) (1000 * usQ) = true) ∧
  (∃ (s : State) (t : Nat) (n : Fin 16), ((s.lane n.val).st ≠ LaneState.recover ∨ (s.advance t).past (Timer.lane
    LaneTimer.state n.val) (1000 * usQ) = false)) ∧
  (∃ (s : State) (n : Fin 16) (p : Ctl), (s.lane n.val).st = LaneState.align ∧ checkOk p = true ∧ (s.lane
    n.val).alignRun + 1 < 64) ∧
  (∃ (s : State) (n : Fin 16) (p : Ctl), (s.lane n.val).st = LaneState.align ∧ checkOk p = true ∧ 63 ≤ (s.lane
    n.val).alignRun ∧ (s.lane n.val).echoed = true) ∧
  (∃ (s : State) (n : Fin 16) (p : Ctl), (s.lane n.val).st = LaneState.align ∧ checkOk p = false) ∧
  (∃ (s : State) (n : Fin 16) (p : Ctl), (s.lane n.val).st = LaneState.recover ∧ (s.lane n.val).blockLock = true ∧
    checkOk p = true ∧ 63 ≤ (s.lane n.val).alignRun) :=
  ⟨⟨lane .train id, 0, by decide +kernel⟩,
   ⟨lane .active id, 0, 2, by decide +kernel⟩,
   ⟨lane .train fun l => { l with train := { preset := true, asked := true } }, 0, 0, by decide +kernel⟩,
   ⟨lane .train fun l => { l with train := { preset := true } }, 0, 0, by decide +kernel⟩,
   ⟨lane .train fun l => { l with train := { clean := 2 ^ 20 } }, 0, 255, by decide +kernel⟩,
   ⟨State.reset, 0, 0, by decide +kernel⟩,
   ⟨lane .train id, 0, 0, by decide +kernel⟩,
   ⟨State.reset, 0, 0, by decide +kernel⟩,
   ⟨lane .align id, 0, 0, by decide +kernel⟩,
   ⟨State.reset, 0, 0, by decide +kernel⟩,
   ⟨lane .credit id, 0, 0, by decide +kernel⟩,
   ⟨State.reset, 0, 0, by decide +kernel⟩,
   ⟨lane .recover id, 0, 0, by decide +kernel⟩,
   ⟨State.reset, 0, 0, by decide +kernel⟩,
   ⟨lane .align id, 0, 0, by decide +kernel⟩,
   ⟨lane .align fun l => { l with alignRun := 63, echoed := true }, 0, withCheck 0, by decide +kernel⟩,
   ⟨lane .align id, 0, 1, by decide +kernel⟩,
   ⟨lane .recover fun l => { l with alignRun := 63 }, 0, withCheck 0, by decide +kernel⟩⟩

theorem witness_LaneActiveRowsComplete :
  (∃ (s : State) (t : Nat) (n : Fin 16), (s.lane n.val).st = LaneState.active ∧ (s.advance t).past (Timer.lane
    LaneTimer.echo n.val) (1000000 * usQ) = true) ∧
  (∃ (s : State) (t : Nat) (n : Fin 16), ((s.lane n.val).st ≠ LaneState.active ∨ (s.advance t).past (Timer.lane
    LaneTimer.echo n.val) (1000000 * usQ) = false)) ∧
  (∃ (s : State) (t : Nat) (n : Fin 16), (s.lane n.val).st = LaneState.active ∧ (s.advance t).past (Timer.lane
    LaneTimer.data n.val) (1024 * 3168) = true) ∧
  (∃ (s : State) (t : Nat) (n : Fin 16), ((s.lane n.val).st ≠ LaneState.active ∨ (s.advance t).past (Timer.lane
    LaneTimer.data n.val) (1024 * 3168) = false)) ∧
  (∃ (s : State) (t : Nat) (n : Fin 16), (s.lane n.val).st = LaneState.active ∧ (s.advance t).past (Timer.lane
    LaneTimer.keepalive n.val) (s.fld (Reg.COU_ADAPT n.val) 0 8 * usQ) = true) ∧
  (∃ (s : State) (t : Nat) (n : Fin 16), ((s.lane n.val).st ≠ LaneState.active ∨ (s.advance t).past (Timer.lane
    LaneTimer.keepalive n.val) (s.fld (Reg.COU_ADAPT n.val) 0 8 * usQ) = false)) ∧
  (∃ (s : State) (t : Nat) (n : Fin 16), (s.lane n.val).st = LaneState.active ∧ (s.advance t).past (Timer.lane
    LaneTimer.miss n.val) (64 * usQ) = true) ∧
  (∃ (s : State) (t : Nat) (n : Fin 16), ((s.lane n.val).st ≠ LaneState.active ∨ (s.advance t).past (Timer.lane
    LaneTimer.miss n.val) (64 * usQ) = false)) ∧
  (∃ (s : State) (n : Fin 16), (s.lane n.val).st = LaneState.active) ∧
  (∃ (s : State) (n : Fin 16), (s.lane n.val).st ≠ LaneState.active) ∧
  (∃ (s : State) (n : Fin 16), ((s.lane n.val).st = LaneState.active ∨ (s.lane n.val).st = LaneState.recover)) ∧
  (∃ (s : State) (n : Fin 16), ((s.lane n.val).st = LaneState.train ∨ (s.lane n.val).st = LaneState.align ∨ (s.lane
    n.val).st = LaneState.credit)) ∧
  (∃ (s : State) (n : Fin 16), ((s.lane n.val).st = LaneState.off ∨ (s.lane n.val).st = LaneState.detect ∨ (s.lane
    n.val).st = LaneState.absent)) ∧
  (∃ (s : State) (n : Fin 16), (s.lane n.val).st ≠ LaneState.off ∧ (s.lane n.val).st ≠ LaneState.detect ∧ (s.lane
    n.val).st ≠ LaneState.absent) ∧
  (∃ (s : State) (n : Fin 16), ((s.lane n.val).st = LaneState.detect ∨ (s.lane n.val).st = LaneState.absent)) ∧
  (∃ (s : State) (n : Fin 16), (s.lane n.val).st = LaneState.off) :=
  ⟨⟨lane .active id, 0, 0, by decide +kernel⟩,
   ⟨State.reset, 0, 0, by decide +kernel⟩,
   ⟨lane .active id, 0, 0, by decide +kernel⟩,
   ⟨State.reset, 0, 0, by decide +kernel⟩,
   ⟨lane .active id, 0, 0, by decide +kernel⟩,
   ⟨(lane .active id).start (.lane .keepalive 0), 0, 0, by decide +kernel⟩,
   ⟨lane .active id, 0, 0, by decide +kernel⟩,
   ⟨State.reset, 0, 0, by decide +kernel⟩,
   ⟨lane .active id, 0, by decide +kernel⟩,
   ⟨State.reset, 0, by decide +kernel⟩,
   ⟨lane .active id, 0, by decide +kernel⟩,
   ⟨lane .train id, 0, by decide +kernel⟩,
   ⟨State.reset, 0, by decide +kernel⟩,
   ⟨lane .active id, 0, by decide +kernel⟩,
   ⟨lane .detect id, 0, by decide +kernel⟩,
   ⟨State.reset, 0, by decide +kernel⟩⟩

theorem witness_DispatchRowsComplete :
  (∃ (s : State) (n : Fin 16), s.carries n.val = false) ∧
  (∃ (s : State) (n : Fin 16) (head : Ctl) (data : List Word) (tail : Ctl) (clean : Bool), s.carries n.val = true ∧
    (clean = false ∨ data.length ≠ headLen head ∨ cf tail 32 16 ≠ cf head 8 16)) ∧
  (∃ (s : State) (n : Fin 16) (head : Ctl) (data : List Word) (tail : Ctl) (clean : Bool), s.carries n.val = true ∧
    clean = true ∧ data.length = headLen head ∧ cf tail 32 16 = cf head 8 16 ∧ cf tail 0 32 ≠ dispatchCrc head data) ∧
  (∃ (s : State) (n : Fin 16) (head : Ctl) (data : List Word) (tail : Ctl) (clean : Bool), s.carries n.val = true ∧
    clean = true ∧ data.length = headLen head ∧ cf tail 32 16 = cf head 8 16 ∧ cf tail 0 32 = dispatchCrc head data ∧ cf
    head 6 2 ≤ 1 ∧ (s.lane n.val).firstDispatch = false ∧ BitVec.ofNat 16 (cf head 8 16) = (s.lane n.val).rxNext ∧
    data.length ≤ (s.lane n.val).limitTx - (s.lane n.val).accepted) ∧
  (∃ (s : State) (n : Fin 16) (head : Ctl) (data : List Word) (tail : Ctl) (clean : Bool), s.carries n.val = true ∧
    clean = true ∧ data.length = headLen head ∧ cf tail 32 16 = cf head 8 16 ∧ cf tail 0 32 = dispatchCrc head data ∧ cf
    head 6 2 ≤ 1 ∧ (s.lane n.val).firstDispatch = false ∧ BitVec.ofNat 16 (cf head 8 16) ≠ (s.lane n.val).rxNext ∧
    ((s.lane n.val).rxNext - BitVec.ofNat 16 (cf head 8 16)).toNat ≤ 32768) ∧
  (∃ (s : State) (n : Fin 16) (p : Ctl), s.carries n.val = true ∧ checkOk p = true ∧ ((s.lane n.val).txNext -
    BitVec.ofNat 16 (cf p 0 16)).toNat ≤ 32768) ∧
  (∃ (s : State) (n : Fin 16) (p : Ctl), s.carries n.val = true ∧ checkOk p = false) ∧
  (∃ (s : State) (n : Fin 16) (p : Ctl), s.carries n.val = true ∧ checkOk p = true ∧ ((s.lane n.val).txNext -
    BitVec.ofNat 16 (cf p 0 16)).toNat ≤ 32768 ∧ 1 ≤ cf p 16 4 ∧ cf p 16 4 ≤ 4) :=
  ⟨⟨State.reset, 0, by decide +kernel⟩,
   ⟨lane .active id, 0, 0, [], 0, true, by decide +kernel⟩,
   ⟨lane .active id, 0, 1, [5], 1, true, by decide +kernel⟩,
   ⟨lane .active id, 0, 1, [5], BitVec.ofNat 56 (dispatchCrc 1 [5]), true, by decide +kernel⟩,
   ⟨lane .active fun l => { l with rxNext := 32768 }, 0, 1, [5], BitVec.ofNat 56 (dispatchCrc 1 [5]), true,
    by decide +kernel⟩,
   ⟨lane .active id, 0, 0, by decide +kernel⟩,
   ⟨lane .active id, 0, 1, by decide +kernel⟩,
   ⟨lane .active id, 0, withCheck (4 * 2 ^ 16), by decide +kernel⟩⟩

theorem witness_LinkRowsComplete :
  (∃ (s : State) (t : Nat) (n : Fin 16), s.carries n.val = true ∧ (s.advance t).past (Timer.lane LaneTimer.ack n.val) (8
    * usQ) = true) ∧
  (∃ (s : State) (t : Nat) (n : Fin 16), (s.advance t).past (Timer.lane LaneTimer.ack n.val) (8 * usQ) = false) ∧
  (∃ (s : State) (t : Nat) (n : Fin 16), s.carries n.val = true ∧ (s.lane n.val).replay ≠ [] ∧ (s.advance t).past
    (Timer.lane LaneTimer.replay n.val) (s.fld (Reg.COU_PROTO_CTRL n.val) 0 8 * usQ) = true) ∧
  (∃ (s : State) (t : Nat) (n : Fin 16), ((s.lane n.val).replay = [] ∨ (s.advance t).past (Timer.lane LaneTimer.replay
    n.val) (s.fld (Reg.COU_PROTO_CTRL n.val) 0 8 * usQ) = false)) ∧
  (∃ (s : State) (t : Nat) (n : Fin 16) (x : BitVec 16 × Nat × Nat), s.carries n.val = true ∧ (s.lane n.val).nakOut =
    some x ∧ (s.advance t).past (Timer.lane LaneTimer.nak n.val) (20 * usQ) = true) ∧
  (∃ (s : State) (t : Nat) (n : Fin 16), ((s.lane n.val).nakOut = none ∨ (s.advance t).past (Timer.lane LaneTimer.nak
    n.val) (20 * usQ) = false)) ∧
  (∃ (s : State) (t : Nat) (n : Fin 16) (x : Letter) (rest : List Letter), s.carries n.val = true ∧ (s.lane
    n.val).letters = x :: rest ∧ (s.lane n.val).txCredit < x.blocks ∧ (s.lane n.val).sync = false ∧ (s.advance t).past
    (Timer.lane LaneTimer.ackRx n.val) (8 * s.fld (Reg.COU_PROTO_CTRL n.val) 8 8 * usQ) = true) ∧
  (∃ (s : State) (n : Fin 16), (s.lane n.val).letters = []) ∧
  (∃ (s : State) (t : Nat) (n : Fin 16), ((s.lane n.val).sync = true ∨ (s.advance t).past (Timer.lane LaneTimer.ackRx
    n.val) (8 * s.fld (Reg.COU_PROTO_CTRL n.val) 8 8 * usQ) = false)) ∧
  (∃ (s : State) (t : Nat) (n : Fin 16), s.carries n.val = true ∧ (s.lane n.val).sync = true ∧ (s.advance t).past
    (Timer.lane LaneTimer.syncReq n.val) (16 * usQ) = true) ∧
  (∃ (s : State) (t : Nat) (n : Fin 16), s.carries n.val = true ∧ (s.lane n.val).sync = true ∧ (s.advance t).past
    (Timer.lane LaneTimer.sync n.val) (1000 * usQ) = true) ∧
  (∃ (s : State) (n : Fin 16), (s.lane n.val).sync = false) ∧
  (∃ (s : State) (t : Nat) (n : Fin 16), (s.advance t).past (Timer.lane LaneTimer.syncReq n.val) (16 * usQ) = false) ∧
  (∃ (s : State) (t : Nat) (n : Fin 16), (s.advance t).past (Timer.lane LaneTimer.sync n.val) (1000 * usQ) = false) ∧
  (∃ (s : State) (n : Fin 16), s.carries n.val = false) ∧
  (∃ (s : State) (n : Fin 16) (x : Letter) (rest : List Letter), s.carries n.val = true ∧ (s.lane n.val).letters = x ::
    rest ∧ x.blocks ≤ (s.lane n.val).txCredit ∧ (List.map (fun d ↦ d.data.length) (s.lane n.val).replay).sum + x.blocks ≤
    256) ∧
  (∃ (s : State), s.plc.castlings = []) ∧
  (∃ (s : State) (n : Fin 16) (p : Ctl), (s.lane n.val).st = LaneState.credit ∧ s.isPeer n.val = false ∧ checkOk p =
    true ∧ 16 ≤ cf p 0 12 ∧ 8 ≤ cf p 32 8 ∧ cf p 45 3 = 1 ∧ cf p 40 1 = 1) ∧
  (∃ (s : State) (n : Fin 16) (p : Ctl), (s.lane n.val).st = LaneState.credit ∧ s.isPeer n.val = false ∧ checkOk p =
    true ∧ (cf p 0 12 < 16 ∨ cf p 32 8 < 8 ∨ cf p 45 3 ≠ 1 ∨ cf p 40 1 = 0)) ∧
  (∃ (s : State) (t : Nat) (n : Fin 16), (s.lane n.val).st = LaneState.credit ∧ s.isPeer n.val = false ∧ (s.advance
    t).past (Timer.lane LaneTimer.init n.val) usQ = true) ∧
  (∃ (s : State) (t : Nat) (n : Fin 16), ((s.lane n.val).st ≠ LaneState.credit ∨ s.isPeer n.val = true ∨ (s.advance
    t).past (Timer.lane LaneTimer.init n.val) usQ = false)) ∧
  (∃ (s : State) (t : Nat) (n : Fin 16), s.carries n.val = true ∧ s.tb.st.live = true ∧ s.fld (Reg.COU_BEACON n.val) 0
    16 ≠ 0 ∧ ((s.lane n.val).beacons = 0 ∨ (s.advance t).past (Timer.lane LaneTimer.beacon n.val) (s.fld (Reg.COU_BEACON
    n.val) 0 16 * usQ) = true)) ∧
  (∃ (s : State) (t : Nat) (n : Fin 16), (s.tb.st.live = false ∨ s.fld (Reg.COU_BEACON n.val) 0 16 = 0 ∨ (s.lane
    n.val).beacons ≠ 0 ∧ (s.advance t).past (Timer.lane LaneTimer.beacon n.val) (s.fld (Reg.COU_BEACON n.val) 0 16 * usQ)
    = false)) :=
  ⟨⟨lane .active id, 0, 0, by decide +kernel⟩,
   ⟨(lane .active id).start (.lane .ack 0), 0, 0, by decide +kernel⟩,
   ⟨lane .active fun l => { l with replay := [{ head := 0, data := [5], tail := 0, ackRing := 0, tag := 0, pos := 0 }] },
    0, 0, by decide +kernel⟩,
   ⟨(lane .active fun l =>
    { l with replay := [{ head := 0, data := [5], tail := 0, ackRing := 0, tag := 0, pos := 0 }] }).start (.lane .replay
    0), 0, 0, by decide +kernel⟩,
   ⟨lane .active fun l => { l with nakOut := some (5, 0, 9) }, 0, 0, (5, 0, 9), by decide +kernel⟩,
   ⟨State.reset, 0, 0, by decide +kernel⟩,
   ⟨lane .active fun l => { l with letters := [⟨[1], 1, 7, 0⟩], limitRx := 0 }, 0, 0, ⟨[1], 1, 7, 0⟩, [],
    by decide +kernel⟩,
   ⟨State.reset, 0, by decide +kernel⟩,
   ⟨lane .active fun l => { l with sync := true }, 0, 0, by decide +kernel⟩,
   ⟨lane .active fun l => { l with sync := true }, 0, 0, by decide +kernel⟩,
   ⟨lane .active fun l => { l with sync := true }, 0, 0, by decide +kernel⟩,
   ⟨State.reset, 0, by decide +kernel⟩,
   ⟨(lane .active fun l => { l with sync := true }).start (.lane .syncReq 0), 0, 0, by decide +kernel⟩,
   ⟨(lane .active fun l => { l with sync := true }).start (.lane .sync 0), 0, 0, by decide +kernel⟩,
   ⟨State.reset, 0, by decide +kernel⟩,
   ⟨lane .active fun l => { l with letters := [⟨[1], 1, 7, 0⟩], limitRx := 64 }, 0, ⟨[1], 1, 7, 0⟩, [],
    by decide +kernel⟩,
   ⟨State.reset, by decide +kernel⟩,
   ⟨lane .credit id, 0, withCheck (16 + 8 * 2 ^ 32 + 2 ^ 40 + 2 ^ 45), by decide +kernel⟩,
   ⟨lane .credit id, 0, 0, by decide +kernel⟩,
   ⟨lane .credit fun l => { l with initGood := true, initSeen := true }, 0, 0, by decide +kernel⟩,
   ⟨State.reset, 0, 0, by decide +kernel⟩,
   ⟨lane .active id, 0, 0, by decide +kernel⟩,
   ⟨(lane .active fun l => { l with beacons := 1 }).start (.lane .beacon 0), 0, 0, by decide +kernel⟩⟩

theorem witness_LetterRowsComplete :
  (∃ (s : State) (ring : Fin 64) (d : Desc), s.head ring.val 80 = some d ∧ descOnly d [(8, 0, 4), (8, 8, 6), (8, 16,
    10), (16, 0, 64), (24, 0, 32)] = true ∧ df d 16 0 3 = 0 ∧ 1 ≤ df d 8 16 10 ∧ df d 8 16 10 ≤ 512 ∧ df d 8 16 10 ≤ df d
    24 0 32 ∧ s.isPeer (df d 8 0 4) = false ∧ (s.lane (df d 8 0 4)).st = LaneState.active ∧ (s.lane (df d 8 0
    4)).letters.length + (s.lane (df d 8 0 4)).replay.length < 16) ∧
  (∃ (s : State) (t : Nat) (n : Fin 16) (reason : Fin 32), (tget { } (s.lane n.val).occurs reason.val).running = true ∧
    0 < (tget { } (s.lane n.val).occurs reason.val).count ∧ (s.advance t).past (Timer.laneReturn n.val reason.val) (1000 *
    usQ) = true) ∧
  (∃ (s : State) (t : Nat) (n : Fin 16) (reason : Fin 32), (tget { } (s.lane n.val).occurs reason.val).running = true ∧
    (tget { } (s.lane n.val).occurs reason.val).count = 0 ∧ (s.advance t).past (Timer.laneReturn n.val reason.val) (1000 *
    usQ) = true) ∧
  (∃ (s : State) (t : Nat) (n : Fin 16) (reason : Fin 32), ((tget { } (s.lane n.val).occurs reason.val).running = false
    ∨ (s.advance t).past (Timer.laneReturn n.val reason.val) (1000 * usQ) = false)) :=
  ⟨⟨given (lane .active id) [desc 80 [(8, 8, 6, 1), (8, 16, 10, 4), (24, 0, 32, 4)]], 2, desc 80 [(8, 8, 6, 1), (8, 16,
    10, 4), (24, 0, 32, 4)], by decide +kernel⟩,
   ⟨lane .active fun l => { l with occurs := [(3, ⟨9, 2, true⟩)] }, 0, 0, 3, by decide +kernel⟩,
   ⟨lane .active fun l => { l with occurs := [(3, ⟨9, 0, true⟩)] }, 0, 0, 3, by decide +kernel⟩,
   ⟨State.reset, 0, 0, 0, by decide +kernel⟩⟩

theorem witness_PeerRowsComplete :
  (∃ (s : State) (n : Fin 16) (p : Ctl), (s.lane n.val).st = LaneState.credit ∧ s.isPeer n.val = true ∧ checkOk p = true
    ∧ cf p 9 3 = 1 ∧ cf p 12 1 = 0 ∧ cf p 0 8 ≠ s.peerRank) ∧
  (∃ (s : State) (n : Fin 16) (p : Ctl), (s.lane n.val).st = LaneState.credit ∧ s.isPeer n.val = true ∧ checkOk p = true
    ∧ cf p 9 3 = 1 ∧ cf p 12 1 = 0 ∧ cf p 0 8 = s.peerRank) ∧
  (∃ (s : State) (t : Nat) (n : Fin 16), (s.lane n.val).st = LaneState.credit ∧ s.isPeer n.val = true ∧ (s.advance
    t).past (Timer.lane LaneTimer.init n.val) usQ = true) ∧
  (∃ (s : State) (t : Nat) (n : Fin 16), ((s.lane n.val).st ≠ LaneState.credit ∨ s.isPeer n.val = false ∨ (s.advance
    t).past (Timer.lane LaneTimer.init n.val) usQ = false)) ∧
  (∃ (s : State) (t : Nat), s.tb.st.live = true ∧ s.peer.slot < (s.advance t).devTime / slotQ) ∧
  (∃ (s : State) (t : Nat), (s.tb.st.live = false ∨ (s.advance t).devTime / slotQ ≤ s.peer.slot)) ∧
  (∃ (s : State) (n : Fin 16), s.peerActive n.val = false) ∧
  (∃ (s : State) (n : Fin 16) (sync : Ctl) (d0 : Word) (d1 : Word) (d2 : Word) (d3 : Word), s.peerActive n.val = true ∧
    checkOk sync = true ∧ fieldOf (BitVec.toNat d3) 0 32 = frameCrc sync d0 d1 d2 d3 ∧ (cf sync 24 5 ≤ 16 ∨ cf sync 24 5 =
    31)) ∧
  (∃ (s : State) (n : Fin 16) (sync : Ctl), s.peerActive n.val = true ∧ checkOk sync = false) ∧
  (∃ (s : State) (t : Nat) (n : Fin 16), ((s.peerLane n.val).link = LinkState.up ∨ (s.peerLane n.val).link =
    LinkState.suspect) ∧ (s.advance t).past (Timer.lane LaneTimer.frame n.val) slotQ = true) ∧
  (∃ (s : State) (t : Nat) (n : Fin 16), ((s.peerLane n.val).link = LinkState.up ∨ (s.peerLane n.val).link =
    LinkState.suspect) ∧ (s.advance t).past (Timer.lane LaneTimer.good n.val) (1000 * usQ) = true) ∧
  (∃ (s : State) (t : Nat) (n : Fin 16), ((s.peerLane n.val).link = LinkState.none ∨ (s.peerLane n.val).link =
    LinkState.lost) ∧ s.peerActive n.val = true ∧ (s.advance t).past (Timer.lane LaneTimer.frame n.val) slotQ = true) ∧
  (∃ (s : State) (n : Fin 16), ((s.peerLane n.val).link = LinkState.none ∨ (s.peerLane n.val).link = LinkState.lost) ∧
    s.peerActive n.val = false) ∧
  (∃ (s : State) (n : Fin 16), ((s.peerLane n.val).link = LinkState.none ∨ (s.peerLane n.val).link = LinkState.lost)) ∧
  (∃ (s : State) (t : Nat) (n : Fin 16), (s.advance t).past (Timer.lane LaneTimer.frame n.val) slotQ = false) ∧
  (∃ (s : State) (t : Nat) (n : Fin 16), (s.advance t).past (Timer.lane LaneTimer.good n.val) (1000 * usQ) = false) ∧
  (∃ (s : State) (t : Nat), s.peer.stale.isSome = true ∧ (s.advance t).past Timer.stale (2000 * usQ) = true) ∧
  (∃ (s : State) (t : Nat), (s.peer.stale = none ∨ (s.advance t).past Timer.stale (2000 * usQ) = false)) ∧
  (∃ (s : State) (t : Nat) (l : Nat), s.peerOn = true ∧ s.peer.parent = some l ∧ (s.peerLane l).link = LinkState.up ∧
    (s.tb.st = TbState.locked ∨ s.tb.st = TbState.slewing) ∧ s.peer.trimRemain ≠ 0 ∧ s.trimDue ≤ (s.advance t).devTime) ∧
  (∃ (s : State) (t : Nat), (s.peer.trimRemain = 0 ∨ (s.advance t).devTime < s.trimDue)) ∧
  (∃ (s : State) (p : Port), s.portReady p ∧ s.peerOn = true ∧ s.peer.master = true) ∧
  (∃ (s : State) (p : Port), s.portReady p ∧ (s.peerOn = false ∨ s.peer.master = false)) :=
  ⟨⟨peerLane .credit {}, 0, withCheck (2 ^ 9 + 3), by decide +kernel⟩,
   ⟨(peerLane .credit {}).setFld Reg.PEER_CTRL 0 8 3, 0, withCheck (2 ^ 9 + 3), by decide +kernel⟩,
   ⟨peerLane .credit {}, 0, 0, by decide +kernel⟩,
   ⟨State.reset, 0, 0, by decide +kernel⟩,
   ⟨peerLane .active {}, 0, by decide +kernel⟩,
   ⟨(peerLane .active {}).modPeer fun p => { p with slot := 2 ^ 62 / slotQ }, 0, by decide +kernel⟩,
   ⟨State.reset, 0, by decide +kernel⟩,
   ⟨peerLane .active {}, 0, withCheck 0, 0, 0, 0, BitVec.ofNat 64 (frameCrc (withCheck 0) 0 0 0 0), by decide +kernel⟩,
   ⟨peerLane .active {}, 0, withCheck 0 ^^^ BitVec.ofNat 56 (2 ^ 48), by decide +kernel⟩,
   ⟨peerLane .active { link := .up }, 0, 0, by decide +kernel⟩,
   ⟨peerLane .active { link := .up }, 0, 0, by decide +kernel⟩,
   ⟨peerLane .active { link := .lost }, 0, 0, by decide +kernel⟩,
   ⟨State.reset, 0, by decide +kernel⟩,
   ⟨State.reset, 0, by decide +kernel⟩,
   ⟨(peerLane .active { link := .up }).start (.lane .frame 0), 0, 0, by decide +kernel⟩,
   ⟨(peerLane .active { link := .up }).start (.lane .good 0), 0, 0, by decide +kernel⟩,
   ⟨{ locked with peer := { stale := some (1, 2) } }, 0, by decide +kernel⟩,
   ⟨State.reset, 0, by decide +kernel⟩,
   ⟨{ (peerLane .active { link := .up }).setFld Reg.PEER_CTRL 8 1 1 with peer := { parent := some 0, trimRemain := 5 } },
    0, 0, by decide +kernel⟩,
   ⟨State.reset, 0, by decide +kernel⟩,
   ⟨{ locked.setFld Reg.PEER_CTRL 8 1 1 with peer := { master := true } }, .host, by decide +kernel⟩,
   ⟨State.reset, .host, by decide +kernel⟩⟩

theorem witness_RingStateRowsComplete :
  (∃ (s : State) (p : Port) (n : Fin 64), s.portReady p ∧ 4 ≤ s.fld (Reg.RING_CFG n.val) 2 5 ∧ s.fld (Reg.RING_CFG
    n.val) 2 5 ≤ 24 ∧ s.bit (Reg.RING_CFG n.val) 0 = false ∧ (s.ring n.val).st = RingState.disabled ∧ s.ringOk n.val =
    true) ∧
  (∃ (s : State) (p : Port) (n : Fin 64), s.portReady p ∧ 4 ≤ s.fld (Reg.RING_CFG n.val) 2 5 ∧ s.fld (Reg.RING_CFG
    n.val) 2 5 ≤ 24 ∧ s.bit (Reg.RING_CFG n.val) 0 = false ∧ (s.ring n.val).st = RingState.disabled ∧ s.ringOk n.val =
    false) ∧
  (∃ (s : State) (p : Port) (n : Fin 64), s.portReady p ∧ 4 ≤ s.fld (Reg.RING_CFG n.val) 2 5 ∧ s.fld (Reg.RING_CFG
    n.val) 2 5 ≤ 24 ∧ s.bit (Reg.RING_CFG n.val) 0 = false ∧ (s.ring n.val).st = RingState.stopping) ∧
  (∃ (s : State) (p : Port) (n : Fin 64), s.portReady p ∧ 4 ≤ s.fld (Reg.RING_CFG n.val) 2 5 ∧ s.fld (Reg.RING_CFG
    n.val) 2 5 ≤ 24 ∧ s.bit (Reg.RING_CFG n.val) 0 = true ∧ ((s.ring n.val).st = RingState.active ∨ (s.ring n.val).st =
    RingState.stopped)) ∧
  (∃ (s : State) (p : Port) (n : Fin 64), s.portReady p ∧ 4 ≤ s.fld (Reg.RING_CFG n.val) 2 5 ∧ s.fld (Reg.RING_CFG
    n.val) 2 5 ≤ 24 ∧ s.bit (Reg.RING_CFG n.val) 0 = true ∧ (s.ring n.val).st = RingState.stopping) ∧
  (∃ (s : State) (n : Fin 64), (s.ring n.val).st = RingState.stopping ∧ (s.ring n.val).fetched = [] ∧ (s.ring
    n.val).part = none ∧ (s.ring n.val).again = false) ∧
  (∃ (s : State) (n : Fin 64), (s.ring n.val).st = RingState.stopping ∧ (s.ring n.val).fetched = [] ∧ (s.ring
    n.val).part = none ∧ (s.ring n.val).again = true ∧ s.ringOk n.val = true) ∧
  (∃ (s : State) (n : Fin 64), ((s.ring n.val).st ≠ RingState.stopping ∨ (s.ring n.val).fetched ≠ [] ∨ (s.ring
    n.val).part ≠ none)) :=
  ⟨⟨(locked.setReg (Reg.RING_CFG 2) 16).setReg (Reg.RING_STATUS_ADDR 2) 64, .host, 2, by decide +kernel⟩,
   ⟨State.reset, .host, 0, by decide +kernel⟩,
   ⟨(locked.setReg (Reg.RING_CFG 2) 16).setRing 2 { st := .stopping }, .host, 2, by decide +kernel⟩,
   ⟨given locked [], .host, 2, by decide +kernel⟩,
   ⟨(given locked []).setRing 2 { st := .stopping }, .host, 2, by decide +kernel⟩,
   ⟨(given locked []).setRing 2 { st := .stopping }, 2, by decide +kernel⟩,
   ⟨((given locked []).setReg (Reg.RING_STATUS_ADDR 2) 64).setRing 2 { st := .stopping, again := true }, 2,
    by decide +kernel⟩,
   ⟨State.reset, 0, by decide +kernel⟩⟩

theorem witness_LetterboxRowsComplete :
  (∃ (s : State) (off : Nat) (data : List Dword) (be : BitVec 4) (v : Dword), off < 262144 ∧ off % 4 = 0 ∧ data = [v] ∧
    be = 15 ∧ off % 4096 = 0 ∧ s.lbOk (off / 4096) (BitVec.toNat v) = true) ∧
  (∃ (s : State) (off : Nat) (data : List Dword) (be : BitVec 4) (v : Dword), off < 262144 ∧ off % 4 = 0 ∧ data = [v] ∧
    be = 15 ∧ off % 4096 = 0 ∧ s.lbOk (off / 4096) (BitVec.toNat v) = false) ∧
  (∃ (off : Nat) (data : List Dword) (be : BitVec 4), off < 262144 ∧ off % 4 = 0 ∧ (2 ≤ data.length ∨ data.length = 1 ∧
    be ≠ 0 ∧ (be ≠ 15 ∨ off % 4096 ≠ 0))) ∧
  (∃ (off : Nat) (data : List Dword) (be : BitVec 4), off < 262144 ∧ off % 4 = 0 ∧ (data = [] ∨ data.length = 1 ∧ be =
    0)) ∧
  (∃ (s : State) (t : Nat) (n : Fin 64) (x : Nat × Nat), (s.ring n.val).lbTimer = true ∧ (s.ring n.val).lbFirst = some x
    ∧ (s.advance t).past (Timer.lbReturn n.val) (1000 * usQ) = true) ∧
  (∃ (s : State) (t : Nat) (n : Fin 64), (s.ring n.val).lbTimer = true ∧ (s.ring n.val).lbFirst = none ∧ (s.advance
    t).past (Timer.lbReturn n.val) (1000 * usQ) = true) ∧
  (∃ (s : State) (t : Nat) (n : Fin 64), ((s.ring n.val).lbTimer = false ∨ (s.advance t).past (Timer.lbReturn n.val)
    (1000 * usQ) = false)) ∧
  (∃ (s : State) (t : Nat) (n : Fin 64), s.bit (Reg.RING_CFG n.val) 14 = true ∧ s.fld (Reg.RING_MOD n.val) 0 16 ≠ 0 ∧
    (s.ring n.val).pendingEntries ≠ 0 ∧ (s.ring n.val).pendingAt + s.fld (Reg.RING_MOD n.val) 0 16 * 122880 ≤ max s.now t) ∧
  (∃ (s : State) (t : Nat) (n : Fin 64), (s.bit (Reg.RING_CFG n.val) 14 = false ∨ s.fld (Reg.RING_MOD n.val) 0 16 = 0 ∨
    (s.ring n.val).pendingEntries = 0 ∨ max s.now t < (s.ring n.val).pendingAt + s.fld (Reg.RING_MOD n.val) 0 16 *
    122880)) ∧
  (∃ (s : State) (t : Nat) (i : Fin 4), s.flt.holdoff.getLsbD i.val = true ∧ (s.advance t).past (Timer.vector i.val) (10
    * usQ) = true) ∧
  (∃ (s : State) (t : Nat) (i : Fin 4), (s.flt.holdoff.getLsbD i.val = false ∨ (s.advance t).past (Timer.vector i.val)
    (10 * usQ) = false)) ∧
  (∃ (off : Nat), off % 4 = 0 ∧ off < 68 * 16) ∧
  (∃ (off : Nat), off % 4 = 0 ∧ 68 * 16 ≤ off ∧ off < 16384) :=
  ⟨⟨given locked [], 8192, [12], 15, 12, by decide +kernel⟩,
   ⟨given locked [], 8192, [16], 15, 16, by decide +kernel⟩,
   ⟨4, [0], 15, by decide +kernel⟩,
   ⟨0, [], 0, by decide +kernel⟩,
   ⟨locked.setRing 2 { lbTimer := true, lbFirst := some (1, 2), lbCount := 1 }, 0, 2, (1, 2), by decide +kernel⟩,
   ⟨locked.setRing 2 { lbTimer := true }, 0, 2, by decide +kernel⟩,
   ⟨State.reset, 0, 0, by decide +kernel⟩,
   ⟨((locked.setReg (Reg.RING_CFG 2) 0x4011).setReg (Reg.RING_MOD 2) 1).setRing 2 { pendingEntries := 1 }, 0, 2,
    by decide +kernel⟩,
   ⟨State.reset, 0, 0, by decide +kernel⟩,
   ⟨{ locked with flt := { holdoff := 8 } }, 0, 3, by decide +kernel⟩,
   ⟨State.reset, 0, 0, by decide +kernel⟩,
   ⟨0, by decide +kernel⟩,
   ⟨16380, by decide +kernel⟩⟩

theorem witness_MarkRowsComplete :
  (∃ (s : State) (ring : Fin 64) (d : Desc), s.head ring.val 1 = some d ∧ descOnly d [] = true ∧ s.unapplied ring.val =
    false ∧ (s.ring ring.val).fetched = [d]) ∧
  (∃ (s : State) (ring : Fin 64) (d : Desc), s.head ring.val 1 = some d ∧ descOnly d [] = true ∧ s.unapplied ring.val =
    true) ∧
  (∃ (s : State) (ring : Fin 64) (d : Desc), s.head ring.val 96 = some d ∧ descOnly d [(8, 0, 6), (8, 8, 3), (16, 0,
    49)] = true ∧ s.marks? (df d 8 0 6) = true ∧ df d 8 10 1 = 0 ∧ df d 16 48 1 = 1 ∧ df d 16 0 48 = 0) ∧
  (∃ (s : State) (ring : Fin 64) (d : Desc), s.head ring.val 96 = some d ∧ descOnly d [(8, 0, 6), (8, 8, 3), (16, 0,
    49)] = true ∧ s.marks? (df d 8 0 6) = true ∧ df d 8 10 1 = 1 ∧ df d 16 48 1 = 0 ∧ df d 16 0 48 = 0) ∧
  (∃ (s : State) (ring : Fin 64) (d : Desc), s.head ring.val 96 = some d ∧ descOnly d [(8, 0, 6), (8, 8, 3), (16, 0,
    49)] = true ∧ s.marks? (df d 8 0 6) = true ∧ df d 8 10 1 = 0 ∧ df d 16 48 1 = 0 ∧ df d 16 0 48 = s.ringSeq (df d 8 0
    6)) ∧
  (∃ (s : State) (ring : Fin 64) (d : Desc), s.head ring.val 96 = some d ∧ descOnly d [(8, 0, 6), (8, 8, 3), (16, 0,
    49)] = true ∧ s.marks? (df d 8 0 6) = true ∧ df d 8 10 1 = 0 ∧ df d 16 48 1 = 0 ∧ df d 16 0 48 < s.ringSeq (df d 8 0
    6) ∧ s.oldest (df d 8 0 6) ≤ df d 16 0 48 ∧ (s.ring (df d 8 0 6)).marks ≠ []) ∧
  (∃ (s : State) (ring : Fin 64) (d : Desc) (mk : Nat), s.head ring.val 97 = some d ∧ descOnly d [(8, 0, 6), (8, 8, 2),
    (12, 0, 24)] = true ∧ s.marks? (df d 8 0 6) = true ∧ tget? (s.ring (df d 8 0 6)).marks (df d 8 8 2) = some mk ∧
    (s.ring (df d 8 0 6)).repost.isSome = true) ∧
  (∃ (s : State) (ring : Fin 64) (d : Desc) (mk : Nat), s.head ring.val 97 = some d ∧ descOnly d [(8, 0, 6), (8, 8, 2),
    (12, 0, 24)] = true ∧ s.marks? (df d 8 0 6) = true ∧ tget? (s.ring (df d 8 0 6)).marks (df d 8 8 2) = some mk ∧
    (s.ring (df d 8 0 6)).repost = none ∧ copiesOf (List.filter (fun k ↦ decide (max mk (s.oldest (df d 8 0 6)) ≤ k.seq))
    (s.ring (df d 8 0 6)).kept) (df d 12 0 24) ≠ []) ∧
  (∃ (s : State) (ring : Fin 64) (d : Desc) (mk : Nat), s.head ring.val 97 = some d ∧ descOnly d [(8, 0, 6), (8, 8, 2),
    (12, 0, 24)] = true ∧ s.marks? (df d 8 0 6) = true ∧ tget? (s.ring (df d 8 0 6)).marks (df d 8 8 2) = some mk ∧
    (s.ring (df d 8 0 6)).repost = none ∧ copiesOf (List.filter (fun k ↦ decide (max mk (s.oldest (df d 8 0 6)) ≤ k.seq))
    (s.ring (df d 8 0 6)).kept) (df d 12 0 24) = []) :=
  ⟨⟨given (delivers locked {}) [desc 1 []], 2, desc 1 [], by decide +kernel⟩,
   ⟨{ given (delivers locked {}) [desc 1 []] with loads := [.bank 63 1 7 255 [9] 2] }, 2, desc 1 [], by decide +kernel⟩,
   ⟨given (delivers locked {}) [desc 96 [(8, 0, 6, 1), (16, 48, 1, 1)]], 2, desc 96 [(8, 0, 6, 1), (16, 48, 1, 1)],
    by decide +kernel⟩,
   ⟨given (delivers locked { marks := [(3, 1)] }) [desc 96 [(8, 0, 6, 1), (8, 8, 3, 7)]], 2, desc 96 [(8, 0, 6, 1), (8,
    8, 3, 7)], by decide +kernel⟩,
   ⟨given (delivers locked {}) [desc 96 [(8, 0, 6, 1)]], 2, desc 96 [(8, 0, 6, 1)], by decide +kernel⟩,
   ⟨(given (delivers locked { marks := [(0, 4)], kept := [⟨2, .first, 0, 0⟩, ⟨3, .body, 0, 0⟩, ⟨4, .first, 0, 0⟩] })
    [desc 96 [(8, 0, 6, 1), (16, 0, 48, 2)]]).setReg (Reg.RING_SEQ 1) 5, 2, desc 96 [(8, 0, 6, 1), (16, 0, 48, 2)],
    by decide +kernel⟩,
   ⟨given (delivers locked
    { marks := [(0, 4)], repost := some { todo := [], mark := 0, ackRing := 1, tag := 7, ring := 2 } }) [desc 97 [(8, 0,
    6, 1)]], 2, desc 97 [(8, 0, 6, 1)], 4, by decide +kernel⟩,
   ⟨(given (delivers locked { marks := [(0, 2)], kept := [⟨2, .first, 0, 0⟩, ⟨3, .body, 0, 0⟩, ⟨4, .first, 0, 0⟩] })
    [desc 97 [(8, 0, 6, 1), (12, 0, 24, 1)]]).setReg (Reg.RING_SEQ 1) 5, 2, desc 97 [(8, 0, 6, 1), (12, 0, 24, 1)], 2,
    by decide +kernel⟩,
   ⟨given (delivers locked { marks := [(0, 1)] }) [desc 97 [(8, 0, 6, 1)]], 2, desc 97 [(8, 0, 6, 1)], 1,
    by decide +kernel⟩⟩

theorem witness_DeliveryRowsComplete :
  (∃ (s : State) (t : Nat) (n : Fin 64) (cls : Nat) (x : Record) (rest : List Record), (s.pwr.st = PowerState.run ∨
    s.pwr.st = PowerState.endgame) ∧ (s.ring n.val).part = none ∧ (s.ring n.val).repost = none ∧ (s.ring n.val).held = []
    ∧ (s.advance t).nextUnit n.val = some (cls, x, rest) ∧ (s.advance t).serves n.val = true ∧ s.writesTo n.val = true ∧
    s.fits n.val x 0 = true) ∧
  (∃ (s : State) (n : Fin 64) (h : Record) (hs : List Record), (s.pwr.st = PowerState.run ∨ s.pwr.st =
    PowerState.endgame) ∧ (s.ring n.val).part = none ∧ (s.ring n.val).repost = none ∧ (s.ring n.val).held = h :: hs ∧
    s.writesTo n.val = true ∧ s.fits n.val h 0 = true) ∧
  (∃ (s : State) (t : Nat) (n : Fin 64) (cls : Nat) (x : Record) (rest : List Record), (s.pwr.st = PowerState.run ∨
    s.pwr.st = PowerState.endgame) ∧ (s.ring n.val).part = none ∧ (s.ring n.val).repost = none ∧ (s.advance t).nextUnit
    n.val = some (cls, x, rest) ∧ s.writesTo n.val = false ∧ x.blks ≠ [] ∧ (s.advance t).serves n.val = true) ∧
  (∃ (s : State) (t : Nat) (n : Fin 64), (s.pwr.st = PowerState.run ∨ s.pwr.st = PowerState.endgame) ∧ (s.ring
    n.val).part = none ∧ (s.ring n.val).repost = none ∧ (s.ring n.val).held = [] ∧ ((s.advance t).nextUnit n.val = none ∨
    (s.advance t).serves n.val = false)) ∧
  (∃ (s : State), s.pwr.st ≠ PowerState.run ∧ s.pwr.st ≠ PowerState.endgame) ∧
  (∃ (s : State) (t : Nat) (n : Fin 64) (cls : Fin 3) (p : Push) (rest : List Push) (s' : State), takePush cls.val
    (s.ring n.val).waiting = some (p, rest) ∧ (s.advance t).tryPush n.val p = some s') ∧
  (∃ (s : State) (t : Nat) (n : Fin 64) (cls : Fin 3) (p : Push) (rest : List Push), takePush cls.val (s.ring
    n.val).waiting = some (p, rest) ∧ (s.advance t).tryPush n.val p = none) ∧
  (∃ (s : State) (n : Fin 64) (cls : Fin 3), takePush cls.val (s.ring n.val).waiting = none) ∧
  (∃ (s : State) (t : Nat), s.flt.grace = true ∧ s.free? ≤ 64 ∧ (s.advance t).past Timer.grace (s.fld Reg.FLT_HOLD_GRACE
    0 16 * 1000 * usQ) = true) ∧
  (∃ (s : State) (t : Nat), (s.flt.grace = false ∨ 64 < s.free? ∨ (s.advance t).past Timer.grace (s.fld
    Reg.FLT_HOLD_GRACE 0 16 * 1000 * usQ) = false)) ∧
  (∃ (s : State) (n : Fin 64), (s.ring n.val).summary = true ∧ (s.ring n.val).held = [] ∧ (s.ring n.val).part = none ∧
    (s.ring n.val).express = [] ∧ (s.ring n.val).standard = [] ∧ (s.ring n.val).bulk = [] ∧ s.fld Reg.FLT_HOLD_CTRL 16 14
    ≤ s.free?) ∧
  (∃ (s : State) (n : Fin 64), (s.ring n.val).summary = false) :=
  ⟨⟨delivers locked { standard := [{ type := 1, blks := [0] }], blocks := [(0, 1)], nextBlock := 1 }, 0, 1, 1,
    { type := 1, blks := [0] }, [], by decide +kernel⟩,
   ⟨delivers locked { held := [{ type := 1, blks := [0] }], blocks := [(0, 1)], nextBlock := 1 }, 1,
    { type := 1, blks := [0] }, [], by decide +kernel⟩,
   ⟨locked.setRing 1 { standard := [{ type := 1, blks := [0] }], blocks := [(0, 1)], nextBlock := 1 }, 0, 1, 1,
    { type := 1, blks := [0] }, [], by decide +kernel⟩,
   ⟨State.reset, 0, 0, by decide +kernel⟩,
   ⟨{ State.reset with pwr := { st := .keeper } }, by decide +kernel⟩,
   ⟨pushing, 0, 1, 0, ⟨0, none, { type := 1 }⟩, [], ((pushing.advance 0).tryPush 1 ⟨0, none, { type := 1 }⟩).getD
    pushing, by decide +kernel⟩,
   ⟨locked.setRing 1 { express := List.replicate 128 { type := 1, blks := [0] }, waiting := [⟨0, none, { type := 1 }⟩] },
    0, 1, 0, ⟨0, none, { type := 1 }⟩, [], by decide +kernel⟩,
   ⟨State.reset, 0, 0, by decide +kernel⟩,
   ⟨{ locked.setRing 1 { blocks := (List.range 8128).map fun i => (i, 1) } with flt := { grace := true } }, 0,
    by decide +kernel⟩,
   ⟨State.reset, 0, by decide +kernel⟩,
   ⟨delivers locked { summary := true, summarised := 2, produced := 2 }, 1, by decide +kernel⟩,
   ⟨State.reset, 0, by decide +kernel⟩⟩

theorem witness_RegisterWriteRowsComplete :
  (∃ (s : State) (off : Nat) (p : Port) (v : Dword) (h : Hit), s.portReady p ∧ regAt off = some h ∧ mspiAt off = some h
    ∧ off % 4 = 0 ∧ off < 1048576 ∧ h.row.wide = false ∧ h.row.msk = false ∧ h.row.key = false ∧ h.row.far = false ∧
    h.row.mask ≠ 0 ∧ h.reg ≠ Reg.GBL_CTRL ∧ (h.epoch = some 2 ∨ h.epoch = some 8) ∧ s.rangeFaults h (s.reg h.reg) (s.reg
    h.reg &&& ~~~BitVec.ofNat 64 h.row.mask ||| BitVec.setWidth 64 v &&& BitVec.ofNat 64 h.row.mask) (BitVec.setWidth 64
    v) = []) ∧
  (∃ (s : State) (off : Nat) (p : Port) (v : Dword) (h : Hit), s.portReady p ∧ regAt off = some h ∧ mspiAt off = some h
    ∧ off % 4 = 0 ∧ off < 1048576 ∧ h.row.wide = false ∧ h.row.msk = false ∧ h.row.key = false ∧ h.row.far = false ∧
    h.row.mask ≠ 0 ∧ h.reg ≠ Reg.GBL_CTRL ∧ s.rangeFaults h (s.reg h.reg) (s.reg h.reg &&& ~~~BitVec.ofNat 64 h.row.mask
    ||| BitVec.setWidth 64 v &&& BitVec.ofNat 64 h.row.mask) (BitVec.setWidth 64 v) ≠ [] ∧ h.reg ≠ Reg.GBL_KEY ∧ h.reg ≠
    Reg.GBL_SNAP_CMD ∧ reportReg h.reg = false) ∧
  (∃ (s : State) (off : Nat) (be : BitVec 4), s.hostUp = true ∧ off < 1048576 ∧ be ≠ 0 ∧ regAt (off / 4 * 4) = none) ∧
  (∃ (s : State), s.hostUp = false) ∧
  (∃ (data : List Dword) (be : List (BitVec 4)), (data = [] ∨ be.length ≠ data.length)) :=
  ⟨⟨locked, Reg.PWR_TOKEN_CFG, .host, 40, tokenCfg, by decide +kernel⟩,
   ⟨locked, Reg.PWR_TOKEN_CFG, .host, 0, tokenCfg, by decide +kernel⟩,
   ⟨locked, 1048572, 1, by decide +kernel⟩,
   ⟨{ State.reset with pwr := { st := .keeper } }, by decide +kernel⟩,
   ⟨[], [], by decide +kernel⟩⟩

theorem witness_RegisterRowsComplete :
  (∃ (s : State) (p : Port) (v : Dword), s.portReady p ∧ v = 23235) ∧
  (∃ (s : State) (p : Port) (v : Dword), s.portReady p ∧ v ≠ 23235) ∧
  (∃ (s : State) (t : Nat) (p : Port), (s.advance t).past (Timer.key p) (1000 * usQ) = true) ∧
  (∃ (s : State) (t : Nat) (p : Port), (s.advance t).past (Timer.key p) (1000 * usQ) = false) ∧
  (∃ (s : State) (p : Port), s.portReady p ∧ s.gbl.snap = none) ∧
  (∃ (s : State) (p : Port), s.portReady p ∧ s.gbl.snap.isSome = true) ∧
  (∃ (s : State) (at_ : Nat) (vals : Table Word), s.gbl.snap = some (at_, vals) ∧ (∀ x ∈ vals, 81952 ≤ x.1)) ∧
  (∃ (s : State), s.gbl.snap = none) ∧
  (∃ (s : State) (a : Nat) (v : Word), s.gbl.far = some (a, v) ∧ isKpr a = false) ∧
  (∃ (s : State) (a : Nat) (v : Word), s.gbl.far = some (a, v) ∧ isKpr a = true ∧ s.kpr.reset = false ∧ a ≠
    Reg.KPR_WAKE_STATUS) ∧
  (∃ (s : State) (t : Nat) (a : Nat) (v : Word), s.gbl.far = some (a, v) ∧ a = Reg.KPR_WAKE_STATUS ∧ s.kpr.reset = false
    ∧ s.kpr.tickNow ≠ max s.now t) ∧
  (∃ (s : State) (a : Nat) (v : Word), s.gbl.far = some (a, v) ∧ isKpr a = true ∧ s.kpr.reset = true) ∧
  (∃ (s : State), s.gbl.far = none) :=
  ⟨⟨locked, .host, 23235, by decide +kernel⟩,
   ⟨State.reset, .host, 0, by decide +kernel⟩,
   ⟨locked, 0, .host, by decide +kernel⟩,
   ⟨locked.start (.key .host), 0, .host, by decide +kernel⟩,
   ⟨State.reset, .host, by decide +kernel⟩,
   ⟨{ locked with gbl := { snap := some (9, []) } }, .host, by decide +kernel⟩,
   ⟨{ locked with gbl := { snap := some (9, [(81952, 3)]) } }, 9, [(81952, 3)], by decide +kernel⟩,
   ⟨State.reset, by decide +kernel⟩,
   ⟨{ locked with gbl := { far := some (Reg.FE_CTRL 0, 5) } }, Reg.FE_CTRL 0, 5, by decide +kernel⟩,
   ⟨{ locked with gbl := { far := some (Reg.KPR_VOTE, 5) } }, Reg.KPR_VOTE, 5, by decide +kernel⟩,
   ⟨{ locked with gbl := { far := some (Reg.KPR_WAKE_STATUS, 5) } }, 0, Reg.KPR_WAKE_STATUS, 5, by decide +kernel⟩,
   ⟨{ locked with gbl := { far := some (Reg.KPR_VOTE, 5) }, kpr := { reset := true } }, Reg.KPR_VOTE, 5,
    by decide +kernel⟩,
   ⟨State.reset, by decide +kernel⟩⟩

theorem witness_AccessRowsComplete :
  (∃ (s : State) (off : Nat), s.hostUp = true ∧ off < 1048576) ∧
  (∃ (s : State) (off : Nat) (len : Nat), s.hostUp = true ∧ off < 1048576 ∧ rejected (hostHits off len) [] false = none
    ∧ len ≠ 0) ∧
  (∃ (s : State) (off : Nat) (len : Nat) (r : Nat), s.hostUp = true ∧ off < 1048576 ∧ rejected (hostHits off len) []
    false = some r) ∧
  (∃ (s : State) (off : Nat), (s.hostUp = false ∨ 1048576 ≤ off)) ∧
  (∃ (s : State) (a : Byte) (b : Byte) (c : Byte) (h : Hit), s.pwr.st = PowerState.run ∧ s.bit Reg.GBL_CTRL 1 = true ∧
    mspiAt ((BitVec.toNat a * 65536 + BitVec.toNat b * 256 + BitVec.toNat c) / 4 * 4) = some h) ∧
  (∃ (s : State), s.pwr.st = PowerState.run ∧ s.bit Reg.GBL_CTRL 1 = false) ∧
  (∃ (s : State), s.pwr.st = PowerState.run ∧ s.bit Reg.GBL_CTRL 0 = false) ∧
  (∃ (s : State) (a : Byte) (b : Byte) (c : Byte), s.pwr.st = PowerState.run ∧ s.bit Reg.GBL_CTRL 0 = true ∧ mspiAt
    ((BitVec.toNat a * 65536 + BitVec.toNat b * 256 + BitVec.toNat c) / 4 * 4) = none) ∧
  (∃ (s : State), s.pwr.st = PowerState.run) ∧
  (∃ (s : State), (s.pwr.st = PowerState.waking ∨ s.pwr.st = PowerState.endgame)) ∧
  (∃ (a : Nat) (h : Hit), regAt a = some h ∧ h.row.mask ≠ 0 ∧ h.reg = a) :=
  ⟨⟨State.reset, 0, by decide +kernel⟩,
   ⟨State.reset, 0, 1, by decide +kernel⟩,
   ⟨locked, 1048572, 1, 0, by decide +kernel⟩,
   ⟨locked, 1048576, by decide +kernel⟩,
   ⟨locked.setFld Reg.GBL_CTRL 1 1 1, 0, 0, 0, ident, by decide +kernel⟩,
   ⟨locked.setFld Reg.GBL_CTRL 1 1 0, by decide +kernel⟩,
   ⟨locked.setFld Reg.GBL_CTRL 0 1 0, by decide +kernel⟩,
   ⟨locked.setFld Reg.GBL_CTRL 0 1 1, 255, 255, 255, by decide +kernel⟩,
   ⟨State.reset, by decide +kernel⟩,
   ⟨{ State.reset with pwr := { st := .waking } }, by decide +kernel⟩,
   ⟨Reg.PWR_TOKEN_CFG, tokenCfg, by decide +kernel⟩⟩

theorem witness_PassRowsComplete :
  (∃ (s : State) (t : Nat), s.passes = true ∧ s.bit Reg.PST_CTRL 0 = true ∧ s.ckptQ ≠ 0 ∧ s.pst.lastCkpt < (s.advance
    t).devTime / s.ckptQ * s.ckptQ ∧ s.pst.pass = none) ∧
  (∃ (s : State) (t : Nat) (p : Pass), s.passes = true ∧ s.bit Reg.PST_CTRL 0 = true ∧ s.ckptQ ≠ 0 ∧ s.pst.lastCkpt <
    (s.advance t).devTime / s.ckptQ * s.ckptQ ∧ s.pst.pass = some p) ∧
  (∃ (s : State) (t : Nat), (s.passes = false ∨ s.bit Reg.PST_CTRL 0 = false ∨ (s.advance t).devTime / s.ckptQ * s.ckptQ
    ≤ s.pst.lastCkpt)) ∧
  (∃ (s : State), s.passes = true ∧ s.pst.pass = none ∧ s.pst.covered = false ∧ s.bit Reg.PST_CTRL 1 = true ∧
    s.dirtyChans ≠ []) ∧
  (∃ (s : State), (s.passes = false ∨ s.pst.pass ≠ none ∨ s.pst.covered = true ∨ s.bit Reg.PST_CTRL 1 = false ∨
    s.dirtyChans = [])) ∧
  (∃ (s : State) (t : Nat) (p : Pass), s.pst.pass = some p ∧ p.todo.all (s.advance t).imageReady = true ∧ (s.advance
    t).passWritten p = true ∧ s.pst.late = false) ∧
  (∃ (s : State) (t : Nat) (p : Pass), s.pst.pass = some p ∧ p.todo.all (s.advance t).imageReady = true ∧ (s.advance
    t).passWritten p = true ∧ s.pst.late = true) ∧
  (∃ (s : State) (t : Nat) (p : Pass), s.pst.pass = some p ∧ (p.todo.all (s.advance t).imageReady = false ∨ (s.advance
    t).passWritten p = false)) ∧
  (∃ (s : State), s.pst.pass = none) ∧
  (∃ (s : State) (t : Nat), s.pst.changed = true ∧ s.pst.changedAt + 100 * usQ ≤ max s.now t ∧ 0 < s.pst.genTokens ∧
    s.pwr.st = PowerState.run ∧ s.pst.endgame = none) ∧
  (∃ (s : State) (t : Nat), (s.pst.changed = false ∨ max s.now t < s.pst.changedAt + 100 * usQ ∨ s.pst.genTokens = 0 ∨
    s.pwr.st ≠ PowerState.run ∨ s.pst.endgame ≠ none)) ∧
  (∃ (s : State) (t : Nat), (s.advance t).past Timer.genToken (10000 * usQ) = true) ∧
  (∃ (s : State) (t : Nat), (s.advance t).past Timer.genToken (10000 * usQ) = false) :=
  ⟨⟨restored {}, 0, by decide +kernel⟩,
   ⟨restored { pass := some { kind := .checkpoint, num := 1, todo := [] } }, 0,
    { kind := .checkpoint, num := 1, todo := [] }, by decide +kernel⟩,
   ⟨State.reset, 0, by decide +kernel⟩,
   ⟨((restored {}).setChan 5 { st := .live, count := 1 }).setFld Reg.PST_CTRL 1 1 1, by decide +kernel⟩,
   ⟨State.reset, by decide +kernel⟩,
   ⟨restored { pass := some { kind := .checkpoint, num := 1, todo := [] } }, 0,
    { kind := .checkpoint, num := 1, todo := [] }, by decide +kernel⟩,
   ⟨restored { pass := some { kind := .checkpoint, num := 1, todo := [] }, late := true }, 0,
    { kind := .checkpoint, num := 1, todo := [] }, by decide +kernel⟩,
   ⟨(restored { pass := some { kind := .checkpoint, num := 1, todo := [5] } }).setChan 5 { st := .castling }, 0,
    { kind := .checkpoint, num := 1, todo := [5] }, by decide +kernel⟩,
   ⟨State.reset, by decide +kernel⟩,
   ⟨restored { changed := true, genTokens := 1 }, 0, by decide +kernel⟩,
   ⟨State.reset, 0, by decide +kernel⟩,
   ⟨locked, 0, by decide +kernel⟩,
   ⟨locked.start .genToken, 0, by decide +kernel⟩⟩

theorem witness_EndgameRowsComplete :
  (∃ (s : State) (e : EndgameRun), s.pst.endgame = some e ∧ e.begun = false ∧ e.bare = true) ∧
  (∃ (s : State) (e : EndgameRun), s.pst.endgame = some e ∧ e.begun = false ∧ e.bare = false ∧ s.awaitsTick e = false) ∧
  (∃ (s : State) (e : EndgameRun), s.pst.endgame = some e ∧ (e.begun = true ∨ e.bare = false ∧ s.awaitsTick e = true)) ∧
  (∃ (s : State), s.pst.endgame = none) ∧
  (∃ (s : State) (t : Nat) (e : EndgameRun), s.pst.endgame = some e ∧ e.begun = true ∧ e.bare = false ∧ s.kpr.lastCause
    ≠ 3 ∧ e.nowPf + e.holdup - 10 * usQ ≤ max s.now t) ∧
  (∃ (s : State) (e : EndgameRun), s.pst.endgame = some e ∧ e.begun = false) ∧
  (∃ (s : State) (e : EndgameRun), s.pst.endgame = some e ∧ e.begun = true ∧ (e.todo = [] ∨ e.deadline = true)) ∧
  (∃ (s : State), s.pst.restore = RestorePhase.granted ∧ s.pwr.st = PowerState.run) ∧
  (∃ (s : State), (s.pst.restore ≠ RestorePhase.granted ∨ s.pwr.st ≠ PowerState.run)) ∧
  (∃ (s : State) (t : Nat), s.pst.restore = RestorePhase.read ∧ s.pwr.st = PowerState.run ∧ s.pst.endgame = none ∧
    s.tb.st.live = true ∧ s.pst.pass = none ∧ s.restoredAll = true ∧ (∀ c ∈ tkeys s.chans, (s.advance t).imageReady c =
    true)) ∧
  (∃ (s : State), (s.pst.restore ≠ RestorePhase.read ∨ s.pwr.st ≠ PowerState.run ∨ s.pst.endgame ≠ none ∨ s.tb.st.live =
    false ∨ s.pst.pass ≠ none ∨ s.restoredAll = false)) ∧
  (∃ (s : State) (t : Nat), s.bit Reg.PST_CTRL 2 = true ∧ s.pwr.st = PowerState.run ∧ s.pst.endgame = none ∧ (s.advance
    t).past Timer.scrub (86400 * secQ) = true) ∧
  (∃ (s : State) (t : Nat) (errors : List ScrubError) (e : ScrubError), s.bit Reg.PST_CTRL 2 = true ∧ s.pwr.st =
    PowerState.run ∧ s.pst.endgame = none ∧ (s.advance t).past Timer.scrub (86400 * secQ) = true ∧ errors = [e] ∧
    e.correctable = true) ∧
  (∃ (s : State) (t : Nat) (errors : List ScrubError) (e : ScrubError), s.bit Reg.PST_CTRL 2 = true ∧ s.pwr.st =
    PowerState.run ∧ s.pst.endgame = none ∧ (s.advance t).past Timer.scrub (86400 * secQ) = true ∧ errors = [e] ∧
    e.correctable = false) ∧
  (∃ (s : State) (t : Nat), (s.bit Reg.PST_CTRL 2 = false ∨ s.pwr.st ≠ PowerState.run ∨ s.pst.endgame ≠ none ∨
    (s.advance t).past Timer.scrub (86400 * secQ) = false)) :=
  ⟨⟨restored { endgame := some { tPf := 9, nowPf := 9, holdup := 0, tCut := 9, bare := true } },
    { tPf := 9, nowPf := 9, holdup := 0, tCut := 9, bare := true }, by decide +kernel⟩,
   ⟨restored { endgame := some { tPf := 9, nowPf := 9, holdup := 0, tCut := 9 } },
    { tPf := 9, nowPf := 9, holdup := 0, tCut := 9 }, by decide +kernel⟩,
   ⟨restored { endgame := some { tPf := 9, nowPf := 9, holdup := 0, tCut := 9, begun := true } },
    { tPf := 9, nowPf := 9, holdup := 0, tCut := 9, begun := true }, by decide +kernel⟩,
   ⟨State.reset, by decide +kernel⟩,
   ⟨restored { endgame := some { tPf := 9, nowPf := 9, holdup := 0, tCut := 9, begun := true } }, 0,
    { tPf := 9, nowPf := 9, holdup := 0, tCut := 9, begun := true }, by decide +kernel⟩,
   ⟨restored { endgame := some { tPf := 9, nowPf := 9, holdup := 0, tCut := 9 } },
    { tPf := 9, nowPf := 9, holdup := 0, tCut := 9 }, by decide +kernel⟩,
   ⟨restored { endgame := some { tPf := 9, nowPf := 9, holdup := 0, tCut := 9, begun := true } },
    { tPf := 9, nowPf := 9, holdup := 0, tCut := 9, begun := true }, by decide +kernel⟩,
   ⟨restored { restore := .granted }, by decide +kernel⟩,
   ⟨State.reset, by decide +kernel⟩,
   ⟨restored { restore := .read }, 0, by decide +kernel⟩,
   ⟨State.reset, by decide +kernel⟩,
   ⟨restored {}, 10 ^ 18, by decide +kernel⟩,
   ⟨(restored {}).setFld Reg.PST_CTRL 2 1 1, 10 ^ 18, [⟨64, true⟩], ⟨64, true⟩, by decide +kernel⟩,
   ⟨(restored {}).setFld Reg.PST_CTRL 2 1 1, 10 ^ 18, [⟨64, false⟩], ⟨64, false⟩, by decide +kernel⟩,
   ⟨{ State.reset with pwr := { st := .keeper } }, 0, by decide +kernel⟩⟩

theorem witness_KeeperRowsComplete :
  (∃ (s : State) (x : Nat), s.kpr.reset = false ∧ s.kpr.time = { x := x, y := x, z := x }) ∧
  (∃ (s : State), s.kpr.reset = true) ∧
  (∃ (s : State), s.kpr.reset = false ∧ s.pwr.st = PowerState.keeper) ∧
  (∃ (s : State), s.kpr.reset = false ∧ s.pwr.st = PowerState.off) ∧
  (∃ (s : State), s.kpr.reset = false ∧ s.pwr.st = PowerState.run) ∧
  (∃ (s : State), s.kpr.reset = false ∧ (s.pwr.st = PowerState.waking ∨ s.pwr.st = PowerState.endgame)) ∧
  (∃ (s : State) (t : Nat), (s.advance t).past Timer.vbak msQ = true) ∧
  (∃ (s : State) (t : Nat), (s.advance t).past Timer.vbak msQ = false) ∧
  (∃ (s : State), s.kpr.onXtal = true ∧ s.kpr.reset = false) ∧
  (∃ (s : State), (s.kpr.onXtal = false ∨ s.kpr.reset = true)) ∧
  (∃ (s : State) (p : Port), s.portReady p ∧ s.gbl.far = none) ∧
  (∃ (s : State) (p : Port), s.portReady p ∧ s.gbl.far.isSome = true) :=
  ⟨⟨State.reset, 0, by decide +kernel⟩,
   ⟨{ locked with kpr := { reset := true } }, by decide +kernel⟩,
   ⟨{ State.reset with pwr := { st := .keeper } }, by decide +kernel⟩,
   ⟨{ locked with pwr := { st := .off } }, by decide +kernel⟩,
   ⟨State.reset, by decide +kernel⟩,
   ⟨{ State.reset with pwr := { st := .waking } }, by decide +kernel⟩,
   ⟨{ locked with kpr := { reset := true } }, 0, by decide +kernel⟩,
   ⟨({ locked with kpr := { reset := true } } : State).start .vbak, 0, by decide +kernel⟩,
   ⟨{ locked with kpr := { onXtal := true } }, by decide +kernel⟩,
   ⟨State.reset, by decide +kernel⟩,
   ⟨State.reset, .host, by decide +kernel⟩,
   ⟨{ locked with gbl := { far := some (Reg.KPR_VOTE, 5) } }, .host, by decide +kernel⟩⟩

theorem witness_GuardedRowsComplete :
  (∃ (s : State) (c : BitVec 20) (x : Nat) (rest : List Nat), (s.chan c.toNat).guard.lateDue = x :: rest) ∧
  (∃ (s : State) (c : BitVec 20) (n : BitVec 48) (same : Bool) (x : GuardedRecord) (rest : List GuardedRecord), (s.chan
    c.toNat).guard.lateDue = [] ∧ (∀ y ∈ (s.chan c.toNat).guard.heldRecs, y.twin ≠ none) ∧ (s.chan
    c.toNat).guard.uncompared = x :: rest ∧ (s.chan c.toNat).guard.dispute = false ∧ x.record.count0 % 2 ^ 48 = n.toNat ∧
    same = true) ∧
  (∃ (s : State) (c : BitVec 20) (n : BitVec 48) (same : Bool) (x : GuardedRecord) (rest : List GuardedRecord), (s.chan
    c.toNat).guard.lateDue = [] ∧ (∀ y ∈ (s.chan c.toNat).guard.heldRecs, y.twin ≠ none) ∧ (s.chan
    c.toNat).guard.uncompared = x :: rest ∧ (s.chan c.toNat).guard.dispute = false ∧ x.record.count0 % 2 ^ 48 = n.toNat ∧
    same = false) ∧
  (∃ (s : State) (c : BitVec 20) (n : BitVec 48) (x : GuardedRecord) (rest : List GuardedRecord), (s.chan
    c.toNat).guard.lateDue = [] ∧ (∀ y ∈ (s.chan c.toNat).guard.heldRecs, y.twin ≠ none) ∧ (s.chan
    c.toNat).guard.uncompared = x :: rest ∧ (s.chan c.toNat).guard.dispute = false ∧ x.record.count0 % 2 ^ 48 ≠ n.toNat) ∧
  (∃ (s : State) (c : BitVec 20), (s.chan c.toNat).guard.lateDue = [] ∧ (∀ y ∈ (s.chan c.toNat).guard.heldRecs, y.twin ≠
    none) ∧ (s.chan c.toNat).guard.uncompared = []) ∧
  (∃ (s : State) (t : Nat) (c : BitVec 20) (x : GuardedRecord) (rest : List GuardedRecord), (s.chan
    c.toNat).guard.uncompared = x :: rest ∧ x.since + 10 * usQ ≤ max s.now t) ∧
  (∃ (s : State) (t : Nat) (c : BitVec 20), ((s.chan c.toNat).guard.uncompared = [] ∨ ∃ x rest, (s.chan
    c.toNat).guard.uncompared = x :: rest ∧ max s.now t < x.since + 10 * usQ)) ∧
  (∃ (s : State), (∀ x ∈ s.chans, x.2.decl.guarded = false)) ∧
  (∃ (s : State) (t : Nat) (c : Nat) (tk : Nat) (k : Nat) (ch : Chan), s.chans = [(c, ch)] ∧ ch.decl.guarded = true ∧
    ch.guard.votes = [(tk, k)] ∧ ch.st ≠ ChanState.castling ∧ ch.guard.dispute = false ∧ s.keeperWorks ch = true ∧
    ch.guard.off ≠ none ∧ tk + s.farFld Reg.KPR_VOTE 0 8 * usQ + settleQ ≤ (s.advance t).devTime ∧
    (match ch.guard.keeperAt k with | some n => inRange (ch.countRange (tk - s.farFld Reg.KPR_VOTE 0 8 * usQ) (tk + s.farFld Reg.KPR_VOTE 0 8 * usQ)) n | none => false)
    = true) ∧
  (∃ (s : State) (t : Nat) (c : Nat) (tk : Nat) (k : Nat) (ch : Chan), s.chans = [(c, ch)] ∧ ch.decl.guarded = true ∧
    ch.guard.votes = [(tk, k)] ∧ ch.st ≠ ChanState.castling ∧ ch.guard.dispute = false ∧ s.keeperWorks ch = true ∧
    ch.guard.off ≠ none ∧ tk + s.farFld Reg.KPR_VOTE 0 8 * usQ + settleQ ≤ (s.advance t).devTime ∧
    (match ch.guard.keeperAt k with | some n => inRange (ch.countRange (tk - s.farFld Reg.KPR_VOTE 0 8 * usQ) (tk + s.farFld Reg.KPR_VOTE 0 8 * usQ)) n | none => false)
    = false ∧ ch.guard.mismatch = 0) ∧
  (∃ (s : State) (t : Nat) (c : Nat) (tk : Nat) (k : Nat) (ch : Chan), s.chans = [(c, ch)] ∧ ch.decl.guarded = true ∧
    ch.guard.votes = [(tk, k)] ∧ ch.st ≠ ChanState.castling ∧ ch.guard.dispute = false ∧ s.keeperWorks ch = true ∧
    ch.guard.off ≠ none ∧ tk + s.farFld Reg.KPR_VOTE 0 8 * usQ + settleQ ≤ (s.advance t).devTime ∧
    (match ch.guard.keeperAt k with | some n => inRange (ch.countRange (tk - s.farFld Reg.KPR_VOTE 0 8 * usQ) (tk + s.farFld Reg.KPR_VOTE 0 8 * usQ)) n | none => false)
    = false ∧ ch.guard.mismatch = 1) :=
  ⟨⟨chan { st := .live, decl := { guarded := true }, guard := { lateDue := [9] } }, 5, 9, [], by decide +kernel⟩,
   ⟨chan
    { st := .live, decl := { guarded := true }, guard := { uncompared := [{ ring := 1, cls := 0, record := { type := 1, count0 := 9 } }] } },
    5, 9, true, { ring := 1, cls := 0, record := { type := 1, count0 := 9 } }, [], by decide +kernel⟩,
   ⟨chan
    { st := .live, decl := { guarded := true }, guard := { uncompared := [{ ring := 1, cls := 0, record := { type := 1, count0 := 9 } }] } },
    5, 9, false, { ring := 1, cls := 0, record := { type := 1, count0 := 9 } }, [], by decide +kernel⟩,
   ⟨chan
    { st := .live, decl := { guarded := true }, guard := { uncompared := [{ ring := 1, cls := 0, record := { type := 1, count0 := 9 } }] } },
    5, 10, { ring := 1, cls := 0, record := { type := 1, count0 := 9 } }, [], by decide +kernel⟩,
   ⟨State.reset, 0, by decide +kernel⟩,
   ⟨chan
    { st := .live, decl := { guarded := true }, guard := { uncompared := [{ ring := 1, cls := 0, record := { type := 1, count0 := 9 } }] } },
    0, 5, { ring := 1, cls := 0, record := { type := 1, count0 := 9 } }, [], by decide +kernel⟩,
   ⟨State.reset, 0, 0, .inl (by decide +kernel)⟩,
   ⟨State.reset, by decide +kernel⟩,
   ⟨voting 0 0, 0, 5, 9, 0, votingChan 0 0, by decide +kernel⟩,
   ⟨voting 1 0, 0, 5, 9, 0, votingChan 1 0, by decide +kernel⟩,
   ⟨voting 1 1, 0, 5, 9, 0, votingChan 1 1, by decide +kernel⟩⟩

theorem witness_PowerRowsComplete :
  (∃ (s : State), s.pwr.st = PowerState.run) ∧
  (∃ (s : State), s.pwr.st = PowerState.waking) ∧
  (∃ (s : State), s.pwr.st ≠ PowerState.run ∧ s.pwr.st ≠ PowerState.waking) ∧
  (∃ (s : State) (t : Nat), (s.advance t).past Timer.pfail (1000 * usQ * s.fld Reg.PWR_CTRL 8 8) = true ∧ s.quiet = true
    ∧ s.pwr.rails = true ∧ s.pwr.droop = 0) ∧
  (∃ (s : State) (t : Nat), (s.advance t).past Timer.pfail (1000 * usQ * s.fld Reg.PWR_CTRL 8 8) = true ∧ (s.quiet =
    false ∨ s.pwr.rails = false ∨ s.pwr.droop ≠ 0)) ∧
  (∃ (s : State) (t : Nat), (s.advance t).past Timer.pfail (1000 * usQ * s.fld Reg.PWR_CTRL 8 8) = false) ∧
  (∃ (s : State) (rails : BitVec 3), s.pwr.st = PowerState.run ∧ rails &&& BitVec.ofNat 3 (s.fld Reg.PWR_CTRL 0 3) ≠ 0) ∧
  (∃ (s : State) (rails : BitVec 3), s.pwr.st = PowerState.endgame ∧ rails &&& BitVec.ofNat 3 (s.fld Reg.PWR_CTRL 0 3) ≠
    0) ∧
  (∃ (s : State) (rails : BitVec 3), s.pwr.st = PowerState.waking ∧ rails &&& BitVec.ofNat 3 (s.fld Reg.PWR_CTRL 0 3) ≠
    0) ∧
  (∃ (s : State) (rails : BitVec 3), s.quiet = false ∧ rails &&& BitVec.ofNat 3 (s.fld Reg.PWR_CTRL 0 3) = 0) ∧
  (∃ (s : State) (rails : BitVec 3), s.quiet = true ∧ rails ≠ 0) ∧
  (∃ (s : State) (rails : BitVec 3), s.quiet = true ∧ rails = 0) ∧
  (∃ (s : State), s.pwr.st ≠ PowerState.run) ∧
  (∃ (s : State), s.pwr.st = PowerState.waking ∧ s.pwr.baseSettled = true ∧ s.pwr.testEn = false) ∧
  (∃ (s : State), (s.pwr.st ≠ PowerState.waking ∨ s.pwr.baseSettled = false ∨ s.pwr.testEn = true)) ∧
  (∃ (s : State) (t : Nat), (s.advance t).past Timer.rails (1000 * usQ) = true ∧ s.quiet = true ∧ s.pwr.pfail = false ∧
    s.pwr.droop = 0) ∧
  (∃ (s : State) (t : Nat), (s.advance t).past Timer.rails (1000 * usQ) = true ∧ s.pwr.droop = 0 ∧ (s.quiet = false ∨
    s.pwr.pfail = true)) ∧
  (∃ (s : State) (t : Nat), (s.pwr.droop ≠ 0 ∨ (s.advance t).past Timer.rails (1000 * usQ) = false)) ∧
  (∃ (s : State), s.quiet = false) ∧
  (∃ (s : State), s.quiet = true ∧ s.pst.endgame = none) ∧
  (∃ (s : State), s.pwr.st = PowerState.waking ∧ s.pwr.perstN = true ∧ s.pwr.testEn = false) ∧
  (∃ (s : State), s.pwr.st = PowerState.waking ∧ (s.pwr.perstN = false ∨ s.pwr.testEn = true)) ∧
  (∃ (s : State), s.pwr.st ≠ PowerState.waking) ∧
  (∃ (s : State), s.pwr.st = PowerState.waking ∧ s.pwr.baseSettled = true ∧ s.pwr.perstN = true) ∧
  (∃ (s : State), (s.pwr.st ≠ PowerState.waking ∨ s.pwr.baseSettled = false ∨ s.pwr.perstN = false)) :=
  ⟨⟨State.reset, by decide +kernel⟩,
   ⟨{ State.reset with pwr := { st := .waking } }, by decide +kernel⟩,
   ⟨{ State.reset with pwr := { st := .keeper } }, by decide +kernel⟩,
   ⟨{ locked with pwr := { st := .keeper } }, 0, by decide +kernel⟩,
   ⟨locked, 0, by decide +kernel⟩,
   ⟨locked.start .pfail, 0, by decide +kernel⟩,
   ⟨State.reset, 1, by decide +kernel⟩,
   ⟨{ locked with pwr := { st := .endgame } }, 1, by decide +kernel⟩,
   ⟨{ State.reset with pwr := { st := .waking } }, 1, by decide +kernel⟩,
   ⟨State.reset, 0, by decide +kernel⟩,
   ⟨{ State.reset with pwr := { st := .keeper } }, 1, by decide +kernel⟩,
   ⟨{ State.reset with pwr := { st := .keeper } }, 0, by decide +kernel⟩,
   ⟨{ State.reset with pwr := { st := .keeper } }, by decide +kernel⟩,
   ⟨{ State.reset with pwr := { st := .waking } }, by decide +kernel⟩,
   ⟨State.reset, by decide +kernel⟩,
   ⟨{ locked with pwr := { st := .keeper } }, 0, by decide +kernel⟩,
   ⟨locked, 0, by decide +kernel⟩,
   ⟨locked.start .rails, 0, by decide +kernel⟩,
   ⟨State.reset, by decide +kernel⟩,
   ⟨{ State.reset with pwr := { st := .keeper } }, by decide +kernel⟩,
   ⟨{ State.reset with pwr := { st := .waking } }, by decide +kernel⟩,
   ⟨{ locked with pwr := { st := .waking, perstN := false } }, by decide +kernel⟩,
   ⟨State.reset, by decide +kernel⟩,
   ⟨{ State.reset with pwr := { st := .waking } }, by decide +kernel⟩,
   ⟨State.reset, by decide +kernel⟩⟩

theorem witness_TokenRowsComplete :
  (∃ (s : State) (x : WakeUnit) (rest : List WakeUnit), s.pwr.queue = x :: rest ∧ s.pwr.out + x.cost ≤ s.fld
    Reg.PWR_TOKEN_CFG 0 8) ∧
  (∃ (s : State) (x : WakeUnit) (rest : List WakeUnit), s.pwr.queue = x :: rest ∧ s.fld Reg.PWR_TOKEN_CFG 0 8 <
    s.pwr.out + x.cost) ∧
  (∃ (s : State), s.pwr.queue = []) ∧
  (∃ (s : State), s.pwr.coreLow = false ∧ s.quiet = false) ∧
  (∃ (s : State), (s.pwr.coreLow = true ∨ s.quiet = true)) :=
  ⟨⟨{ locked with pwr := { queue := [.timeBase] } }, .timeBase, [], by decide +kernel⟩,
   ⟨{ locked with pwr := { queue := [.timeBase], out := 255 } }, .timeBase, [], by decide +kernel⟩,
   ⟨locked, by decide +kernel⟩,
   ⟨State.reset, by decide +kernel⟩,
   ⟨{ locked with pwr := { coreLow := true } }, by decide +kernel⟩⟩

theorem witness_LedgerRowsComplete :
  (∃ (s : State) (t : Nat), s.pwr.st = PowerState.run ∧ s.pst.endgame = none ∧ s.flt.ledgerAt < (s.advance t).msNow ∧
    List.filter (fun x ↦ x.left != x.right) (s.advance t).tests = [] ∧ s.tokensOk = true) ∧
  (∃ (s : State) (t : Nat) (x : Test) (rest : List Test), s.pwr.st = PowerState.run ∧ s.pst.endgame = none ∧
    s.flt.ledgerAt < (s.advance t).msNow ∧ List.filter (fun x ↦ x.left != x.right) (s.advance t).tests = x :: rest ∧
    s.tokensOk = true) ∧
  (∃ (s : State) (t : Nat), s.pwr.st = PowerState.run ∧ s.pst.endgame = none ∧ s.flt.ledgerAt < (s.advance t).msNow ∧
    List.filter (fun x ↦ x.left != x.right) (s.advance t).tests = [] ∧ s.tokensOk = false) ∧
  (∃ (s : State) (t : Nat), (s.pwr.st ≠ PowerState.run ∨ s.pst.endgame ≠ none ∨ (s.advance t).msNow ≤ s.flt.ledgerAt)) ∧
  (∃ (s : State) (p : Port), s.portReady p) :=
  ⟨⟨locked, 0, by decide +kernel⟩,
   ⟨{ locked with flt := { begun := 1 } }, 0, ⟨8, 0, 1, 0⟩, [], by decide +kernel⟩,
   ⟨{ locked with pwr := { out := 1 } }, 0, by decide +kernel⟩,
   ⟨{ State.reset with pwr := { st := .keeper } }, 0, by decide +kernel⟩,
   ⟨State.reset, .host, by decide +kernel⟩⟩

theorem witness_RecorderRowsComplete :
  (∃ (s : State) (t : Nat), (s.advance t).past Timer.bbEntry (1000 * usQ) = true) ∧
  (∃ (s : State) (t : Nat), (s.advance t).past Timer.bbEntry (1000 * usQ) = false) ∧
  (∃ (s : State) (p : Port), s.portReady p ∧ s.flt.sealed = false) ∧
  (∃ (s : State) (p : Port), s.portReady p ∧ s.flt.sealed = true) ∧
  (∃ (s : State) (t : Nat) (p : Port), s.portReady p ∧ (s.advance t).keyOpen p = true ∧ s.flt.sealed = true) ∧
  (∃ (s : State) (t : Nat) (p : Port), s.portReady p ∧ (s.advance t).keyOpen p = true ∧ s.flt.sealed = false) ∧
  (∃ (s : State) (t : Nat) (p : Port), s.portReady p ∧ (s.advance t).keyOpen p = false) ∧
  (∃ (s : State) (p : Port), s.portReady p) ∧
  (∃ (s : State) (e : Nat), s.flt.selOut = some e) ∧
  (∃ (s : State), s.flt.selOut = none) ∧
  (∃ (s : State) (p : Port), s.portReady p ∧ s.flt.sealed = false ∧ 0 < s.flt.bbTokens) ∧
  (∃ (s : State) (p : Port), s.portReady p ∧ (s.flt.sealed = true ∨ s.flt.bbTokens = 0)) :=
  ⟨⟨locked, 0, by decide +kernel⟩,
   ⟨locked.start .bbEntry, 0, by decide +kernel⟩,
   ⟨State.reset, .host, by decide +kernel⟩,
   ⟨{ locked with flt := { sealed := true } }, .host, by decide +kernel⟩,
   ⟨({ locked with flt := { sealed := true }, gbl := { keyHost := true } } : State).start (.key .host), 0, .host,
    by decide +kernel⟩,
   ⟨({ locked with gbl := { keyHost := true } } : State).start (.key .host), 0, .host, by decide +kernel⟩,
   ⟨State.reset, 0, .host, by decide +kernel⟩,
   ⟨State.reset, .host, by decide +kernel⟩,
   ⟨{ locked with flt := { selOut := some 9 } }, 9, by decide +kernel⟩,
   ⟨State.reset, by decide +kernel⟩,
   ⟨State.reset, .host, by decide +kernel⟩,
   ⟨{ locked with flt := { bbTokens := 0 } }, .host, by decide +kernel⟩⟩

theorem witness_PinRowsComplete :
  (∃ (s : State), s.pwr.rails = true) ∧
  (∃ (s : State), s.pwr.rails = true ∧ s.jtag.st = TapState.shiftDr) ∧
  (∃ (s : State), s.pwr.rails = true ∧ s.jtag.st = TapState.shiftIr) ∧
  (∃ (s : State), s.pwr.rails = true ∧ s.jtag.st = TapState.captureDr ∧ s.jtag.idcode = true) ∧
  (∃ (s : State), s.pwr.rails = true ∧ s.jtag.st = TapState.captureDr ∧ s.jtag.idcode = false ∧ s.jtag.ir = 255) ∧
  (∃ (s : State) (tms : Bool), s.pwr.rails = true ∧ s.jtag.st = TapState.exit1Ir ∧ tms = true) ∧
  (∃ (s : State), s.pwr.rails = false) :=
  ⟨⟨State.reset, by decide +kernel⟩,
   ⟨{ locked with jtag := { st := .shiftDr } }, by decide +kernel⟩,
   ⟨{ locked with jtag := { st := .shiftIr } }, by decide +kernel⟩,
   ⟨{ locked with jtag := { st := .captureDr } }, by decide +kernel⟩,
   ⟨{ locked with jtag := { st := .captureDr, idcode := false, ir := 255 } }, by decide +kernel⟩,
   ⟨{ locked with jtag := { st := .exit1Ir } }, true, by decide +kernel⟩,
   ⟨{ locked with pwr := { rails := false } }, by decide +kernel⟩⟩

/-! ### Witnesses for the other statements -/

/-- The command answers a next state here. -/
def runs (s : State) (c : Instr) : Bool := match exec c s with | .next _ => true | _ => false

/-- StepRunsFront: a queue with a command in front, and an empty one. -/
theorem witness_StepRunsFront :
    (∃ (c : Instr) (rest : List Instr) (s : State), s.pending = c :: rest) ∧ ∃ s : State, s.pending = [] :=
  ⟨⟨.loadApply 0, [.perstFall 1], { State.reset with pending := [.loadApply 0, .perstFall 1] }, rfl⟩, State.reset, rfl⟩

/-- CommandsComplete: commands that can be formed and one that cannot. -/
theorem witness_CommandsComplete :
    (Instr.perstFall 0).wf = true ∧ (Instr.descriptorFetch 0 0 []).wf = false ∧ runs locked (.perstFall 0) = true ∧
    runs State.reset (.descriptorFetch 0 0 []) = false := by decide +kernel

/-- DeviceTimeKept: a step from a state within the span, and one at its last value. -/
theorem witness_DeviceTimeKept :
    locked.timeInSpan ∧ runs locked (.thermRead 5 40) = true ∧ ({ locked with devTime := 2 ^ 72 - 1 } : State).timeInSpan := by
  decide +kernel

/-- DeviceTimeHoldsAtItsEnd: the last value, the one below it, and the moment before TB_SPAN is raised. -/
theorem witness_DeviceTimeHoldsAtItsEnd :
    runs { locked with devTime := 2 ^ 72 - 1 } (.thermRead 5 40) = true ∧
    runs { locked with devTime := 2 ^ 72 - 2 } (.thermRead 5 40) = true ∧
    ({ locked with devTime := 2 ^ 72 - 1 } : State).tb.spanRaised = false := by decide +kernel

/-- ResetState: a register that the map names and no die fuses. -/
theorem witness_ResetState : regAt Reg.PWR_TOKEN_CFG = some tokenCfg ∧ tokenCfg.row.fused = false := by decide +kernel

/-- MarksReadBack: the largest delta, counts and device time of its hypotheses. -/
theorem witness_MarksReadBack :
    readMark (Mark.head true (2 ^ 54 - 1)).encode = some (.head true (2 ^ 54 - 1), []) ∧
    readMark (Mark.thin (2 ^ 50 - 1) true).encode = some (.thin (2 ^ 50 - 1) true, []) ∧
    readMark (Mark.ovfl (2 ^ 51 - 1)).encode = some (.ovfl (2 ^ 51 - 1), []) ∧
    readMark (Mark.anchor (2 ^ 72 - 1)).encode = some (.anchor (2 ^ 72 - 1), []) ∧
    readMark (Mark.cfg true 255).encode = some (.cfg true 255, []) ∧
    readMark ((Mark.zone .mid true).encode ++ [0]) = some (.zone .mid true, [0]) := by decide +kernel

/-- CadenceGridIsChecked: the shortest period stands and the one below it does not; a phase equal to P does not. -/
theorem witness_CadenceGridIsChecked :
    locked.portReady .host ∧ (1228800 ≤ 1228800 ∧ 1228800 ≤ 1228800000000000 ∧ 0 < 1228800) ∧
    ¬1228800 ≤ 1228799 ∧ ¬12288000 < 12288000 ∧
    gridOk 1228800 0 = true ∧ gridOk 1228799 0 = false ∧ gridOk 12288000 12288000 = false ∧
    gridOk 1228800000000000 1228799999999999 = true ∧ gridOk 1228800000000001 0 = false := by decide +kernel

theorem witness_SamplingPeriodIsNotZero :
    locked.portReady .host ∧ locked.gbl.far = none ∧ (0xABCD0000 : Dword).toNat % 2 ^ 16 = 0 := by decide +kernel

/-- TokenPoolIsWritten: the largest value outside, the smallest inside, and a wake that is granted and one that waits. -/
theorem witness_TokenPoolIsWritten :
    locked.portReady .host ∧ (0x107 : Dword).toNat % 2 ^ 8 < 8 ∧ 8 ≤ (0x108 : Dword).toNat % 2 ^ 8 ∧
    (let s := { locked with pwr := { queue := [.engine 3], out := 0 } }
     s.pwr.queue = [.engine 3] ∧ s.pwr.out + (WakeUnit.engine 3).cost ≤ 8) ∧
    (let s := { locked with pwr := { queue := [.engine 3], out := 8 } }
     8 < s.pwr.out + (WakeUnit.engine 3).cost) := by decide +kernel

/-- RaisedFaultIsReported: a class enabled for vector 64, with the vector free and held off, unmasked and masked. -/
theorem witness_RaisedFaultIsReported :
    (State.reset.setFld Reg.FLT_CTRL 0 9 511).bit Reg.FLT_CTRL FaultCode.cadRange.cls = true ∧
    ({ locked with flt := { holdoff := 1 } } : State).flt.holdoff.getLsbD 0 = true ∧ locked.flt.holdoff.getLsbD 0 = false ∧
    (locked.msixDword 1036).getLsbD 0 = true ∧
    (({ locked with msix := [(1036, 0)] } : State).msixDword 1036).getLsbD 0 = false := by decide +kernel

/-- The element of a SCALE stage with gain 2 and offset 1. -/
def scaleElem : Nat := 5 + 2 ^ 62 * 2 ^ 64 + 1023 * 2 ^ 52 * 2 ^ 128

theorem witness_ScaleIsGainAndOffset :
    (stageType scaleElem == some .scale) = true ∧ sf scaleElem 8 0 64 = 2 ^ 62 ∧
    f64Finite (f64Add (f64Mul (BitVec.ofNat 64 (2 ^ 62)) (BitVec.ofNat 64 (1023 * 2 ^ 52))) (BitVec.ofNat 64 (1023 * 2 ^ 52))) = true := by
  decide +kernel

/-- PolyIsHornersRule: a stage of order 1 whose bank holds 1 and 2, at x = 1. -/
theorem witness_PolyIsHornersRule :
    (stageType (6 + 2 ^ 16) == some .poly) = true ∧ sf (6 + 2 ^ 16) 0 16 3 = 1 ∧
    f64Finite (f64Add (f64Mul (BitVec.ofNat 64 (2 ^ 62)) (BitVec.ofNat 64 (1023 * 2 ^ 52))) (BitVec.ofNat 64 (1023 * 2 ^ 52))) = true := by
  decide +kernel

theorem witness_RemoteTimeIsNearest : (2 ^ 44 - 1 : Nat) < 2 ^ 44 ∧ extend64 0 (2 ^ 44 - 1) 44 = -64 := by decide +kernel

/-- The frames: a command of each clause answers a next state. -/
theorem witness_TimeBaseFrame :
    [Instr.refEdge 0 .refA 0 true none, .acquisitionSwap 0, .handoverSwap 0 0, .returnOffsetMeasured 0 ⟨0, 0⟩, .driftLearn 0 0,
      .holdoverTick 0, .todMiss 0, .runtSwallowed 0, .tbSpan 0].all (runs locked) = true := by decide +kernel

theorem witness_CaptureFrame :
    [Instr.inputTransition 0 0 ⟨0, 0⟩, .blankTrigEdge 0 0 true, .bucketRefill 0 0, .calHit 0 0 0, .calWindowDone 0 0,
      .mailbagPop 0 0, .engineEdge 0 0].all (runs locked) = true := by decide +kernel

theorem witness_ChannelFrame :
    [Instr.descriptorFetch 0 0 [0], .declare 0 0, .channelLive 0 0, .cadenceInstant 0 0, .cadenceOutEnd 0 0,
      .recipeLoad 0 0 none, .loadApply 0, .loadWindowEnd 0 (List.replicate 16 ⟨0, 0⟩), .castlingBegin 0,
      .castlingSealAck 0 0].all (runs locked) = true := by decide +kernel

theorem witness_LaneFrame :
    [Instr.laneProbe 0 0, .probeDone 0 0 true, .trainingBlock 0 0 0, .tapRequestTimeout 0 0, .rxReady 0 0 0, .alignBlock 0 0 0,
      .loopEcho 0 0, .keepaliveBlock 0 0 0, .dispatch 0 0 0 [] 0 true, .ackBlock 0 0 0, .replayTimeout 0 0, .creditRelease 0 0 0,
      .peerHello 0 0 0, .peerSyncSend 0, .peerSync 0 0 0 0 0 0 0, .peerFrameMiss 0 0, .peerLinkLost 0 0, .peerStaleHoldEnd 0,
      .peerTrimStep 0].all (runs locked) = true := by decide +kernel

theorem witness_RingFrame :
    [Instr.ringStopped 0 0, .letterboxWrite 0 0 [0] 15, .recordDelivery 0 0, .moderationTimer 0 0, .vectorHoldoffEnd 0 0,
      .msixTableWrite 0 0 0, .functionLevelReset 0, .holdGrace 0, .summaryExit 0 0, .d3hotChange 0 true].all (runs locked) = true := by
  decide +kernel

theorem witness_PortFrame :
    [Instr.tbApply 0 .host, .tbAccept 0 .host true, .mspiFrame 0 [], .keyExpiry 0 .host, .snapshotDone 0, .scrubPass 0 [],
      .bar0ReadAbort 0 0 4 .plain, .farWriteApply 0].all (runs locked) = true := by decide +kernel

theorem witness_KeeperFrame :
    [Instr.checkpointPass 0, .configGeneration 0, .generationToken 0, .endgame 0, .endgameDeadline 0, .endgameComplete 0,
      .restore 0, .restoreComplete 0, .mramScrub 0 [], .keeperReset 0, .keeperResetEnd 0, .xtalFail 0, .guardCopyTimeout 0 0,
      .keeperVote 0, .pfailRelease 0, .perstFall 0, .perstRise 0, .tokenGrant 0, .tokenReturn 0, .coreLow 0, .coreLowEnd 0,
      .ledgerCheck 0, .bbEntryToken 0, .bbCopyDone 0, .jtagTck 0 true true true].all (runs locked) = true := by decide +kernel

/-! ### The spec's worked examples -/

/-- The five fragments of the example of chapter 04. -/
theorem test_fragments_of_three_edges :
    (Mark.head true 1000000).encode ++ (Mark.head false 12288).encode ++ (Mark.head true 3000).encode =
      [0x5240, 0x00F4, 0x9000, 0x0003, 0x4BB8] := by decide +kernel

/-- The word of the same example: data, valid and tag for input 5, sequence 0x12, flushed. -/
theorem test_word_of_three_edges :
    (MailWord.out { frags := [0x5240, 0x00F4, 0x9000, 0x0003, 0x4BB8], seq := 0x12, flushed := true, items := [] } 5) =
      { data := 0xFFFFFFFFFFFF4BB80003900000F45240, valid := 0x1F, tag := 0x9205 } := by decide +kernel

/-- The sample of a 2.4 MHz beat (chapter 06): the fraction of the phase and the frequency. -/
theorem test_beat_fraction : 1000000 * 2 ^ 32 + frac32 245760 512000 = 0x000F42407AE147AE := by decide +kernel

theorem test_beat_frequency : rdiv ((0x000F42407AE147AE - 0x000F42287AE09FE8) * secQ) 12288000 = 0x00249F0100007FC0 := by
  decide +kernel

/-- The EDGE item of the EVENTS dispatch of chapter 11: its device time and the horizon of the HEAD. -/
theorem test_events_times :
    extend64 5000003751936 0x12309CE940 44 = 5000000065536 ∧ extend64 5000003751936 0x309CEB40 32 = 5000000098304 ∧
    fieldOf 0x0048C273A5000102 18 44 = 0x12309CE940 ∧ fieldOf 0x0048C273A5000102 0 16 = 0x0102 ∧
    headLen 0x00309CEB40041703 = 3 := by decide +kernel

/-- E6 is at home on e3, f3, e4 and f4 (chapter 01). -/
theorem test_home_of_E6 : homeSquares 6 = [20, 21, 28, 29] ∧ (homeSquares 6).map homeOf = [6, 6, 6, 6] := by decide +kernel

/-- The five addresses of chapter 20: what each port reads there, by name of the register and its half. -/
theorem test_addresses_of_both_ports :
    (regAt 0x4304).map Hit.reg = some (Reg.FE_THR 12) ∧ (mspiAt 0x4304).map Hit.reg = some (Reg.FE_THR 12) ∧
    (mspiAt 0x13448).map Hit.reg = some (Reg.CAD_PERIOD 1) ∧ (mspiAt 0x1B000).map Hit.reg = some (Reg.CAD_CTRL 0) ∧
    (mspiAt 0x133000).map Hit.reg = some (Reg.CAD_CTRL 0) ∧ (regAt 0xD248).isNone = true := by decide +kernel

/-- The period histogram of chapter 08: 512,000 Q falls on the lower edge of bin 512. -/
theorem test_histogram_bin :
    (Histo.binOf { origin := 503824, w := 4 } 512000, Histo.binOf { origin := 503824, w := 4 } 511999) = (512, 511) := by
  decide +kernel

/-- The exchange of chapter 12: theta with the asymmetry of the link. -/
theorem test_theta_of_exchange :
    rdiv (((2457600004160 : Int) - 2457600000000) - (2457600004000 - 2457600000000) - (-40)) 2 = 100 := by decide +kernel

end Sys2Proof.Tests
end

namespace Sys2Proof.Machine

/-! ### Device time -/

/-- Device time of either branch. -/
@[simp] theorem devTime_ite (c : Prop) [Decidable c] (a b : State) :
    (if c then a else b).devTime = if c then a.devTime else b.devTime := apply_ite State.devTime c a b

/-- Device time after a fold whose step leaves it as it is. -/
theorem foldl_devTime {α : Type} (f : State → α → State) (h : ∀ s a, (f s a).devTime = s.devTime) (l : List α) (s : State) :
    (l.foldl f s).devTime = s.devTime :=
  foldl_keeps (fun x => x.devTime = s.devTime) f (fun x a hx => (h x a).trans hx) l s rfl

@[simp] theorem State.makeRoom_devTime (k : Nat) (s : State) (need : Nat) : (State.makeRoom k s need).devTime = s.devTime := by
  obtain ⟨rs, h⟩ := State.makeRoom_keeps k s need; rw [h]

@[simp] theorem State.free_devTime (s : State) : s.free.2.devTime = s.devTime := rfl

theorem State.place_devTime (s u : State) (n size : Nat) (data : Bool) (bs : List Nat)
    (h : s.place n size data = some (bs, u)) : u.devTime = s.devTime := (State.place_keeps s u n size data bs h).2.1

/-! #### Ops -/

@[simp] theorem State.wakeCause_devTime (s : State) (i : Nat) : (s.wakeCause i).devTime = s.devTime := rfl

/-! #### Cadence -/

@[simp] theorem State.issueInstant_devTime (s : State) (c time : Nat) :
    (s.issueInstant c time).devTime = s.devTime := by
  unfold State.issueInstant; dsimp only; (repeat' split) <;> simp

@[simp] theorem State.issueMany_devTime (k : Nat) (s : State) (lim : Nat) : (State.issueMany k s lim).devTime = s.devTime := by
  induction k generalizing s with
  | zero => rfl
  | succ k ih =>
    unfold State.issueMany
    (repeat' split) <;> simp [ih]

@[simp] theorem State.issueThrough_devTime (s : State) (lim : Nat) :
    (s.issueThrough lim).devTime = s.devTime := by simp [State.issueThrough]

@[simp] theorem State.resumeCadence_devTime (s : State) (c t : Nat) : (s.resumeCadence c t).devTime = s.devTime := rfl

@[simp] theorem State.resumeCadences_devTime (s : State) : s.resumeCadences.devTime = s.devTime := by
  unfold State.resumeCadences; simp [foldl_devTime]

@[simp] theorem State.stopCadences_devTime (s : State) : s.stopCadences.devTime = s.devTime := rfl

@[simp] theorem State.cadenceOn_devTime (s : State) (c : Nat) : (s.cadenceOn c).devTime = s.devTime := by
  unfold State.cadenceOn; dsimp only; (repeat' split) <;> simp

@[simp] theorem State.cadenceOff_devTime (s : State) (c : Nat) :
    (s.cadenceOff c).devTime = s.devTime := by simp [State.cadenceOff]

@[simp] theorem State.cadenceGrid_devTime (s : State) (c : Nat) (write : State → State)
    (h : ∀ x, (write x).devTime = x.devTime) : (s.cadenceGrid c write).devTime = s.devTime := by
  simp [State.cadenceGrid, h]

/-! #### Capture -/

@[simp] theorem State.putInput_devTime (s : State) (n : Nat) (x : Input) :
    (s.putInput n x).devTime = s.devTime := by simp [State.putInput]

@[simp] theorem State.putGroup_devTime (s : State) (n : Nat) (x : Input) (item : Option Item) (fs : List Fragment) :
    (s.putGroup n x item fs).devTime = s.devTime := by simp [State.putGroup]

@[simp] theorem State.writeGroup_devTime (s : State) (n : Nat) (g : List Mark) (item : Option Item) :
    (s.writeGroup n g item).2.devTime = s.devTime := by
  simp [State.writeGroup, apply_ite Prod.snd]

@[simp] theorem State.anchorGroup_devTime (s : State) (n time : Nat) (g : List Mark) (item : Option Item) :
    (s.anchorGroup n time g item).devTime = s.devTime := by
  simp [State.anchorGroup]

@[simp] theorem State.captureEst_devTime (s : State) (n : Nat) (z : Zone) :
    (s.captureEst n z).devTime = s.devTime := by simp [State.captureEst]

@[simp] theorem State.captureCfg_devTime (s : State) (n : Nat) (cap : Bool) :
    (s.captureCfg n cap).devTime = s.devTime := by simp [State.captureCfg]

@[simp] theorem State.noteLate_devTime (s : State) (n : Nat) (a : Accepted) :
    (s.noteLate n a).devTime = s.devTime := by
  unfold State.noteLate; split <;> simp

@[simp] theorem State.stampEdge_devTime (s : State) (n : Nat) (a : Accepted) :
    (s.stampEdge n a).devTime = s.devTime := by simp [State.stampEdge]

@[simp] theorem State.noteCut_devTime (s : State) (n stamp : Nat) : (s.noteCut n stamp).devTime = s.devTime := by
  unfold State.noteCut; dsimp only; (repeat' split) <;> simp

@[simp] theorem State.thinDecay_devTime (s : State) (m : Nat) :
    (s.thinDecay m).devTime = s.devTime := by simp [State.thinDecay]

@[simp] theorem State.acceptEdge_devTime (s : State) (n : Nat) (a : Accepted) :
    (s.acceptEdge n a).devTime = s.devTime := by simp [State.acceptEdge]

/-! #### FrontEnd -/

@[simp] theorem State.alarmTest_devTime (s : State) (n : Nat) (z : Zone) (time : Nat) :
    (s.alarmTest n z time).devTime = s.devTime := by simp [State.alarmTest]

@[simp] theorem State.alarmFlush_devTime (s : State) (n : Nat) : (s.alarmFlush n).devTime = s.devTime := by
  unfold State.alarmFlush; split <;> simp

@[simp] theorem State.alarmSettle_devTime (s : State) (n : Nat) :
    (s.alarmSettle n).devTime = s.devTime := by simp [State.alarmSettle]

@[simp] theorem State.blankTrigger_devTime (s : State) (n tg : Nat) :
    (s.blankTrigger n tg).devTime = s.devTime := by simp [State.blankTrigger]

@[simp] theorem State.passEdge_devTime (s : State) (n : Nat) (old new : Zone) (stamp : Nat) (r : Resync) :
    (s.passEdge n old new stamp r).devTime = s.devTime := by simp [State.passEdge]

@[simp] theorem State.closeWindows_devTime (k : Nat) (s : State) (n time : Nat) : (State.closeWindows k s n time).devTime = s.devTime := by
  induction k generalizing s with
  | zero => rfl
  | succ k ih =>
    unfold State.closeWindows
    dsimp only
    (repeat' split) <;> simp [ih]

@[simp] theorem State.endWindows_devTime (s : State) (n time : Nat) :
    (s.endWindows n time).devTime = s.devTime := by simp [State.endWindows]

@[simp] theorem State.feEstablish_devTime (s : State) (n : Nat) (d : Decided) :
    (s.feEstablish n d).devTime = s.devTime := by
  unfold State.feEstablish; dsimp only; (repeat' split) <;> simp

@[simp] theorem State.feTransit_devTime (s : State) (n : Nat) (d : Decided) (st : Nat) (r : Resync) :
    (s.feTransit n d st r).devTime = s.devTime := by
  unfold State.feTransit; dsimp only; (repeat' split) <;> simp

@[simp] theorem State.feCross_devTime (s : State) (n : Nat) (d : Decided) (st : Nat) (r : Resync) :
    (s.feCross n d st r).devTime = s.devTime := by simp [State.feCross]

@[simp] theorem State.feInput_devTime (s : State) (n : Nat) (v : Int) (stamp : Bool → Nat) (r : Resync) :
    (s.feInput n v stamp r).devTime = s.devTime := by simp [State.feInput]

@[simp] theorem State.feAlarmWritten_devTime (s : State) (n : Nat) :
    (s.feAlarmWritten n).devTime = s.devTime := by simp [State.feAlarmWritten]

@[simp] theorem State.cfgInput_devTime (s : State) (n : Nat) (span : Bool) :
    (s.cfgInput n span).devTime = s.devTime := rfl

@[simp] theorem State.feMove_devTime (s : State) (n : Nat) :
    (s.feMove n).devTime = s.devTime := by simp [State.feMove]

@[simp] theorem State.feApplied_devTime (s : State) (n : Nat) (old : Word) :
    (s.feApplied n old).devTime = s.devTime := by simp [State.feApplied]

@[simp] theorem State.captureStart_devTime (s : State) : s.captureStart.devTime = s.devTime := by
  have h (l : List Nat) (f : Input → Input) (x : State) :
      (l.foldl (fun s n => s.modInput n f) x).devTime = x.devTime := foldl_devTime _ (fun _ _ => by simp) _ _
  unfold State.captureStart
  refine (foldl_devTime _ (fun x n => ?_) _ _).trans (h _ _ _)
  simp

/-! #### TimeBase -/

@[simp] theorem State.setTb_devTime (s : State) (b : Tb) : (s.setTb b).devTime = s.devTime := rfl

@[simp] theorem State.tbEnter_devTime (s : State) (st : TbState) (reason : Nat) (value : Int) :
    (s.tbEnter st reason value).devTime = s.devTime := by simp [State.tbEnter]

@[simp] theorem State.takeDividers_devTime (s : State) : s.takeDividers.2.devTime = s.devTime := by
  unfold State.takeDividers; dsimp only; split <;> simp

@[simp] theorem State.loadDither_devTime (s : State) :
    s.loadDither.devTime = s.devTime := by simp [State.loadDither]

@[simp] theorem State.ditherEdge_devTime (s : State) (r : Ref) (live : Bool) :
    (s.ditherEdge r live).devTime = s.devTime := by simp [State.ditherEdge]

@[simp] theorem State.beginSearch_devTime (s : State) (r : Ref) : (s.beginSearch r).devTime = s.devTime := by
  simp [State.beginSearch]

@[simp] theorem State.tbStart_devTime (s : State) : s.tbStart.devTime = s.devTime := by
  unfold State.tbStart; dsimp only; (repeat' split) <;> simp

@[simp] theorem State.tbStop_devTime (s : State) : s.tbStop.devTime = s.devTime := by simp [State.tbStop]

@[simp] theorem State.setU0_devTime (s : State) (u : Nat) : (s.setU0 u).devTime = s.devTime := rfl

@[simp] theorem State.setAligned_devTime (s : State) : s.setAligned.devTime = s.devTime := rfl

@[simp] theorem State.firstLock_devTime (s was : State) :
    (s.firstLock was).devTime = s.devTime := by simp [State.firstLock]

@[simp] theorem State.setSlew_devTime (s : State) (off : Int) : (s.setSlew off).devTime = s.devTime := rfl

@[simp] theorem State.correctBySlew_devTime (s : State) (off : Int) (reason : Nat) (value : Int) :
    (s.correctBySlew off reason value).devTime = s.devTime := by simp [State.correctBySlew]

@[simp] theorem State.holdReturn_devTime (s : State) (off : Int) :
    (s.holdReturn off).devTime = s.devTime := by simp [State.holdReturn]

@[simp] theorem State.switchTo_devTime (s : State) (r : Ref) :
    (s.switchTo r).devTime = s.devTime := by simp [State.switchTo]

@[simp] theorem State.actOnSelection_devTime (s : State) : s.actOnSelection.devTime = s.devTime := by
  unfold State.actOnSelection; dsimp only; (repeat' split) <;> simp

@[simp] theorem State.acquire_devTime (s : State) (r : Ref) :
    (s.acquire r).devTime = s.devTime := by simp [State.acquire]

@[simp] theorem State.refQualified_devTime (s : State) (r : Ref) : (s.refQualified r).devTime = s.devTime := by
  unfold State.refQualified; (repeat' split) <;> simp

@[simp] theorem State.autoSwitch_devTime (s : State) : s.autoSwitch.devTime = s.devTime := by
  unfold State.autoSwitch; split <;> simp

@[simp] theorem State.toCoasting_devTime (s : State) (lost : Ref) :
    (s.toCoasting lost).devTime = s.devTime := by simp [State.toCoasting]

@[simp] theorem State.refDisqualified_devTime (s : State) (r : Ref) : (s.refDisqualified r).devTime = s.devTime := by
  unfold State.refDisqualified; dsimp only; (repeat' split) <;> simp

@[simp] theorem State.countPeriod_devTime (s : State) (r : Ref) (good : Bool) :
    (s.countPeriod r good).devTime = s.devTime := by simp [State.countPeriod]

@[simp] theorem State.injectEdge_devTime (s : State) (r : Ref) (err : Int) :
    (s.injectEdge r err).devTime = s.devTime := by simp [State.injectEdge]

@[simp] theorem State.shadowEdge_devTime (s : State) (r : Ref) (err : Int) :
    (s.shadowEdge r err).devTime = s.devTime := by
  unfold State.shadowEdge; dsimp only; (repeat' split) <;> simp

@[simp] theorem State.applyEdge_devTime (s : State) (r : Ref) : (s.applyEdge r).devTime = s.devTime := by
  simp [State.applyEdge]

@[simp] theorem State.refEdge_devTime (s : State) (r : Ref) (err : Int) (good : Bool) (off : Option Int) :
    (s.refEdge r err good off).devTime = s.devTime := by
  unfold State.refEdge; dsimp only; (repeat' split) <;> simp

@[simp] theorem State.tbApply_devTime (s : State) : s.tbApply.devTime = s.devTime := rfl

@[simp] theorem State.slewDone_devTime (s : State) : s.slewDone.devTime = s.devTime := by simp [State.slewDone]

@[simp] theorem State.fineStep_devTime (s : State) (k : Int) : (s.fineStep k).devTime = s.devTime := rfl

@[simp] theorem State.slewRestart_devTime (s : State) : s.slewRestart.devTime = s.devTime := rfl

@[simp] theorem State.tbSlew_devTime (s : State) : s.tbSlew.devTime = s.devTime := by
  unfold State.tbSlew; dsimp only; (repeat' split) <;> simp

@[simp] theorem State.tbLatch_devTime (s : State) : s.tbLatch.devTime = s.devTime := rfl

/-! #### Engine -/

@[simp] theorem State.withhold_devTime (s : State) (c ring : Nat) (stamp : Bool) (a : At) :
    (s.withhold c ring stamp a).devTime = s.devTime := rfl

@[simp] theorem State.chanRec_devTime (s : State) (c : Nat) (d : Decl) (rec0 : Record) (stamps : Used) (a : At) :
    (s.chanRec c d rec0 stamps a).devTime = s.devTime := by simp [State.chanRec]

@[simp] theorem State.chanAck_devTime (s : State) (c stage : Nat) (tag : Dword) (time : Nat) (body : List Word) :
    (s.chanAck c stage tag time body).devTime = s.devTime := by simp [State.chanAck]

@[simp] theorem State.quadAlarm_devTime (s : State) (c time : Nat) :
    (s.quadAlarm c time).devTime = s.devTime := by simp [State.quadAlarm]

/-! #### Dirty -/

@[simp] theorem State.coverCheck_devTime (s : State) :
    s.coverCheck.devTime = s.devTime := by simp [State.coverCheck]

/-! #### Stats -/

@[simp] theorem State.engineWork_devTime (s : State) (e k : Nat) : (s.engineWork e k).devTime = s.devTime := rfl

@[simp] theorem State.addWork_devTime (s : State) (c k : Nat) : (s.addWork c k).devTime = s.devTime := by
  unfold State.addWork; dsimp only; (repeat' split) <;> simp

@[simp] theorem State.statsRecord_devTime (s : State) (c : Nat) (reason : Reason) (line : Option StatLine) (dev : Option DevSet) :
    (s.statsRecord c reason line dev).devTime = s.devTime := by simp [State.statsRecord]

@[simp] theorem State.histoRecord_devTime (s : State) (c no : Nat) (h : Histo) (reasons : Nat) :
    (s.histoRecord c no h reasons).devTime = s.devTime := by simp [State.histoRecord]

@[simp] theorem State.devReportDue_devTime (s : State) (c : Nat) : (s.devReportDue c).devTime = s.devTime := by
  unfold State.devReportDue; dsimp only; (repeat' split) <;> simp

@[simp] theorem State.histoDue_devTime (s : State) (c no : Nat) : (s.histoDue c no).devTime = s.devTime := by
  unfold State.histoDue; dsimp only; (repeat' split) <;> simp

@[simp] theorem State.histoPeriod_devTime (s : State) (c no reasons began : Nat) :
    (s.histoPeriod c no reasons began).devTime = s.devTime := by
  unfold State.histoPeriod; dsimp only; (repeat' split) <;> simp

@[simp] theorem State.histoFlush_devTime (s : State) (c no : Nat) : (s.histoFlush c no).devTime = s.devTime := by
  unfold State.histoFlush; split <;> simp

@[simp] theorem State.histoCatchUp_devTime (k : Nat) (s : State) (c no t : Nat) : (State.histoCatchUp k s c no t).devTime = s.devTime := by
  induction k generalizing s with
  | zero => rfl
  | succ k ih =>
    unfold State.histoCatchUp
    (repeat' split) <;> simp [ih]

@[simp] theorem State.histoSettle_devTime (s : State) (c no t : Nat) :
    (s.histoSettle c no t).devTime = s.devTime := by simp [State.histoSettle]

@[simp] theorem State.histoFeed_devTime (s : State) (c no : Nat) (u : Int) (held : Bool) (t : Nat) (fl : BitVec 10) :
    (s.histoFeed c no u held t fl).devTime = s.devTime := by
  unfold State.histoFeed; dsimp only; (repeat' split) <;> simp

@[simp] theorem State.histoSkip_devTime (s : State) (c no k t : Nat) :
    (s.histoSkip c no k t).devTime = s.devTime := by
  unfold State.histoSkip; dsimp only; (repeat' split) <;> simp

@[simp] theorem State.histoRelease_devTime (s : State) (c no t : Nat) :
    (s.histoRelease c no t).devTime = s.devTime := by
  unfold State.histoRelease; dsimp only; (repeat' split) <;> simp

@[simp] theorem State.targetApply_devTime (s : State) (c : Nat) (op : TargetOp) (tq : Nat) :
    (s.targetApply c op tq).devTime = s.devTime := by
  cases op with
  | dev => unfold State.targetApply; dsimp only; (repeat' split) <;> simp
  | histo => simp [State.targetApply]
  | read line dev histos clear _ _ =>
    refine (foldl_devTime _ (fun x no => ?_) _ _).trans (by simp)
    dsimp only; split <;> simp

@[simp] theorem State.intervalTargets_devTime (s : State) (c t : Nat) : (s.intervalTargets c t).devTime = s.devTime := by
  refine (foldl_devTime _ (fun x o => ?_) _ _).trans (by simp)
  split
  · split
    · dsimp only; split <;> simp
    · simp
  · simp

@[simp] theorem State.interval_devTime (s : State) (c mode : Nat) (len : Int) (t0 t : Nat) :
    (s.interval c mode len t0 t).devTime = s.devTime := by
  unfold State.interval; simp [foldl_devTime]

@[simp] theorem State.intervalSkip_devTime (s : State) (c mode k t : Nat) :
    (s.intervalSkip c mode k t).devTime = s.devTime := by
  unfold State.intervalSkip; simp [foldl_devTime]

@[simp] theorem State.statsFeed_devTime (s : State) (c : Nat) (v : Stream) (held toLine toDev toHisto : Bool) (g : Int)
    (ds p t : Nat) (fl : BitVec 10) : (s.statsFeed c v held toLine toDev toHisto g ds p t fl).devTime = s.devTime := by
  simp only [State.statsFeed]
  split
  · refine (foldl_devTime _ (fun x no => ?_) _ _).trans ?_
    · split <;> simp
    · simp
  · simp

@[simp] theorem State.devRestart_devTime (s : State) (c : Nat) : (s.devRestart c).devTime = s.devTime := by
  unfold State.devRestart; dsimp only; (repeat' split) <;> simp

@[simp] theorem State.gridRestart_devTime (s : State) (c : Nat) : (s.gridRestart c).devTime = s.devTime := by
  unfold State.gridRestart; dsimp only; (repeat' split) <;> simp

@[simp] theorem State.finalReports_devTime (s : State) (c t : Nat) : (s.finalReports c t).devTime = s.devTime := by
  refine (foldl_devTime _ (fun x no => ?_) _ _).trans ?_
  · split <;> simp
  · simp [foldl_devTime]

/-! #### Recipe -/

@[simp] theorem State.setStage_devTime (s : State) (c k : Nat) (x : StageState) :
    (s.setStage c k x).devTime = s.devTime := rfl

@[simp] theorem State.runDerive_devTime (s : State) (a : RunAt) (e : Nat) : (s.runDerive a e).2.devTime = s.devTime := by
  unfold State.runDerive; dsimp only; split
  · rfl
  · split <;> rfl

@[simp] theorem State.runCic_devTime (s : State) (a : RunAt) (k e : Nat) (r : Run) : (s.runCic a k e r).2.devTime = s.devTime := by
  unfold State.runCic; dsimp only; split <;> rfl

@[simp] theorem State.runFir_devTime (s : State) (a : RunAt) (k e : Nat) (r : Run) : (s.runFir a k e r).2.devTime = s.devTime := by
  unfold State.runFir; dsimp only; split <;> rfl

@[simp] theorem State.runWindow_devTime (s : State) (a : RunAt) (k e tag : Nat) (r : Run) :
    (s.runWindow a k e tag r).devTime = s.devTime := by simp [State.runWindow]

@[simp] theorem State.closeParcel_devTime (s : State) (c : Nat) (d : Decl) (k idx : Nat) :
    (s.closeParcel c d k idx).devTime = s.devTime := by
  unfold State.closeParcel; dsimp only; (repeat' split) <;> simp

@[simp] theorem State.closeParcels_devTime (s : State) (c : Nat) (d : Decl) :
    (s.closeParcels c d).devTime = s.devTime := by
  unfold State.closeParcels; simp [foldl_devTime]

@[simp] theorem State.resetStages_devTime (s : State) (c : Nat) (d : Decl) :
    (s.resetStages c d).devTime = s.devTime := by simp [State.resetStages]

@[simp] theorem State.parcelSpace_devTime (s : State) (c ring k values : Nat) :
    (s.parcelSpace c ring k values).devTime = s.devTime := by
  simp only [State.parcelSpace]
  split
  · rfl
  · split
    · next h => simp [State.place_devTime _ _ _ _ _ _ h]
    · rfl

@[simp] theorem State.runEmit_devTime (s : State) (a : RunAt) (k e tag : Nat) (r : Run) :
    (s.runEmit a k e tag r).devTime = s.devTime := by simp [State.runEmit]

@[simp] theorem State.runStage_devTime (s : State) (a : RunAt) (k e tag : Nat) (r : Run) :
    (s.runStage a k e tag r).2.2.devTime = s.devTime := by
  unfold State.runStage; dsimp only; split <;> simp

@[simp] theorem State.keepSat_devTime (s : State) (c : Nat) (img : List Dword) (k sat : Nat) :
    (s.keepSat c img k sat).devTime = s.devTime := by
  unfold State.keepSat
  split
  · rfl
  · exact foldl_devTime _ (fun _ _ => by rfl) _ _

@[simp] theorem State.runFrom_devTime (a : RunAt) (img : List Dword) (tag k : Nat) (es : List Nat) (r : Run) (s : State) :
    (State.runFrom a img tag k es r s).devTime = s.devTime := by
  induction es generalizing k r s with
  | nil => rfl
  | cons e es ih => simp only [State.runFrom]; split <;> simp [ih]

@[simp] theorem State.runRecipe_devTime (s : State) (a : RunAt) :
    (s.runRecipe a).devTime = s.devTime := by simp [State.runRecipe]

/-! #### Measure -/

@[simp] theorem State.addUnbound_devTime (s : State) (k : Nat) : (s.addUnbound k).devTime = s.devTime := rfl

@[simp] theorem State.addCounted_devTime (s : State) (e k : Nat) : (s.addCounted e k).devTime = s.devTime := rfl

@[simp] theorem State.hand_devTime (s : State) (c : Nat) (word : List (Nat × Item)) :
    (s.hand c word).devTime = s.devTime := by simp [State.hand]

@[simp] theorem State.routeCount_devTime (s : State) (i : Item) (uses : Nat) :
    (s.routeCount i uses).devTime = s.devTime := by simp [State.routeCount]

@[simp] theorem State.route_devTime (s : State) (src : Source) (word : List Item) :
    (s.route src word).devTime = s.devTime := by
  unfold State.route; simp [foldl_devTime]

@[simp] theorem State.stampRec_devTime (s : State) (c : Nat) (src : Source) (stamp : Nat) (rising : Bool) (n before : Nat) :
    (s.stampRec c src stamp rising n before).devTime = s.devTime := by simp [State.stampRec]

@[simp] theorem State.sideEdge_devTime (s : State) (c : Nat) (onB : Bool) (i : Item) : (s.sideEdge c onB i).devTime = s.devTime := by
  have h (x : Chan) (e k u w : Nat) : ((((s.setChan c x).addCounted e k).addUnbound u).addWork c w).devTime = s.devTime := by simp
  simp only [State.sideEdge, devTime_ite, State.stampRec_devTime, h, ite_self]

@[simp] theorem State.sideCount_devTime (s : State) (c : Nat) (onB : Bool) (i : Item) :
    (s.sideCount c onB i).devTime = s.devTime := by simp [State.sideCount]

@[simp] theorem State.periodHisto_devTime (s : State) (c : Nat) (a e : Edge) :
    (s.periodHisto c a e).devTime = s.devTime := by simp [State.periodHisto]

@[simp] theorem State.widthHistos_devTime (s : State) (c : Nat) (a e : Edge) : (s.widthHistos c a e).devTime = s.devTime := by
  unfold State.widthHistos; dsimp only
  (repeat' split) <;> simp only [State.intervalSkip_devTime, State.interval_devTime]

@[simp] theorem State.edgeHistos_devTime (s : State) (c : Nat) : (s.edgeHistos c).devTime = s.devTime := by
  unfold State.edgeHistos; dsimp only; (repeat' split) <;> simp

@[simp] theorem State.pairOne_devTime (s : State) (c : Nat) (e : PairEdge) : (s.pairOne c e).devTime = s.devTime := by
  unfold State.pairOne; dsimp only; (repeat' split) <;> simp

@[simp] theorem State.pairRun_devTime (k : Nat) (s : State) (c : Nat) : (State.pairRun k s c).devTime = s.devTime := by
  induction k generalizing s with
  | zero => rfl
  | succ k ih =>
    unfold State.pairRun
    dsimp only
    (repeat' split) <;> simp [ih]

@[simp] theorem State.pairBreak_devTime (s : State) (c : Nat) (onB : Bool) (t : Nat) :
    (s.pairBreak c onB t).devTime = s.devTime := rfl

@[simp] theorem State.pairAll_devTime (s : State) (c : Nat) :
    (s.pairAll c).devTime = s.devTime := by simp [State.pairAll]

@[simp] theorem State.pairItem_devTime (s : State) (c : Nat) (onB : Bool) (i : Item) :
    (s.pairItem c onB i).devTime = s.devTime := by
  unfold State.pairItem; dsimp only; (repeat' split) <;> simp

@[simp] theorem State.quadQuiet_devTime (s : State) (c : Nat) (e : QuadChange) :
    (s.quadQuiet c e).devTime = s.devTime := by
  unfold State.quadQuiet; dsimp only; (repeat' split) <;> simp

@[simp] theorem State.quadStamp_devTime (s : State) (c : Nat) (e : QuadChange) (n before : Nat) :
    (s.quadStamp c e n before).devTime = s.devTime := by simp [State.quadStamp]

@[simp] theorem State.quadSingle_devTime (s : State) (c : Nat) (e : QuadChange) :
    (s.quadSingle c e).devTime = s.devTime := by simp [State.quadSingle]

@[simp] theorem State.quadSkip_devTime (s : State) (c : Nat) (es : List QuadChange) :
    (s.quadSkip c es).devTime = s.devTime := by
  unfold State.quadSkip; simp [foldl_devTime]

@[simp] theorem State.quadRun_devTime (k : Nat) (s : State) (c now : Nat) : (State.quadRun k s c now).devTime = s.devTime := by
  induction k generalizing s with
  | zero => rfl
  | succ k ih =>
    unfold State.quadRun
    dsimp only
    (repeat' split) <;> simp [ih]

@[simp] theorem State.quadAll_devTime (s : State) (c : Nat) :
    (s.quadAll c).devTime = s.devTime := by simp [State.quadAll]

@[simp] theorem State.quadUnstamped_devTime (s : State) (c use : Nat) (i : Item) :
    (s.quadUnstamped c use i).devTime = s.devTime := by simp [State.quadUnstamped]

@[simp] theorem State.quadItem_devTime (s : State) (c use : Nat) (i : Item) :
    (s.quadItem c use i).devTime = s.devTime := by simp [State.quadItem]

@[simp] theorem State.takeEst_devTime (s : State) (c use : Nat) (i : Item) :
    (s.takeEst c use i).devTime = s.devTime := by simp [State.takeEst]

@[simp] theorem State.takeItem_devTime (s : State) (c use : Nat) (i : Item) :
    (s.takeItem c use i).devTime = s.devTime := by
  unfold State.takeItem; dsimp only; (repeat' split) <;> simp

@[simp] theorem State.engineTake_devTime (s : State) (c : Nat) : (s.engineTake c).devTime = s.devTime := by
  unfold State.engineTake; dsimp only; (repeat' split) <;> simp

@[simp] theorem State.engineEdge_devTime (s : State) (c : Nat) : (s.engineEdge c).devTime = s.devTime := by
  unfold State.engineEdge; dsimp only; (repeat' split) <;> simp

/-! #### Resolve -/

@[simp] theorem State.targetsDue_devTime (k : Nat) (s : State) (c t : Nat) : (State.targetsDue k s c t).devTime = s.devTime := by
  induction k generalizing s with
  | zero => rfl
  | succ k ih =>
    unfold State.targetsDue
    (repeat' split) <;> simp [ih]

@[simp] theorem State.applyTargets_devTime (s : State) (c t : Nat) :
    (s.applyTargets c t).devTime = s.devTime := by simp [State.applyTargets]

@[simp] theorem State.closeWithheld_devTime (s : State) (c : Nat) (d : Decl) (t count : Nat) (phase : Word) (fl : BitVec 10) :
    (s.closeWithheld c d t count phase fl).devTime = s.devTime := by
  unfold State.closeWithheld; dsimp only; (repeat' split) <;> simp

@[simp] theorem State.gapSummary_devTime (s : State) (c : Nat) (d : Decl) (t count : Nat) (phase : Word) (fl : BitVec 10) :
    (s.gapSummary c d t count phase fl).devTime = s.devTime := by simp [State.gapSummary]

@[simp] theorem State.sampleRec_devTime (s : State) (c : Nat) (d : Decl) (t : Nat) (v : Solved) :
    (s.sampleRec c d t v).devTime = s.devTime := by simp [State.sampleRec]

@[simp] theorem State.finishRedeclare_devTime (s : State) (c : Nat) : (s.finishRedeclare c).devTime = s.devTime := by
  unfold State.finishRedeclare; dsimp only; (repeat' split) <;> simp

@[simp] theorem State.resolveAt_devTime (s : State) (c t : Nat) : (s.resolveAt c t).devTime = s.devTime := by
  unfold State.resolveAt; dsimp only; (repeat' split) <;> simp

@[simp] theorem State.quadNow_devTime (s : State) (c : Nat) :
    (s.quadNow c).devTime = s.devTime := by simp [State.quadNow]

/-! #### RingOps -/

@[simp] theorem State.writeStatus_devTime (s : State) (n : Nat) : (s.writeStatus n).devTime = s.devTime := rfl

@[simp] theorem State.statusBlock_devTime (s : State) (n : Nat) :
    (s.statusBlock n).devTime = s.devTime := by simp [State.statusBlock]

@[simp] theorem State.entries_devTime (s : State) (n k : Nat) : (s.entries n k).devTime = s.devTime := rfl

@[simp] theorem State.ringMessage_devTime (s : State) (n : Nat) :
    (s.ringMessage n).devTime = s.devTime := by simp [State.ringMessage]

@[simp] theorem State.consume_devTime (s : State) (n : Nat) :
    (s.consume n).devTime = s.devTime := by simp [State.consume]

@[simp] theorem State.rejectHead_devTime (s : State) (n : Nat) (d : Desc) (reason : Nat) :
    (s.rejectHead n d reason).devTime = s.devTime := by simp [State.rejectHead]

@[simp] theorem State.rejectBad_devTime (k : Nat) (s : State) (n : Nat) : (State.rejectBad k s n).devTime = s.devTime := by
  induction k generalizing s with
  | zero => rfl
  | succ k ih =>
    unfold State.rejectBad
    (repeat' split) <;> simp [ih]

@[simp] theorem State.nextDesc_devTime (s : State) (n : Nat) :
    (s.nextDesc n).devTime = s.devTime := by simp [State.nextDesc]

@[simp] theorem State.judge_devTime (s : State) (n : Nat) (d : Desc) (fail : Option Nat) (effect : State → State)
    (h : (effect s).devTime = s.devTime) : (s.judge n d fail effect).devTime = s.devTime := by
  unfold State.judge; split <;> simp [h]

/-! #### Places -/

@[simp] theorem State.allot_devTime (qs : List Nat) (s : State) (got : List (Nat × Nat)) :
    (State.allot qs s got).2.devTime = s.devTime := by
  induction qs generalizing s got with
  | nil => rfl
  | cons q r ih => simp [State.allot, ih]

@[simp] theorem State.takeGuard_devTime (s : State) (e n : Nat) : (s.takeGuard e n).devTime = s.devTime := rfl

@[simp] theorem State.giveGuard_devTime (s : State) (e n : Nat) : (s.giveGuard e n).devTime = s.devTime := rfl

@[simp] theorem State.predict_devTime (s : State) (c e : Nat) : (s.predict c e).devTime = s.devTime := rfl

@[simp] theorem State.placeChan_devTime (s : State) (c : Nat) (d : Decl) : (s.placeChan c d).devTime = s.devTime := by
  simp only [State.placeChan]; split <;> simp

@[simp] theorem State.unplace_devTime (s : State) (c : Nat) : (s.unplace c).devTime = s.devTime := by
  unfold State.unplace; dsimp only; (repeat' split) <;> simp

@[simp] theorem State.growTwin_devTime (s : State) (c k : Nat) : (s.growTwin c k).devTime = s.devTime := by
  unfold State.growTwin; dsimp only; (repeat' split) <;> simp

@[simp] theorem State.changeLines_devTime (s : State) (c : Nat) (d : Decl) : (s.changeLines c d).devTime = s.devTime := by
  simp [State.changeLines]

@[simp] theorem State.placeRecord_devTime (s : State) (dest c reason : Nat) :
    (s.placeRecord dest c reason).devTime = s.devTime := by simp [State.placeRecord]

@[simp] theorem State.placeReport_devTime (s : State) (c reason : Nat) :
    (s.placeReport c reason).devTime = s.devTime := by simp [State.placeReport]

/-! #### Channel -/

@[simp] theorem State.zonesNow_devTime (s : State) (c at_ : Nat) : (s.zonesNow c at_).devTime = s.devTime := rfl

@[simp] theorem State.enterLive_devTime (s : State) (c tLive : Nat) (tag : Dword) :
    (s.enterLive c tLive tag).devTime = s.devTime := by simp [State.enterLive]

@[simp] theorem State.payPin_devTime (s : State) (c : Nat) :
    (s.payPin c).devTime = s.devTime := by simp [State.payPin]

@[simp] theorem State.declare_devTime (s : State) (c : Nat) (d : Decl) (tag : Dword) :
    (s.declare c d tag).devTime = s.devTime := by simp [State.declare]

@[simp] theorem State.acceptOp_devTime (s : State) (c : Nat) (op : ChanOp) (at_ : Option Nat) :
    (s.acceptOp c op at_).devTime = s.devTime := rfl

@[simp] theorem State.gapRec_devTime (s : State) (c : Nat) (g : GapOwed) (count : Nat) (phase : Word) (fl : BitVec 10) (extra : List Word) :
    (s.gapRec c g count phase fl extra).devTime = s.devTime := by simp [State.gapRec]

@[simp] theorem State.outageGap_devTime (s : State) (c tLive : Nat) :
    (s.outageGap c tLive).devTime = s.devTime := by simp [State.outageGap]

@[simp] theorem State.reenter_devTime (s : State) (c tLive : Nat) (st : ChanState) :
    (s.reenter c tLive st).devTime = s.devTime := by simp [State.reenter]

theorem State.laneEnd_devTime (s : State) (c t : Nat) (v : Solved) (u : State) (h : s.laneEnd c t = some (v, u)) :
    u.devTime = s.devTime := by
  unfold State.laneEnd at h
  split at h <;> cases h
  rfl

@[simp] theorem State.payLaneGap_devTime (s : State) (c : Nat) : (s.payLaneGap c).devTime = s.devTime := by
  simp only [State.payLaneGap]
  split
  · split
    · split
      · next h => simp [State.laneEnd_devTime _ _ _ _ _ h]
      · rfl
    · split
      · rfl
      · split
        · next h => simp [State.laneEnd_devTime _ _ _ _ _ h]
        · rfl
  · rfl

@[simp] theorem State.dropWish_devTime (s : State) (c : Nat) : (s.dropWish c).devTime = s.devTime := rfl

/-! #### Loads -/

@[simp] theorem State.judgeBuf_devTime {α : Type} (s : State) (n : Nat) (d : Desc) (before : Option Nat) (buf : Option α)
    (after : α → Option Nat) (effect : α → State → State) (h : ∀ b, (effect b s).devTime = s.devTime) :
    (s.judgeBuf n d before buf after effect).devTime = s.devTime := by
  unfold State.judgeBuf; split
  · exact State.judge_devTime _ _ _ _ _ rfl
  · simp
  · exact State.judge_devTime _ _ _ _ _ (h _)

@[simp] theorem State.markBank_devTime (s : State) (b : Nat) : (s.markBank b).devTime = s.devTime := by
  refine foldl_devTime _ (fun x k => ?_) _ _
  obtain ⟨c, ch⟩ := k
  dsimp only
  split
  · exact foldl_devTime _ (fun _ _ => by rfl) _ _
  · rfl

@[simp] theorem State.addTarget_devTime (s : State) (c : Nat) (op : TargetOp) :
    (s.addTarget c op).devTime = s.devTime := rfl

/-! #### Lane -/

@[simp] theorem State.sendCtl_devTime (s : State) (n type : Nat) (p : Ctl) :
    (s.sendCtl n type p).devTime = s.devTime := rfl

@[simp] theorem State.sendData_devTime (s : State) (n : Nat) (w : Word) : (s.sendData n w).devTime = s.devTime := rfl

@[simp] theorem State.sendFill_devTime (s : State) (n k : Nat) : (s.sendFill n k).devTime = s.devTime := rfl

@[simp] theorem State.grantLane_devTime (s : State) (n : Nat) :
    (s.grantLane n).devTime = s.devTime := by simp [State.grantLane]

@[simp] theorem State.ackLane_devTime (s : State) (n : Nat) (sync req : Bool) :
    (s.ackLane n sync req).devTime = s.devTime := by simp [State.ackLane]

@[simp] theorem State.sendDispatch_devTime (s : State) (n : Nat) (d : Dispatched) : (s.sendDispatch n d).devTime = s.devTime := by
  have h (l : List Word) (x : State) : (l.foldl (fun s w => s.sendData n w) x).devTime = x.devTime :=
    foldl_devTime _ (fun _ _ => by simp) _ _
  simp [State.sendDispatch, h]

@[simp] theorem State.resend_devTime (s : State) (n : Nat) (ds : List Dispatched) :
    (s.resend n ds).devTime = s.devTime := by
  unfold State.resend; simp [foldl_devTime]

@[simp] theorem State.startSync_devTime (s : State) (n : Nat) :
    (s.startSync n).devTime = s.devTime := by simp [State.startSync]

@[simp] theorem State.laneEvent_devTime (s : State) (n : Nat) :
    (s.laneEvent n).devTime = s.devTime := by simp [State.laneEvent]

@[simp] theorem State.laneTo_devTime (s : State) (n : Nat) (st : LaneState) :
    (s.laneTo n st).devTime = s.devTime := by simp [State.laneTo]

@[simp] theorem State.laneToOff_devTime (s : State) (n : Nat) :
    (s.laneToOff n).devTime = s.devTime := by simp [State.laneToOff]

@[simp] theorem State.laneToDetect_devTime (s : State) (n : Nat) :
    (s.laneToDetect n).devTime = s.devTime := by simp [State.laneToDetect]

@[simp] theorem State.laneToAbsent_devTime (s : State) (n : Nat) :
    (s.laneToAbsent n).devTime = s.devTime := by simp [State.laneToAbsent]

@[simp] theorem State.laneFails_devTime (s : State) (n cause : Nat) :
    (s.laneFails n cause).devTime = s.devTime := by simp [State.laneFails]

@[simp] theorem State.laneToTrain_devTime (s : State) (n : Nat) (kept : Bool) :
    (s.laneToTrain n kept).devTime = s.devTime := by simp [State.laneToTrain]

@[simp] theorem State.sendTraining_devTime (s : State) (n : Nat) :
    (s.sendTraining n).devTime = s.devTime := by simp [State.sendTraining]

@[simp] theorem State.nextTap_devTime (s : State) (n : Nat) (p : Ctl) :
    (s.nextTap n p).devTime = s.devTime := by simp [State.nextTap]

@[simp] theorem State.sendAlign_devTime (s : State) (n : Nat) (req ans : Bool) (turn : Nat) :
    (s.sendAlign n req ans turn).devTime = s.devTime := by simp [State.sendAlign]

@[simp] theorem State.sendEcho_devTime (s : State) (n : Nat) :
    (s.sendEcho n).devTime = s.devTime := by simp [State.sendEcho]

@[simp] theorem State.laneToAlign_devTime (s : State) (n : Nat) :
    (s.laneToAlign n).devTime = s.devTime := by simp [State.laneToAlign]

@[simp] theorem State.adapt_devTime (s : State) (n : Nat) : (s.adapt n).devTime = s.devTime := by simp [State.adapt]

@[simp] theorem State.discardTraining_devTime (s : State) (n : Nat) : (s.discardTraining n).devTime = s.devTime := rfl

@[simp] theorem State.askPreset_devTime (s : State) (n : Nat) :
    (s.askPreset n).devTime = s.devTime := by simp [State.askPreset]

@[simp] theorem State.trainingIn_devTime (s : State) (n : Nat) (p : Ctl) :
    (s.trainingIn n p).devTime = s.devTime := by simp [State.trainingIn]

@[simp] theorem State.laneReturn_devTime (s : State) (n reason seq count : Nat) :
    (s.laneReturn n reason seq count).devTime = s.devTime := by simp [State.laneReturn]

@[simp] theorem State.laneOccur_devTime (s : State) (n reason seq : Nat) :
    (s.laneOccur n reason seq).devTime = s.devTime := by simp [State.laneOccur]

@[simp] theorem State.protocolFault_devTime (s : State) (n : Nat) :
    (s.protocolFault n).devTime = s.devTime := by simp [State.protocolFault]

@[simp] theorem State.violation_devTime (s : State) (n : Nat) (second : Bool) (lo reason seq : Nat) :
    (s.violation n second lo reason seq).devTime = s.devTime := by simp [State.violation]

@[simp] theorem State.formatBlock_devTime (s : State) (n : Nat) :
    (s.formatBlock n).devTime = s.devTime := by simp [State.formatBlock]

@[simp] theorem State.lateAgreement_devTime (s : State) (n : Nat) (p : Ctl) :
    (s.lateAgreement n p).devTime = s.devTime := by simp [State.lateAgreement]

@[simp] theorem State.laneToCredit_devTime (s : State) (n : Nat) :
    (s.laneToCredit n).devTime = s.devTime := by simp [State.laneToCredit]

@[simp] theorem State.laneToActive_devTime (s : State) (n : Nat) :
    (s.laneToActive n).devTime = s.devTime := by simp [State.laneToActive]

@[simp] theorem State.laneToRecover_devTime (s : State) (n : Nat) :
    (s.laneToRecover n).devTime = s.devTime := by simp [State.laneToRecover]

@[simp] theorem State.laneRecovered_devTime (s : State) (n : Nat) :
    (s.laneRecovered n).devTime = s.devTime := by simp [State.laneRecovered]

@[simp] theorem State.echoAnswer_devTime (s : State) (n : Nat) (p : Ctl) :
    (s.echoAnswer n p).devTime = s.devTime := by
  unfold State.echoAnswer; dsimp only; (repeat' split) <;> simp

@[simp] theorem State.echoReply_devTime (s : State) (n : Nat) :
    (s.echoReply n).devTime = s.devTime := by simp [State.echoReply]

@[simp] theorem State.nextAlign_devTime (s : State) (n : Nat) : (s.nextAlign n).devTime = s.devTime := by
  unfold State.nextAlign; dsimp only; (repeat' split) <;> simp

@[simp] theorem State.dataBlock_devTime (s : State) (n : Nat) :
    (s.dataBlock n).devTime = s.devTime := by simp [State.dataBlock]

@[simp] theorem State.laneOn_devTime (s : State) (n : Nat) :
    (s.laneOn n).devTime = s.devTime := by simp [State.laneOn]

@[simp] theorem State.laneOff_devTime (s : State) (n : Nat) :
    (s.laneOff n).devTime = s.devTime := by simp [State.laneOff]

@[simp] theorem State.probe_devTime (s : State) (n : Nat) : (s.probe n).devTime = s.devTime := by simp [State.probe]

@[simp] theorem State.laneRetry_devTime (s : State) (n : Nat) : (s.laneRetry n).devTime = s.devTime := by
  unfold State.laneRetry; split <;> simp

@[simp] theorem State.laneRetrain_devTime (s : State) (n : Nat) :
    (s.laneRetrain n).devTime = s.devTime := by simp [State.laneRetrain]

/-! #### Protocol -/

@[simp] theorem State.nak_devTime (s : State) (n reason : Nat) :
    (s.nak n reason).devTime = s.devTime := by simp [State.nak]

@[simp] theorem State.refuse_devTime (s : State) (n blocks lo nakReason reason seq : Nat) :
    (s.refuse n blocks lo nakReason reason seq).devTime = s.devTime := by simp [State.refuse]

@[simp] theorem State.setSrc_devTime (s : State) (n i : Nat) (x : RemoteSrc) :
    (s.setSrc n i x).devTime = s.devTime := rfl

@[simp] theorem State.toBuffer_devTime (s : State) (n : Nat) (b : LaneBlock) :
    (s.toBuffer n b).devTime = s.devTime := rfl

@[simp] theorem State.takeIn_devTime (s : State) (a : Arrival) (i : Nat) (x : Item) :
    (s.takeIn a i x).devTime = s.devTime := rfl

@[simp] theorem State.discardItem_devTime (s : State) (a : Arrival) :
    (s.discardItem a).devTime = s.devTime := by simp [State.discardItem]

@[simp] theorem State.remoteItem_devTime (s : State) (a : Arrival) (w : Word) :
    (s.remoteItem a w).devTime = s.devTime := by
  unfold State.remoteItem; dsimp only; (repeat' split) <;> simp

@[simp] theorem State.endLaneGaps_devTime (s : State) (n h : Nat) : (s.endLaneGaps n h).devTime = s.devTime := rfl

@[simp] theorem State.takeHorizon_devTime (s : State) (a : Arrival) (field : Nat) :
    (s.takeHorizon a field).devTime = s.devTime := by simp [State.takeHorizon]

@[simp] theorem State.newUpstream_devTime (s : State) (n : Nat) (had : Bool) :
    (s.newUpstream n had).devTime = s.devTime := by simp [State.newUpstream]

@[simp] theorem State.letterUp_devTime (s : State) (a : Arrival) (head : Ctl) (data : List Word) :
    (s.letterUp a head data).devTime = s.devTime := by
  have h : (data.foldl (fun s _ => s.toBuffer a.lane none) s).devTime = s.devTime := foldl_devTime _ (fun _ _ => by simp) _ _
  simp [State.letterUp, h]

@[simp] theorem State.acceptDispatch_devTime (s : State) (n : Nat) (head : Ctl) (data : List Word) :
    (s.acceptDispatch n head data).devTime = s.devTime := by
  unfold State.acceptDispatch; simp [foldl_devTime]

@[simp] theorem State.creditDispatch_devTime (s : State) (n : Nat) (head : Ctl) (data : List Word) :
    (s.creditDispatch n head data).devTime = s.devTime := by simp [State.creditDispatch]

@[simp] theorem State.seqDispatch_devTime (s : State) (n : Nat) (head : Ctl) (data : List Word) :
    (s.seqDispatch n head data).devTime = s.devTime := by simp [State.seqDispatch]

@[simp] theorem State.letterAck_devTime (s : State) (n : Nat) (d : Dispatched) :
    (s.letterAck n d).devTime = s.devTime := by simp [State.letterAck]

@[simp] theorem State.letterDown_devTime (s : State) (n ackRing : Nat) (tag : Dword) (pos : Nat) :
    (s.letterDown n ackRing tag pos).devTime = s.devTime := by simp [State.letterDown]

theorem State.acked_devTime (s u : State) (n : Nat) (next : BitVec 16) (h : s.acked n next = some u) :
    u.devTime = s.devTime := by
  unfold State.acked at h
  dsimp only at h
  split at h <;> cases h
  simp [foldl_devTime]

@[simp] theorem State.badAck_devTime (s : State) (n : Nat) (check : Bool) :
    (s.badAck n check).devTime = s.devTime := by simp [State.badAck]

@[simp] theorem State.routeRemote_devTime (s : State) (n i : Nat) (x : Item) :
    (s.routeRemote n i x).devTime = s.devTime := by
  unfold State.routeRemote; dsimp only; (repeat' split) <;> simp

@[simp] theorem State.drainLane_devTime (k : Nat) (s : State) (n : Nat) : (State.drainLane k s n).devTime = s.devTime := by
  induction k generalizing s with
  | zero => rfl
  | succ k ih =>
    unfold State.drainLane
    dsimp only
    (repeat' split) <;> simp [ih]

@[simp] theorem State.initDone_devTime (s : State) (n : Nat) : (s.initDone n).devTime = s.devTime := by
  simp only [State.initDone]
  split
  · split
    · next h => simp [State.acked_devTime _ _ _ _ h]
    · simp
  · simp [foldl_devTime]

/-! #### Peer -/

@[simp] theorem State.peerEvent_devTime (s : State) : s.peerEvent.devTime = s.devTime := by simp [State.peerEvent]

@[simp] theorem State.modPeer_devTime (s : State) (f : Peer → Peer) : (s.modPeer f).devTime = s.devTime := rfl

@[simp] theorem State.sendFrame_devTime (s : State) (n : Nat) :
    (s.sendFrame n).devTime = s.devTime := by simp [State.sendFrame]

@[simp] theorem State.frameMissed_devTime (s : State) (n : Nat) :
    (s.frameMissed n).devTime = s.devTime := by simp [State.frameMissed]

@[simp] theorem State.merge_devTime (s : State) : s.merge.devTime = s.devTime := by simp [State.merge]

@[simp] theorem State.peerChoose_devTime (s : State) : s.peerChoose.devTime = s.devTime := by
  unfold State.peerChoose; dsimp only; (repeat' split) <;> simp

@[simp] theorem State.peerSlew_devTime (s : State) (off : Int) :
    (s.peerSlew off).devTime = s.devTime := by simp [State.peerSlew]

@[simp] theorem State.exchange_devTime (s : State) (n t2 t3 t4 echo : Nat) :
    (s.exchange n t2 t3 t4 echo).devTime = s.devTime := by
  unfold State.exchange; dsimp only; (repeat' split) <;> simp

@[simp] theorem State.peerCtrlWritten_devTime (s : State) (was : Bool) :
    (s.peerCtrlWritten was).devTime = s.devTime := by simp [State.peerCtrlWritten]

@[simp] theorem State.peerWhole_devTime (s : State) : s.peerWhole.2.devTime = s.devTime := by
  unfold State.peerWhole; split <;> simp

/-! #### Placement -/

@[simp] theorem State.plan_devTime (s : State) (w : Nat) : (s.plan w).devTime = s.devTime := by simp [State.plan]

@[simp] theorem State.pinLoad_devTime (s : State) (e : Nat) :
    (s.pinLoad e).devTime = s.devTime := by simp [State.pinLoad]

@[simp] theorem State.takeLoad_devTime (s : State) (e : Nat) (l : LoadSample) :
    (s.takeLoad e l).devTime = s.devTime := rfl

@[simp] theorem State.reserve_devTime (s : State) (m : Move) : (s.reserve m).2.devTime = s.devTime := by
  unfold State.reserve; dsimp only; (repeat' split) <;> simp

@[simp] theorem State.endCastling_devTime (s : State) (k : Castling) : (s.endCastling k).devTime = s.devTime := rfl

@[simp] theorem State.freeDest_devTime (s : State) (k : Castling) :
    (s.freeDest k).devTime = s.devTime := by simp [State.freeDest]

@[simp] theorem State.takeMove_devTime (s : State) (k : Castling) : (s.takeMove k).devTime = s.devTime := by
  unfold State.takeMove; dsimp only; (repeat' split) <;> simp

/-! #### Rings -/

@[simp] theorem State.ringStart_devTime (s : State) (n : Nat) :
    (s.ringStart n).devTime = s.devTime := by simp [State.ringStart]

@[simp] theorem State.ringEnableWritten_devTime (s : State) (n : Nat) (was : Bool) :
    (s.ringEnableWritten n was).devTime = s.devTime := by
  unfold State.ringEnableWritten; dsimp only; (repeat' split) <;> simp

@[simp] theorem State.lbReturn_devTime (s : State) (n value pos count : Nat) :
    (s.lbReturn n value pos count).devTime = s.devTime := by simp [State.lbReturn]

@[simp] theorem State.lbViolation_devTime (s : State) (n value : Nat) :
    (s.lbViolation n value).devTime = s.devTime := by simp [State.lbViolation]

@[simp] theorem State.letterbox_devTime (s : State) (n value : Nat) :
    (s.letterbox n value).devTime = s.devTime := by simp [State.letterbox]

@[simp] theorem State.ringsReset_devTime (s : State) : s.ringsReset.devTime = s.devTime := rfl

/-! #### Delivery -/

@[simp] theorem State.keepSlot_devTime (s : State) (n seq : Nat) (role : SlotRole) (bits : BitVec 256) :
    (s.keepSlot n seq role bits).devTime = s.devTime := by
  unfold State.keepSlot
  split
  · rfl
  · split
    · next h => simp [State.place_devTime _ _ _ _ _ _ h]
    · simp

@[simp] theorem State.dropKept_devTime (s : State) (n seq : Nat) :
    (s.dropKept n seq).devTime = s.devTime := by simp [State.dropKept]

@[simp] theorem State.trimKept_devTime (s : State) (n : Nat) : (s.trimKept n).devTime = s.devTime := by
  unfold State.trimKept; split <;> simp

@[simp] theorem State.writeSlots_devTime (s : State) (n : Nat) (headRole : SlotRole) (head : BitVec 256)
    (body : List (BitVec 256)) : (s.writeSlots n headRole head body).devTime = s.devTime := by
  simp only [State.writeSlots, State.entries_devTime, State.bumpBy_keeps, State.modRing_eq, State.setRing_devTime]
  refine (foldl_devTime _ (fun _ _ => by simp) _ _).trans ?_
  simp only [State.keepSlot_devTime, State.out_devTime]
  exact foldl_devTime _ (fun _ _ => by rfl) _ _

@[simp] theorem State.writePart_devTime (s : State) (n : Nat) (r : Record) (k : Nat) :
    (s.writePart n r k).devTime = s.devTime := by simp [State.writePart]

@[simp] theorem State.noteServed_devTime (s : State) (n : Nat) : (s.noteServed n).devTime = s.devTime := by
  unfold State.noteServed; dsimp only; (repeat' split) <;> simp

@[simp] theorem State.holdRecord_devTime (s : State) (n cls : Nat) (r : Record) (rest : List Record) :
    (s.holdRecord n cls r rest).devTime = s.devTime := by
  simp only [State.holdRecord]
  split
  · simp
  · split
    · next h => simp [State.place_devTime _ _ _ _ _ _ h]
    · simp

@[simp] theorem State.repostDone_devTime (s : State) (n : Nat) (p : Reposting) :
    (s.repostDone n p).devTime = s.devTime := by simp [State.repostDone]

@[simp] theorem State.repostNext_devTime (s : State) (n : Nat) (p : Reposting) :
    (s.repostNext n p).devTime = s.devTime := by
  unfold State.repostNext; dsimp only; (repeat' split) <;> simp

@[simp] theorem State.withholdPush_devTime (s : State) (n : Nat) (p : Push) :
    (s.withholdPush n p).devTime = s.devTime := by simp [State.withholdPush]

@[simp] theorem State.enterSummary_devTime (s : State) (n : Nat) : (s.enterSummary n).devTime = s.devTime := by
  unfold State.enterSummary; simp [foldl_devTime]

@[simp] theorem State.rejectDetail_devTime (s : State) (n : Nat) (d : Desc) (reason detail : Nat) :
    (s.rejectDetail n d reason detail).devTime = s.devTime := by simp [State.rejectDetail]

/-! #### FaultRec -/

@[simp] theorem State.faultClear_devTime (s : State) (value : Dword) : (s.faultClear value).devTime = s.devTime := rfl

@[simp] theorem State.unseal_devTime (s : State) : s.unseal.devTime = s.devTime := by simp [State.unseal]

@[simp] theorem State.bbSelected_devTime (s : State) : s.bbSelected.devTime = s.devTime := rfl

@[simp] theorem State.bbMark_devTime (s : State) : s.bbMark.devTime = s.devTime := by simp [State.bbMark]

/-! #### Keeper -/

@[simp] theorem State.modKpr_devTime (s : State) (f : Keeper → Keeper) : (s.modKpr f).devTime = s.devTime := rfl

@[simp] theorem State.upset_devTime (s : State) (u : Upset) : (s.upset u).devTime = s.devTime := by simp [State.upset]

@[simp] theorem State.tickCause_devTime (s : State) (i : Nat) : (s.tickCause i).devTime = s.devTime := rfl

@[simp] theorem State.voteWord_devTime (s : State) (n : Nat) :
    (s.voteWord n).devTime = s.devTime := by simp [State.voteWord]

@[simp] theorem State.kAdd_devTime (s : State) (n : Nat) (k : Int) (cmp : Bool) :
    (s.kAdd n k cmp).devTime = s.devTime := by simp [State.kAdd]

@[simp] theorem State.kEdge_devTime (s : State) (n : Nat) (old new : Zone) :
    (s.kEdge n old new).devTime = s.devTime := by simp [State.kEdge]

@[simp] theorem State.kPair_devTime (s : State) (n : Nat) (a0 b0 a1 b1 : Zone) :
    (s.kPair n a0 b0 a1 b1).devTime = s.devTime := by simp [State.kPair]

@[simp] theorem State.kWakeZone_devTime (s : State) (n : Nat) (old new : Zone) :
    (s.kWakeZone n old new).devTime = s.devTime := by simp [State.kWakeZone]

@[simp] theorem State.kprSample_devTime (s : State) (levels : List (Fin 64 × Int)) :
    (s.kprSample levels).devTime = s.devTime := by
  unfold State.kprSample; simp [foldl_devTime]

@[simp] theorem State.mirrorKpr_devTime (s : State) : s.mirrorKpr.devTime = s.devTime :=
by
  have h (a b : Nat) (v w : Word) (x : State) : ((x.setReg a v).setReg b w).devTime = x.devTime := rfl
  exact (foldl_devTime _ (fun _ _ => h _ _ _ _ _) _ _).trans ((h _ _ _ _ _).trans ((h _ _ _ _ _).trans (State.setReg_devTime _ _ _)))

@[simp] theorem State.modGuard_devTime (s : State) (c : Nat) (f : Guarded → Guarded) :
    (s.modGuard c f).devTime = s.devTime := rfl

@[simp] theorem State.keeperCheckOf_devTime (s : State) (c : Nat) :
    (s.keeperCheckOf c).devTime = s.devTime := by simp [State.keeperCheckOf]

@[simp] theorem State.keeperCheck_devTime (s : State) : s.keeperCheck.devTime = s.devTime := by
  unfold State.keeperCheck; simp [foldl_devTime]

@[simp] theorem State.releaseRec_devTime (s : State) (c : Nat) (x : GuardedRecord) (fl : BitVec 10) :
    (s.releaseRec c x fl).devTime = s.devTime := by simp [State.releaseRec]

@[simp] theorem State.checkRec_devTime (s : State) (c code time : Nat) (np nt kk : Option Nat) :
    (s.checkRec c code time np nt kk).devTime = s.devTime := by simp [State.checkRec]

@[simp] theorem State.guardCompare_devTime (s : State) (c n : Nat) (same : Bool) :
    (s.guardCompare c n same).devTime = s.devTime := by
  unfold State.guardCompare; dsimp only; (repeat' split) <;> simp

@[simp] theorem State.twinRecord_devTime (s : State) (x : GuardedRecord) (d : Decl) :
    (s.twinRecord x d).2.devTime = s.devTime := by
  have h (l : List Word) (p : List Word × State) :
      (l.foldl (fun (p : List Word × State) _ => (p.1 ++ [p.2.free.1], p.2.free.2)) p).2.devTime = p.2.devTime := by
    induction l generalizing p with
    | nil => rfl
    | cons w l ih => simp [ih]
  simp [State.twinRecord, apply_ite Prod.snd, h]

@[simp] theorem State.releaseHeld_devTime (s : State) (c : Nat) (twin : Bool) (fl : BitVec 10) :
    (s.releaseHeld c twin fl).devTime = s.devTime := by
  refine (foldl_devTime _ (fun x o => ?_) _ _).trans (by simp)
  simp

@[simp] theorem State.voteUndecided_devTime (s : State) (c tk np : Nat) (nt kk : Option Nat) :
    (s.voteUndecided c tk np nt kk).devTime = s.devTime := by simp [State.voteUndecided]

@[simp] theorem State.voteOne_devTime (s : State) (c tk k : Nat) : (s.voteOne c tk k).devTime = s.devTime := by
  unfold State.voteOne; dsimp only; (repeat' split) <;> simp

@[simp] theorem State.votePeriodic_devTime (s : State) (c tk k : Nat) :
    (s.votePeriodic c tk k).devTime = s.devTime := by simp [State.votePeriodic]

@[simp] theorem State.votesOf_devTime (k : Nat) (s : State) (c wait : Nat) : (State.votesOf k s c wait).devTime = s.devTime := by
  induction k generalizing s with
  | zero => rfl
  | succ k ih =>
    unfold State.votesOf
    dsimp only
    (repeat' split) <;> simp [ih]

@[simp] theorem State.voteAll_devTime (s : State) (wait : Nat) : (s.voteAll wait).devTime = s.devTime := by
  unfold State.voteAll; simp [foldl_devTime]

@[simp] theorem State.mergeChan_devTime (s : State) (c tick : Nat) : (s.mergeChan c tick).devTime = s.devTime := by
  have h (x : Chan) : ((s.setChan c x).zonesNow c tick).devTime = s.devTime := by simp
  unfold State.mergeChan; dsimp only
  split
  · split
    · rfl
    · split
      · exact (State.checkRec_devTime _ _ _ _ _ _ _).trans (h _)
      · split
        · exact (State.checkRec_devTime _ _ _ _ _ _ _).trans (h _)
        · exact h _
  · rfl

@[simp] theorem State.guardTick_devTime (s : State) (tick : Nat) : (s.guardTick tick).devTime = s.devTime := by
  unfold State.guardTick; dsimp only; split <;> simp [foldl_devTime]

@[simp] theorem State.wakeTick_devTime (s : State) : s.wakeTick.devTime = s.devTime := rfl

@[simp] theorem State.kprInputApplied_devTime (s : State) (n : Nat) (old : Word) :
    (s.kprInputApplied n old).devTime = s.devTime := by simp [State.kprInputApplied]

@[simp] theorem State.kprApplied_devTime (s : State) (a : Nat) (old : Word) :
    (s.kprApplied a old).devTime = s.devTime := by
  unfold State.kprApplied; dsimp only; (repeat' split) <;> simp

@[simp] theorem State.wakeCleared_devTime (s : State) (v : Nat) :
    (s.wakeCleared v).devTime = s.devTime := by simp [State.wakeCleared]

/-! #### Image -/

@[simp] theorem State.modPst_devTime (s : State) (f : Pst → Pst) : (s.modPst f).devTime = s.devTime := rfl

@[simp] theorem State.remapStripe_devTime (s : State) (stripe : Nat) :
    (s.remapStripe stripe).devTime = s.devTime := by simp [State.remapStripe]

@[simp] theorem State.wearStripe_devTime (s : State) (stripe : Nat) :
    (s.wearStripe stripe).devTime = s.devTime := by simp [State.wearStripe]

@[simp] theorem State.wearRecords_devTime (s : State) (cs : List Nat) : (s.wearRecords cs).devTime = s.devTime := by
  unfold State.wearRecords; simp [foldl_devTime]

@[simp] theorem State.journal_devTime (s : State) (e : JEntry) :
    (s.journal e).devTime = s.devTime := by simp [State.journal]

@[simp] theorem State.sourceTable_devTime (s : State) (num : Nat) (after : Table Nat) :
    (s.sourceTable num after).devTime = s.devTime := by
  unfold State.sourceTable; simp [foldl_devTime]

@[simp] theorem State.openPass_devTime (s : State) (kind : PassKind) (tOpen ktime : Nat) :
    (s.openPass kind tOpen ktime).devTime = s.devTime := by simp [State.openPass]

@[simp] theorem State.writeRecord_devTime (s : State) (c num : Nat) :
    (s.writeRecord c num).devTime = s.devTime := by simp [State.writeRecord]

@[simp] theorem State.writeSlots3_devTime (s : State) (c num tick k : Nat) :
    (s.writeSlots3 c num tick k).devTime = s.devTime := by simp [State.writeSlots3]

@[simp] theorem State.writeImage_devTime (s : State) (num c : Nat) :
    (s.writeImage num c).devTime = s.devTime := by simp [State.writeImage]

@[simp] theorem State.writeDrift_devTime (s : State) : s.writeDrift.devTime = s.devTime := rfl

@[simp] theorem State.startPass_devTime (s : State) (kind : PassKind) (cs : List Nat) :
    (s.startPass kind cs).devTime = s.devTime := by
  unfold State.startPass; simp [foldl_devTime]

@[simp] theorem State.drainWrites_devTime (num : Nat) (cs : List Nat) (s : State) (l : List Nat) :
    (State.drainWrites num cs s l).1.devTime = s.devTime := by
  induction cs generalizing s l with
  | nil => rfl
  | cons c r ih => unfold State.drainWrites; dsimp only; (repeat' split) <;> simp [ih]

@[simp] theorem State.startDrain_devTime (s : State) : s.startDrain.devTime = s.devTime := by
  simp [State.startDrain]

@[simp] theorem State.vacate_devTime (s : State) (c : Nat) : (s.vacate c).devTime = s.devTime := by
  unfold State.vacate; simp [foldl_devTime]

@[simp] theorem State.vacateRetired_devTime (s : State) : s.vacateRetired.devTime = s.devTime := by
  unfold State.vacateRetired; simp [foldl_devTime]

@[simp] theorem State.closePass_devTime (s : State) (p : Pass) :
    (s.closePass p).devTime = s.devTime := by simp [State.closePass]

@[simp] theorem State.writeGeneration_devTime (s : State) :
    s.writeGeneration.devTime = s.devTime := by simp [State.writeGeneration]

@[simp] theorem State.endgameImage_devTime (s : State) (e : EndgameRun) (c : Nat) :
    (s.endgameImage e c).devTime = s.devTime := by simp [State.endgameImage]

@[simp] theorem State.flushWrites_devTime (cs : List Nat) (s : State) (e : EndgameRun) :
    (State.flushWrites cs s e).1.devTime = s.devTime := by
  induction cs generalizing s e with
  | nil => rfl
  | cons c r ih => simp [State.flushWrites, apply_ite Prod.fst, ih]

@[simp] theorem State.endgameFlush_devTime (s : State) : s.endgameFlush.devTime = s.devTime := by
  simp only [State.endgameFlush]; split <;> simp

/-! #### Power -/

@[simp] theorem State.modPwr_devTime (s : State) (f : Power → Power) : (s.modPwr f).devTime = s.devTime := rfl

@[simp] theorem State.powerReset_devTime (s : State) : s.powerReset.devTime = s.devTime := rfl

@[simp] theorem State.bbStart_devTime (s : State) : s.bbStart.devTime = s.devTime := rfl

@[simp] theorem State.powerEntry_devTime (s : State) (cause : Nat) (was now : PowerState) (param : Nat) :
    (s.powerEntry cause was now param).devTime = s.devTime := by simp [State.powerEntry]

@[simp] theorem State.latchPower_devTime (s : State) (cause : Nat) (was now : PowerState) (param : Nat) :
    (s.latchPower cause was now param).devTime = s.devTime := rfl

@[simp] theorem State.toQuiet_devTime (s : State) (cause : Nat) : (s.toQuiet cause).devTime = s.devTime := rfl

@[simp] theorem State.toWaking_devTime (s : State) (cause : Nat) :
    (s.toWaking cause).devTime = s.devTime := by simp [State.toWaking]

@[simp] theorem State.mayWake_devTime (s : State) : s.mayWake.devTime = s.devTime := by simp [State.mayWake]

@[simp] theorem State.powerEvent_devTime (s : State) :
    s.powerEvent.devTime = s.devTime := by simp [State.powerEvent]

@[simp] theorem State.enterRun_devTime (s : State) : s.enterRun.devTime = s.devTime := by
  unfold State.enterRun; simp [foldl_devTime]

@[simp] theorem State.mayRun_devTime (s : State) : s.mayRun.devTime = s.devTime := by simp [State.mayRun]

@[simp] theorem State.abortCastlings_devTime (s : State) : s.abortCastlings.devTime = s.devTime := by
  unfold State.abortCastlings; simp [foldl_devTime]

@[simp] theorem State.enterEndgame_devTime (s : State) (cause : Nat) (droop : BitVec 3) :
    (s.enterEndgame cause droop).devTime = s.devTime := by
  unfold State.enterEndgame; simp [foldl_devTime]

@[simp] theorem State.leaveEndgame_devTime (s : State) :
    s.leaveEndgame.devTime = s.devTime := by simp [State.leaveEndgame]

@[simp] theorem State.takeTokens_devTime (s : State) (u : WakeUnit) :
    (s.takeTokens u).devTime = s.devTime := by simp [State.takeTokens]

@[simp] theorem State.startUnit_devTime (s : State) (a1 : WakeUnit) : (s.startUnit a1).devTime = s.devTime := by
  unfold State.startUnit; split <;> simp

/-! #### Persist -/

@[simp] theorem State.lateCheckpoint_devTime (s : State) :
    s.lateCheckpoint.devTime = s.devTime := by simp [State.lateCheckpoint]

@[simp] theorem State.settleInput_devTime (s : State) (e : EndgameRun) (n : Nat) :
    (s.settleInput e n).devTime = s.devTime := by simp [State.settleInput]

@[simp] theorem State.opNow_devTime (s : State) (c : Nat) : (s.opNow c).devTime = s.devTime := by
  unfold State.opNow; dsimp only; (repeat' split) <;> simp

@[simp] theorem State.settleChan_devTime (k : Nat) (s : State) (c : Nat) : (State.settleChan k s c).devTime = s.devTime := by
  induction k generalizing s with
  | zero => rfl
  | succ k ih =>
    unfold State.settleChan
    dsimp only
    (repeat' split) <;> simp [ih]

@[simp] theorem State.settleOps_devTime (s : State) (c : Nat) : (s.settleOps c).devTime = s.devTime := by
  unfold State.settleOps; simp [foldl_devTime]

@[simp] theorem State.settleAll_devTime (s : State) (e : EndgameRun) : (s.settleAll e).devTime = s.devTime := by
  unfold State.settleAll; simp [foldl_devTime]

@[simp] theorem State.endgameEntry_devTime (s : State) (e : EndgameRun) :
    (s.endgameEntry e).devTime = s.devTime := by simp [State.endgameEntry]

@[simp] theorem State.endgameSteps_devTime (s : State) (e : EndgameRun) : (s.endgameSteps e).devTime = s.devTime := by
  unfold State.endgameSteps; simp [foldl_devTime]

@[simp] theorem State.putRestored_devTime (s : State) (c : Nat) (x : ImageChan) (r : Restored) (merge : Option (Nat × Nat)) :
    (s.putRestored c x r merge).devTime = s.devTime := by simp [State.putRestored]

@[simp] theorem State.noteRestored_devTime (s : State) (c : Nat) (r : Restored) :
    (s.noteRestored c r).devTime = s.devTime := by simp [State.noteRestored]

@[simp] theorem State.restoreChan_devTime (s : State) (f : Found) (c : Nat) (x : ImageChan) :
    (s.restoreChan f c x).devTime = s.devTime := by
  unfold State.restoreChan; split <;> simp

@[simp] theorem State.restoreTime_devTime (s : State) (pair : Option (Nat × Nat × Bool)) :
    (s.restoreTime pair).devTime = s.devTime := by
  have h (b : Tb → Tb) (v w : Word) (x : State) :
      ((((x.modTb b).setReg Reg.PST_U0 v).setReg Reg.PST_OUTAGE w).setFld Reg.PST_STATUS 6 1 1).devTime = x.devTime := by simp
  unfold State.restoreTime; split
  · rfl
  · dsimp only; split
    · simp
    · exact h _ _ _ _

@[simp] theorem State.readRestore_devTime (s : State) : s.readRestore.devTime = s.devTime := by
  unfold State.readRestore; simp [foldl_devTime]

@[simp] theorem State.scrubWord_devTime (s : State) (e : ScrubError) :
    (s.scrubWord e).devTime = s.devTime := by simp [State.scrubWord]

/-! #### LineLive -/

@[simp] theorem State.lineLive_devTime (s : State) (d0 : Nat) : (s.lineLive d0).devTime = s.devTime := by
  unfold State.lineLive; dsimp only; (repeat' split) <;> simp

/-! #### RegWrite -/

@[simp] theorem State.logAccess_devTime (s : State) (p : Port) (off reason : Nat) (write : Bool) :
    (s.logAccess p off reason write).devTime = s.devTime := by
  have h (v : Word) : ((s.setReg Reg.GBL_ACC_LAST v).bump Reg.GBL_ACC_COUNT 0 32).devTime = s.devTime := by simp
  exact h _

@[simp] theorem State.setKey_devTime (s : State) (p : Port) (v : Bool) : (s.setKey p v).devTime = s.devTime := by
  unfold State.setKey; dsimp only; (repeat' split) <;> simp

@[simp] theorem State.keyWrite_devTime (s : State) (p : Port) (v : Nat) :
    (s.keyWrite p v).devTime = s.devTime := by simp [State.keyWrite]

@[simp] theorem State.snapWrite_devTime (s : State) (v : Nat) :
    (s.snapWrite v).devTime = s.devTime := by simp [State.snapWrite]

@[simp] theorem State.snapShow_devTime (s : State) : s.snapShow.devTime = s.devTime := by
  unfold State.snapShow; dsimp only; (repeat' split) <;> simp

@[simp] theorem State.tookFe_devTime (s : State) (n a : Nat) (new : Word) :
    (s.tookFe n a new).devTime = s.devTime := by simp [State.tookFe]

@[simp] theorem State.tookCap_devTime (s : State) (n : Nat) :
    (s.tookCap n).devTime = s.devTime := by simp [State.tookCap]

@[simp] theorem State.cfgLane_devTime (s : State) (n : Nat) : (s.cfgLane n).devTime = s.devTime := rfl

@[simp] theorem State.tookCou_devTime (s : State) (n a : Nat) (old new raw : Word) :
    (s.tookCou n a old new raw).devTime = s.devTime := by simp [State.tookCou]

@[simp] theorem State.tookPeer_devTime (s : State) (a : Nat) (old raw : Word) : (s.tookPeer a old raw).devTime = s.devTime := by
  simp [State.tookPeer]

@[simp] theorem State.tookFlt_devTime (s : State) (a : Nat) (raw : Word) :
    (s.tookFlt a raw).devTime = s.devTime := by simp [State.tookFlt]

@[simp] theorem State.tookCadCtrl_devTime (s : State) (n : Nat) (old new : Word) :
    (s.tookCadCtrl n old new).devTime = s.devTime := by simp [State.tookCadCtrl]

@[simp] theorem State.tookKpr_devTime (s : State) (a : Nat) (new : Word) : (s.tookKpr a new).devTime = s.devTime := by
  unfold State.tookKpr; dsimp only; (repeat' split) <;> simp

@[simp] theorem State.countEpoch_devTime (s : State) (h : Hit) : (s.countEpoch h).devTime = s.devTime := by
  unfold State.countEpoch; split <;> simp

@[simp] theorem State.rewritten_devTime (s : State) (a : Nat) : (s.rewritten a).devTime = s.devTime := rfl

@[simp] theorem State.mspiDrop_devTime (s : State) (off reason : Nat) (write : Bool) :
    (s.mspiDrop off reason write).2.devTime = s.devTime := by
  unfold State.mspiDrop; simp only [State.raise_keeps, State.logAccess_devTime]

@[simp] theorem State.frontEndToken_devTime (s : State) (n : Nat) (old : Word) :
    (s.frontEndToken n old).devTime = s.devTime := by simp [State.frontEndToken]

@[simp] theorem State.farApply_devTime (s : State) : s.farApply.devTime = s.devTime := by
  unfold State.farApply; dsimp only; (repeat' split) <;> simp

@[simp] theorem State.mismatch_devTime (s : State) (a : Nat) : (s.mismatch a).devTime = s.devTime := by
  have h (v : Word) : ((s.setReg Reg.GBL_PARITY_LAST v).bumpSat Reg.GBL_SCRUB 16 16).devTime = s.devTime := by simp
  unfold State.mismatch
  split
  · next k _ =>
    dsimp only
    split
    · rfl
    · split
      · refine (State.raise_keeps _ _ _).2.1.trans ?_
        exact (State.raise_keeps _ _ _).2.1.trans (h _)
      · exact (State.raise_keeps _ _ _).2.1.trans (h _)
  · rfl

@[simp] theorem State.hostRead_devTime (s : State) (off len : Nat) (kind : ReadKind) :
    (s.hostRead off len kind).devTime = s.devTime := by
  unfold State.hostRead; dsimp only; (repeat' split) <;> simp

@[simp] theorem State.frameOffset_devTime (s : State) (rest : List Byte) : (s.frameOffset rest).2.devTime = s.devTime := by
  unfold State.frameOffset; split <;> rfl

@[simp] theorem State.mspiReadFrame_devTime (s : State) (addr k : Nat) :
    (s.mspiReadFrame addr k).devTime = s.devTime := by simp [State.mspiReadFrame]

@[simp] theorem State.mspiUnknown_devTime (s : State) (rest : List Byte) : (s.mspiUnknown rest).devTime = s.devTime := by
  simp [State.mspiUnknown]

@[simp] theorem State.mspiNotRun_devTime (s : State) (op : Option (Nat × Bool)) :
    (s.mspiNotRun op).devTime = s.devTime := by simp [State.mspiNotRun]

/-! #### Jtag -/

theorem freeBits_devTime : ∀ (k : Nat) (s : State), (freeBits k s).2.devTime = s.devTime
  | 0, _ => rfl
  | k + 1, s => by simp [freeBits, freeBits_devTime k]

@[simp] theorem State.captureDr_devTime (s : State) : s.captureDr.devTime = s.devTime := by
  simp [State.captureDr, freeBits_devTime]

@[simp] theorem State.captureIr_devTime (s : State) : s.captureIr.devTime = s.devTime := rfl

@[simp] theorem State.tapRise_devTime (s : State) (tdi : Bool) : (s.tapRise tdi).devTime = s.devTime := by
  unfold State.tapRise; dsimp only; (repeat' split) <;> simp

@[simp] theorem State.tapFall_devTime (s : State) : s.tapFall.devTime = s.devTime := rfl

/-! #### Step -/

@[simp] theorem State.withFetchWord_devTime (s : State) (nbits w : Nat) :
    (s.withFetchWord nbits w).devTime = s.devTime := rfl

end Sys2Proof.Machine

namespace Sys2Proof.Machine

/-! ### Device time does not go back -/

/-- From a device time in its span, another one that is not earlier and is in the span (R31, R65). -/
def Onward (d e : Nat) : Prop := d ≤ spanMax → d ≤ e ∧ e ≤ spanMax

@[simp] theorem Onward.refl (d : Nat) : Onward d d := fun h => ⟨d.le_refl, h⟩

theorem Onward.trans {d e f : Nat} (h : Onward d e) (k : Onward e f) : Onward d f := fun hd =>
  ⟨(h hd).1.trans (k (h hd).2).1, (k (h hd).2).2⟩

@[simp] theorem Onward.step (d k : Nat) : Onward d (min spanMax (d + k)) := fun h => ⟨by omega, by omega⟩

@[simp] theorem Onward.load (d k : Nat) : Onward d (max d (min spanMax k)) := fun h => ⟨by omega, by omega⟩

@[simp] theorem onward_ite (d e f : Nat) (c : Prop) [Decidable c] :
    Onward d (if c then e else f) ↔ (c → Onward d e) ∧ (¬c → Onward d f) := by split <;> simp [*]

theorem State.advance_onward (s : State) (t : Nat) : Onward s.devTime (s.advance t).devTime := fun h =>
  ⟨State.le_advance s t, State.advance_span s t h⟩

@[simp] theorem State.stepForward_devTime (s : State) (k : Nat) : (s.stepForward k).devTime = min spanMax (s.devTime + k) := by
  simp [State.stepForward, State.issueThrough]

@[simp] theorem State.loadD0_devTime (s : State) (d0 : Nat) : (s.loadD0 d0).devTime = max s.devTime (min spanMax d0) := rfl

/-- A correction by step puts device time forward by the whole core cycles of the offset (R56). -/
@[simp] theorem State.correctByStep_devTime (s : State) (off : Int) (reason : Nat) (value : Option Int) :
    (s.correctByStep off reason value).devTime = min spanMax (s.devTime + (off - off % 512).toNat) := by
  simp [State.correctByStep]

/-- Of the outcomes of a correction the step alone moves device time (R56). -/
@[simp] theorem State.correct_devTime (s : State) (off : Int) (same slew step : Nat) :
    (s.correct off same slew step).devTime =
      if (s.fld Reg.TB_RET_SLEW_MAX 0 48 : Int) < off ∧ 0 < off ∧ s.bit Reg.TB_RET_POLICY 0 = false
      then min spanMax (s.devTime + (off - off % 512).toNat) else s.devTime := by
  unfold State.correct
  dsimp only
  split
  · simp_all
  · split
    · next h =>
      have : ¬((s.fld Reg.TB_RET_SLEW_MAX 0 48 : Int) < off ∧ 0 < off ∧ s.bit Reg.TB_RET_POLICY 0 = false) := by
        simp at h; omega
      simp [this]
    · next h0 h =>
      have h1 : (s.fld Reg.TB_RET_SLEW_MAX 0 48 : Int) < off ∧ 0 < off := by simp at h; omega
      split
      · next hb => simp [hb]
      · next hb => simp [hb, h1]

theorem State.tbAccept_onward (s : State) (byStep : Bool) : Onward s.devTime (s.tbAccept byStep).devTime := by
  simp [State.tbAccept]

theorem State.follow_onward (s : State) (l : Nat) : Onward s.devTime (s.follow l).devTime := by
  simp [State.follow]

/-! ### Device time after a register write -/

theorem State.tookTb_onward (s : State) (a : Nat) (old new raw : Word) : Onward s.devTime (s.tookTb a old new raw).devTime := by
  have h (x : State) (b : Bool) (e : x.devTime = s.devTime) : Onward s.devTime (x.tbAccept b).devTime :=
    e ▸ State.tbAccept_onward x b
  simp only [State.tookTb, devTime_ite, onward_ite, State.tbLatch_devTime]
  refine ⟨fun _ => ?_, fun _ => ⟨fun _ => ⟨fun _ => ⟨fun _ => h _ _ ?_, fun _ => ?_⟩, fun _ => ⟨fun _ => h _ _ ?_, fun _ => ?_⟩⟩, fun _ => ?_⟩⟩
  all_goals simp

theorem State.takeWrite_onward (s : State) (h : Hit) (old new raw : Word) :
    Onward s.devTime (s.takeWrite h old new raw).devTime := by
  have grid : ((tkeys (s.cadenceGrid h.inst fun x => x.setReg h.reg new).chans).foldl State.gridRestart
      (s.cadenceGrid h.inst fun x => x.setReg h.reg new)).devTime = s.devTime :=
    (foldl_devTime _ (fun _ _ => by simp) _ _).trans (State.cadenceGrid_devTime _ _ _ fun _ => by simp)
  unfold State.takeWrite
  dsimp only
  split
  case h_1 => exact State.tookTb_onward (s.setReg h.reg new) _ _ _ _
  case h_10 => simp [grid]
  all_goals simp

theorem State.writeReg_onward (s : State) (p : Port) (h : Hit) (raw : Word) :
    Onward s.devTime (s.writeReg p h raw).2.devTime := by
  have key (x : State) (old new : Word) : x.devTime = s.devTime → Onward s.devTime (x.takeWrite h old new raw).devTime :=
    fun e => e ▸ State.takeWrite_onward x _ _ _ _
  have faults (x : State) (l : List (FaultCode × Nat)) : (l.foldl (fun y f => y.raise f.1 f.2) x).devTime = x.devTime :=
    foldl_devTime _ (fun _ _ => by simp) _ _
  unfold State.writeReg
  dsimp only
  generalize hs : (if h.row.key = true then s.setKey p false else s) = s1
  have e : s1.devTime = s.devTime := by rw [← hs]; simp
  (repeat' split) <;> simp [e, faults]
  all_goals exact key _ _ _ (by simp [e])

theorem State.applyDwords_onward (s : State) (p : Port) (l : List (Hit × Dword × BitVec 4)) :
    Onward s.devTime (s.applyDwords p l).2.devTime := by
  unfold State.applyDwords
  split
  · exact .refl _
  · exact State.writeReg_onward _ _ _ _
  · split
    · exact State.writeReg_onward _ _ _ _
    · exact (State.writeReg_onward _ _ _ _).trans (State.writeReg_onward _ _ _ _)

theorem State.hostWrite_onward (s : State) (off : Nat) (data : List Dword) (be : List (BitVec 4)) :
    Onward s.devTime (s.hostWrite off data be).2.devTime := by
  unfold State.hostWrite
  dsimp only
  (repeat' split) <;> simp [State.applyDwords_onward]

theorem State.mspiWrite_onward (s : State) (addr : Nat) (data : List Dword) :
    Onward s.devTime (s.mspiWrite addr data).2.devTime := by
  unfold State.mspiWrite
  dsimp only
  (repeat' split) <;> simp [State.applyDwords_onward]

theorem State.mspiRun_onward (s : State) (rest : List Byte) (k : Nat) (write : Bool) :
    Onward s.devTime (s.mspiRun rest k write).devTime := by
  have h (a : Nat) (l : List Byte) : Onward s.devTime (s.mspiWriteFrame a k l).devTime := State.mspiWrite_onward _ _ _
  simp [State.mspiRun, h]

theorem State.portWrite_onward (s : State) (p : Port) (off : Nat) (data : List Dword) (be : List (BitVec 4)) :
    Onward s.devTime (s.portWrite p off data be).devTime := by
  cases p with
  | host => exact State.hostWrite_onward _ _ _ _
  | mspi => simp [State.portWrite, State.mspiWrite_onward]

/-! ### Device time after a command -/

/-- What a command answers from a state has a device time that is not earlier and in the span. -/
def Onwards (s : State) (o : Host.Outcome State Fault Refusal) : Prop := ∀ u, o = .next u → Onward s.devTime u.devTime

theorem onwards_fault (s : State) (r : Fault) : Onwards s (.fault r) := fun _ h => nomatch h

/-- An effect leaves device time as it is, or moves it onward: relations of the two states, so that what is checked of an
effect does not evaluate it. -/
def KeepsTime (s u : State) : Prop := u.devTime = s.devTime
def MovesOnward (s u : State) : Prop := Onward s.devTime u.devTime

@[simp] theorem keepsTime_iff (s u : State) : KeepsTime s u ↔ u.devTime = s.devTime := .rfl
@[simp] theorem movesOnward_iff (s u : State) : MovesOnward s u ↔ Onward s.devTime u.devTime := .rfl

/-- A command whose effect moves device time onward. -/
theorem atMoment_onwards {t : Nat} {s : State} {f : State → State} (h : ∀ x, MovesOnward x (f x)) :
    Onwards s (atMoment t s f) := by
  intro u hu
  rw [atMoment_next] at hu
  cases hu
  exact (State.advance_onward s t).trans (h _)

/-- A command whose effect leaves device time as it is. -/
theorem atMoment_keeps {t : Nat} {s : State} {f : State → State} (h : ∀ x, KeepsTime x (f x)) :
    Onwards s (atMoment t s f) := atMoment_onwards fun x hx => by rw [h x]; exact ⟨le_rfl, hx⟩

/-- A command of a descriptor whose effect leaves device time as it is. -/
theorem onHead_keeps {t : Nat} {ring : Fin 64} {ty : Nat} {s : State} {f : State → Desc → State}
    (h : ∀ x d, KeepsTime x (f x d)) : Onwards s (onHead t ring ty s f) :=
  atMoment_keeps fun x => by
    split
    · exact h _ _
    · rfl

end Sys2Proof.Machine

namespace Sys2Proof.Machine

theorem execCadenceInstant_onwards (t : Nat) (c : Fin 16) (s : State) :
    Onwards s (execCadenceInstant t c s) :=
  atMoment_keeps fun _ => by simp

theorem execCadenceOutEnd_onwards (t : Nat) (pin : Fin 4) (s : State) :
    Onwards s (execCadenceOutEnd t pin s) :=
  atMoment_keeps fun _ => by simp

theorem execCalHit_onwards (t : Nat) (n : Fin 256) (code : Fin 512) (s : State) :
    Onwards s (execCalHit t n code s) :=
  atMoment_keeps fun _ => by simp

theorem execCalWindowDone_onwards (t : Nat) (n : Fin 256) (s : State) :
    Onwards s (execCalWindowDone t n s) :=
  atMoment_keeps fun _ => by simp

theorem execMailbagFlush_onwards (t : Nat) (n : Fin 256) (s : State) :
    Onwards s (execMailbagFlush t n s) :=
  atMoment_keeps fun _ => by simp

theorem execOvflWrite_onwards (t : Nat) (n : Fin 256) (s : State) :
    Onwards s (execOvflWrite t n s) :=
  atMoment_keeps fun _ => by simp

theorem execIdleAnchor_onwards (t : Nat) (n : Fin 256) (s : State) :
    Onwards s (execIdleAnchor t n s) :=
  atMoment_keeps fun _ => by simp

theorem execInputTransition_onwards (t : Nat) (n : Fin 256) (x : InputLevel) (s : State) :
    Onwards s (execInputTransition t n x s) :=
  atMoment_keeps fun _ => by simp

theorem execZoneSettle_onwards (t : Nat) (n : Fin 256) (v : Int) (s : State) :
    Onwards s (execZoneSettle t n v s) :=
  atMoment_keeps fun _ => by dsimp only; (repeat' split) <;> simp

theorem execBlankWindowEnd_onwards (t : Nat) (n : Fin 256) (s : State) :
    Onwards s (execBlankWindowEnd t n s) :=
  atMoment_keeps fun _ => by simp

theorem execFeSample_onwards (t : Nat) (n : Fin 256) (v : Int) (s : State) :
    Onwards s (execFeSample t n v s) :=
  atMoment_keeps fun _ => by simp

theorem execBucketRefill_onwards (t : Nat) (n : Fin 256) (s : State) :
    Onwards s (execBucketRefill t n s) :=
  atMoment_keeps fun _ => by simp

theorem execRefEdge_onwards (t : Nat) (r : Ref) (err : Int) (good : Bool) (off : Option Int) (s : State) :
    Onwards s (execRefEdge t r err good off s) :=
  atMoment_keeps fun _ => by simp

theorem execRefEdgeTimeout_onwards (t : Nat) (r : Ref) (s : State) :
    Onwards s (execRefEdgeTimeout t r s) :=
  atMoment_keeps fun _ => by simp

theorem execBandSearchDone_onwards (t : Nat) (coarse : Fin 32) (fine : Fin 64) (s : State) :
    Onwards s (execBandSearchDone t coarse fine s) :=
  atMoment_keeps fun _ => by simp

theorem execAcquisitionLimit_onwards (t : Nat) (s : State) :
    Onwards s (execAcquisitionLimit t s) :=
  atMoment_keeps fun _ => by simp

theorem execReturnOffsetMeasured_onwards (t : Nat) (m : ShadowMeasure) (s : State) :
    Onwards s (execReturnOffsetMeasured t m s) :=
  atMoment_onwards fun _ => by simp

theorem execSlewStep_onwards (t : Nat) (s : State) :
    Onwards s (execSlewStep t s) :=
  atMoment_keeps fun _ => by simp

theorem execDriftLearn_onwards (t : Nat) (word : Dword) (s : State) :
    Onwards s (execDriftLearn t word s) :=
  atMoment_keeps fun _ => by split <;> simp

theorem execHoldoverTick_onwards (t : Nat) (s : State) :
    Onwards s (execHoldoverTick t s) :=
  atMoment_keeps fun _ => by simp

theorem execAutoReturn_onwards (t : Nat) (s : State) :
    Onwards s (execAutoReturn t s) :=
  atMoment_keeps fun _ => by (repeat' split) <;> simp

theorem execTodEdge_onwards (p : TodPulse) (s : State) :
    Onwards s (execTodEdge p s) :=
  atMoment_onwards fun _ => by simp

theorem execTodMiss_onwards (t : Nat) (s : State) :
    Onwards s (execTodMiss t s) :=
  atMoment_keeps fun _ => by simp

theorem execRuntSwallowed_onwards (t : Nat) (s : State) :
    Onwards s (execRuntSwallowed t s) :=
  atMoment_keeps fun _ => by simp

theorem execTbSpan_onwards (t : Nat) (s : State) :
    Onwards s (execTbSpan t s) :=
  atMoment_keeps fun _ => by simp

theorem execThermRead_onwards (t : Nat) (raw : BitVec 12) (s : State) :
    Onwards s (execThermRead t raw s) :=
  atMoment_keeps fun _ => by simp

theorem execMailbagPop_onwards (t : Nat) (n : Fin 256) (s : State) :
    Onwards s (execMailbagPop t n s) :=
  atMoment_keeps fun _ => by dsimp only; (repeat' split) <;> simp

theorem execEngineEdge_onwards (t : Nat) (chan : BitVec 20) (s : State) :
    Onwards s (execEngineEdge t chan s) :=
  atMoment_keeps fun _ => by simp

theorem execQuadDecide_onwards (t : Nat) (chan : BitVec 20) (s : State) :
    Onwards s (execQuadDecide t chan s) :=
  atMoment_keeps fun _ => by simp

theorem execInstantResolve_onwards (t : Nat) (chan : BitVec 20) (s : State) :
    Onwards s (execInstantResolve t chan s) :=
  atMoment_keeps fun _ => by dsimp only; (repeat' split) <;> simp

theorem execBracketWaitExpiry_onwards (t : Nat) (chan : BitVec 20) (s : State) :
    Onwards s (execBracketWaitExpiry t chan s) :=
  atMoment_keeps fun _ => by dsimp only; (repeat' split) <;> simp

theorem execStatsTargetApply_onwards (t : Nat) (chan : BitVec 20) (s : State) :
    Onwards s (execStatsTargetApply t chan s) :=
  atMoment_keeps fun _ => by dsimp only; (repeat' split) <;> simp

theorem execDevReport_onwards (t : Nat) (chan : BitVec 20) (s : State) :
    Onwards s (execDevReport t chan s) :=
  atMoment_keeps fun _ => by simp

theorem execHistoComplete_onwards (t : Nat) (chan : BitVec 20) (hist : Fin 4) (s : State) :
    Onwards s (execHistoComplete t chan hist s) :=
  atMoment_keeps fun _ => by simp

theorem execAutoPeriodEnd_onwards (t : Nat) (chan : BitVec 20) (hist : Fin 4) (s : State) :
    Onwards s (execAutoPeriodEnd t chan hist s) :=
  atMoment_keeps fun _ => by dsimp only; (repeat' split) <;> simp

theorem execDeclare_onwards (t : Nat) (ring : Fin 64) (s : State) :
    Onwards s (execDeclare t ring s) :=
  onHead_keeps fun _ _ => by simp

theorem execRedeclareApply_onwards (t : Nat) (chan : BitVec 20) (s : State) :
    Onwards s (execRedeclareApply t chan s) :=
  atMoment_keeps fun _ => by dsimp only; (repeat' split) <;> simp

theorem execPauseApply_onwards (t : Nat) (chan : BitVec 20) (s : State) :
    Onwards s (execPauseApply t chan s) :=
  atMoment_keeps fun _ => by dsimp only; (repeat' split) <;> simp

theorem execResume_onwards (t : Nat) (ring : Fin 64) (s : State) :
    Onwards s (execResume t ring s) :=
  onHead_keeps fun _ _ => by simp

theorem execChannelLive_onwards (t : Nat) (chan : BitVec 20) (s : State) :
    Onwards s (execChannelLive t chan s) :=
  atMoment_keeps fun _ => by dsimp only; (repeat' split) <;> simp

theorem execResumeGap_onwards (t : Nat) (chan : BitVec 20) (s : State) :
    Onwards s (execResumeGap t chan s) :=
  atMoment_keeps fun _ => by dsimp only; (repeat' split) <;> simp

theorem execRetireApply_onwards (t : Nat) (chan : BitVec 20) (s : State) :
    Onwards s (execRetireApply t chan s) :=
  atMoment_keeps fun _ => by dsimp only; (repeat' split) <;> simp

theorem execRecipeLoad_onwards (t : Nat) (ring : Fin 64) (buf : Option (List Dword)) (s : State) :
    Onwards s (execRecipeLoad t ring buf s) :=
  onHead_keeps fun _ _ => by simp

theorem execCoefLoad_onwards (t : Nat) (ring : Fin 64) (buf : Option (List Dword)) (s : State) :
    Onwards s (execCoefLoad t ring buf s) :=
  onHead_keeps fun _ _ => State.judgeBuf_devTime _ _ _ _ _ _ _ fun _ => by simp

theorem execTrainingBlock_onwards (t : Nat) (lane : Fin 16) (payload : Ctl) (s : State) :
    Onwards s (execTrainingBlock t lane payload s) :=
  atMoment_keeps fun _ => by dsimp only; (repeat' split) <;> simp

theorem execTapRequestTimeout_onwards (t : Nat) (lane : Fin 16) (s : State) :
    Onwards s (execTapRequestTimeout t lane s) :=
  atMoment_keeps fun _ => by simp

theorem execRxReady_onwards (t : Nat) (lane : Fin 16) (margin : Byte) (s : State) :
    Onwards s (execRxReady t lane margin s) :=
  atMoment_keeps fun _ => by simp

theorem execTrainLimit_onwards (t : Nat) (lane : Fin 16) (s : State) :
    Onwards s (execTrainLimit t lane s) :=
  atMoment_keeps fun _ => by simp

theorem execAlignLimit_onwards (t : Nat) (lane : Fin 16) (s : State) :
    Onwards s (execAlignLimit t lane s) :=
  atMoment_keeps fun _ => by simp

theorem execLoopEcho_onwards (t : Nat) (lane : Fin 16) (s : State) :
    Onwards s (execLoopEcho t lane s) :=
  atMoment_keeps fun _ => by simp

theorem execCreditLimit_onwards (t : Nat) (lane : Fin 16) (s : State) :
    Onwards s (execCreditLimit t lane s) :=
  atMoment_keeps fun _ => by simp

theorem execRecoverLimit_onwards (t : Nat) (lane : Fin 16) (s : State) :
    Onwards s (execRecoverLimit t lane s) :=
  atMoment_keeps fun _ => by simp

theorem execLossOfSignal_onwards (t : Nat) (lane : Fin 16) (s : State) :
    Onwards s (execLossOfSignal t lane s) :=
  atMoment_keeps fun _ => by dsimp only; (repeat' split) <;> simp

theorem execInvalidSyncHeader_onwards (t : Nat) (lane : Fin 16) (s : State) :
    Onwards s (execInvalidSyncHeader t lane s) :=
  atMoment_keeps fun _ => by dsimp only; (repeat' split) <;> simp

theorem execKeepaliveBlock_onwards (t : Nat) (lane : Fin 16) (a2 : Word) (s : State) :
    Onwards s (execKeepaliveBlock t lane a2 s) :=
  atMoment_keeps fun _ => by simp

theorem execAdaptFreeze_onwards (t : Nat) (lane : Fin 16) (s : State) :
    Onwards s (execAdaptFreeze t lane s) :=
  atMoment_keeps fun _ => by simp

theorem execKeepaliveSend_onwards (t : Nat) (lane : Fin 16) (s : State) :
    Onwards s (execKeepaliveSend t lane s) :=
  atMoment_keeps fun _ => by simp

theorem execKeepaliveMiss_onwards (t : Nat) (lane : Fin 16) (s : State) :
    Onwards s (execKeepaliveMiss t lane s) :=
  atMoment_keeps fun _ => by simp

theorem execLaneProbe_onwards (t : Nat) (lane : Fin 16) (s : State) :
    Onwards s (execLaneProbe t lane s) :=
  atMoment_keeps fun _ => by simp

theorem execProbeDone_onwards (t : Nat) (lane : Fin 16) (found : Bool) (s : State) :
    Onwards s (execProbeDone t lane found s) :=
  atMoment_keeps fun _ => by simp

theorem execBackoffEnd_onwards (t : Nat) (lane : Fin 16) (s : State) :
    Onwards s (execBackoffEnd t lane s) :=
  atMoment_keeps fun _ => by simp

theorem execPartnerSeen_onwards (t : Nat) (lane : Fin 16) (s : State) :
    Onwards s (execPartnerSeen t lane s) :=
  atMoment_keeps fun _ => by simp

theorem execNakBlock_onwards (t : Nat) (lane : Fin 16) (payload : Ctl) (s : State) :
    Onwards s (execNakBlock t lane payload s) :=
  atMoment_keeps fun _ => by simp

theorem execAckSendTimer_onwards (t : Nat) (lane : Fin 16) (s : State) :
    Onwards s (execAckSendTimer t lane s) :=
  atMoment_keeps fun _ => by simp

theorem execReplayTimeout_onwards (t : Nat) (lane : Fin 16) (s : State) :
    Onwards s (execReplayTimeout t lane s) :=
  atMoment_keeps fun _ => by simp

theorem execNakRepeat_onwards (t : Nat) (lane : Fin 16) (s : State) :
    Onwards s (execNakRepeat t lane s) :=
  atMoment_keeps fun _ => by split <;> simp

theorem execCreditWatchdog_onwards (t : Nat) (lane : Fin 16) (s : State) :
    Onwards s (execCreditWatchdog t lane s) :=
  atMoment_keeps fun _ => by dsimp only; (repeat' split) <;> simp

theorem execResyncRepeat_onwards (t : Nat) (lane : Fin 16) (s : State) :
    Onwards s (execResyncRepeat t lane s) :=
  atMoment_keeps fun _ => by simp

theorem execCreditSync_onwards (t : Nat) (lane : Fin 16) (s : State) :
    Onwards s (execCreditSync t lane s) :=
  atMoment_keeps fun _ => by simp

theorem execDispatchSend_onwards (t : Nat) (lane : Fin 16) (s : State) :
    Onwards s (execDispatchSend t lane s) :=
  atMoment_keeps fun _ => by dsimp only; (repeat' split) <;> simp

theorem execCreditRelease_onwards (t : Nat) (lane : Fin 16) (blocks : Nat) (s : State) :
    Onwards s (execCreditRelease t lane blocks s) :=
  atMoment_keeps fun _ => by simp

theorem execInitBlock_onwards (t : Nat) (lane : Fin 16) (payload : Ctl) (s : State) :
    Onwards s (execInitBlock t lane payload s) :=
  atMoment_keeps fun _ => by dsimp only; (repeat' split) <;> simp

theorem execInitSend_onwards (t : Nat) (lane : Fin 16) (s : State) :
    Onwards s (execInitSend t lane s) :=
  atMoment_keeps fun _ => by simp

theorem execFineBeacon_onwards (t : Nat) (lane : Fin 16) (s : State) :
    Onwards s (execFineBeacon t lane s) :=
  atMoment_keeps fun _ => by simp

theorem execLetterPost_onwards (t : Nat) (ring : Fin 64) (buf : Option (List Byte)) (s : State) :
    Onwards s (execLetterPost t ring buf s) :=
  onHead_keeps fun _ _ => State.judgeBuf_devTime _ _ _ _ _ _ _ fun _ => by simp

theorem execLaneReturnTimer_onwards (t : Nat) (lane : Fin 16) (reason : Fin 32) (s : State) :
    Onwards s (execLaneReturnTimer t lane reason s) :=
  atMoment_keeps fun _ => by simp

theorem execPeerHello_onwards (t : Nat) (lane : Fin 16) (payload : Ctl) (s : State) :
    Onwards s (execPeerHello t lane payload s) :=
  atMoment_keeps fun _ => by simp

theorem execPeerHelloSend_onwards (t : Nat) (lane : Fin 16) (s : State) :
    Onwards s (execPeerHelloSend t lane s) :=
  atMoment_keeps fun _ => by simp

theorem execPeerStaleHoldEnd_onwards (t : Nat) (s : State) :
    Onwards s (execPeerStaleHoldEnd t s) :=
  atMoment_keeps fun _ => by simp

theorem execPeerTrimStep_onwards (t : Nat) (s : State) :
    Onwards s (execPeerTrimStep t s) :=
  atMoment_keeps fun _ => by simp

theorem execCastlingBegin_onwards (t : Nat) (s : State) :
    Onwards s (execCastlingBegin t s) :=
  atMoment_keeps fun _ => by dsimp only; (repeat' split) <;> simp

theorem execCastlingSealAck_onwards (t : Nat) (chan : BitVec 20) (s : State) :
    Onwards s (execCastlingSealAck t chan s) :=
  atMoment_keeps fun _ => by simp

theorem execCastlingCopyDone_onwards (t : Nat) (chan : BitVec 20) (crcEqual : Bool) (s : State) :
    Onwards s (execCastlingCopyDone t chan crcEqual s) :=
  atMoment_keeps fun _ => by dsimp only; (repeat' split) <;> simp

theorem execCastleToken_onwards (t : Nat) (s : State) :
    Onwards s (execCastleToken t s) :=
  atMoment_keeps fun _ => by simp

theorem execRingStopped_onwards (t : Nat) (ring : Fin 64) (s : State) :
    Onwards s (execRingStopped t ring s) :=
  atMoment_keeps fun _ => by simp

theorem execModerationTimer_onwards (t : Nat) (ring : Fin 64) (s : State) :
    Onwards s (execModerationTimer t ring s) :=
  atMoment_keeps fun _ => by simp

theorem execVectorHoldoffEnd_onwards (t : Nat) (vector : Fin 68) (s : State) :
    Onwards s (execVectorHoldoffEnd t vector s) :=
  atMoment_keeps fun _ => by simp

theorem execFunctionLevelReset_onwards (t : Nat) (s : State) :
    Onwards s (execFunctionLevelReset t s) :=
  atMoment_keeps fun _ => by simp

theorem execNop_onwards (t : Nat) (ring : Fin 64) (s : State) :
    Onwards s (execNop t ring s) :=
  onHead_keeps fun _ _ => by simp

theorem execRecordDelivery_onwards (t : Nat) (ring : Fin 64) (s : State) :
    Onwards s (execRecordDelivery t ring s) :=
  atMoment_keeps fun _ => by dsimp only; (repeat' split) <;> simp

theorem execSummaryExit_onwards (t : Nat) (ring : Fin 64) (s : State) :
    Onwards s (execSummaryExit t ring s) :=
  atMoment_keeps fun _ => by simp

theorem execMark_onwards (t : Nat) (ring : Fin 64) (s : State) :
    Onwards s (execMark t ring s) :=
  onHead_keeps fun _ _ => by simp

theorem execRepost_onwards (t : Nat) (ring : Fin 64) (s : State) :
    Onwards s (execRepost t ring s) :=
  onHead_keeps fun _ _ => by simp

theorem execLedgerCheck_onwards (t : Nat) (s : State) :
    Onwards s (execLedgerCheck t s) :=
  atMoment_keeps fun _ => by dsimp only; (repeat' split) <;> simp

theorem execCoreLow_onwards (t : Nat) (s : State) :
    Onwards s (execCoreLow t s) :=
  atMoment_keeps fun _ => by simp

theorem execCoreLowEnd_onwards (t : Nat) (s : State) :
    Onwards s (execCoreLowEnd t s) :=
  atMoment_keeps fun _ => by simp

theorem execGuardCompare_onwards (t : Nat) (chan : BitVec 20) (twinCount : BitVec 48) (same : Bool) (s : State) :
    Onwards s (execGuardCompare t chan twinCount same s) :=
  atMoment_keeps fun _ => by simp

theorem execGuardCopyTimeout_onwards (t : Nat) (chan : BitVec 20) (s : State) :
    Onwards s (execGuardCopyTimeout t chan s) :=
  atMoment_keeps fun _ => by split <;> simp

theorem execKeeperVote_onwards (t : Nat) (s : State) :
    Onwards s (execKeeperVote t s) :=
  atMoment_keeps fun _ => by simp

theorem execXtalFail_onwards (t : Nat) (s : State) :
    Onwards s (execXtalFail t s) :=
  atMoment_keeps fun _ => by simp

theorem execPfailAssert_onwards (t : Nat) (s : State) :
    Onwards s (execPfailAssert t s) :=
  atMoment_keeps fun _ => by dsimp only; (repeat' split) <;> simp

theorem execPfailRelease_onwards (t : Nat) (s : State) :
    Onwards s (execPfailRelease t s) :=
  atMoment_keeps fun _ => by simp

theorem execDroopTrip_onwards (t : Nat) (rails : BitVec 3) (s : State) :
    Onwards s (execDroopTrip t rails s) :=
  atMoment_keeps fun _ => by dsimp only; (repeat' split) <;> simp

theorem execPerstFall_onwards (t : Nat) (s : State) :
    Onwards s (execPerstFall t s) :=
  atMoment_keeps fun _ => by simp

theorem execPerstRise_onwards (t : Nat) (s : State) :
    Onwards s (execPerstRise t s) :=
  atMoment_keeps fun _ => by simp

theorem execMainRailsPresent_onwards (t : Nat) (s : State) :
    Onwards s (execMainRailsPresent t s) :=
  atMoment_keeps fun _ => by simp

theorem execMainRailsLost_onwards (t : Nat) (s : State) :
    Onwards s (execMainRailsLost t s) :=
  atMoment_keeps fun _ => by simp

theorem execBaseUnitsSettled_onwards (t : Nat) (s : State) :
    Onwards s (execBaseUnitsSettled t s) :=
  atMoment_keeps fun _ => by simp

theorem execTokenGrant_onwards (t : Nat) (s : State) :
    Onwards s (execTokenGrant t s) :=
  atMoment_keeps fun _ => by split <;> simp

theorem execTokenReturn_onwards (t : Nat) (s : State) :
    Onwards s (execTokenReturn t s) :=
  atMoment_keeps fun _ => by simp

theorem execDrainPass_onwards (t : Nat) (s : State) :
    Onwards s (execDrainPass t s) :=
  atMoment_keeps fun _ => by simp

theorem execConfigGeneration_onwards (t : Nat) (s : State) :
    Onwards s (execConfigGeneration t s) :=
  atMoment_keeps fun _ => by simp

theorem execEndgame_onwards (t : Nat) (s : State) :
    Onwards s (execEndgame t s) :=
  atMoment_keeps fun _ => by split <;> simp

theorem execEndgameDeadline_onwards (t : Nat) (s : State) :
    Onwards s (execEndgameDeadline t s) :=
  atMoment_keeps fun _ => by split <;> simp

theorem execEndgameComplete_onwards (t : Nat) (s : State) :
    Onwards s (execEndgameComplete t s) :=
  atMoment_keeps fun _ => by dsimp only; (repeat' split) <;> simp

theorem execRestore_onwards (t : Nat) (s : State) :
    Onwards s (execRestore t s) :=
  atMoment_keeps fun _ => by simp

theorem execRestoreComplete_onwards (t : Nat) (s : State) :
    Onwards s (execRestoreComplete t s) :=
  atMoment_keeps fun _ => by dsimp only; (repeat' split) <;> simp

theorem execAcquisitionSwap_onwards (t : Nat) (s : State) :
    Onwards s (execAcquisitionSwap t s) :=
  atMoment_onwards fun _ => by dsimp only; (repeat' split) <;> simp

theorem execColdCoast_onwards (t : Nat) (s : State) :
    Onwards s (execColdCoast t s) :=
  atMoment_onwards fun _ => by dsimp only; (repeat' split) <;> simp

theorem execTbApply_onwards (t : Nat) (p : Port) (s : State) :
    Onwards s (execTbApply t p s) :=
  atMoment_onwards fun _ => State.portWrite_onward _ _ _ _ _

theorem execTbSlew_onwards (t : Nat) (p : Port) (s : State) :
    Onwards s (execTbSlew t p s) :=
  atMoment_onwards fun _ => State.portWrite_onward _ _ _ _ _

theorem execTbAccept_onwards (t : Nat) (p : Port) (byStep : Bool) (s : State) :
    Onwards s (execTbAccept t p byStep s) :=
  atMoment_onwards fun _ => State.portWrite_onward _ _ _ _ _

theorem execTbLatch_onwards (t : Nat) (p : Port) (s : State) :
    Onwards s (execTbLatch t p s) :=
  atMoment_onwards fun _ => State.portWrite_onward _ _ _ _ _

theorem execRefSelect_onwards (t : Nat) (p : Port) (sel : Ref) (s : State) :
    Onwards s (execRefSelect t p sel s) :=
  atMoment_onwards fun _ => State.portWrite_onward _ _ _ _ _

theorem execFeAlarmWrite_onwards (t : Nat) (p : Port) (n : Fin 256) (value : Dword) (s : State) :
    Onwards s (execFeAlarmWrite t p n value s) :=
  atMoment_onwards fun _ => State.portWrite_onward _ _ _ _ _

theorem execCadenceEnable_onwards (t : Nat) (p : Port) (c : Fin 16) (s : State) :
    Onwards s (execCadenceEnable t p c s) :=
  atMoment_onwards fun _ => State.portWrite_onward _ _ _ _ _

theorem execCadenceDisable_onwards (t : Nat) (p : Port) (c : Fin 16) (s : State) :
    Onwards s (execCadenceDisable t p c s) :=
  atMoment_onwards fun _ => State.portWrite_onward _ _ _ _ _

theorem execCadenceGridWrite_onwards (t : Nat) (p : Port) (c : Fin 16) (phase : Bool) (value : Word) (s : State) :
    Onwards s (execCadenceGridWrite t p c phase value s) :=
  atMoment_onwards fun _ => State.portWrite_onward _ _ _ _ _

theorem execLaneEnable_onwards (t : Nat) (p : Port) (lane : Fin 16) (s : State) :
    Onwards s (execLaneEnable t p lane s) :=
  atMoment_onwards fun _ => State.portWrite_onward _ _ _ _ _

theorem execLaneDisable_onwards (t : Nat) (p : Port) (lane : Fin 16) (s : State) :
    Onwards s (execLaneDisable t p lane s) :=
  atMoment_onwards fun _ => State.portWrite_onward _ _ _ _ _

theorem execLaneRetry_onwards (t : Nat) (p : Port) (lane : Fin 16) (s : State) :
    Onwards s (execLaneRetry t p lane s) :=
  atMoment_onwards fun _ => State.portWrite_onward _ _ _ _ _

theorem execLaneRetrain_onwards (t : Nat) (p : Port) (lane : Fin 16) (s : State) :
    Onwards s (execLaneRetrain t p lane s) :=
  atMoment_onwards fun _ => State.portWrite_onward _ _ _ _ _

theorem execPeerWhole_onwards (t : Nat) (p : Port) (s : State) :
    Onwards s (execPeerWhole t p s) :=
  atMoment_onwards fun _ => State.portWrite_onward _ _ _ _ _

theorem execRingEnable_onwards (t : Nat) (p : Port) (ring : Fin 64) (s : State) :
    Onwards s (execRingEnable t p ring s) :=
  atMoment_onwards fun _ => State.portWrite_onward _ _ _ _ _

theorem execRingDisable_onwards (t : Nat) (p : Port) (ring : Fin 64) (s : State) :
    Onwards s (execRingDisable t p ring s) :=
  atMoment_onwards fun _ => State.portWrite_onward _ _ _ _ _

theorem execWakeClear_onwards (t : Nat) (p : Port) (value : Dword) (s : State) :
    Onwards s (execWakeClear t p value s) :=
  atMoment_onwards fun _ => State.portWrite_onward _ _ _ _ _

theorem execFaultClear_onwards (t : Nat) (p : Port) (value : Dword) (s : State) :
    Onwards s (execFaultClear t p value s) :=
  atMoment_onwards fun _ => State.portWrite_onward _ _ _ _ _

theorem execBbSeal_onwards (t : Nat) (p : Port) (s : State) :
    Onwards s (execBbSeal t p s) :=
  atMoment_onwards fun _ => State.portWrite_onward _ _ _ _ _

theorem execBbUnseal_onwards (t : Nat) (p : Port) (s : State) :
    Onwards s (execBbUnseal t p s) :=
  atMoment_onwards fun _ => State.portWrite_onward _ _ _ _ _

theorem execBbSelect_onwards (t : Nat) (p : Port) (entry : BitVec 13) (s : State) :
    Onwards s (execBbSelect t p entry s) :=
  atMoment_onwards fun _ => State.portWrite_onward _ _ _ _ _

theorem execBbMark_onwards (t : Nat) (p : Port) (value : Dword) (s : State) :
    Onwards s (execBbMark t p value s) :=
  atMoment_onwards fun _ => State.portWrite_onward _ _ _ _ _

theorem execKeyUnlock_onwards (t : Nat) (p : Port) (value : Dword) (s : State) :
    Onwards s (execKeyUnlock t p value s) :=
  atMoment_onwards fun _ => State.portWrite_onward _ _ _ _ _

theorem execSnapshot_onwards (t : Nat) (p : Port) (s : State) :
    Onwards s (execSnapshot t p s) :=
  atMoment_onwards fun _ => State.portWrite_onward _ _ _ _ _

theorem execSnapshotDone_onwards (t : Nat) (s : State) :
    Onwards s (execSnapshotDone t s) :=
  atMoment_keeps fun _ => by simp

theorem execFarWriteApply_onwards (t : Nat) (s : State) :
    Onwards s (execFarWriteApply t s) :=
  atMoment_keeps fun _ => by simp

theorem execBar0ReadAbort_onwards (t off len : Nat) (kind : ReadKind) (s : State) :
    Onwards s (execBar0ReadAbort t off len kind s) :=
  atMoment_keeps fun _ => by simp

theorem execJtagTck_onwards (t : Nat) (trstN tms tdi : Bool) (s : State) :
    Onwards s (execJtagTck t trstN tms tdi s) :=
  atMoment_keeps fun _ => by simp

theorem execTestEnChange_onwards (t : Nat) (level : Bool) (s : State) :
    Onwards s (execTestEnChange t level s) :=
  atMoment_keeps fun _ => by simp

theorem execD3hotChange_onwards (t : Nat) (entering : Bool) (s : State) :
    Onwards s (execD3hotChange t entering s) :=
  atMoment_keeps fun _ => by simp

theorem execPcieLinkChange_onwards (t : Nat) (up : Bool) (rate : Fin 5) (width : Fin 4) (s : State) :
    Onwards s (execPcieLinkChange t up rate width s) :=
  atMoment_keeps fun _ => by simp

end Sys2Proof.Machine

namespace Sys2Proof.Machine

theorem execBlankTrigEdge_onwards (t : Nat) (pin : Fin 4) (rising : Bool) (s : State) :
    Onwards s (execBlankTrigEdge t pin rising s) := atMoment_keeps fun x => by
  dsimp only
  split
  · rfl
  · exact (foldl_devTime _ (fun _ _ => by simp) _ _).trans rfl

theorem execThinRateDecay_onwards (t : Nat) (s : State) : Onwards s (execThinRateDecay t s) := atMoment_keeps fun x => by
  split
  · exact (foldl_devTime _ (fun _ _ => by simp) _ _).trans (by simp)
  · rfl

theorem execHandoverSwap_onwards (t : Nat) (misalign : Int) (s : State) : Onwards s (execHandoverSwap t misalign s) :=
  atMoment_keeps fun x => by
    have h (b : Tb → Tb) (st : TbState) :
        ((((x.modTb b).bump Reg.TB_CNT 24 8).bumpEpoch 1).cfgAll.tbEnter st 7 misalign).devTime = x.devTime :=
      calc _ = _ := State.tbEnter_devTime _ _ _ _
        _ = _ := State.cfgAll_devTime _
        _ = _ := (State.bumpEpoch_keeps _ _).2.1
        _ = _ := (State.bump_keeps _ _ _ _).2.1
    have k (y : State) (e : y.devTime = x.devTime) : KeepsTime x (if y.tb.selPending then y.actOnSelection else y) := by
      split <;> simp [e]
    dsimp only; split
    · exact k _ (h _ _)
    · rfl

theorem execDescriptorFetch_onwards (t : Nat) (ring : Fin 64) (descs : List Desc) (s : State) :
    Onwards s (execDescriptorFetch t ring descs s) := by
  unfold execDescriptorFetch
  split
  · exact onwards_fault _ _
  · exact atMoment_keeps fun _ => by simp

theorem execFetchFailed_onwards (t : Nat) (ring : Fin 64) (descs : List Desc) (s : State) :
    Onwards s (execFetchFailed t ring descs s) := by
  unfold execFetchFailed
  split
  · exact onwards_fault _ _
  · exact atMoment_keeps fun _ => by simp

theorem execRedeclare_onwards (t : Nat) (ring : Fin 64) (s : State) : Onwards s (execRedeclare t ring s) :=
  onHead_keeps fun _ _ => by
    dsimp only; split
    · rfl
    · exact State.judge_devTime _ _ _ _ _ (by simp)

theorem execPause_onwards (t : Nat) (ring : Fin 64) (s : State) : Onwards s (execPause t ring s) :=
  onHead_keeps fun _ _ => by
    dsimp only; split
    · rfl
    · exact State.judge_devTime _ _ _ _ _ (by simp)

theorem execRetire_onwards (t : Nat) (ring : Fin 64) (s : State) : Onwards s (execRetire t ring s) :=
  onHead_keeps fun _ _ => by
    dsimp only; split
    · rfl
    · exact State.judge_devTime _ _ _ _ _ (by simp)

theorem execLoadApply_onwards (t : Nat) (s : State) : Onwards s (execLoadApply t s) := atMoment_keeps fun _ => by
  split
  · rfl
  · exact (State.sendAck_keeps ..).2.1
  · exact (State.sendAck_keeps ..).2.1.trans (State.markBank_devTime _ _)

theorem execDevSetup_onwards (t : Nat) (ring : Fin 64) (s : State) : Onwards s (execDevSetup t ring s) :=
  onHead_keeps fun _ _ => by
    dsimp only; split
    · rfl
    · exact State.judge_devTime _ _ _ _ _ (by simp)

theorem execHistoSetup_onwards (t : Nat) (ring : Fin 64) (s : State) : Onwards s (execHistoSetup t ring s) :=
  onHead_keeps fun _ _ => by
    dsimp only; split
    · rfl
    · exact State.judge_devTime _ _ _ _ _ (by simp only [State.imageChanged_devTime, State.addTarget_devTime])

theorem execStatsRead_onwards (t : Nat) (ring : Fin 64) (s : State) : Onwards s (execStatsRead t ring s) :=
  onHead_keeps fun _ _ => by
    dsimp only; split
    · rfl
    · exact State.judge_devTime _ _ _ _ _ (by simp)

theorem execAlignBlock_onwards (t : Nat) (lane : Fin 16) (payload : Ctl) (s : State) :
    Onwards s (execAlignBlock t lane payload s) := atMoment_keeps fun _ => by
  dsimp only; split <;> simp

theorem execDispatch_onwards (t : Nat) (lane : Fin 16) (head : Ctl) (data : List Word) (tail : Ctl) (clean : Bool) (s : State) :
    Onwards s (execDispatch t lane head data tail clean s) := atMoment_keeps fun x => by
  have h : (data.foldl (fun s _ => s.dataBlock lane.val) x).devTime = x.devTime := foldl_devTime _ (fun _ _ => by simp) _ _
  simp [h]

theorem execAckBlock_onwards (t : Nat) (lane : Fin 16) (payload : Ctl) (s : State) :
    Onwards s (execAckBlock t lane payload s) := atMoment_keeps fun x => by
  dsimp only; split
  · rfl
  · split
    · simp
    · split
      · simp
      · next h => simp [State.acked_devTime _ _ _ _ h]

theorem execPeerSyncSend_onwards (t : Nat) (s : State) : Onwards s (execPeerSyncSend t s) := atMoment_keeps fun x => by
  dsimp only; split
  · exact (foldl_devTime _ (fun _ _ => by simp) _ _).trans rfl
  · rfl

theorem execPeerFrameMiss_onwards (t : Nat) (lane : Fin 16) (s : State) : Onwards s (execPeerFrameMiss t lane s) :=
  atMoment_keeps fun x => by
    (repeat' split) <;> simp only [keepsTime_iff, State.frameMissed_devTime]

theorem execPeerLinkLost_onwards (t : Nat) (lane : Fin 16) (s : State) : Onwards s (execPeerLinkLost t lane s) :=
  atMoment_keeps fun x => by
    dsimp only; split
    · rfl
    · split <;> simp

theorem execLoadWindowEnd_onwards (t : Nat) (loads : List LoadSample) (s : State) : Onwards s (execLoadWindowEnd t loads s) := by
  unfold execLoadWindowEnd
  split
  · exact onwards_fault _ _
  · refine atMoment_keeps fun x => ?_
    dsimp only; split
    · rfl
    · simp only [keepsTime_iff, State.bump_keeps, State.plan_devTime]
      refine (foldl_devTime _ (fun _ _ => by simp) _ _).trans ?_
      exact foldl_devTime _ (fun _ _ => by simp) _ _

theorem execPlace_onwards (t : Nat) (ring : Fin 64) (s : State) : Onwards s (execPlace t ring s) :=
  onHead_keeps fun _ _ => by
    dsimp only; split
    · rfl
    · refine State.judge_devTime _ _ _ _ _ ?_
      split
      · simp
      · simp
      · simp

theorem execPlaceRead_onwards (t : Nat) (ring : Fin 64) (s : State) : Onwards s (execPlaceRead t ring s) :=
  onHead_keeps fun _ _ => State.judge_devTime _ _ _ _ _ (foldl_devTime _ (fun _ _ => by simp) _ _)

theorem execLetterboxWrite_onwards (t off : Nat) (data : List Dword) (be : BitVec 4) (s : State) :
    Onwards s (execLetterboxWrite t off data be s) := by
  unfold execLetterboxWrite
  split
  · exact onwards_fault _ _
  · refine atMoment_keeps fun x => ?_
    dsimp only; split <;> simp

theorem execLetterboxReturnTimer_onwards (t : Nat) (ring : Fin 64) (s : State) :
    Onwards s (execLetterboxReturnTimer t ring s) := atMoment_keeps fun x => by
  dsimp only; split
  · rfl
  · split <;> simp

theorem execMsixTableWrite_onwards (t off : Nat) (value : Dword) (s : State) : Onwards s (execMsixTableWrite t off value s) := by
  unfold execMsixTableWrite
  split
  · exact onwards_fault _ _
  · refine atMoment_keeps fun x => ?_
    dsimp only; (repeat' split) <;> first | rfl | exact (State.message_keeps _ _).2.1

theorem execHeldPushRelease_onwards (t : Nat) (ring : Fin 64) (cls : Fin 3) (s : State) :
    Onwards s (execHeldPushRelease t ring cls s) := atMoment_keeps fun x => by
  dsimp only; split
  · split
    · next h => exact (State.setRing_devTime _ _ _).trans (State.tryPush_keeps _ _ _ _ h).2.1
    · rfl
  · rfl

theorem execHoldGrace_onwards (t : Nat) (s : State) : Onwards s (execHoldGrace t s) := atMoment_keeps fun x => by
  dsimp only; split
  · exact (foldl_devTime _ (fun _ _ => by simp) _ _).trans rfl
  · rfl

theorem execBbEntryToken_onwards (t : Nat) (s : State) : Onwards s (execBbEntryToken t s) := atMoment_keeps fun x => by
  split <;> rfl

theorem execBbCopyDone_onwards (t : Nat) (s : State) : Onwards s (execBbCopyDone t s) := atMoment_keeps fun x => by
  split
  · exact (foldl_devTime _ (fun _ _ => State.setReg_devTime _ _ _) _ _)
  · rfl

theorem execKeeperTick_onwards (t : Nat) (levels : List (Fin 64 × Int)) (upsets : List Upset) (s : State) :
    Onwards s (execKeeperTick t levels upsets s) := atMoment_keeps fun x => by
  have words (y : State) : ((List.range 65).foldl State.voteWord y).devTime = y.devTime := foldl_devTime _ (fun _ _ => by simp) _ _
  have ups (y : State) : (upsets.foldl State.upset y).devTime = y.devTime := foldl_devTime _ (fun _ _ => by simp) _ _
  simp [words, ups]

theorem execKeeperReset_onwards (t : Nat) (s : State) : Onwards s (execKeeperReset t s) := atMoment_keeps fun x => by
  dsimp only; split
  · rfl
  · split
    · rfl
    · rfl
    all_goals
      simp only [keepsTime_iff, State.coverCheck_devTime, State.keeperCheck_devTime]
      refine (foldl_devTime _ (fun _ _ => by simp) _ _).trans ?_
      split
      · exact (State.raise_keeps ..).2.1
      · rfl

theorem execKeeperResetEnd_onwards (t : Nat) (s : State) : Onwards s (execKeeperResetEnd t s) := atMoment_keeps fun x => by
  split <;> rfl

theorem execCheckpointPass_onwards (t : Nat) (s : State) : Onwards s (execCheckpointPass t s) := atMoment_keeps fun x => by
  have late (f g : Pst → Pst) : KeepsTime x ((x.modPst f).modPst g) := rfl
  have start (f g : Pst → Pst) (cs : List Nat) : KeepsTime x (((x.modPst f).modPst g).startPass .checkpoint cs) :=
    (State.startPass_devTime _ _ _).trans rfl
  dsimp only; split
  · split
    · exact late _ _
    · exact start _ _ _
  · rfl

theorem execPassComplete_onwards (t : Nat) (s : State) : Onwards s (execPassComplete t s) := atMoment_keeps fun x => by
  have h (num : Nat) (l : List Nat) : (l.foldl (fun (x : State) c => x.writeImage num c) x).devTime = x.devTime :=
    foldl_devTime _ (fun _ _ => by simp) _ _
  split
  · simp [h]
  · rfl

theorem execGenerationToken_onwards (t : Nat) (s : State) : Onwards s (execGenerationToken t s) := atMoment_keeps fun x => by
  split <;> rfl

theorem execMramScrub_onwards (t : Nat) (errors : List ScrubError) (s : State) : Onwards s (execMramScrub t errors s) :=
  atMoment_keeps fun x => by
    dsimp only; split
    · simp only [keepsTime_iff, State.bumpBy_keeps, State.bump_keeps]
      refine (foldl_devTime _ (fun _ _ => by simp) _ _).trans ?_
      exact foldl_devTime _ (fun _ _ => by simp) _ _
    · rfl

theorem execRegisterWrite_onwards (t : Nat) (p : Port) (off : Nat) (data : List Dword) (be : List (BitVec 4)) (s : State) :
    Onwards s (execRegisterWrite t p off data be s) := by
  unfold execRegisterWrite
  split
  · exact atMoment_onwards fun _ => State.portWrite_onward _ _ _ _ _
  · exact onwards_fault _ _

theorem execKeyExpiry_onwards (t : Nat) (p : Port) (s : State) : Onwards s (execKeyExpiry t p s) := atMoment_keeps fun x => by
  split <;> simp only [keepsTime_iff, State.setKey_devTime]

theorem execScrubPass_onwards (t : Nat) (bad : List Nat) (s : State) : Onwards s (execScrubPass t bad s) :=
  atMoment_keeps fun x => (State.bump_keeps ..).2.1.trans (foldl_devTime _ (fun _ _ => by simp) _ _)

theorem execMspiFrame_onwards (t : Nat) (bytes : List Byte) (s : State) : Onwards s (execMspiFrame t bytes s) :=
  atMoment_onwards fun x => by
    split
    · exact .refl _
    · split
      · simp
      · split
        · exact State.mspiRun_onward _ _ _ _
        · simp

theorem execPeerSync_onwards (t : Nat) (lane : Fin 16) (sync : Ctl) (d0 d1 d2 d3 : Word) (s : State) :
    Onwards s (execPeerSync t lane sync d0 d1 d2 d3 s) := atMoment_onwards fun x => by
  have follow (y : State) (n : Nat) (e : y.devTime = x.devTime) : MovesOnward x (y.follow n) := by
    rw [movesOnward_iff, ← e]; exact State.follow_onward y n
  extract_lets n s0 hops old seen part s1 s2 s3 t3 t2 s4 s5 s6
  have e0 : s0.devTime = x.devTime := State.dataBlock_devTime _ _
  clear_value s0
  have e1 : s1.devTime = x.devTime := e0
  clear_value s1
  have e2 : s2.devTime = x.devTime := by simp [s2, e1]
  clear_value s2
  have e3 : s3.devTime = x.devTime := e2
  clear_value s3
  have e4 : s4.devTime = x.devTime := by simp only [s4, devTime_ite, State.exchange_devTime, e3, ite_self]
  clear_value s4
  have e5 : s5.devTime = x.devTime := (State.merge_devTime _).trans ((State.peerChoose_devTime _).trans e4)
  clear_value s5
  have e6 : s6.devTime = x.devTime := by simp [s6, e5]
  clear_value s6
  split
  · exact .refl _
  · split
    · rw [movesOnward_iff, State.frameMissed_devTime, e0]; exact .refl _
    · exact follow _ _ e6
end Sys2Proof.Machine

namespace Sys2Proof.Machine

/-! ### Every command and every step moves device time onward -/

/-- Device time under every command, by the command's own lemma (R31, R65). -/
theorem exec_onwards (c : Instr) (s : State) : Onwards s (exec c s) := by
  cases c with
  | refEdge t r err good off => exact execRefEdge_onwards t r err good off s
  | refEdgeTimeout t r => exact execRefEdgeTimeout_onwards t r s
  | bandSearchDone t coarse fine => exact execBandSearchDone_onwards t coarse fine s
  | acquisitionLimit t => exact execAcquisitionLimit_onwards t s
  | acquisitionSwap t => exact execAcquisitionSwap_onwards t s
  | tbApply t p => exact execTbApply_onwards t p s
  | handoverSwap t misalign => exact execHandoverSwap_onwards t misalign s
  | returnOffsetMeasured t m => exact execReturnOffsetMeasured_onwards t m s
  | slewStep t => exact execSlewStep_onwards t s
  | tbSlew t p => exact execTbSlew_onwards t p s
  | tbAccept t p byStep => exact execTbAccept_onwards t p byStep s
  | tbLatch t p => exact execTbLatch_onwards t p s
  | refSelect t p sel => exact execRefSelect_onwards t p sel s
  | driftLearn t word => exact execDriftLearn_onwards t word s
  | holdoverTick t => exact execHoldoverTick_onwards t s
  | coldCoast t => exact execColdCoast_onwards t s
  | autoReturn t => exact execAutoReturn_onwards t s
  | todEdge p => exact execTodEdge_onwards p s
  | todMiss t => exact execTodMiss_onwards t s
  | runtSwallowed t => exact execRuntSwallowed_onwards t s
  | tbSpan t => exact execTbSpan_onwards t s
  | thermRead t raw => exact execThermRead_onwards t raw s
  | inputTransition t n x => exact execInputTransition_onwards t n x s
  | zoneSettle t n v => exact execZoneSettle_onwards t n v s
  | blankTrigEdge t pin rising => exact execBlankTrigEdge_onwards t pin rising s
  | blankWindowEnd t n => exact execBlankWindowEnd_onwards t n s
  | feSample t n v => exact execFeSample_onwards t n v s
  | feAlarmWrite t p n value => exact execFeAlarmWrite_onwards t p n value s
  | bucketRefill t n => exact execBucketRefill_onwards t n s
  | thinRateDecay t => exact execThinRateDecay_onwards t s
  | calHit t n code => exact execCalHit_onwards t n code s
  | calWindowDone t n => exact execCalWindowDone_onwards t n s
  | mailbagFlush t n => exact execMailbagFlush_onwards t n s
  | ovflWrite t n => exact execOvflWrite_onwards t n s
  | idleAnchor t n => exact execIdleAnchor_onwards t n s
  | mailbagPop t n => exact execMailbagPop_onwards t n s
  | engineEdge t chan => exact execEngineEdge_onwards t chan s
  | quadDecide t chan => exact execQuadDecide_onwards t chan s
  | descriptorFetch t ring descs => exact execDescriptorFetch_onwards t ring descs s
  | fetchFailed t ring descs => exact execFetchFailed_onwards t ring descs s
  | declare t ring => exact execDeclare_onwards t ring s
  | channelLive t chan => exact execChannelLive_onwards t chan s
  | redeclare t ring => exact execRedeclare_onwards t ring s
  | redeclareApply t chan => exact execRedeclareApply_onwards t chan s
  | pause t ring => exact execPause_onwards t ring s
  | pauseApply t chan => exact execPauseApply_onwards t chan s
  | resume t ring => exact execResume_onwards t ring s
  | resumeGap t chan => exact execResumeGap_onwards t chan s
  | retire t ring => exact execRetire_onwards t ring s
  | retireApply t chan => exact execRetireApply_onwards t chan s
  | cadenceInstant t c => exact execCadenceInstant_onwards t c s
  | cadenceOutEnd t pin => exact execCadenceOutEnd_onwards t pin s
  | cadenceEnable t p c => exact execCadenceEnable_onwards t p c s
  | cadenceDisable t p c => exact execCadenceDisable_onwards t p c s
  | cadenceGridWrite t p c phase value => exact execCadenceGridWrite_onwards t p c phase value s
  | instantResolve t chan => exact execInstantResolve_onwards t chan s
  | bracketWaitExpiry t chan => exact execBracketWaitExpiry_onwards t chan s
  | recipeLoad t ring buf => exact execRecipeLoad_onwards t ring buf s
  | coefLoad t ring buf => exact execCoefLoad_onwards t ring buf s
  | loadApply t => exact execLoadApply_onwards t s
  | devSetup t ring => exact execDevSetup_onwards t ring s
  | histoSetup t ring => exact execHistoSetup_onwards t ring s
  | statsRead t ring => exact execStatsRead_onwards t ring s
  | statsTargetApply t chan => exact execStatsTargetApply_onwards t chan s
  | devReport t chan => exact execDevReport_onwards t chan s
  | histoComplete t chan hist => exact execHistoComplete_onwards t chan hist s
  | autoPeriodEnd t chan hist => exact execAutoPeriodEnd_onwards t chan hist s
  | loadWindowEnd t loads => exact execLoadWindowEnd_onwards t loads s
  | castlingBegin t => exact execCastlingBegin_onwards t s
  | castlingSealAck t chan => exact execCastlingSealAck_onwards t chan s
  | castlingCopyDone t chan crcEqual => exact execCastlingCopyDone_onwards t chan crcEqual s
  | castleToken t => exact execCastleToken_onwards t s
  | place t ring => exact execPlace_onwards t ring s
  | placeRead t ring => exact execPlaceRead_onwards t ring s
  | laneEnable t p lane => exact execLaneEnable_onwards t p lane s
  | laneDisable t p lane => exact execLaneDisable_onwards t p lane s
  | laneProbe t lane => exact execLaneProbe_onwards t lane s
  | probeDone t lane found => exact execProbeDone_onwards t lane found s
  | backoffEnd t lane => exact execBackoffEnd_onwards t lane s
  | laneRetry t p lane => exact execLaneRetry_onwards t p lane s
  | laneRetrain t p lane => exact execLaneRetrain_onwards t p lane s
  | trainingBlock t lane payload => exact execTrainingBlock_onwards t lane payload s
  | tapRequestTimeout t lane => exact execTapRequestTimeout_onwards t lane s
  | rxReady t lane margin => exact execRxReady_onwards t lane margin s
  | trainLimit t lane => exact execTrainLimit_onwards t lane s
  | alignBlock t lane payload => exact execAlignBlock_onwards t lane payload s
  | alignLimit t lane => exact execAlignLimit_onwards t lane s
  | loopEcho t lane => exact execLoopEcho_onwards t lane s
  | creditLimit t lane => exact execCreditLimit_onwards t lane s
  | recoverLimit t lane => exact execRecoverLimit_onwards t lane s
  | lossOfSignal t lane => exact execLossOfSignal_onwards t lane s
  | invalidSyncHeader t lane => exact execInvalidSyncHeader_onwards t lane s
  | keepaliveBlock t lane payload => exact execKeepaliveBlock_onwards t lane payload s
  | adaptFreeze t lane => exact execAdaptFreeze_onwards t lane s
  | keepaliveSend t lane => exact execKeepaliveSend_onwards t lane s
  | keepaliveMiss t lane => exact execKeepaliveMiss_onwards t lane s
  | dispatch t lane head data tail clean => exact execDispatch_onwards t lane head data tail clean s
  | ackBlock t lane payload => exact execAckBlock_onwards t lane payload s
  | nakBlock t lane payload => exact execNakBlock_onwards t lane payload s
  | initBlock t lane payload => exact execInitBlock_onwards t lane payload s
  | initSend t lane => exact execInitSend_onwards t lane s
  | ackSendTimer t lane => exact execAckSendTimer_onwards t lane s
  | replayTimeout t lane => exact execReplayTimeout_onwards t lane s
  | nakRepeat t lane => exact execNakRepeat_onwards t lane s
  | creditWatchdog t lane => exact execCreditWatchdog_onwards t lane s
  | resyncRepeat t lane => exact execResyncRepeat_onwards t lane s
  | creditSync t lane => exact execCreditSync_onwards t lane s
  | dispatchSend t lane => exact execDispatchSend_onwards t lane s
  | creditRelease t lane blocks => exact execCreditRelease_onwards t lane blocks s
  | fineBeacon t lane => exact execFineBeacon_onwards t lane s
  | letterPost t ring buf => exact execLetterPost_onwards t ring buf s
  | laneReturnTimer t lane reason => exact execLaneReturnTimer_onwards t lane reason s
  | peerHello t lane payload => exact execPeerHello_onwards t lane payload s
  | peerHelloSend t lane => exact execPeerHelloSend_onwards t lane s
  | peerSyncSend t => exact execPeerSyncSend_onwards t s
  | peerSync t lane sync d0 d1 d2 d3 => exact execPeerSync_onwards t lane sync d0 d1 d2 d3 s
  | peerFrameMiss t lane => exact execPeerFrameMiss_onwards t lane s
  | peerLinkLost t lane => exact execPeerLinkLost_onwards t lane s
  | peerStaleHoldEnd t => exact execPeerStaleHoldEnd_onwards t s
  | peerTrimStep t => exact execPeerTrimStep_onwards t s
  | peerWhole t p => exact execPeerWhole_onwards t p s
  | registerWrite t p off data be => exact execRegisterWrite_onwards t p off data be s
  | farWriteApply t => exact execFarWriteApply_onwards t s
  | bar0ReadAbort t off len kind => exact execBar0ReadAbort_onwards t off len kind s
  | mspiFrame t bytes => exact execMspiFrame_onwards t bytes s
  | keyUnlock t p value => exact execKeyUnlock_onwards t p value s
  | keyExpiry t p => exact execKeyExpiry_onwards t p s
  | snapshot t p => exact execSnapshot_onwards t p s
  | snapshotDone t => exact execSnapshotDone_onwards t s
  | scrubPass t bad => exact execScrubPass_onwards t bad s
  | ringEnable t p ring => exact execRingEnable_onwards t p ring s
  | ringDisable t p ring => exact execRingDisable_onwards t p ring s
  | ringStopped t ring => exact execRingStopped_onwards t ring s
  | letterboxWrite t off data be => exact execLetterboxWrite_onwards t off data be s
  | letterboxReturnTimer t ring => exact execLetterboxReturnTimer_onwards t ring s
  | recordDelivery t ring => exact execRecordDelivery_onwards t ring s
  | moderationTimer t ring => exact execModerationTimer_onwards t ring s
  | vectorHoldoffEnd t vector => exact execVectorHoldoffEnd_onwards t vector s
  | msixTableWrite t off value => exact execMsixTableWrite_onwards t off value s
  | functionLevelReset t => exact execFunctionLevelReset_onwards t s
  | nop t ring => exact execNop_onwards t ring s
  | mark t ring => exact execMark_onwards t ring s
  | repost t ring => exact execRepost_onwards t ring s
  | heldPushRelease t ring cls => exact execHeldPushRelease_onwards t ring cls s
  | holdGrace t => exact execHoldGrace_onwards t s
  | summaryExit t ring => exact execSummaryExit_onwards t ring s
  | checkpointPass t => exact execCheckpointPass_onwards t s
  | drainPass t => exact execDrainPass_onwards t s
  | passComplete t => exact execPassComplete_onwards t s
  | configGeneration t => exact execConfigGeneration_onwards t s
  | generationToken t => exact execGenerationToken_onwards t s
  | endgame t => exact execEndgame_onwards t s
  | endgameDeadline t => exact execEndgameDeadline_onwards t s
  | endgameComplete t => exact execEndgameComplete_onwards t s
  | restore t => exact execRestore_onwards t s
  | restoreComplete t => exact execRestoreComplete_onwards t s
  | mramScrub t errors => exact execMramScrub_onwards t errors s
  | keeperTick t levels upsets => exact execKeeperTick_onwards t levels upsets s
  | keeperReset t => exact execKeeperReset_onwards t s
  | keeperResetEnd t => exact execKeeperResetEnd_onwards t s
  | xtalFail t => exact execXtalFail_onwards t s
  | guardCompare t chan twinCount same => exact execGuardCompare_onwards t chan twinCount same s
  | guardCopyTimeout t chan => exact execGuardCopyTimeout_onwards t chan s
  | keeperVote t => exact execKeeperVote_onwards t s
  | wakeClear t p value => exact execWakeClear_onwards t p value s
  | pfailAssert t => exact execPfailAssert_onwards t s
  | pfailRelease t => exact execPfailRelease_onwards t s
  | droopTrip t rails => exact execDroopTrip_onwards t rails s
  | perstFall t => exact execPerstFall_onwards t s
  | perstRise t => exact execPerstRise_onwards t s
  | mainRailsPresent t => exact execMainRailsPresent_onwards t s
  | mainRailsLost t => exact execMainRailsLost_onwards t s
  | baseUnitsSettled t => exact execBaseUnitsSettled_onwards t s
  | tokenGrant t => exact execTokenGrant_onwards t s
  | tokenReturn t => exact execTokenReturn_onwards t s
  | coreLow t => exact execCoreLow_onwards t s
  | ledgerCheck t => exact execLedgerCheck_onwards t s
  | faultClear t p value => exact execFaultClear_onwards t p value s
  | bbEntryToken t => exact execBbEntryToken_onwards t s
  | bbSeal t p => exact execBbSeal_onwards t p s
  | bbUnseal t p => exact execBbUnseal_onwards t p s
  | bbSelect t p entry => exact execBbSelect_onwards t p entry s
  | bbCopyDone t => exact execBbCopyDone_onwards t s
  | bbMark t p value => exact execBbMark_onwards t p value s
  | partnerSeen t lane => exact execPartnerSeen_onwards t lane s
  | coreLowEnd t => exact execCoreLowEnd_onwards t s
  | d3hotChange t entering => exact execD3hotChange_onwards t entering s
  | pcieLinkChange t up rate width => exact execPcieLinkChange_onwards t up rate width s
  | testEnChange t level => exact execTestEnChange_onwards t level s
  | jtagTck t trstN tms tdi => exact execJtagTck_onwards t trstN tms tdi s

/-- Device time under a step: an empty queue leaves the state as it is. -/
theorem step_onwards (s : State) : Onwards s (step s) := by
  unfold step
  split
  · intro u hu
    cases hu
    exact .refl _
  · next c rest _ =>
    have h := exec_onwards c { s with pending := rest }
    exact fun u hu => h u hu

/-- At the end of its span device time can only stay where it is. -/
theorem Onward.eq_spanMax {d e : Nat} (h : Onward d e) (hd : d = spanMax) : e = spanMax := by
  obtain ⟨hle, hspan⟩ := h hd.le
  exact le_antisymm hspan (hd ▸ hle)

end Sys2Proof.Machine


namespace Sys2Proof.Machine

/-! ### A command by its effect -/

/-- The state a meaning answers from the state `w` that its effect left: the count of time and the queue are the machine's. -/
def State.settle (w s : State) (t : Nat) : State := { w with now := s.now + (t - s.now), pending := s.pending }

@[simp] theorem State.settle_tb (w s : State) (t : Nat) : (w.settle s t).tb = w.tb := rfl
@[simp] theorem State.settle_devTime (w s : State) (t : Nat) : (w.settle s t).devTime = w.devTime := rfl
@[simp] theorem State.settle_flt (w s : State) (t : Nat) : (w.settle s t).flt = w.flt := rfl
@[simp] theorem State.settle_pst (w s : State) (t : Nat) : (w.settle s t).pst = w.pst := rfl
@[simp] theorem State.settle_reg (w s : State) (t a : Nat) : (w.settle s t).reg a = w.reg a := rfl
@[simp] theorem State.settle_fld (w s : State) (t a lo k : Nat) : (w.settle s t).fld a lo k = w.fld a lo k := rfl
@[simp] theorem State.settle_selRef (w s : State) (t : Nat) : (w.settle s t).selRef = w.selRef := rfl

/-- What holds of the effect's state, the count of time and the queue aside, holds after the command. -/
theorem Does.of_effect {c : Instr} {s : State} {t : Nat} {f : State → State} {P : State → Prop}
    (h : exec c s = atMoment t s f) (hP : P ((f (s.advance t)).settle s t)) : Does c s P :=
  ⟨_, h.trans (atMoment_next t s f), hP⟩

/-- A command whose effect leaves the state that time has reached only lets time pass. -/
theorem Idles.of_effect {c : Instr} {s : State} {t : Nat} {f : State → State} (ht : c.time = t) (h : exec c s = atMoment t s f)
    (hf : f (s.advance t) = s.advance t) : Idles c s := by
  subst ht
  rw [Idles, h, atMoment_next, hf]
  rfl

/-- Device time at its end stays there while time passes (R65). -/
theorem State.advance_atEnd (s : State) (t : Nat) (h : s.devTime = spanMax) : (s.advance t).devTime = spanMax :=
  (State.advance_onward s t).eq_spanMax h

/-! ### A raised fault -/

/-- A raised fault shows in its class bit (R444, R445). -/
@[simp] theorem State.raise_class (s : State) (f : FaultCode) (p : Nat) : (s.raise f p).flt.active.getLsbD f.cls = true := by
  rw [raise_active, BitVec.getLsbD_or, FaultCode.cls_bit, Bool.or_true]

/-- A fault that is marked FAULT_N sets severe (R445, R449). -/
theorem State.raise_marked (s : State) (f : FaultCode) (p : Nat) (h : f.row.2 = true) : (s.raise f p).flt.severe = true := by
  rw [raise_severe, h, Bool.or_true]

/-! ### Registers at reset -/

/-- The Reset value of a register of a unit of a block is its row's (R470, R471). -/
theorem resetOf_unit (b : Block) (n o ro : Nat) (r : RegRow) (hb : findBlock blocks (b.base + o + b.stride * n) = some b)
    (hn : n < b.inst) (ho : o < b.stride) (hr : findRow b.rows o = some (r, ro)) (hg : r.group = false)
    (hf : r.fused = false) : resetOf (b.base + o + b.stride * n) = BitVec.ofNat 64 r.reset := by
  have hsub : b.base + o + b.stride * n - b.base = o + b.stride * n := by omega
  have hdiv : (o + b.stride * n) / b.stride = n := by
    rw [Nat.add_mul_div_left _ _ (by omega), Nat.div_eq_of_lt ho, Nat.zero_add]
  have hmod : (o + b.stride * n) % b.stride = o := by rw [Nat.add_mul_mod_self_left, Nat.mod_eq_of_lt ho]
  simp [resetOf, regAt, hb, hsub, hdiv, hmod, hn, Block.hit, hr, hg, hf]

/-- The block of the front ends. -/
def feBlock : Block :=
  { base := 0x4000, top := 0x8000, stride := 64, inst := 256, window := 64, epoch := some 3, rows := rowsFe }

theorem findBlock_fe (a : Nat) (hle : 0x4000 ≤ a) (hlt : a < 0x8000) : findBlock blocks a = some feBlock := by
  have hlow (k : Nat) (hk : k ≤ 0x4000) : ¬a < k := by omega
  simp [blocks, findBlock, feBlock, hlt, hle, hlow]

/-- The Reset value of a register of a front end. -/
theorem resetOf_fe (n o ro : Nat) (r : RegRow) (hn : n < 256) (ho : o < 64) (hr : findRow rowsFe o = some (r, ro))
    (hg : r.group = false) (hf : r.fused = false) : resetOf (0x4000 + o + 64 * n) = BitVec.ofNat 64 r.reset :=
  have hb := findBlock_fe (0x4000 + o + 64 * n) (by omega) (by omega)
  have hb := findBlock_fe (0x4000 + o + 64 * n) (by omega) (by omega)
  resetOf_unit feBlock n o ro r hb hn ho hr hg hf

theorem resetOf_of_regAt {a : Nat} {h : Hit} (ha : regAt a = some h) (hf : h.row.fused = false) :
    resetOf a = BitVec.ofNat 64 h.row.reset := by
  simp [resetOf, ha, hf]

end Sys2Proof.Machine

section
open Sys2Proof.Machine

/-- Settles O42, by what each command does to device time. -/
theorem deviceTimeKept : Obligations.DeviceTimeKept := fun s u hs hu => (step_onwards s u hu hs).symm

/-- Settles O44: the bounds as for O42, and TB_SPAN by the rules of a raised fault. -/
theorem deviceTimeHoldsAtItsEnd : Obligations.DeviceTimeHoldsAtItsEnd := by
  refine ⟨fun c s u hs hu => (exec_onwards c s u hu).eq_spanMax hs, fun c s u hs hu => ?_, fun s t hs hr => ?_⟩
  · obtain ⟨hle, hspan⟩ := exec_onwards c s u hu (Nat.le_pred_of_lt hs)
    exact ⟨hle, hspan.trans_lt (by decide)⟩
  · have hend := State.advance_atEnd s t hs
    refine Does.of_effect rfl ?_
    rw [if_pos (by simp [hend, hr])]
    simp only [State.settle_devTime, State.settle_flt, State.settle_reg, State.raise_keeps, State.modTb_devTime,
      State.raise_class, raise_last, and_true]
    exact hend

/-- Settles O43: the registers by the rows of their blocks, the rest as `State.reset` has it. -/
theorem resetState : Obligations.ResetState := by
  refine ⟨Nat.zero_le _, rfl, rfl, rfl, rfl, rfl, rfl, rfl, fun _ => rfl, fun _ => rfl, fun _ => rfl, fun _ => rfl,
    fun a h ha hf => ⟨resetOf_of_regAt ha hf, resetOf_of_regAt ha hf⟩, fun n => ⟨?_, ?_, ?_⟩, ?_, by decide, by decide⟩
  · exact resetOf_fe n 0xC _ _ n.2 (by decide) rfl rfl rfl
  · exact resetOf_fe n 0 _ _ n.2 (by decide) rfl rfl rfl
  · exact resetOf_fe n 4 _ _ n.2 (by decide) rfl rfl rfl
  · decide

end


namespace Sys2Proof.Machine

/-! ### The time base enters a state -/

/-- The time base once it has entered a state at a device time (R40, R51, R52). -/
def Tb.enter (b : Tb) (now : Nat) (st : TbState) : Tb :=
  let b1 := { b with st := st, log := (now, st) :: b.log, steered := if st.holds then steerWord b.drift b.temp else none }
  if st.holds && !b.st.holds then { b1 with hold := b.u0 * 100000000, holdLog := (now, b.u0 * 100000000) :: b.holdLog } else b1

@[simp] theorem Tb.enter_keeps (b : Tb) (now : Nat) (st : TbState) :
    (b.enter now st).st = st ∧ (b.enter now st).cold = b.cold ∧ (b.enter now st).line = b.line ∧
    (b.enter now st).shadow = b.shadow ∧ (b.enter now st).liveRef = b.liveRef ∧ (b.enter now st).acqRef = b.acqRef ∧
    (b.enter now st).refA = b.refA ∧ (b.enter now st).refB = b.refB ∧ (b.enter now st).lockCount = b.lockCount ∧
    (b.enter now st).acqFail = b.acqFail ∧ (b.enter now st).handoverOf = b.handoverOf ∧
    (b.enter now st).applyPend = b.applyPend ∧ (b.enter now st).selPending = b.selPending ∧ (b.enter now st).p0 = b.p0 ∧
    (b.enter now st).ret = b.ret ∧ (b.enter now st).slewRemain = b.slewRemain ∧ (b.enter now st).slewTotal = b.slewTotal ∧
    (b.enter now st).slewN = b.slewN ∧ (b.enter now st).steps = b.steps ∧ (b.enter now st).u0 = b.u0 ∧
    (b.enter now st).d0 = b.d0 ∧ (b.enter now st).aligned = b.aligned ∧ (b.enter now st).lastErr = b.lastErr ∧
    (b.enter now st).band0 = b.band0 ∧ (b.enter now st).band1 = b.band1 ∧ (b.enter now st).mod0 = b.mod0 ∧
    (b.enter now st).mod1 = b.mod1 ∧ (b.enter now st).todRejects = b.todRejects ∧
    (b.enter now st).todFirst = b.todFirst ∧ (b.enter now st).todHold = b.todHold ∧
    (b.enter now st).granted = b.granted := by
  unfold Tb.enter
  dsimp only
  split <;> simp

@[simp] theorem Tb.enter_ref (b : Tb) (now : Nat) (st : TbState) (r : Ref) : (b.enter now st).ref r = b.ref r := by
  cases r <;> simp [Tb.ref]

/-- A holdover begins with the restore uncertainty (R52). -/
theorem Tb.enter_hold (b : Tb) (now : Nat) (st : TbState) (h : st.holds = true) (hb : b.st.holds = false) :
    (b.enter now st).hold = b.u0 * 100000000 := by
  simp [Tb.enter, h, hb]

@[simp] theorem State.tbEnter_tb (s : State) (st : TbState) (reason : Nat) (value : Int) :
    (s.tbEnter st reason value).tb = s.tb.enter s.devTime st := by
  have announced (x : State) : (if (x.timeRecord reason value).bit Reg.TB_CTRL 4 then (x.timeRecord reason value).event 65
      else x.timeRecord reason value).tb = x.tb := by
    split <;> simp
  exact announced (s.setTb (s.tb.enter s.devTime st))

@[simp] theorem State.reg_tbEnter (s : State) (st : TbState) (reason : Nat) (value : Int) (a : Nat) (h : reportReg a = false) :
    (s.tbEnter st reason value).reg a = s.reg a := by
  have announced (x : State) : (if (x.timeRecord reason value).bit Reg.TB_CTRL 4 then (x.timeRecord reason value).event 65
      else x.timeRecord reason value).reg a = x.reg a := by
    split <;> simp [h]
  exact announced (s.setTb (s.tb.enter s.devTime st))

/-! ### Band search -/

@[simp] theorem Tb.setRef_keeps (b : Tb) (r : Ref) (x : RefState) :
    (b.setRef r x).st = b.st ∧ (b.setRef r x).line = b.line ∧ (b.setRef r x).shadow = b.shadow ∧
    (b.setRef r x).liveRef = b.liveRef ∧ (b.setRef r x).acqRef = b.acqRef ∧ (b.setRef r x).lockCount = b.lockCount ∧
    (b.setRef r x).acqFail = b.acqFail ∧ (b.setRef r x).handoverOf = b.handoverOf ∧
    (b.setRef r x).applyPend = b.applyPend ∧ (b.setRef r x).selPending = b.selPending ∧ (b.setRef r x).p0 = b.p0 ∧
    (b.setRef r x).ret = b.ret ∧ (b.setRef r x).slewRemain = b.slewRemain ∧ (b.setRef r x).lastErr = b.lastErr := by
  cases r <;> simp [Tb.setRef]

@[simp] theorem Tb.ref_setRef_same (b : Tb) (r : Ref) (x : RefState) : (b.setRef r x).ref r = x := by
  cases r <;> rfl

/-- What the taking of the dividers leaves of the time base (R33, R49), where it happens and where it does not. -/
theorem State.takeDividers_tb (s : State) (c : Bool) : ∃ ap n d f n' d' f', (if c then s.takeDividers.2 else s).tb =
    { s.tb with applyPend := ap, refA := { s.tb.refA with num := n, den := d, frac := f }
                refB := { s.tb.refB with num := n', den := d', frac := f' } } := by
  have same : ∃ ap n d f n' d' f', s.tb = { s.tb with applyPend := ap, refA := { s.tb.refA with num := n, den := d, frac := f }
                                                      refB := { s.tb.refB with num := n', den := d', frac := f' } } :=
    ⟨s.tb.applyPend, s.tb.refA.num, s.tb.refA.den, s.tb.refA.frac, s.tb.refB.num, s.tb.refB.den, s.tb.refB.frac, rfl⟩
  cases c
  · exact same
  · simp only [if_true]
    unfold State.takeDividers
    dsimp only
    split
    · exact ⟨_, _, _, _, _, _, _, rfl⟩
    · exact ⟨false, s.tb.refA.num, s.tb.refA.den, s.tb.refA.frac, s.tb.refB.num, s.tb.refB.den, s.tb.refB.frac, by simp⟩

@[simp] theorem State.reg_takeDividers (s : State) (a : Nat) (h : reportReg a = false) :
    s.takeDividers.2.reg a = s.reg a := by
  unfold State.takeDividers
  dsimp only
  split <;> simp [h]

theorem State.loadDither_tb (s : State) : ∃ m m', s.loadDither.tb = { s.tb with mod0 := m, mod1 := m' } := by
  unfold State.loadDither
  dsimp only
  split
  · rw [State.modTb_tb]
    split
    · exact ⟨_, s.tb.mod1, rfl⟩
    · exact ⟨s.tb.mod0, _, rfl⟩
  · exact ⟨s.tb.mod0, s.tb.mod1, rfl⟩

@[simp] theorem State.reg_loadDither (s : State) (a : Nat) : s.loadDither.reg a = s.reg a := by
  unfold State.loadDither
  dsimp only
  split <;> simp

/-- What a band search on reference `r` makes of the time base `b` (R36, R39, R49). -/
structure Tb.Searches (b c : Tb) (r : Ref) : Prop where
  shadow : c.shadow = .searching
  acqRef : c.acqRef = r
  ret : c.ret = .none
  lockCount : c.lockCount = 0
  st : c.st = if b.st = .stopped ∨ b.st = .acquiring then .searching else b.st
  line : c.line = b.line
  liveRef : c.liveRef = b.liveRef
  acqFail : c.acqFail = b.acqFail
  handoverOf : c.handoverOf = b.handoverOf
  selPending : c.selPending = b.selPending
  p0 : c.p0 = b.p0
  slewRemain : c.slewRemain = b.slewRemain
  lastErr : c.lastErr = b.lastErr
  ok (q : Ref) : (c.ref q).ok = (b.ref q).ok
  run (q : Ref) : (c.ref q).run = (b.ref q).run
  outRun (q : Ref) : (c.ref q).outRun = (b.ref q).outRun

/-- The shadow line searches for `r`, behind the taking of a held apply and before the state that the time base shows. -/
def State.searchFor (s : State) (r : Ref) : State :=
  ((s.modTb fun b => { b with shadow := .searching, acqRef := r, lockCount := 0, ret := .none }).loadDither).start .search

theorem State.searchFor_tb (s : State) (r : Ref) : ∃ m m', (s.searchFor r).tb =
    { s.tb with shadow := .searching, acqRef := r, lockCount := 0, ret := .none, mod0 := m, mod1 := m' } :=
  State.loadDither_tb _

@[simp] theorem State.reg_searchFor (s : State) (r : Ref) (a : Nat) : (s.searchFor r).reg a = s.reg a := by
  simp [State.searchFor]

/-- The time base without a live line shows that it searches (R39). -/
def State.showSearch (s : State) : State :=
  if s.tb.st == .stopped || s.tb.st == .acquiring then s.tbEnter .searching 12 0 else s

theorem State.showSearch_tb (s : State) : s.showSearch.tb =
    if s.tb.st = .stopped ∨ s.tb.st = .acquiring then s.tb.enter s.devTime .searching else s.tb := by
  unfold State.showSearch
  split <;> simp_all

theorem State.beginSearch_eq (s : State) (r : Ref) : s.beginSearch r =
    ((if s.tb.applyPend && s.tb.st != .handover then s.takeDividers.2 else s).searchFor r).showSearch := rfl

@[simp] theorem State.reg_beginSearch (s : State) (r : Ref) (a : Nat) (h : reportReg a = false) :
    (s.beginSearch r).reg a = s.reg a := by
  rw [State.beginSearch_eq, State.showSearch]
  split <;> split <;> simp [h]

theorem State.beginSearch_searches (s : State) (r : Ref) : s.tb.Searches (s.beginSearch r).tb r := by
  obtain ⟨ap, n, d, f, n', d', f', hx⟩ := s.takeDividers_tb (s.tb.applyPend && s.tb.st != .handover)
  obtain ⟨m, m', hy⟩ := State.searchFor_tb (if s.tb.applyPend && s.tb.st != .handover then s.takeDividers.2 else s) r
  rw [hx] at hy
  rw [State.beginSearch_eq, State.showSearch_tb, hy]
  constructor
  case ok | run | outRun => intro q; cases q <;> split <;> simp [Tb.ref]
  all_goals split <;> simp

/-- The shadow line acquires a reference: a band search, behind a TIME record (R59). -/
theorem State.acquire_searches (s : State) (r : Ref) : s.tb.Searches (s.acquire r).tb r := by
  unfold State.acquire
  split
  · exact s.beginSearch_searches r
  · simpa using (s.timeRecord 8 (refNum r)).beginSearch_searches r

end Sys2Proof.Machine


namespace Sys2Proof.Machine

/-! ### A reference gained and lost -/

/-- The time base once the injected reference, or the lock of the handover's reference, has been lost (R42, R49). -/
theorem State.toCoasting_tb (s : State) (r : Ref) : ∃ ap sel, (s.toCoasting r).tb =
    { s.tb with slewRemain := 0, shadow := .idle, ret := .none, handoverOf := none, applyPend := ap
                selPending := sel }.enter s.devTime .coasting :=
  ⟨_, _, by simp only [State.toCoasting, State.tbEnter_tb, State.setReg_tb, State.setReg_devTime, State.modTb_tb, State.modTb_devTime,
    State.bumpSat_keeps, State.raise_keeps]; rfl⟩

theorem State.toCoasting_ref (s : State) (r q : Ref) : (s.toCoasting r).tb.ref q = s.tb.ref q := by
  obtain ⟨ap, sel, h⟩ := s.toCoasting_tb r
  rw [h, Tb.enter_ref]
  cases q <;> rfl

theorem State.autoSwitch_cases (s : State) : s.autoSwitch = s ∨ ∃ r, s.autoSwitch = s.acquire r := by
  unfold State.autoSwitch
  split
  · exact .inr ⟨_, rfl⟩
  · exact .inl rfl

/-- A switch to another reference leaves the counts of both. -/
theorem State.autoSwitch_ref (s : State) (q : Ref) :
    (s.autoSwitch.tb.ref q).ok = (s.tb.ref q).ok ∧ (s.autoSwitch.tb.ref q).run = (s.tb.ref q).run := by
  obtain h | ⟨r, h⟩ := s.autoSwitch_cases <;> rw [h]
  · exact ⟨rfl, rfl⟩
  · exact ⟨(s.acquire_searches r).ok q, (s.acquire_searches r).run q⟩

/-- A line that coasts goes on coasting when the shadow line acquires. -/
theorem State.autoSwitch_coasting (s : State) (h : s.tb.st = .coasting) :
    s.autoSwitch.tb.st = .coasting ∧ s.autoSwitch.tb.slewRemain = s.tb.slewRemain := by
  obtain e | ⟨r, e⟩ := s.autoSwitch_cases <;> rw [e]
  · exact ⟨h, rfl⟩
  · exact ⟨by simp [(s.acquire_searches r).st, h], (s.acquire_searches r).slewRemain⟩

/-- The hub coasts behind the loss of the reference that its line injects (R42). -/
theorem State.lost_coasting (s : State) (r : Ref) :
    (s.toCoasting r).autoSwitch.tb.st = .coasting ∧ (s.toCoasting r).autoSwitch.tb.slewRemain = 0 := by
  obtain ⟨ap, sel, h⟩ := s.toCoasting_tb r
  have hst : (s.toCoasting r).tb.st = .coasting := by simp [h]
  obtain ⟨h1, h2⟩ := (s.toCoasting r).autoSwitch_coasting hst
  exact ⟨h1, h2.trans (by simp [h])⟩

/-- The reference is not qualified and counts from the beginning (R41). -/
def State.Unqualified (s : State) (r : Ref) : Prop := (s.tb.ref r).ok = false ∧ (s.tb.ref r).run = 0

theorem State.Unqualified.of_ref {s u : State} {r : Ref} (h : s.Unqualified r) (e : u.tb.ref r = s.tb.ref r) : u.Unqualified r := by
  rwa [State.Unqualified, e]

theorem State.Unqualified.autoSwitch {s : State} {r : Ref} (h : s.Unqualified r) : s.autoSwitch.Unqualified r :=
  ⟨(s.autoSwitch_ref r).1.trans h.1, (s.autoSwitch_ref r).2.trans h.2⟩

/-- A reference that is disqualified counts from the beginning (R41). -/
theorem State.refDisqualified_unqualified (s : State) (r : Ref) : (s.refDisqualified r).Unqualified r := by
  have idle (x : State) (f : Tb → Tb) (hf : (f x.tb).ref r = x.tb.ref r) (hx : x.Unqualified r) : (x.modTb f).Unqualified r :=
    hx.of_ref hf
  have shows (x : State) (c : Bool) (hx : x.Unqualified r) : (if c then x.tbEnter .searching 12 0 else x).Unqualified r :=
    hx.of_ref (by split <;> simp)
  have coasts (x : State) (hx : x.Unqualified r) : (x.toCoasting r).autoSwitch.Unqualified r :=
    (hx.of_ref (x.toCoasting_ref r r)).autoSwitch
  have reset : (s.modTb fun b => b.setRef r { b.ref r with ok := false, run := 0, outRun := 0 }).Unqualified r := by
    simp [State.Unqualified]
  unfold State.refDisqualified
  dsimp only
  generalize (s.modTb fun b => b.setRef r { b.ref r with ok := false, run := 0, outRun := 0 }) = x at *
  split
  case h_1 | h_2 | h_3 =>
    split
    · exact coasts x reset
    · exact reset
  case h_4 =>
    split
    · exact (idle x _ (by cases r <;> rfl) reset).autoSwitch
    · exact reset
  case h_5 | h_6 =>
    split
    · exact (shows _ _ (idle x _ (by cases r <;> rfl) reset)).autoSwitch
    · exact reset
  case h_7 => exact reset

/-- The loss of the injected reference (R42). -/
theorem State.refDisqualified_coasting (s : State) (r : Ref) (h : s.tb.injects r = true) :
    (s.refDisqualified r).tb.st = .coasting ∧ (s.refDisqualified r).tb.slewRemain = 0 := by
  have hst : s.tb.st = .locked ∨ s.tb.st = .slewing := by simpa [Tb.injects] using (Bool.and_eq_true_iff.mp h).1
  have hr : s.tb.liveRef = r := by simpa [Tb.injects] using (Bool.and_eq_true_iff.mp h).2
  obtain hst | hst := hst <;> simp [State.refDisqualified, hst, hr, State.lost_coasting]

/-- A switch to the selected reference: the handover begins, and the shadow line searches (R48, R60). -/
theorem State.switchTo_searches (s : State) (r : Ref) :
    ({ s.tb with slewRemain := 0, ret := .none, handoverOf := some .refSwitch, selPending := false }.enter s.devTime
      .handover).Searches (s.switchTo r).tb r := by
  have h (x : State) (e : x.tb = { s.tb with slewRemain := 0, ret := .none, handoverOf := some .refSwitch, selPending := false })
      (d : x.devTime = s.devTime) : ({ s.tb with slewRemain := 0, ret := .none, handoverOf := some .refSwitch
                                                 selPending := false }.enter s.devTime .handover).Searches
      ((x.tbEnter .handover 15 1).beginSearch r).tb r := by
    have := (x.tbEnter .handover 15 1).beginSearch_searches r
    rwa [State.tbEnter_tb, e, d] at this
  exact h _ rfl rfl

@[simp] theorem State.reg_switchTo (s : State) (r : Ref) (a : Nat) (h : reportReg a = false) (ha : a ≠ Reg.TB_SLEW_REQ) :
    (s.switchTo r).reg a = s.reg a := by
  simp [State.switchTo, h, ha]

/-- A selection waits, or waits no longer (R60). -/
def State.selWaits (s : State) (b : Bool) : State := s.modTb fun x => { x with selPending := b }

/-- What comes of a selection: it waits, it needs nothing, the hub switches to it, or the shadow line searches for it (R60). -/
theorem State.actOnSelection_cases (s : State) :
    s.actOnSelection = s.selWaits true ∨ s.actOnSelection = s.selWaits false ∨
    s.actOnSelection = (s.selWaits false).selWaits true ∨ s.actOnSelection = (s.selWaits false).switchTo s.selRef ∨
    s.actOnSelection = (s.selWaits false).beginSearch s.selRef := by
  unfold State.actOnSelection
  dsimp only
  split
  · exact .inl rfl
  · split
    case h_1 | h_2 =>
      split
      · exact .inr (.inl rfl)
      · exact .inr (.inr (.inr (.inl rfl)))
    case h_3 =>
      split
      · exact .inr (.inl rfl)
      · exact .inr (.inr (.inl rfl))
    case h_4 | h_5 | h_6 =>
      split
      · exact .inr (.inl rfl)
      · exact .inr (.inr (.inr (.inr rfl)))
    case h_7 =>
      split
      · exact .inr (.inr (.inr (.inr rfl)))
      · exact .inr (.inl rfl)

theorem State.selWaits_ref (s : State) (b : Bool) (q : Ref) : (s.selWaits b).tb.ref q = s.tb.ref q := by
  cases q <;> rfl

/-- A selection that is acted on leaves the counts of both references, and which line is live (R60). -/
theorem State.actOnSelection_keeps (s : State) : s.actOnSelection.tb.line = s.tb.line ∧
    s.actOnSelection.tb.liveRef = s.tb.liveRef ∧ ∀ q, (s.actOnSelection.tb.ref q).ok = (s.tb.ref q).ok ∧
      (s.actOnSelection.tb.ref q).run = (s.tb.ref q).run := by
  have searches (b : Tb) (x : State) (h : b.Searches x.tb s.selRef) (hl : b.line = s.tb.line) (hr : b.liveRef = s.tb.liveRef)
      (hb : ∀ q, b.ref q = s.tb.ref q) : x.tb.line = s.tb.line ∧ x.tb.liveRef = s.tb.liveRef ∧
      ∀ q, (x.tb.ref q).ok = (s.tb.ref q).ok ∧ (x.tb.ref q).run = (s.tb.ref q).run :=
    ⟨h.line.trans hl, h.liveRef.trans hr, fun q => ⟨(h.ok q).trans (by rw [hb]), (h.run q).trans (by rw [hb])⟩⟩
  obtain h | h | h | h | h := s.actOnSelection_cases <;> rw [h]
  · exact ⟨rfl, rfl, fun q => by simp [State.selWaits_ref]⟩
  · exact ⟨rfl, rfl, fun q => by simp [State.selWaits_ref]⟩
  · exact ⟨rfl, rfl, fun q => by simp [State.selWaits_ref]⟩
  · refine searches _ _ ((s.selWaits false).switchTo_searches _) (by simp; rfl) (by simp; rfl) fun q => ?_
    rw [Tb.enter_ref, ← s.selWaits_ref false q]
    cases q <;> rfl
  · exact searches _ _ ((s.selWaits false).beginSearch_searches _) rfl rfl (s.selWaits_ref false)

theorem State.reg_actOnSelection (s : State) (a : Nat) (h : reportReg a = false) (ha : a ≠ Reg.TB_SLEW_REQ) :
    s.actOnSelection.reg a = s.reg a := by
  obtain e | e | e | e | e := s.actOnSelection_cases <;> simp [e, State.selWaits, h, ha]

end Sys2Proof.Machine


namespace Sys2Proof.Machine

/-! ### An edge of a reference -/

/-- A reference that becomes qualified may be acquired; its counts stay (R38, R59, R60). -/
theorem State.refQualified_ref (s : State) (r q : Ref) :
    ((s.refQualified r).tb.ref q).ok = (s.tb.ref q).ok ∧ ((s.refQualified r).tb.ref q).run = (s.tb.ref q).run := by
  have searches (x : State) (h : s.tb.Searches x.tb r) : (x.tb.ref q).ok = (s.tb.ref q).ok ∧ (x.tb.ref q).run = (s.tb.ref q).run :=
    ⟨h.ok q, h.run q⟩
  unfold State.refQualified
  split
  · exact s.actOnSelection_keeps.2.2 q
  · split
    · split
      · split
        · exact searches _ (s.beginSearch_searches r)
        · exact ⟨rfl, rfl⟩
      · exact searches _ (s.acquire_searches r)
      · exact searches _ (s.acquire_searches r)
      · exact ⟨rfl, rfl⟩
    · exact ⟨rfl, rfl⟩

/-- An unqualified reference counts its good periods, and is qualified by the 64th in a row (R41). -/
theorem State.countPeriod_ref (s : State) (r : Ref) (good : Bool) (hok : (s.tb.ref r).ok = false) :
    ((s.countPeriod r good).tb.ref r).run = (if good then min 64 ((s.tb.ref r).run + 1) else 0) ∧
    ((s.countPeriod r good).tb.ref r).ok = (good && decide (63 ≤ (s.tb.ref r).run)) := by
  cases good with
  | false => simp [State.countPeriod, hok]
  | true =>
    simp only [State.countPeriod, if_true, Bool.true_and]
    split
    · next h64 =>
      obtain ⟨hq, hn⟩ := State.refQualified_ref
        (s.modTb fun b => b.setRef r { s.tb.ref r with run := 64, ok := true, since := s.now, outRun := 0 }) r r
      have hrun : 63 ≤ (s.tb.ref r).run := by omega
      simp [hq, hn, hrun]
    · next h64 =>
      have hrun : ¬63 ≤ (s.tb.ref r).run := by omega
      simp [hok, hrun]

/-- An edge steps the modulator of a line alone (R34). -/
theorem State.ditherEdge_tb (s : State) (r : Ref) (live : Bool) :
    ∃ m m', (s.ditherEdge r live).tb = { s.tb with mod0 := m, mod1 := m' } := by
  unfold State.ditherEdge
  dsimp only
  split
  · rw [State.modTb_tb]
    split
    · exact ⟨s.tb.mod0, _, rfl⟩
    · exact ⟨_, s.tb.mod1, rfl⟩
  · exact ⟨s.tb.mod0, s.tb.mod1, rfl⟩

@[simp] theorem State.reg_ditherEdge (s : State) (r : Ref) (live : Bool) (a : Nat) : (s.ditherEdge r live).reg a = s.reg a := by
  unfold State.ditherEdge
  dsimp only
  split <;> simp

/-- What the taking of a held apply at an edge leaves of the time base (R48). -/
theorem State.applyEdge_keeps (s : State) (r : Ref) :
    (s.applyEdge r).tb.lastErr = s.tb.lastErr ∧ (s.applyEdge r).tb.p0 = s.tb.p0 ∧
    ((s.applyEdge r).tb.ref r).ok = (s.tb.ref r).ok ∧ ((s.applyEdge r).tb.ref r).outRun = (s.tb.ref r).outRun := by
  unfold State.applyEdge
  dsimp only
  split
  · obtain ⟨ap, n, d, f, n', d', f', h⟩ := s.takeDividers_tb true
    simp only [if_true] at h
    have taken : s.takeDividers.2.tb.lastErr = s.tb.lastErr ∧ s.takeDividers.2.tb.p0 = s.tb.p0 ∧
        (s.takeDividers.2.tb.ref r).ok = (s.tb.ref r).ok ∧ (s.takeDividers.2.tb.ref r).outRun = (s.tb.ref r).outRun := by
      rw [h]; cases r <;> exact ⟨rfl, rfl, rfl, rfl⟩
    generalize s.takeDividers.2 = x at *
    split
    · have begun := ((x.modTb fun b => { b with handoverOf := some .apply, ret := .none }).tbEnter .handover 15 0).beginSearch_searches r
      have ref : ((x.modTb fun b => { b with handoverOf := some .apply, ret := .none }).tbEnter .handover 15 0).tb.ref r = x.tb.ref r := by
        rw [State.tbEnter_tb, Tb.enter_ref]; cases r <;> rfl
      rw [begun.lastErr, begun.p0, begun.ok, begun.outRun, ref]
      simpa using taken
    · exact taken
  · exact ⟨rfl, rfl, rfl, rfl⟩

theorem State.applyEdge_of_not_injects (s : State) (r : Ref) (h : s.tb.injects r = false) : s.applyEdge r = s := by
  simp [State.applyEdge, h]

/-- An edge outside the lock window is counted (R41). -/
theorem State.injectEdge_outside (s : State) (r : Ref) (err : Int) (h : s.fld Reg.TB_LOCK 16 8 < err.natAbs) :
    (s.injectEdge r err).tb = s.tb.setRef r { s.tb.ref r with outRun := (s.tb.ref r).outRun + 1 } := by
  simp [State.injectEdge, h]

/-- An edge inside the lock window is injected; in LOCKED its device time is held as P0 (R54). -/
theorem State.injectEdge_inside (s : State) (r : Ref) (err : Int) (h : err.natAbs ≤ s.fld Reg.TB_LOCK 16 8) :
    ((s.injectEdge r err).tb.ref r).ok = (s.tb.ref r).ok ∧ ((s.injectEdge r err).tb.ref r).outRun = 0 ∧
    (s.injectEdge r err).tb.lastErr = err ∧
    (s.tb.st = .locked → s.tb.ret = .none → (s.injectEdge r err).tb.p0 =
      some (s.devTime * (s.tb.ref r).den % (512 * (s.tb.ref r).num), (s.tb.ref r).den)) := by
  obtain ⟨m, m', hm⟩ := s.ditherEdge_tb r true
  simp only [State.injectEdge, if_neg (Nat.not_lt.mpr h), State.modTb_tb, hm]
  refine ⟨?_, ?_, ?_, fun hst hret => ?_⟩
  · split <;> cases r <;> rfl
  · split <;> cases r <;> rfl
  · split <;> rfl
  · simp [hst, hret]

/-- An edge of the reference being acquired counts towards the lock (R37). -/
theorem State.shadowEdge_acquiring (s : State) (r : Ref) (err : Int) (hr : s.tb.acqRef = r) (hs : s.tb.shadow = .acquiring) :
    let n := if err.natAbs ≤ s.fld Reg.TB_LOCK 16 8 then s.tb.lockCount + 1 else 0
    (s.fld Reg.TB_LOCK 0 16 ≤ n → (s.shadowEdge r err).tb.shadow = .locked ∧ (s.shadowEdge r err).tb.acqFail = 0) ∧
    (n < s.fld Reg.TB_LOCK 0 16 → (s.shadowEdge r err).tb.shadow = .acquiring ∧ (s.shadowEdge r err).tb.lockCount = n) ∧
    (s.shadowEdge r err).tb.injects r = s.tb.injects r := by
  intro n
  have hn : (if decide (err.natAbs ≤ s.fld Reg.TB_LOCK 16 8) = true then s.tb.lockCount + 1 else 0) = n := by simp [n]
  simp only [State.shadowEdge, hr, hs, hn, bne_self_eq_false, Bool.false_eq_true, if_false]
  by_cases h : s.fld Reg.TB_LOCK 0 16 ≤ n
  · rw [if_pos h]
    exact ⟨fun _ => ⟨rfl, rfl⟩, fun hlt => absurd h (Nat.not_le.mpr hlt), rfl⟩
  · rw [if_neg h]
    exact ⟨fun hle => absurd hle h, fun _ => ⟨hs, rfl⟩, rfl⟩

end Sys2Proof.Machine


namespace Sys2Proof.Machine

@[simp] theorem State.edgeFails_start (s : State) (x : Timer) (r : Ref) (err : Int) (off : Option Int) :
    (s.start x).edgeFails r err off = s.edgeFails r err off := rfl

@[simp] theorem State.edgeFails_advance (s : State) (t : Nat) (r : Ref) (err : Int) (off : Option Int) :
    (s.advance t).edgeFails r err off = s.edgeFails r err off := rfl

theorem State.refEdge_unqualified (s : State) (r : Ref) (err : Int) (good : Bool) (off : Option Int)
    (hok : (s.tb.ref r).ok = false) : s.refEdge r err good off = (s.start (.refEdge r)).countPeriod r good := by
  simp [State.refEdge, hok]

theorem State.refEdge_fails (s : State) (r : Ref) (err : Int) (good : Bool) (off : Option Int)
    (hok : (s.tb.ref r).ok = true) (hf : s.edgeFails r err off = true) :
    s.refEdge r err good off = (s.start (.refEdge r)).refDisqualified r := by
  simp [State.refEdge, hok, hf]

theorem State.refEdge_injects (s : State) (r : Ref) (err : Int) (good : Bool) (off : Option Int)
    (hok : (s.tb.ref r).ok = true) (hf : s.edgeFails r err off = false) (hi : s.tb.injects r = true) :
    s.refEdge r err good off = ((s.start (.refEdge r)).injectEdge r err).applyEdge r := by
  simp [State.refEdge, hok, hf, hi]

theorem State.refEdge_acquires (s : State) (r : Ref) (err : Int) (good : Bool) (off : Option Int)
    (hok : (s.tb.ref r).ok = true) (hf : s.edgeFails r err off = false) (hi : s.tb.injects r = false)
    (hr : s.tb.acqRef = r) (hs : s.tb.shadow = .acquiring) :
    s.refEdge r err good off = (((s.start (.refEdge r)).ditherEdge r false).shadowEdge r err).applyEdge r := by
  simp [State.refEdge, hok, hf, hi, Tb.shadowInjects, hr, hs]

theorem exec_refEdge (s : State) (t : Nat) (r : Ref) (err : Int) (good : Bool) (off : Option Int) :
    exec (.refEdge t r err good off) s = atMoment t s fun x => x.refEdge r err good off := rfl

/-- No edge has come within the time of a lost reference: the reference is disqualified, or counts anew (R41). -/
def State.edgeTimeout (s : State) (r : Ref) : State :=
  if (s.tb.ref r).ok then s.refDisqualified r else s.modTb fun b => b.setRef r { b.ref r with run := 0 }

theorem exec_refEdgeTimeout (s : State) (t : Nat) (r : Ref) : exec (.refEdgeTimeout t r) s =
    atMoment t s fun x => if !x.past (.refEdge r) (x.tb.ref r).lost then x else x.edgeTimeout r := rfl

theorem State.edgeTimeout_unqualified (s : State) (r : Ref) : (s.edgeTimeout r).Unqualified r := by
  unfold State.edgeTimeout
  split
  · exact s.refDisqualified_unqualified r
  · next h => simpa [State.Unqualified] using h

/-- The hub may return to REFA (R59). -/
def State.returnsToA (s : State) : Bool :=
  s.bit Reg.TB_CTRL 2 && s.selRef == .refA && s.tb.liveRef == .refB && s.tb.refA.ok &&
    decide (s.tb.refA.since + s.fld Reg.TB_ACQ 16 8 * secQ ≤ s.now)

theorem exec_autoReturn (s : State) (t : Nat) : exec (.autoReturn t) s = atMoment t s fun x =>
    if x.returnsToA then
      match x.tb.st with
      | .locked | .slewing => (x.timeRecord 8 0).switchTo .refA
      | .coasting => (x.timeRecord 8 0).beginSearch .refA
      | _ => x
    else x := rfl

end Sys2Proof.Machine

section
open Sys2Proof.Machine

/-- Settles O1: the edges by what an edge does in each case (`State.refEdge_…`), the absence of a reference by what its
disqualification leaves, the return by the switch's band search. -/
theorem referenceRowsComplete : Obligations.ReferenceRowsComplete := by
  refine ⟨fun s t r err good off hok => ?_, fun s t r err good off hok hf => ?_, fun s t r err good off hok hf hi => ?_,
    fun s t r err good off hok hf hi hr hs => ?_, fun s t r => ⟨fun hp => ?_, fun hp => ?_⟩,
    fun s t hb hsel hl hok hsince => ⟨fun hst => ?_, fun hst => ?_⟩⟩
  · refine Does.of_effect (exec_refEdge ..) ?_
    rw [State.refEdge_unqualified (s.advance t) r err good off hok]
    exact State.countPeriod_ref ((s.advance t).start (.refEdge r)) r good hok
  · refine Does.of_effect (exec_refEdge ..) ?_
    rw [State.refEdge_fails (s.advance t) r err good off hok hf]
    exact ⟨(State.refDisqualified_unqualified _ r).1, State.refDisqualified_coasting ((s.advance t).start (.refEdge r)) r⟩
  · refine Does.of_effect (exec_refEdge ..) ?_
    rw [State.refEdge_injects (s.advance t) r err good off hok hf hi, State.settle_tb]
    obtain ⟨herr, hp0, hok', hout⟩ := State.applyEdge_keeps (((s.advance t).start (.refEdge r)).injectEdge r err) r
    rw [herr, hp0, hok', hout]
    split
    · next hin =>
      obtain ⟨h1, h2, h3, h4⟩ := State.injectEdge_inside ((s.advance t).start (.refEdge r)) r err hin
      exact ⟨h1.trans hok, h2, h3, h4⟩
    · next hout =>
      rw [State.injectEdge_outside ((s.advance t).start (.refEdge r)) r err (Nat.not_le.mp hout)]
      simp [hok]
  · obtain ⟨m, m', hd⟩ := State.ditherEdge_tb ((s.advance t).start (.refEdge r)) r false
    refine Does.of_effect (exec_refEdge ..) ?_
    rw [State.refEdge_acquires (s.advance t) r err good off hok hf hi hr hs, State.settle_tb]
    have hreg (a lo w : Nat) : (((s.advance t).start (.refEdge r)).ditherEdge r false).fld a lo w = s.fld a lo w := by
      simp [State.fld]
    generalize ((s.advance t).start (.refEdge r)).ditherEdge r false = x at hd hreg
    obtain ⟨hlock, hcount, hinj⟩ := x.shadowEdge_acquiring r err (by simpa [hd] using hr) (by simpa [hd] using hs)
    rw [State.applyEdge_of_not_injects _ r (hinj.trans (by rw [hd]; exact hi))]
    rw [hreg, hreg, hd] at hlock hcount
    exact ⟨hlock, hcount⟩
  · refine Does.of_effect (exec_refEdgeTimeout ..) ?_
    rw [if_neg (by simpa using hp)]
    exact State.edgeTimeout_unqualified _ r
  · exact Idles.of_effect (t := t) rfl (exec_refEdgeTimeout ..) (if_pos (by simpa using hp))
  all_goals
    have hret : (s.advance t).returnsToA = true := by
      simp only [State.returnsToA, Bool.and_eq_true, decide_eq_true_eq, beq_iff_eq]
      exact ⟨⟨⟨⟨hb, hsel⟩, hl⟩, hok⟩, hsince.trans (by simp; omega)⟩
  · refine Does.of_effect (exec_autoReturn ..) ?_
    have hsw := ((s.advance t).timeRecord 8 0).switchTo_searches .refA
    rw [if_pos hret]
    obtain hst | hst := hst <;> simp [hst, hsw.st, hsw.handoverOf, hsw.acqRef, hsw.shadow]
  · refine Does.of_effect (exec_autoReturn ..) ?_
    have hsw := ((s.advance t).timeRecord 8 0).beginSearch_searches .refA
    rw [if_pos hret]
    simp [hst, hsw.st, hsw.acqRef, hsw.shadow]

end


namespace Sys2Proof.Machine

/-! ### What the cadences and capture leave of the time base -/

theorem tb_ite (c : Prop) [Decidable c] (a b : State) : (if c then a else b).tb = if c then a.tb else b.tb := apply_ite State.tb c a b

/-- The time base after a fold whose step leaves it as it is. -/
theorem foldl_tb {α : Type} (f : State → α → State) (h : ∀ s a, (f s a).tb = s.tb) (l : List α) (s : State) :
    (l.foldl f s).tb = s.tb :=
  foldl_keeps (fun x => x.tb = s.tb) f (fun x a hx => (h x a).trans hx) l s rfl

@[simp] theorem State.issueInstant_tb (s : State) (c time : Nat) : (s.issueInstant c time).tb = s.tb := by
  unfold State.issueInstant
  dsimp only
  split <;> simp

/-- Of the registers an instant counts in CAD_COUNT alone (R135). -/
theorem State.reg_issueInstant (s : State) (c time a : Nat) (h : a < 0x13000) : (s.issueInstant c time).reg a = s.reg a := by
  have hne : a ≠ Reg.CAD_COUNT c := by unfold Reg.CAD_COUNT; omega
  have counted (x : State) (e : x.regs = ((s.setCadence c { s.cadence c with next := time + s.cadP c }).setReg (Reg.CAD_COUNT c)
      (s.reg (Reg.CAD_COUNT c) + 1)).regs) : x.reg a = s.reg a := by
    rw [State.reg_of_regs _ x a e, State.reg_setReg, if_neg hne, State.reg_setCadence]
  unfold State.issueInstant
  dsimp only
  split <;> exact counted _ rfl

theorem State.issueMany_keeps (k : Nat) (s : State) (lim : Nat) : (State.issueMany k s lim).tb = s.tb ∧
    ∀ a, a < 0x13000 → (State.issueMany k s lim).reg a = s.reg a := by
  induction k generalizing s with
  | zero => exact ⟨rfl, fun _ _ => rfl⟩
  | succ k ih =>
    unfold State.issueMany
    split
    · next c t _ =>
      obtain ⟨htb, hreg⟩ := ih (s.issueInstant c t)
      exact ⟨htb.trans (s.issueInstant_tb c t), fun a ha => (hreg a ha).trans (s.reg_issueInstant c t a ha)⟩
    · exact ⟨rfl, fun _ _ => rfl⟩

/-- A forward step is noted, and moves no other part of the time base (R57). -/
theorem State.stepForward_tb (s : State) (k : Nat) : (s.stepForward k).tb =
    { s.tb with forward := (s.devTime, min spanMax (s.devTime + k)) :: s.tb.forward } :=
  (State.issueMany_keeps _ _ _).1

theorem State.reg_stepForward (s : State) (k a : Nat) (h : a < 0x13000) : (s.stepForward k).reg a = s.reg a :=
  (State.issueMany_keeps _ _ _).2 a h

@[simp] theorem State.resumeCadences_tb (s : State) : s.resumeCadences.tb = s.tb :=
  foldl_tb _ (fun x c => by split <;> rfl) _ _

@[simp] theorem State.putGroup_tb (s : State) (n : Nat) (x : Input) (item : Option Item) (fs : List Fragment) :
    (s.putGroup n x item fs).tb = s.tb := by
  simp [State.putGroup, State.putInput, tb_ite]

@[simp] theorem State.wakeCause_tb (s : State) (i : Nat) : (s.wakeCause i).tb = s.tb := rfl

@[simp] theorem State.writeGroup_tb (s : State) (n : Nat) (g : List Mark) (item : Option Item) : (s.writeGroup n g item).2.tb = s.tb := by
  simp [State.writeGroup, tb_ite, apply_ite Prod.snd]

@[simp] theorem State.anchorGroup_tb (s : State) (n time : Nat) (g : List Mark) (item : Option Item) :
    (s.anchorGroup n time g item).tb = s.tb := by
  simp [State.anchorGroup, tb_ite]

@[simp] theorem State.captureEst_tb (s : State) (n : Nat) (z : Zone) : (s.captureEst n z).tb = s.tb := by
  simp [State.captureEst]

@[simp] theorem State.alarmTest_tb (s : State) (n : Nat) (z : Zone) (time : Nat) : (s.alarmTest n z time).tb = s.tb := by
  simp [State.alarmTest, tb_ite]

@[simp] theorem State.captureStart_tb (s : State) : s.captureStart.tb = s.tb := by
  have filled (l : List Nat) (f : Input → Input) (x : State) : (l.foldl (fun s n => s.modInput n f) x).tb = x.tb :=
    foldl_tb (fun s n => s.modInput n f) (fun _ _ => rfl) l x
  unfold State.captureStart
  refine (foldl_tb _ (fun x n => ?_) _ _).trans (filled _ _ _)
  simp [tb_ite]

@[simp] theorem State.modPst_tb (s : State) (f : Pst → Pst) : (s.modPst f).tb = s.tb := rfl

@[simp] theorem State.lineLive_tb (s : State) (d0 : Nat) : (s.lineLive d0).tb = s.tb := by
  have live (x : State) : x.captureStart.resumeCadences.tb = x.tb := by simp
  have restored (v : Int) (f : Pst → Pst) : ((s.timeRecord 11 v).modPst f).tb = s.tb := by simp
  unfold State.lineLive
  dsimp only
  rw [live]
  split
  · exact restored _ _
  · rfl

end Sys2Proof.Machine


namespace Sys2Proof.Machine

/-! ### Raised faults stand -/

/-- No class bit, and not the severe bit, has gone out between two states (R445). -/
def State.FaultsStand (s u : State) : Prop :=
  (s.flt.severe = true → u.flt.severe = true) ∧ ∀ i, s.flt.active.getLsbD i = true → u.flt.active.getLsbD i = true

theorem State.FaultsStand.refl (s : State) : s.FaultsStand s := ⟨id, fun _ => id⟩

theorem State.FaultsStand.trans {s u v : State} (h : s.FaultsStand u) (k : u.FaultsStand v) : s.FaultsStand v :=
  ⟨k.1 ∘ h.1, fun i => k.2 i ∘ h.2 i⟩

theorem State.FaultsStand.of_flt {s u : State} (h : u.flt = s.flt) : s.FaultsStand u := by
  rw [State.FaultsStand, h]
  exact ⟨id, fun _ => id⟩

theorem State.FaultsStand.ite {s u v : State} {c : Prop} [Decidable c] (h : s.FaultsStand u) (k : s.FaultsStand v) :
    s.FaultsStand (if c then u else v) := by split <;> assumption

theorem State.raise_stand (s : State) (f : FaultCode) (p : Nat) : s.FaultsStand (s.raise f p) :=
  ⟨fun h => by simp [h], fun i h => by simp [h]⟩

theorem State.event_stand (s : State) (v : Nat) : s.FaultsStand (s.event v) := by
  obtain ⟨a, h, e⟩ := event_flt s v
  rw [State.FaultsStand, e]
  exact ⟨id, fun _ => id⟩

theorem State.bbEntry_stand (s : State) (k b c p : Nat) : s.FaultsStand (s.bbEntry k b c p) := by
  obtain ⟨x, y, e⟩ := bbEntry_flt s k b c p
  rw [State.FaultsStand, e]
  exact ⟨id, fun _ => id⟩

theorem State.modRing_stand (s : State) (n : Nat) (f : Ring → Ring) : s.FaultsStand (s.modRing n f) := .of_flt rfl

theorem State.modTb_stand (s : State) (f : Tb → Tb) : s.FaultsStand (s.modTb f) := .of_flt rfl

theorem State.holdCheck_stand (s : State) : s.FaultsStand s.holdCheck := by
  unfold State.FaultsStand State.holdCheck
  dsimp only
  (repeat' split) <;> simp +contextual

theorem State.grant_stand (s u : State) (n size : Nat) (data : Bool) (bs : List Nat)
    (h : State.place.grant s n size data = some (bs, u)) : s.FaultsStand u := by
  have checked (rs : Table Ring) (r : Ring) (x : State) (hx : (({ s with rings := rs } : State).setRing n r).holdCheck = x) :
      s.FaultsStand x := by
    subst hx
    simpa [State.FaultsStand] using State.holdCheck_stand (({ s with rings := rs } : State).setRing n r)
  unfold State.place.grant at h
  obtain ⟨rs, e⟩ := State.makeRoom_keeps 8192 s (max 1 (ceilDiv size 4096))
  simp only [e] at h
  rw [Option.ite_none_left_eq_some] at h
  obtain ⟨_, h⟩ := h
  injection h with h
  injection h with _ h
  exact checked _ _ _ h

theorem State.place_stand (s u : State) (n size : Nat) (data : Bool) (bs : List Nat)
    (h : s.place n size data = some (bs, u)) : s.FaultsStand u := by
  have placed (r : Ring) (x : State) (hx : s.setRing n r = x) : s.FaultsStand x := by
    subst hx
    exact .of_flt rfl
  unfold State.place at h
  dsimp only at h
  split at h
  · split at h
    · injection h with h
      injection h with _ h
      exact placed _ _ h
    · exact State.grant_stand s u n size data bs h
  · exact State.grant_stand s u n size data bs h

theorem State.tryPush_stand (s u : State) (n : Nat) (p : Push) (h : s.tryPush n p = some u) : s.FaultsStand u := by
  have queued (x v : State) (f : Ring → Ring) (hv : x.modRing n f = v) : x.FaultsStand v := hv ▸ x.modRing_stand n f
  unfold State.tryPush at h
  dsimp only at h
  split at h
  · split at h
    · cases h
    · split at h
      · cases h
      · next e =>
        injection h with h
        exact (State.place_stand _ _ _ _ _ _ e).trans (queued _ _ _ h)
  · split at h
    · cases h
    · injection h with h
      exact queued _ _ _ h

theorem State.push_stand (s : State) (n c : Nat) (e : Option Nat) (r : Record) : s.FaultsStand (s.push n c e r) := by
  have again (f g : Ring → Ring) : s.FaultsStand ((s.modRing n f).modRing n g) :=
    (s.modRing_stand n f).trans (State.modRing_stand _ n g)
  unfold State.push
  dsimp only
  split
  · exact again _ _
  · split
    · next h => exact (s.modRing_stand n _).trans (State.tryPush_stand _ _ _ _ h)
    · exact again _ _

theorem State.timeRecord_stand (s : State) (r : Nat) (v : Int) : s.FaultsStand (s.timeRecord r v) := by
  unfold State.timeRecord
  dsimp only
  split
  · exact (State.push_stand _ _ _ _ _).trans (State.bbEntry_stand _ _ _ _ _)
  · exact State.push_stand _ _ _ _ _

theorem State.tbEnter_stand (s : State) (st : TbState) (reason : Nat) (value : Int) :
    s.FaultsStand (s.tbEnter st reason value) := by
  have announced (x : State) : x.FaultsStand (if (x.timeRecord reason value).bit Reg.TB_CTRL 4
      then (x.timeRecord reason value).event 65 else x.timeRecord reason value) :=
    (x.timeRecord_stand reason value).trans (.ite (State.event_stand _ 65) (.refl _))
  have set (b : Tb) : s.FaultsStand (s.setTb b) := .of_flt rfl
  exact (set _).trans (announced (s.setTb (s.tb.enter s.devTime st)))

theorem State.takeDividers_stand (s : State) : s.FaultsStand s.takeDividers.2 := by
  have twice (f g : Tb → Tb) : s.FaultsStand ((s.modTb f).modTb g) := (s.modTb_stand f).trans (State.modTb_stand _ g)
  unfold State.takeDividers
  dsimp only
  split
  · exact twice _ _
  · exact (s.modTb_stand _).trans (State.raise_stand _ _ _)

theorem State.searchFor_stand (s : State) (r : Ref) : s.FaultsStand (s.searchFor r) := by
  have dithered (x : State) : x.FaultsStand x.loadDither := by
    unfold State.loadDither
    dsimp only
    split
    · exact x.modTb_stand _
    · exact .refl x
  have started (x : State) : x.FaultsStand (x.start .search) := .of_flt rfl
  exact ((s.modTb_stand _).trans (dithered _)).trans (started _)

theorem State.beginSearch_stand (s : State) (r : Ref) : s.FaultsStand (s.beginSearch r) := by
  have shows (x : State) : x.FaultsStand x.showSearch := .ite (x.tbEnter_stand _ _ _) (.refl x)
  rw [State.beginSearch_eq]
  exact ((State.FaultsStand.ite s.takeDividers_stand (.refl s)).trans (State.searchFor_stand _ r)).trans (shows _)

end Sys2Proof.Machine


namespace Sys2Proof.Machine

/-! ### Acquisition and the first lock -/

theorem State.bit_tbEnter (s : State) (st : TbState) (reason : Nat) (value : Int) (a i : Nat) (h : reportReg a = false) :
    (s.tbEnter st reason value).bit a i = s.bit a i := by
  simp [State.bit, h]

/-- The band search has found its codes (R36, R39). -/
def State.bandFound (s : State) (coarse : Fin 32) (fine : Fin 64) : State :=
  let s1 := s.modTb fun b =>
    let b1 := { b with shadow := .acquiring, lockCount := 0 }
    if b.line then { b1 with band0 := (coarse.val, fine.val) } else { b1 with band1 := (coarse.val, fine.val) }
  if s1.tb.st == .searching then s1.tbEnter .acquiring 13 0 else s1

theorem State.bandFound_tb (s : State) (coarse : Fin 32) (fine : Fin 64) :
    (s.bandFound coarse fine).tb.shadow = .acquiring ∧ (s.bandFound coarse fine).tb.lockCount = 0 ∧
    (if s.tb.line then (s.bandFound coarse fine).tb.band0 else (s.bandFound coarse fine).tb.band1) = (coarse.val, fine.val) ∧
    (s.bandFound coarse fine).tb.st = if s.tb.st = .searching then .acquiring else s.tb.st := by
  have shows (x : State) (hx : x.tb.st = s.tb.st) (k : x.tb.shadow = .acquiring ∧ x.tb.lockCount = 0 ∧
      (if s.tb.line then x.tb.band0 else x.tb.band1) = (coarse.val, fine.val)) :
      let u := if x.tb.st == .searching then x.tbEnter .acquiring 13 0 else x
      u.tb.shadow = .acquiring ∧ u.tb.lockCount = 0 ∧
      (if s.tb.line then u.tb.band0 else u.tb.band1) = (coarse.val, fine.val) ∧
      u.tb.st = if s.tb.st = .searching then .acquiring else s.tb.st := by
    obtain ⟨hs, hl, hb⟩ := k
    rw [hx]
    by_cases h : s.tb.st = .searching <;> simp [h, hs, hl, hb, hx]
  refine shows _ ?_ ?_
  · rw [State.modTb_tb]
    split <;> rfl
  · rw [State.modTb_tb]
    cases s.tb.line <;> simp

theorem exec_bandSearchDone (s : State) (t : Nat) (coarse : Fin 32) (fine : Fin 64) : exec (.bandSearchDone t coarse fine) s =
    atMoment t s fun x => if x.tb.shadow == .searching then x.bandFound coarse fine else x := rfl

/-- An acquisition has taken too long, and is counted (R38). -/
def State.acqFailed (s : State) : State :=
  let s1 := s.modTb fun b => { b with acqFail := min 15 (b.acqFail + 1) }
  if s.tb.acqFail = 3 then s1.raise .tbNolock 0 else s1

/-- Behind the failure a new band search begins (R38). -/
def State.searchAgain (s : State) : State := s.acqFailed.beginSearch s.acqFailed.tb.acqRef

theorem exec_acquisitionLimit (s : State) (t : Nat) : exec (.acquisitionLimit t) s =
    atMoment t s fun x => if x.acqOver then x.searchAgain else x := rfl

theorem State.acqFailed_tb (s : State) : s.acqFailed.tb = { s.tb with acqFail := min 15 (s.tb.acqFail + 1) } := by
  unfold State.acqFailed
  dsimp only
  split <;> simp

theorem State.searchAgain_searches (s : State) : s.acqFailed.tb.Searches s.searchAgain.tb s.acqFailed.tb.acqRef :=
  s.acqFailed.beginSearch_searches _

/-- The fourth failure in a row raises TB_NOLOCK (R38). -/
theorem State.searchAgain_nolock (s : State) (h : s.tb.acqFail = 3) :
    s.searchAgain.flt.active.getLsbD FaultCode.tbNolock.cls = true ∧ s.searchAgain.flt.severe = true := by
  have raised : s.acqFailed.flt.active.getLsbD FaultCode.tbNolock.cls = true ∧ s.acqFailed.flt.severe = true := by
    unfold State.acqFailed
    dsimp only
    rw [if_pos h]
    exact ⟨State.raise_class _ _ _, State.raise_marked _ _ _ rfl⟩
  obtain ⟨hsev, hact⟩ := s.acqFailed.beginSearch_stand s.acqFailed.tb.acqRef
  exact ⟨hact _ raised.1, hsev raised.2⟩

/-- The acquired line becomes live with device time loaded (R63, R64). -/
def State.firstLive (s : State) (d0 : Nat) : State :=
  let s1 := (s.loadD0 (s.startTime d0)).modTb fun b => { b.swap with p0 := none }
  let s2 := s1.tbEnter .locked 1 0
  let s3 := if s2.bit Reg.TB_TOD_CTRL 0 then s2 else s2.setAligned
  s3.lineLive d0

theorem exec_acquisitionSwap (s : State) (t : Nat) : exec (.acquisitionSwap t) s = atMoment t s fun x =>
    match x.tb.d0 with
    | some d0 => if x.tb.st == .acquiring && x.tb.shadow == .locked then x.firstLive d0 else x
    | none => x := rfl

theorem State.firstLive_devTime (s : State) (d0 : Nat) :
    (s.firstLive d0).devTime = max s.devTime (min spanMax (s.startTime d0)) := by
  simp [State.firstLive]

theorem State.firstLive_tb (s : State) (d0 : Nat) : let u := s.firstLive d0
    u.tb.st = .locked ∧ u.tb.shadow = .idle ∧ u.tb.line = !s.tb.line ∧ u.tb.liveRef = s.tb.acqRef ∧
    (s.bit Reg.TB_TOD_CTRL 0 = false → u.tb.aligned = true ∧ u.tb.u0 = 0) := by
  have aligns (x : State) (b : Bool) (hb : x.bit Reg.TB_TOD_CTRL 0 = b)
      (h : x.tb.st = .locked ∧ x.tb.shadow = .idle ∧ x.tb.line = !s.tb.line ∧ x.tb.liveRef = s.tb.acqRef) :
      let u := if x.bit Reg.TB_TOD_CTRL 0 then x else x.setAligned
      u.tb.st = .locked ∧ u.tb.shadow = .idle ∧ u.tb.line = !s.tb.line ∧ u.tb.liveRef = s.tb.acqRef ∧
      (b = false → u.tb.aligned = true ∧ u.tb.u0 = 0) := by
    obtain ⟨h1, h2, h3, h4⟩ := h
    rw [hb]
    cases b <;> simp [State.setAligned, State.setU0, h1, h2, h3, h4]
  intro u
  have hu : u.tb = _ := State.lineLive_tb _ d0
  rw [hu]
  refine aligns _ _ ?_ ?_
  · rw [State.bit_tbEnter _ _ _ _ _ _ (by decide)]
    rfl
  · simp [Tb.swap, State.loadD0]

/-- The line starts without a reference (R53). -/
def State.coldStart (s : State) (d0 : Nat) : State :=
  let s1 := (s.loadD0 (s.startTime d0)).modTb fun b =>
    let (c, f, w) := b.saved.getD (0, 0, b.word)
    let b1 := { b with cold := true, p0 := none, word := w }
    if b.line then { b1 with band1 := (c, f) } else { b1 with band0 := (c, f) }
  (s1.tbEnter .coasting 2 s1.tb.lastErr).lineLive d0

/-- A cold coast may begin (R53). -/
def State.startsCold (s : State) : Bool :=
  s.bit Reg.TB_CTRL 3 && s.tb.st == .stopped && s.tb.granted && s.tb.drift != [] && !s.tb.refA.ok &&
    !s.tb.refB.ok && decide (s.tb.started + s.fld Reg.TB_ACQ 8 8 * msQ ≤ s.now)

theorem exec_coldCoast (s : State) (t : Nat) : exec (.coldCoast t) s = atMoment t s fun x =>
    match x.tb.d0 with
    | some d0 => if x.startsCold then x.coldStart d0 else x
    | none => x := rfl

theorem State.coldStart_devTime (s : State) (d0 : Nat) :
    (s.coldStart d0).devTime = max s.devTime (min spanMax (s.startTime d0)) := by
  simp [State.coldStart]

theorem State.coldStart_tb (s : State) (d0 : Nat) (h : s.tb.st = .stopped) :
    (s.coldStart d0).tb.st = .coasting ∧ (s.coldStart d0).tb.cold = true ∧ (s.coldStart d0).tb.hold = s.tb.u0 * 100000000 := by
  have enters (x : State) (hst : x.tb.st = .stopped) (hc : x.tb.cold = true) (hu : x.tb.u0 = s.tb.u0) :
      (x.tbEnter .coasting 2 x.tb.lastErr).tb.st = .coasting ∧ (x.tbEnter .coasting 2 x.tb.lastErr).tb.cold = true ∧
      (x.tbEnter .coasting 2 x.tb.lastErr).tb.hold = s.tb.u0 * 100000000 := by
    refine ⟨by simp, by simp [hc], ?_⟩
    rw [State.tbEnter_tb, Tb.enter_hold _ _ _ rfl (by rw [hst]; rfl), hu]
  unfold State.coldStart
  dsimp only
  rw [State.lineLive_tb]
  apply enters <;> rw [State.modTb_tb] <;> split <;> simp [State.loadD0, h]

/-- While no line is live time passes and device time stays (R31). -/
theorem State.advance_devTime_of_not_live (s : State) (t : Nat) (h : s.tb.st.live = false) : (s.advance t).devTime = s.devTime := by
  simp [State.advance, h]

@[simp] theorem State.startTime_advance (s : State) (t d0 : Nat) : (s.advance t).startTime d0 = s.startTime d0 := rfl

end Sys2Proof.Machine

section
open Sys2Proof.Machine

/-- Settles O2: the new search by `Tb.Searches` and the faults that stand behind it, the first line by what a swap, a state
entered and a live line make of the time base. -/
theorem acquisitionRowsComplete : Obligations.AcquisitionRowsComplete := by
  refine ⟨fun s t coarse fine => ⟨fun h => ?_, fun h => ?_⟩, fun s t => ⟨fun h hp => ?_, fun h => ?_⟩,
    fun s t d0 hd hst hs => ?_, fun s t h => ?_, fun s t d0 hd hb hst hg hdr hA hB hw => ?_⟩
  · refine Does.of_effect (exec_bandSearchDone ..) ?_
    rw [if_pos (by simpa using h)]
    exact (s.advance t).bandFound_tb coarse fine
  · exact Idles.of_effect (t := t) rfl (exec_bandSearchDone ..) (if_neg (by simpa using h))
  · have hover : (s.advance t).acqOver = true := by simpa [State.acqOver, hp] using h
    have hs := (s.advance t).searchAgain_searches
    refine Does.of_effect (exec_acquisitionLimit ..) ?_
    rw [if_pos hover]
    rw [State.acqFailed_tb] at hs
    refine ⟨hs.shadow, hs.acqRef, hs.acqFail, ?_, fun h3 => (s.advance t).searchAgain_nolock h3⟩
    simp [hs.st, or_comm]
  · have hover : (s.advance t).acqOver = false := by
      obtain h | h | h := h <;> simp [State.acqOver, h]
    exact Idles.of_effect (t := t) rfl (exec_acquisitionLimit ..) (if_neg (by simp [hover]))
  · refine Does.of_effect (exec_acquisitionSwap ..) ?_
    obtain ⟨h1, h2, h3, h4, h5⟩ := (s.advance t).firstLive_tb d0
    simp only [State.advance_tb, hd, hst, hs, beq_self_eq_true, Bool.and_self, if_true]
    refine ⟨h1, h2, h3, h4, ?_, h5⟩
    rw [State.settle_devTime, State.firstLive_devTime, State.advance_devTime_of_not_live s t (by rw [hst]; rfl), State.startTime_advance]
  · refine Idles.of_effect (t := t) rfl (exec_acquisitionSwap ..) ?_
    simp only [State.advance_tb]
    split
    · next d0 hd => exact if_neg (by simpa [hd, imp_iff_not_or] using h)
    · rfl
  · have hcold : (s.advance t).startsCold = true := by
      simp only [State.startsCold, Bool.and_eq_true, decide_eq_true_eq, bne_iff_ne, beq_iff_eq, Bool.not_eq_true']
      exact ⟨⟨⟨⟨⟨⟨hb, hst⟩, hg⟩, hdr⟩, hA⟩, hB⟩, hw.trans (by simp; omega)⟩
    obtain ⟨h1, h2, h3⟩ := (s.advance t).coldStart_tb d0 hst
    refine Does.of_effect (exec_coldCoast ..) ?_
    simp only [State.advance_tb, hd, hcold, if_true]
    refine ⟨h1, h2, h3, ?_⟩
    rw [State.settle_devTime, State.coldStart_devTime, State.advance_devTime_of_not_live s t (by rw [hst]; rfl), State.startTime_advance]

end


namespace Sys2Proof.Machine

/-! ### Learning, holdover and the die temperature -/

/-- The present bin is learned with the word, which is saved with the live line's band codes (R50, R53). -/
def State.learn (s : State) (b : Nat) (word : Dword) : State :=
  let band := if s.tb.line then s.tb.band1 else s.tb.band0
  ({ s with tb := { s.tb with word := word, drift := tput s.tb.drift b word, saved := some (band.1, band.2, word) } } :
    State).imageChanged

theorem exec_driftLearn (s : State) (t : Nat) (word : Dword) : exec (.driftLearn t word) s = atMoment t s fun x =>
    match x.tb.bin with
    | some (b, since) => if x.tb.st == .locked && decide (since + 10 * secQ ≤ x.now) then x.learn b word else x
    | none => x := rfl

/-- One microsecond of holdover (R52). -/
def State.holdTick (s : State) : State :=
  let r := if s.tb.binLearned && !s.tb.cold then s.fld Reg.TB_HOLD_RATE 0 16 else s.fld Reg.TB_HOLD_RATE 16 16
  let u := s.tb.hold + r * usQ
  s.modTb fun b => { b with hold := u, holdLog := (b.holdDue, u) :: b.holdLog }

theorem exec_holdoverTick (s : State) (t : Nat) : exec (.holdoverTick t) s = atMoment t s fun x =>
    if x.tb.st.holds && decide (x.tb.holdDue ≤ x.devTime) then x.holdTick else x := rfl

theorem exec_runtSwallowed (s : State) (t : Nat) : exec (.runtSwallowed t) s = atMoment t s fun x =>
    if x.tb.st.live then (x.bumpSat Reg.TB_CNT 16 8).raise .tbRunt 0 else x := rfl

theorem exec_tbSpan (s : State) (t : Nat) : exec (.tbSpan t) s = atMoment t s fun x =>
    if x.devTime = spanMax && !x.tb.spanRaised then (x.modTb fun b => { b with spanRaised := true }).raise .tbSpan 0 else x := rfl

theorem State.fld_raise (s : State) (f : FaultCode) (p a lo w : Nat) (h : reportReg a = false) :
    (s.raise f p).fld a lo w = s.fld a lo w := by
  simp [State.fld, h]

/-- The reading is stored, and in FLT_TEMP_MAX where it is the highest (R450). -/
def State.thermStored (s : State) (raw : BitVec 12) : State :=
  let s0 := s.start .therm
  let s1 := ({ s0 with flt := { s0.flt with tempSeen := true } } : State).setReg Reg.TB_TEMP (raw.setWidth 64)
  if !s.flt.tempSeen || sx 12 (s1.fld Reg.FLT_TEMP_MAX 0 12) < raw.toInt then s1.setReg Reg.FLT_TEMP_MAX (raw.setWidth 64) else s1

/-- A reading in range moves the temperature, its bin and the word that steers a coasting line; one out of range is a fault (R50, R51, R450). -/
def State.thermTaken (s : State) (now : Nat) (raw : BitVec 12) : State :=
  let x := raw.toInt
  if x < -440 || 1200 < x then s.raise .thermSensor raw.toNat
  else s.modTb fun b =>
    let k := binOf x
    { b with temp := x, steered := if b.st == .coasting then steerWord b.drift x else b.steered, bin := match b.bin with
        | some (k0, since) => if k0 = k then some (k0, since) else some (k, now)
        | none => some (k, now) }

/-- The runs of readings above the warning and above the limit (R450). -/
def State.thermNoted (s : State) (w l : Nat × Bool × Bool) : State :=
  { s with flt := { s.flt with warnRun := w.1, warnOn := w.2.1, limitRun := l.1, limitOn := l.2.1 } }

/-- The onsets of the warning and of the limit, with the faults of those that begin (R450). -/
def State.thermOnsets (s : State) (w l : Nat × Bool × Bool) (x : Int) : State :=
  let s5 := if w.2.2 then (s.thermNoted w l).raise .thermWarn (toField 32 (x / 8)) else s.thermNoted w l
  if l.2.2 then s5.raise .thermLimit (toField 32 (x / 8)) else s5

/-- A reading of the die temperature (R450). -/
def State.thermReading (s : State) (raw : BitVec 12) : State :=
  ((s.thermStored raw).thermTaken s.now raw).thermOnsets
    (onset s.flt.warnRun s.flt.warnOn raw.toInt (8 * sx 8 (s.fld Reg.FLT_THERM 0 8)) (8 * (s.fld Reg.FLT_THERM 8 8 : Nat)))
    (onset s.flt.limitRun s.flt.limitOn raw.toInt (8 * maxJunction) (8 * (s.fld Reg.FLT_THERM 8 8 : Nat))) raw.toInt

theorem exec_thermRead (s : State) (t : Nat) (raw : BitVec 12) : exec (.thermRead t raw) s = atMoment t s fun x =>
    if x.pwr.st != .run || !x.past .therm (100 * usQ) then x else x.thermReading raw := rfl

@[simp] theorem State.thermStored_keeps (s : State) (raw : BitVec 12) :
    (s.thermStored raw).tb = s.tb ∧ (s.thermStored raw).flt = { s.flt with tempSeen := true } ∧
    (s.thermStored raw).reg Reg.TB_TEMP = raw.setWidth 64 := by
  unfold State.thermStored
  dsimp only
  split <;> simp [Reg.TB_TEMP, Reg.FLT_TEMP_MAX]

/-- The first reading is the highest (R450). -/
theorem State.thermStored_first (s : State) (raw : BitVec 12) (h : s.flt.tempSeen = false) :
    (s.thermStored raw).reg Reg.FLT_TEMP_MAX = raw.setWidth 64 := by
  simp [State.thermStored, h]

theorem State.reg_thermTaken (s : State) (now : Nat) (raw : BitVec 12) (a : Nat) (h : reportReg a = false) :
    (s.thermTaken now raw).reg a = s.reg a := by
  unfold State.thermTaken
  dsimp only
  split <;> simp [h]

theorem State.thermTaken_in (s : State) (now : Nat) (raw : BitVec 12) (h : -440 ≤ raw.toInt ∧ raw.toInt ≤ 1200) :
    (s.thermTaken now raw).tb.temp = raw.toInt ∧ (∃ since, (s.thermTaken now raw).tb.bin = some (binOf raw.toInt, since)) ∧
    (s.tb.st = .coasting → (s.thermTaken now raw).tb.steered = steerWord s.tb.drift raw.toInt) := by
  have hin : ¬(decide (raw.toInt < -440) || decide (1200 < raw.toInt)) = true := by simp; omega
  simp only [State.thermTaken, if_neg hin, State.modTb_tb]
  refine ⟨trivial, ?_, fun hst => if_pos (by simp [hst])⟩
  split
  · split
    · next k0 since _ hk => exact ⟨since, by rw [hk]⟩
    · exact ⟨now, rfl⟩
  · exact ⟨now, rfl⟩

theorem State.thermTaken_out (s : State) (now : Nat) (raw : BitVec 12) (h : raw.toInt < -440 ∨ 1200 < raw.toInt) :
    s.thermTaken now raw = s.raise .thermSensor raw.toNat := if_pos (by simpa using h)

@[simp] theorem State.raise_warnRun (s : State) (f : FaultCode) (p : Nat) : (s.raise f p).flt.warnRun = s.flt.warnRun := by
  obtain ⟨_, _, _, _, _, _, _, h⟩ := raise_flt s f p
  rw [h]

/-- The faults that an onset raises leave the time base and every register but the reporting ones (R445, R450). -/
theorem State.thermOnsets_keeps (s : State) (w l : Nat × Bool × Bool) (x : Int) :
    (s.thermOnsets w l x).tb = s.tb ∧ (s.thermOnsets w l x).flt.warnRun = w.1 ∧ s.FaultsStand (s.thermOnsets w l x) ∧
    ∀ a, reportReg a = false → (s.thermOnsets w l x).reg a = s.reg a := by
  have raised (y : State) (c : Bool) (f : FaultCode) (p : Nat) : (if c then y.raise f p else y).tb = y.tb ∧
      (if c then y.raise f p else y).flt.warnRun = y.flt.warnRun ∧ y.FaultsStand (if c then y.raise f p else y) ∧
      ∀ a, reportReg a = false → (if c then y.raise f p else y).reg a = y.reg a := by
    cases c
    · exact ⟨rfl, rfl, .refl y, fun _ _ => rfl⟩
    · exact ⟨by simp, y.raise_warnRun f p, y.raise_stand f p, fun a h => y.reg_raise f p a h⟩
  have noted : (s.thermNoted w l).tb = s.tb ∧ (s.thermNoted w l).flt.warnRun = w.1 ∧ s.FaultsStand (s.thermNoted w l) ∧
      ∀ a, (s.thermNoted w l).reg a = s.reg a := ⟨rfl, rfl, ⟨id, fun _ => id⟩, fun _ => rfl⟩
  unfold State.thermOnsets
  extract_lets s5
  obtain ⟨tb4, run4, stand4, reg4⟩ := noted
  obtain ⟨tb5, run5, stand5, reg5⟩ := raised (s.thermNoted w l) w.2.2 .thermWarn (toField 32 (x / 8))
  obtain ⟨tb6, run6, stand6, reg6⟩ := raised s5 l.2.2 .thermLimit (toField 32 (x / 8))
  exact ⟨tb6.trans (tb5.trans tb4), run6.trans (run5.trans run4), (stand4.trans stand5).trans stand6,
    fun a h => (reg6 a h).trans ((reg5 a h).trans (reg4 a))⟩

/-- The run of readings above a limit (R450). -/
theorem onset_run (run : Nat) (on : Bool) (x lim hyst : Int) :
    (onset run on x lim hyst).1 = if lim < x then min 10 (run + 1) else 0 := by
  unfold onset
  dsimp only
  split <;> rfl

/-- What a reading shows and moves (R50, R51, R450). -/
theorem State.thermReading_does (s : State) (raw : BitVec 12) : let u := s.thermReading raw
    u.reg Reg.TB_TEMP = raw.setWidth 64 ∧ (s.flt.tempSeen = false → u.reg Reg.FLT_TEMP_MAX = raw.setWidth 64) ∧
    (-440 ≤ raw.toInt ∧ raw.toInt ≤ 1200 → u.tb.temp = raw.toInt ∧ (∃ since, u.tb.bin = some (binOf raw.toInt, since)) ∧
      (s.tb.st = .coasting → u.tb.steered = steerWord s.tb.drift raw.toInt)) ∧
    (raw.toInt < -440 ∨ 1200 < raw.toInt → u.tb = s.tb ∧ u.flt.active.getLsbD FaultCode.thermSensor.cls = true) ∧
    u.flt.warnRun = if 8 * sx 8 (s.fld Reg.FLT_THERM 0 8) < raw.toInt then min 10 (s.flt.warnRun + 1) else 0 := by
  intro u
  obtain ⟨htb, hrun, hstand, hreg⟩ : u.tb = _ ∧ u.flt.warnRun = _ ∧ State.FaultsStand _ u ∧
      ∀ a, reportReg a = false → u.reg a = _ := State.thermOnsets_keeps ((s.thermStored raw).thermTaken s.now raw) _ _ raw.toInt
  obtain ⟨htb0, -, htemp⟩ := s.thermStored_keeps raw
  refine ⟨?_, fun hfirst => ?_, fun hin => ?_, fun hout => ?_, hrun.trans (onset_run ..)⟩
  · rw [hreg _ (by decide), State.reg_thermTaken _ _ _ _ (by decide), htemp]
  · rw [hreg _ (by decide), State.reg_thermTaken _ _ _ _ (by decide), s.thermStored_first raw hfirst]
  · rw [htb, ← htb0]
    exact (s.thermStored raw).thermTaken_in s.now raw hin
  · rw [State.thermTaken_out _ _ _ hout] at htb hstand
    exact ⟨by rw [htb, (State.raise_keeps ..).2.2.2.2.1, htb0], hstand.2 _ (State.raise_class ..)⟩

end Sys2Proof.Machine

section
open Sys2Proof.Machine

/-- Settles O4: each row by the equation of its effect; the raised faults by what a raise leaves. -/
theorem holdoverRowsComplete : Obligations.HoldoverRowsComplete := by
  refine ⟨fun s t word b since hb hst hs => ?_, fun s t word h => ?_, fun s t => ⟨fun h hd => ?_, fun h1 h2 => ?_, fun hd => ?_⟩,
    fun s t => ⟨fun h => ?_, fun h => ?_⟩, fun s t => ⟨fun hd hr => ?_, fun h => ?_⟩, fun s t raw => ⟨fun hr hp => ?_, fun h => ?_⟩⟩
  · have hnow : since + 10 * secQ ≤ (s.advance t).now := hs.trans (by simp; omega)
    refine Does.of_effect (exec_driftLearn ..) ?_
    simp only [State.advance_tb, hb, hst, beq_self_eq_true, hnow, decide_true, Bool.and_self, if_true]
    exact ⟨by simp [State.learn, tget?_tput], rfl, rfl, rfl⟩
  · refine Idles.of_effect (t := t) rfl (exec_driftLearn ..) ?_
    simp only [State.advance_tb]
    split
    · next hb => exact if_neg (by simp_all)
    · rfl
  · have hdue : ((s.advance t).tb.st.holds && decide ((s.advance t).tb.holdDue ≤ (s.advance t).devTime)) = true := by
      obtain h | h := h <;> simp [h, hd, TbState.holds]
    refine Does.of_effect (exec_holdoverTick ..) ?_
    rw [if_pos hdue]
    exact ⟨rfl, rfl⟩
  · have hholds : s.tb.st.holds = false := by
      cases h : s.tb.st <;> simp_all [TbState.holds]
    exact Idles.of_effect (t := t) rfl (exec_holdoverTick ..) (if_neg (by simp [hholds]))
  · exact Idles.of_effect (t := t) rfl (exec_holdoverTick ..) (if_neg (by simp [Nat.not_le.mpr hd]))
  · have hlive : (s.advance t).tb.st.live = true := h
    refine Does.of_effect (exec_runtSwallowed ..) ?_
    rw [if_pos hlive]
    refine ⟨?_, State.raise_class _ .tbRunt 0, State.raise_marked _ _ _ rfl⟩
    rw [State.settle_fld, State.fld_raise _ _ _ _ _ _ (by decide), State.fld_bumpSat _ _ _ _ (by decide)]
    rfl
  · exact Idles.of_effect (t := t) rfl (exec_runtSwallowed ..) (if_neg (by simp [h]))
  · refine Does.of_effect (exec_tbSpan ..) ?_
    rw [if_pos (by simp [hd, hr])]
    refine ⟨by simp, ?_, State.raise_class _ .tbSpan 0, State.raise_marked _ _ _ rfl⟩
    rw [State.settle_devTime, (State.raise_keeps ..).2.1]
    exact hd
  · exact Idles.of_effect (t := t) rfl (exec_tbSpan ..) (if_neg (by simpa [imp_iff_not_or] using h))
  · refine Does.of_effect (exec_thermRead ..) ?_
    rw [if_neg (by simp [hr, hp])]
    exact (s.advance t).thermReading_does raw
  · exact Idles.of_effect (t := t) rfl (exec_thermRead ..) (if_pos (by simpa using h))

end


namespace Sys2Proof.Machine

/-! ### Slews, steps and held returns -/

/-- A correction of the time base `b` by a slew of `off` Q has been taken up (R46, R56). -/
structure Tb.Slewed (b c : Tb) (off : Int) : Prop where
  st : c.st = if off = 0 then .locked else .slewing
  slewRemain : c.slewRemain = off
  slewTotal : c.slewTotal = 0
  ret : c.ret = b.ret
  line : c.line = b.line
  liveRef : c.liveRef = b.liveRef
  shadow : c.shadow = b.shadow

theorem State.correctBySlew_slewed (s : State) (off : Int) (reason : Nat) (value : Int) :
    s.tb.Slewed (s.correctBySlew off reason value).tb off := by
  unfold State.correctBySlew
  dsimp only
  split <;> constructor <;> simp [State.setSlew, *]

@[simp] theorem State.reg_correctBySlew (s : State) (off : Int) (reason : Nat) (value : Int) (a : Nat) (h : reportReg a = false) :
    (s.correctBySlew off reason value).reg a = s.reg a := by
  unfold State.correctBySlew
  dsimp only
  split <;> simp [State.setSlew, h]

theorem State.correctByStep_slewed (s : State) (off : Int) (reason : Nat) (value : Option Int) :
    s.tb.Slewed (s.correctByStep off reason value).tb (off % 512) := by
  obtain ⟨h1, h2, h3, h4, h5, h6, h7⟩ := (s.stepForward (off - off % 512).toNat).correctBySlew_slewed (off % 512) reason
    (value.getD (off - off % 512))
  rw [State.stepForward_tb] at h4 h5 h6 h7
  exact ⟨h1, h2, h3, h4, h5, h6, h7⟩

theorem State.reg_correctByStep (s : State) (off : Int) (reason : Nat) (value : Option Int) (a : Nat) (h : reportReg a = false)
    (ha : a < 0x13000) : (s.correctByStep off reason value).reg a = s.reg a :=
  (State.reg_correctBySlew _ _ _ _ _ h).trans (State.reg_stepForward _ _ _ ha)

/-- The alignment of the hub leaves a correction as it is (R64). -/
theorem Tb.Slewed.setAligned {b : Tb} {s : State} {off : Int} (h : b.Slewed s.tb off) : b.Slewed s.setAligned.tb off := by
  obtain ⟨h1, h2, h3, h4, h5, h6, h7⟩ := h
  exact ⟨h1, h2, h3, h4, h5, h6, h7⟩

theorem Tb.Slewed.firstLock {b : Tb} {s : State} {off : Int} (h : b.Slewed s.tb off) (was : State) :
    b.Slewed (s.firstLock was).tb off := by
  unfold State.firstLock
  dsimp only
  split
  · exact h.setAligned
  · exact h

@[simp] theorem State.reg_setAligned (s : State) (a : Nat) : s.setAligned.reg a = s.reg a := rfl

@[simp] theorem State.reg_firstLock (s was : State) (a : Nat) : (s.firstLock was).reg a = s.reg a := by
  unfold State.firstLock
  dsimp only
  split <;> simp

/-- The time base takes up a correction: where the line coasts, the shadow line becomes live (R32, R56). -/
def Tb.takeUp (b : Tb) : Tb := if b.st == .coasting then { b.swap with ret := .none } else { b with ret := .none }

/-- The offset is shown, and the correction taken up (R56). -/
def State.takenUp (s : State) (off : Int) : State := (s.setReg Reg.TB_OFFSET (wordOf off)).modTb Tb.takeUp

@[simp] theorem State.takenUp_tb (s : State) (off : Int) : (s.takenUp off).tb = s.tb.takeUp := rfl

@[simp] theorem State.takenUp_offset (s : State) (off : Int) : (s.takenUp off).reg Reg.TB_OFFSET = wordOf off := by
  simp [State.takenUp]

/-- Nothing is to be corrected (R56). -/
theorem State.correct_zero (s : State) (same slew step : Nat) : s.correct 0 same slew step =
    if s.tb.st == .coasting then ((s.takenUp 0).correctBySlew 0 same 0).firstLock s
    else if same == 9 then (s.takenUp 0).timeRecord 9 0 else s.takenUp 0 := rfl

/-- The offset is the hub's to slew: it lies behind, or within TB_RET_SLEW_MAX (R56). -/
theorem State.correct_slew (s : State) (off : Int) (same slew step : Nat) (h0 : off ≠ 0)
    (h : off ≤ (s.fld Reg.TB_RET_SLEW_MAX 0 48 : Int) ∨ off < 0) : s.correct off same slew step =
    ((s.takenUp off).correctBySlew off slew off).firstLock s := by
  have hc : (decide (off < 0) || decide (off ≤ (s.fld Reg.TB_RET_SLEW_MAX 0 48 : Int))) = true := by simpa [or_comm] using h
  rw [State.correct]
  dsimp only
  rw [if_neg h0, if_pos hc]
  rfl

/-- A larger offset is held where the policy says so (R56). -/
theorem State.correct_hold (s : State) (off : Int) (same slew step : Nat) (h0 : 0 < off)
    (h : (s.fld Reg.TB_RET_SLEW_MAX 0 48 : Int) < off) (hp : s.bit Reg.TB_RET_POLICY 0 = true) : s.correct off same slew step =
    (s.setReg Reg.TB_OFFSET (wordOf off)).holdReturn off := by
  have hc : ¬(decide (off < 0) || decide (off ≤ (s.fld Reg.TB_RET_SLEW_MAX 0 48 : Int))) = true := by simp; omega
  rw [State.correct]
  dsimp only
  rw [if_neg h0.ne', if_neg hc, if_pos hp]

/-- A larger offset is else stepped (R56). -/
theorem State.correct_step (s : State) (off : Int) (same slew step : Nat) (h0 : 0 < off)
    (h : (s.fld Reg.TB_RET_SLEW_MAX 0 48 : Int) < off) (hp : s.bit Reg.TB_RET_POLICY 0 = false) : s.correct off same slew step =
    ((s.takenUp off).correctByStep off step (if step == 9 then some off else none)).firstLock s := by
  have hc : ¬(decide (off < 0) || decide (off ≤ (s.fld Reg.TB_RET_SLEW_MAX 0 48 : Int))) = true := by simp; omega
  rw [State.correct]
  dsimp only
  rw [if_neg h0.ne', if_neg hc, if_neg (by simp [hp])]
  rfl

/-- What a hold makes of the time base (R56, R58). -/
theorem State.holdReturn_tb (s : State) (off : Int) (h : s.tb.ret ≠ .held) :
    (s.holdReturn off).tb.st = .coasting ∧ (s.holdReturn off).tb.ret = .held ∧ (s.holdReturn off).tb.line = s.tb.line := by
  have held (x : State) (hl : x.tb.line = s.tb.line) (hr : x.tb.ret = .held) :
      let u := if x.tb.st == .coasting then x.timeRecord 5 off else x.tbEnter .coasting 5 off
      u.tb.st = .coasting ∧ u.tb.ret = .held ∧ u.tb.line = s.tb.line := by
    dsimp only
    split <;> simp_all
  rw [State.holdReturn, if_neg (by simpa using h)]
  exact held _ rfl rfl

theorem State.reg_holdReturn (s : State) (off : Int) (a : Nat) (h : reportReg a = false) : (s.holdReturn off).reg a = s.reg a := by
  have held (x : State) : (if x.tb.st == .coasting then x.timeRecord 5 off else x.tbEnter .coasting 5 off).reg a = x.reg a := by
    split <;> simp [h]
  unfold State.holdReturn
  split
  · rfl
  · exact held _

/-- A correction shows its offset (R56). -/
theorem State.correct_offset (s : State) (off : Int) (same slew step : Nat) :
    (s.correct off same slew step).reg Reg.TB_OFFSET = wordOf off := by
  have hr : reportReg Reg.TB_OFFSET = false := by decide
  obtain h0 | h0 := eq_or_ne off 0
  · subst h0
    rw [State.correct_zero]
    split
    · rw [State.reg_firstLock, State.reg_correctBySlew _ _ _ _ _ hr, State.takenUp_offset]
    · split
      · rw [State.reg_timeRecord _ _ _ _ hr, State.takenUp_offset]
      · exact s.takenUp_offset 0
  · by_cases h : off ≤ (s.fld Reg.TB_RET_SLEW_MAX 0 48 : Int) ∨ off < 0
    · rw [State.correct_slew _ _ _ _ _ h0 h, State.reg_firstLock, State.reg_correctBySlew _ _ _ _ _ hr, State.takenUp_offset]
    · have hpos : 0 < off := by omega
      have hmax : (s.fld Reg.TB_RET_SLEW_MAX 0 48 : Int) < off := by omega
      cases hp : s.bit Reg.TB_RET_POLICY 0
      · rw [State.correct_step _ _ _ _ _ hpos hmax hp, State.reg_firstLock, State.reg_correctByStep _ _ _ _ _ hr (by decide), State.takenUp_offset]
      · rw [State.correct_hold _ _ _ _ _ hpos hmax hp, State.reg_holdReturn _ _ _ hr]
        simp

end Sys2Proof.Machine


namespace Sys2Proof.Machine

/-! ### The handover, the return and TOD_IN -/

@[simp] theorem State.reg_bumpEpoch (s : State) (e a : Nat) (h : a ≠ Reg.GBL_EPOCH (e / 2)) : (s.bumpEpoch e).reg a = s.reg a := by
  simp [State.bumpEpoch, h]

@[simp] theorem State.bumpEpoch_tb (s : State) (e : Nat) : (s.bumpEpoch e).tb = s.tb := (s.bump_keeps _ _ _).2.2.2.2.1

@[simp] theorem State.reg_cfgAll (s : State) (a : Nat) : s.cfgAll.reg a = s.reg a := rfl

/-- The trimmed shadow line has been swapped in, with its counts, before the state is entered (R48). -/
def State.swapped (s : State) : State :=
  (((s.modTb fun b => { b.swap with handoverOf := none, ret := .measuring }).bump Reg.TB_CNT 24 8).bumpEpoch 1).cfgAll

theorem State.swapped_tb (s : State) : s.swapped.tb = { s.tb.swap with handoverOf := none, ret := .measuring } := by
  have counted (x : State) : (((x.bump Reg.TB_CNT 24 8).bumpEpoch 1).cfgAll).tb = x.tb := by
    rw [State.cfgAll_tb, State.bumpEpoch_tb, (State.bump_keeps _ _ _ _).2.2.2.2.1]
  exact counted _

theorem State.swapped_counts (s : State) : s.swapped.fld Reg.TB_CNT 24 8 = (s.fld Reg.TB_CNT 24 8 + 1) % 256 ∧
    s.swapped.fld (Reg.GBL_EPOCH 0) 16 16 = (s.fld (Reg.GBL_EPOCH 0) 16 16 + 1) % 65536 := by
  have cnt (x : State) : (((x.bump Reg.TB_CNT 24 8).bumpEpoch 1).cfgAll).fld Reg.TB_CNT 24 8 = (x.fld Reg.TB_CNT 24 8 + 1) % 256 := by
    rw [State.fld, State.reg_cfgAll, State.reg_bumpEpoch _ _ _ (by decide), ← State.fld]
    exact State.fld_bump _ _ _ _ (by decide)
  have epoch (x : State) : (((x.bump Reg.TB_CNT 24 8).bump (Reg.GBL_EPOCH 0) 16 16).cfgAll).fld (Reg.GBL_EPOCH 0) 16 16 =
      (x.fld (Reg.GBL_EPOCH 0) 16 16 + 1) % 65536 := by
    have other : (x.bump Reg.TB_CNT 24 8).fld (Reg.GBL_EPOCH 0) 16 16 = x.fld (Reg.GBL_EPOCH 0) 16 16 := by
      rw [State.fld, State.reg_bump, if_neg (by decide), ← State.fld]
    rw [← other, State.fld, State.reg_cfgAll, ← State.fld]
    exact State.fld_bump _ _ _ _ (by decide)
  have before (f : Tb → Tb) (a lo w : Nat) : (s.modTb f).fld a lo w = s.fld a lo w := by rw [State.fld, State.reg_modTb, ← State.fld]
  exact ⟨(cnt _).trans (by rw [before]), (epoch _).trans (by rw [before])⟩

/-- The swapped time base enters LOCKED, or goes on with its slew (R48). -/
def State.swapEntered (s : State) (misalign : Int) : State :=
  s.swapped.tbEnter (if s.swapped.tb.slewRemain = 0 then .locked else .slewing) 7 misalign

/-- The handover is done (R48). -/
def State.handedOver (s : State) (misalign : Int) : State :=
  if (s.swapEntered misalign).tb.selPending then (s.swapEntered misalign).actOnSelection else s.swapEntered misalign

theorem exec_handoverSwap (s : State) (t : Nat) (misalign : Int) : exec (.handoverSwap t misalign) s = atMoment t s fun x =>
    if x.tb.st == .handover && x.tb.shadow == .locked && meetsR32 misalign then x.handedOver misalign else x := rfl

theorem State.swapEntered_tb (s : State) (misalign : Int) :
    (s.swapEntered misalign).tb.line = (!s.tb.line) ∧ (s.swapEntered misalign).tb.liveRef = s.tb.acqRef ∧
    (s.swapEntered misalign).tb.selPending = s.tb.selPending ∧
    (s.swapEntered misalign).tb.st = (if s.tb.slewRemain = 0 then .locked else .slewing) ∧
    (s.swapEntered misalign).tb.ret = .measuring := by
  simp [State.swapEntered, State.swapped_tb, Tb.swap]

theorem State.reg_swapEntered (s : State) (misalign : Int) (a : Nat) (h : reportReg a = false) :
    (s.swapEntered misalign).reg a = s.swapped.reg a := State.reg_tbEnter _ _ _ _ _ h

theorem State.handedOver_tb (s : State) (misalign : Int) :
    (s.handedOver misalign).tb.line = (!s.tb.line) ∧ (s.handedOver misalign).tb.liveRef = s.tb.acqRef ∧
    (s.tb.selPending = false → (s.handedOver misalign).tb.st = (if s.tb.slewRemain = 0 then .locked else .slewing) ∧
      (s.handedOver misalign).tb.ret = .measuring) := by
  obtain ⟨hline, hlive, hsel, hst, hret⟩ := s.swapEntered_tb misalign
  obtain ⟨kline, klive, -⟩ := (s.swapEntered misalign).actOnSelection_keeps
  rw [State.handedOver, hsel]
  cases s.tb.selPending
  · exact ⟨hline, hlive, fun _ => ⟨hst, hret⟩⟩
  · exact ⟨kline.trans hline, klive.trans hlive, nofun⟩

theorem State.fld_handedOver (s : State) (misalign : Int) (a lo w : Nat) (h : reportReg a = false) (ha : a ≠ Reg.TB_SLEW_REQ) :
    (s.handedOver misalign).fld a lo w = s.swapped.fld a lo w := by
  have entered := s.reg_swapEntered misalign a h
  have acted := (s.swapEntered misalign).reg_actOnSelection a h ha
  rw [State.handedOver]
  split
  · rw [State.fld, acted, entered, ← State.fld]
  · rw [State.fld, entered, ← State.fld]

/-- The offset that a return has measured (R54). -/
def State.measured (s : State) (edge : Nat) : Int :=
  match s.tb.p0 with
  | some p0 => residue p0 edge (s.tb.ref (if s.tb.st == .coasting then s.tb.acqRef else s.tb.liveRef)).num
      (s.tb.ref (if s.tb.st == .coasting then s.tb.acqRef else s.tb.liveRef)).den
  | none => 0

/-- The offset of a return, or of a handover, can be measured (R32, R54). -/
def State.measures (s : State) (gap : Int) : Bool :=
  s.tb.st == .coasting && s.tb.shadow == .locked && (s.tb.ret == .measuring || s.tb.ret == .held) && meetsR32 gap ||
    ((s.tb.st == .locked || s.tb.st == .slewing) && s.tb.ret == .measuring)

theorem exec_returnOffsetMeasured (s : State) (t : Nat) (m : ShadowMeasure) : exec (.returnOffsetMeasured t m) s =
    atMoment t s fun x =>
      if !x.measures m.gap then x
      else if x.tb.ret == .held then
        if x.todResolves || x.tb.todHold then x else x.setReg Reg.TB_OFFSET (wordOf (x.measured m.edge))
      else if x.todResolves then x.modTb fun b => { b with ret := .awaitTod }
      else x.correct (x.measured m.edge) 1 3 4 := rfl

theorem State.correct_step_slewed (s : State) (off : Int) (same slew step : Nat) (h0 : 0 < off)
    (h : (s.fld Reg.TB_RET_SLEW_MAX 0 48 : Int) < off) (hp : s.bit Reg.TB_RET_POLICY 0 = false) :
    s.tb.takeUp.Slewed (s.correct off same slew step).tb (off % 512) := by
  rw [s.correct_step off same slew step h0 h hp]
  have h := (s.takenUp off).correctByStep_slewed off step (if step == 9 then some off else none)
  rw [State.takenUp_tb] at h
  exact h.firstLock s

theorem State.correct_nonzero_slewed (s : State) (off : Int) (same slew step : Nat) (h0 : off ≠ 0)
    (h : off ≤ (s.fld Reg.TB_RET_SLEW_MAX 0 48 : Int) ∨ off < 0) : s.tb.takeUp.Slewed (s.correct off same slew step).tb off := by
  rw [s.correct_slew off same slew step h0 h]
  have h := (s.takenUp off).correctBySlew_slewed off slew off
  rw [State.takenUp_tb] at h
  exact h.firstLock s

theorem State.correct_slew_slewed (s : State) (off : Int) (same slew step : Nat)
    (h : off ≤ (s.fld Reg.TB_RET_SLEW_MAX 0 48 : Int) ∨ off ≤ 0) (hst : s.tb.st = .coasting) :
    s.tb.takeUp.Slewed (s.correct off same slew step).tb off := by
  obtain h0 | h0 := eq_or_ne off 0
  · subst h0
    rw [s.correct_zero]
    rw [if_pos (by simp [hst])]
    have h := (s.takenUp 0).correctBySlew_slewed 0 same 0
    rw [State.takenUp_tb] at h
    exact h.firstLock s
  · exact s.correct_nonzero_slewed off same slew step h0 (by omega)

/-- The correction of a return (R54, R56). -/
theorem State.correct_return (s : State) (off : Int) (hst : s.tb.st = .coasting) (hret : s.tb.ret = .measuring) :
    let u := s.correct off 1 3 4
    let hold := (s.fld Reg.TB_RET_SLEW_MAX 0 48 : Int) < off ∧ 0 < off ∧ s.bit Reg.TB_RET_POLICY 0 = true
    let step := (s.fld Reg.TB_RET_SLEW_MAX 0 48 : Int) < off ∧ 0 < off ∧ s.bit Reg.TB_RET_POLICY 0 = false
    (hold → u.tb.st = .coasting ∧ u.tb.ret = .held ∧ u.tb.line = s.tb.line ∧ u.reg Reg.TB_OFFSET = wordOf off) ∧
    (¬hold → u.tb.ret = .none ∧ u.tb.line = !s.tb.line ∧ u.tb.liveRef = s.tb.acqRef ∧ u.tb.shadow = .idle) ∧
    (step → u.devTime = min spanMax (s.devTime + (off - off % 512).toNat) ∧ u.tb.slewRemain = off % 512 ∧
      u.tb.st = (if off % 512 = 0 then .locked else .slewing)) ∧
    (¬hold → ¬step → u.devTime = s.devTime ∧ u.tb.slewRemain = off ∧ u.reg Reg.TB_OFFSET = wordOf off ∧
      u.tb.st = (if off = 0 then .locked else .slewing)) := by
  intro u hold step
  have hoff := s.correct_offset off 1 3 4
  have htime := s.correct_devTime off 1 3 4
  have taken (c : Tb) (k : Int) (h : s.tb.takeUp.Slewed c k) :
      c.ret = .none ∧ c.line = (!s.tb.line) ∧ c.liveRef = s.tb.acqRef ∧ c.shadow = .idle := by
    rw [h.ret, h.line, h.liveRef, h.shadow]
    simp [Tb.takeUp, hst, Tb.swap]
  by_cases hmax : (s.fld Reg.TB_RET_SLEW_MAX 0 48 : Int) < off ∧ 0 < off
  · obtain ⟨hlt, hpos⟩ := hmax
    cases hp : s.bit Reg.TB_RET_POLICY 0
    · have slewed := s.correct_step_slewed off 1 3 4 hpos hlt hp
      have hhold : ¬hold := fun h => by simp [hold, hp] at h
      have hstep : step := ⟨hlt, hpos, hp⟩
      rw [if_pos hstep] at htime
      exact ⟨fun h => absurd h hhold, fun _ => taken _ _ slewed, fun _ => ⟨htime, slewed.slewRemain, slewed.st⟩,
        fun _ h => absurd hstep h⟩
    · have hhold : hold := ⟨hlt, hpos, hp⟩
      have hstep : ¬step := fun h => by simp [step, hp] at h
      obtain ⟨h1, h2, h3⟩ := State.holdReturn_tb (s.setReg Reg.TB_OFFSET (wordOf off)) off (by simp [hret])
      rw [← s.correct_hold off 1 3 4 hpos hlt hp] at h1 h2 h3
      exact ⟨fun _ => ⟨h1, h2, h3, hoff⟩, fun h => absurd hhold h, fun h => absurd h hstep, fun h => absurd hhold h⟩
  · have hhold : ¬hold := fun h => hmax ⟨h.1, h.2.1⟩
    have hstep : ¬step := fun h => hmax ⟨h.1, h.2.1⟩
    have slewed := s.correct_slew_slewed off 1 3 4 (by omega) hst
    rw [if_neg hstep] at htime
    exact ⟨fun h => absurd h hhold, fun _ => taken _ _ slewed, fun h => absurd h hstep,
      fun _ _ => ⟨htime, slewed.slewRemain, hoff, slewed.st⟩⟩

end Sys2Proof.Machine


namespace Sys2Proof.Machine

/-- One step of a slew (R43, R46). -/
def State.slewOnce (s : State) : State :=
  let k : Int := max (-8) (min 8 s.tb.slewRemain)
  ((s.fineStep k).modTb fun b =>
    { b with slewRemain := b.slewRemain - k, slewTotal := b.slewTotal + k, slewN := b.slewN + 1 }).slewDone

theorem exec_slewStep (s : State) (t : Nat) : exec (.slewStep t) s = atMoment t s fun x =>
    if x.tb.st == .slewing && x.tb.slewRemain != 0 && decide (x.slewDue ≤ x.devTime) then x.slewOnce else x := rfl

@[simp] theorem State.slewDue_advance (s : State) (t : Nat) : (s.advance t).slewDue = s.slewDue := rfl

/-- The end of a slew changes the state alone (R515). -/
theorem State.slewDone_keeps (s : State) (h : s.tb.st = .slewing) : s.slewDone.tb.slewRemain = s.tb.slewRemain ∧
    s.slewDone.tb.slewTotal = s.tb.slewTotal ∧ s.slewDone.tb.slewN = s.tb.slewN ∧ s.slewDone.tb.steps = s.tb.steps ∧
    s.slewDone.tb.st = (if s.tb.slewRemain = 0 then .locked else .slewing) := by
  unfold State.slewDone
  split
  · next h0 => simp_all
  · next h0 => simp_all

theorem State.slewOnce_does (s : State) (h : s.tb.st = .slewing) : let u := s.slewOnce
    let k := max (-8) (min 8 s.tb.slewRemain)
    u.tb.slewRemain = s.tb.slewRemain - k ∧ u.tb.slewTotal = s.tb.slewTotal + k ∧ u.tb.slewN = s.tb.slewN + 1 ∧
    u.tb.steps = (s.boundaryTo s.devTime, k) :: s.tb.steps ∧ u.devTime = s.devTime ∧
    u.tb.st = (if s.tb.slewRemain = k then .locked else .slewing) := by
  intro u k
  have done (x : State) (htb : x.tb = { s.tb with slewRemain := s.tb.slewRemain - k, slewTotal := s.tb.slewTotal + k
                                                  slewN := s.tb.slewN + 1, steps := (s.boundaryTo s.devTime, k) :: s.tb.steps
                                                  lastStep := some (s.boundaryTo s.devTime) }) (hd : x.devTime = s.devTime) :
      x.slewDone.tb.slewRemain = s.tb.slewRemain - k ∧ x.slewDone.tb.slewTotal = s.tb.slewTotal + k ∧
      x.slewDone.tb.slewN = s.tb.slewN + 1 ∧ x.slewDone.tb.steps = (s.boundaryTo s.devTime, k) :: s.tb.steps ∧
      x.slewDone.devTime = s.devTime ∧ x.slewDone.tb.st = (if s.tb.slewRemain = k then .locked else .slewing) := by
    obtain ⟨h1, h2, h3, h4, h5⟩ := x.slewDone_keeps (by rw [htb]; exact h)
    rw [htb] at h1 h2 h3 h4 h5
    exact ⟨h1, h2, h3, h4, by simp [hd], by simpa [sub_eq_zero] using h5⟩
  exact done _ rfl rfl

/-! ### TOD_IN -/

/-- The edge aligns the hub (R62). -/
def State.todAlign (s : State) (off : Int) : State :=
  let s1 := (s.correct off 9 9 9).modTb fun b => { b with todRejects := 0 }
  if s1.tb.ret == .held then s1.modTb fun b => { b with todHold := true } else s1.setAligned

/-- The edge lies within the tolerance (R62). -/
def State.todWithin (s : State) (off : Int) : State :=
  let s1 := s.modTb fun b => { b with todRejects := 0 }
  if off.natAbs ≤ s.fld Reg.TB_LOCK 16 8 || !(s.tb.st == .locked || s.tb.st == .slewing) then s1
  else if s1.tb.st == .locked then (s1.setSlew off).tbEnter .slewing 16 off
  else (s1.modTb fun b => { b with slewRemain := off }).timeRecord 16 off

/-- The edge is rejected, and the third in a row ends the alignment (R62). -/
def State.todReject (s : State) (off : Int) : State :=
  let s1 := (s.bumpSat Reg.TB_TOD_STATUS 0 16).timeRecord 10 off
  if s.tb.todRejects = 2 then s1.modTb fun b => { b with aligned := false, todRejects := 0 }
  else s1.modTb fun b => { b with todRejects := b.todRejects + 1 }

/-- An edge of TOD_IN (R54, R61, R62). -/
def State.todPulse (s : State) (rising : Bool) : State :=
  if !s.todActive rising then s
  else
    let off := todOffset (s.fld Reg.TB_TOD_OFFSET 0 41) s.devTime
    if s.tb.ret == .awaitTod then s.correct off 1 3 4
    else if s.tb.ret == .held && (s.todResolves || s.tb.todHold) then s.setReg Reg.TB_OFFSET (wordOf off)
    else if s.tb.todFirst || !s.tb.aligned then
      if !(s.tb.st == .locked || s.tb.st == .slewing) then s else s.todAlign off
    else if off.natAbs ≤ s.fld Reg.TB_TOD_TOL 0 32 then s.todWithin off
    else s.todReject off

theorem exec_todEdge (s : State) (t : Nat) (rising : Bool) :
    exec (.todEdge ⟨t, rising⟩) s = atMoment t s fun x => x.todPulse rising := rfl

theorem State.todPulse_idle (s : State) (rising : Bool) (h : s.todActive rising = false) : s.todPulse rising = s := if_pos (by simp [h])

theorem State.todPulse_first (s : State) (rising : Bool) (hact : s.todActive rising = true) (h1 : s.tb.ret ≠ .awaitTod)
    (h2 : s.tb.ret ≠ .held) (hst : s.tb.st = .locked) (hfirst : s.tb.aligned = false ∨ s.tb.todFirst = true) :
    s.todPulse rising = s.todAlign (todOffset (s.fld Reg.TB_TOD_OFFSET 0 41) s.devTime) := by
  have hfirst' : (s.tb.todFirst || !s.tb.aligned) = true := by obtain h | h := hfirst <;> simp [h]
  simp only [State.todPulse, hact, beq_eq_false_iff_ne.mpr h1, beq_eq_false_iff_ne.mpr h2, hfirst', hst]
  rfl

theorem State.todPulse_later (s : State) (rising : Bool) (hact : s.todActive rising = true) (h1 : s.tb.ret ≠ .awaitTod)
    (h2 : s.tb.ret ≠ .held) (hal : s.tb.aligned = true) (hfirst : s.tb.todFirst = false) : s.todPulse rising =
      if (todOffset (s.fld Reg.TB_TOD_OFFSET 0 41) s.devTime).natAbs ≤ s.fld Reg.TB_TOD_TOL 0 32 then
        s.todWithin (todOffset (s.fld Reg.TB_TOD_OFFSET 0 41) s.devTime)
      else s.todReject (todOffset (s.fld Reg.TB_TOD_OFFSET 0 41) s.devTime) := by
  simp only [State.todPulse, hact, beq_eq_false_iff_ne.mpr h1, beq_eq_false_iff_ne.mpr h2, hal, hfirst]
  rfl

/-- Behind its correction the edge aligns the hub, or holds it (R62). -/
def State.todSettle (s : State) : State :=
  if s.tb.ret == .held then s.modTb fun b => { b with todHold := true } else s.setAligned

theorem State.todSettle_aligns (s : State) (h : s.tb.ret ≠ .held) : s.todSettle.tb.aligned = true ∧ s.todSettle.tb.u0 = 0 ∧
    s.todSettle.tb.todFirst = false := by
  rw [State.todSettle, if_neg (by simpa using h)]
  exact ⟨rfl, rfl, rfl⟩

theorem State.todSettle_keeps (s : State) : s.todSettle.tb.st = s.tb.st ∧ s.todSettle.tb.ret = s.tb.ret ∧
    s.todSettle.tb.slewRemain = s.tb.slewRemain ∧ s.todSettle.tb.todRejects = s.tb.todRejects ∧
    ∀ a, s.todSettle.reg a = s.reg a := by
  unfold State.todSettle
  split <;> exact ⟨rfl, rfl, rfl, rfl, fun _ => rfl⟩

theorem State.todSettle_holds (s : State) (h : s.tb.ret = .held) : s.todSettle.tb.todHold = true := by
  rw [State.todSettle, if_pos (by simp [h])]
  rfl

/-- What the first edge does in LOCKED (R56, R62). -/
theorem State.todAlign_does (s : State) (off : Int) (hst : s.tb.st = .locked) (hret : s.tb.ret ≠ .held) :
    let u := s.todAlign off
    u.reg Reg.TB_OFFSET = wordOf off ∧ u.tb.todRejects = 0 ∧
    (off ≤ (s.fld Reg.TB_RET_SLEW_MAX 0 48 : Int) → u.tb.aligned = true ∧ u.tb.u0 = 0 ∧ u.tb.todFirst = false) ∧
    (off ≠ 0 → off ≤ (s.fld Reg.TB_RET_SLEW_MAX 0 48 : Int) → u.tb.st = .slewing ∧ u.tb.slewRemain = off) ∧
    ((s.fld Reg.TB_RET_SLEW_MAX 0 48 : Int) < off → 0 < off → s.bit Reg.TB_RET_POLICY 0 = true →
      u.tb.st = .coasting ∧ u.tb.ret = .held ∧ u.tb.todHold = true) := by
  intro u
  obtain ⟨kst, kret, krem, krej, kreg⟩ : u.tb.st = (s.correct off 9 9 9).tb.st ∧ u.tb.ret = (s.correct off 9 9 9).tb.ret ∧
      u.tb.slewRemain = (s.correct off 9 9 9).tb.slewRemain ∧ u.tb.todRejects = 0 ∧
      ∀ a, u.reg a = (s.correct off 9 9 9).reg a := State.todSettle_keeps _
  refine ⟨(kreg _).trans (s.correct_offset ..), krej, fun hle => ?_, fun h0 hle => ?_, fun hlt hpos hp => ?_⟩
  · refine State.todSettle_aligns _ ?_
    obtain h0 | h0 := eq_or_ne off 0
    · subst h0
      rw [s.correct_zero, if_neg (by simp [hst])]
      simp [Tb.takeUp, hst]
    · simp [(s.correct_nonzero_slewed off 9 9 9 h0 (.inl hle)).ret, Tb.takeUp, hst]
  · have slewed := s.correct_nonzero_slewed off 9 9 9 h0 (.inl hle)
    exact ⟨kst.trans (by rw [slewed.st, if_neg h0]), krem.trans slewed.slewRemain⟩
  · obtain ⟨h1, h2, -⟩ := State.holdReturn_tb (s.setReg Reg.TB_OFFSET (wordOf off)) off hret
    rw [← s.correct_hold off 9 9 9 hpos hlt hp] at h1 h2
    exact ⟨kst.trans h1, kret.trans h2, State.todSettle_holds _ h2⟩

/-- What an edge within the tolerance does in LOCKED (R62). -/
theorem State.todWithin_does (s : State) (off : Int) (hst : s.tb.st = .locked) :
    (s.todWithin off).tb.todRejects = 0 ∧ (s.todWithin off).tb.aligned = s.tb.aligned ∧
    (off.natAbs ≤ s.fld Reg.TB_LOCK 16 8 → (s.todWithin off).tb.st = .locked) ∧
    (s.fld Reg.TB_LOCK 16 8 < off.natAbs → (s.todWithin off).tb.st = .slewing ∧ (s.todWithin off).tb.slewRemain = off) := by
  by_cases h : off.natAbs ≤ s.fld Reg.TB_LOCK 16 8
  · simp [State.todWithin, h, hst]
  · simp [State.todWithin, h, hst, State.setSlew]

/-- What an edge beyond the tolerance does (R62). -/
theorem State.todReject_does (s : State) (off : Int) (hal : s.tb.aligned = true) :
    (s.todReject off).fld Reg.TB_TOD_STATUS 0 16 = min 65535 (s.fld Reg.TB_TOD_STATUS 0 16 + 1) ∧
    (s.todReject off).tb.st = s.tb.st ∧ (s.todReject off).tb.aligned = !decide (s.tb.todRejects = 2) := by
  have count (f : Tb → Tb) : (((s.bumpSat Reg.TB_TOD_STATUS 0 16).timeRecord 10 off).modTb f).fld Reg.TB_TOD_STATUS 0 16 =
      min 65535 (s.fld Reg.TB_TOD_STATUS 0 16 + 1) := by
    rw [State.fld, State.reg_modTb, State.reg_timeRecord _ _ _ _ (by decide), ← State.fld]
    exact State.fld_bumpSat _ _ _ _ (by decide)
  unfold State.todReject
  dsimp only
  split
  · next h => exact ⟨count _, by simp, by simp [h]⟩
  · next h => exact ⟨count _, by simp, by simp [h, hal]⟩

theorem exec_todMiss (s : State) (t : Nat) : exec (.todMiss t) s = atMoment t s fun x =>
    if x.bit Reg.TB_TOD_CTRL 0 && x.tb.aligned then x.bumpSat Reg.TB_TOD_STATUS 16 16 else x := rfl

end Sys2Proof.Machine

section
open Sys2Proof.Machine

/-- Settles O3: the corrections by the four outcomes of `State.correct` (`Tb.Slewed`, `State.holdReturn_tb`), the edges of TOD_IN by
the branch they take. -/
theorem correctionRowsComplete : Obligations.CorrectionRowsComplete := by
  refine ⟨fun s t misalign => ⟨fun hst hs hm => ?_, fun h => ?_⟩, fun s t edge gap hs hst hret hgap => ⟨fun hp ht => ?_, fun h p0 hp0 => ?_⟩,
    fun s t edge gap => ⟨fun hst hgap => ?_, fun h => ?_⟩, fun s t hst h0 hdue => ?_, fun s t h => ?_,
    fun s t rising hact h1 h2 hst hfirst => ?_, fun s t rising hact h1 h2 hst hal hfirst => ?_, fun s t rising h => ?_,
    fun s t => ⟨fun hb hal => ?_, fun h => ?_⟩⟩
  · have hdue : ((s.advance t).tb.st == .handover && (s.advance t).tb.shadow == .locked && meetsR32 misalign) = true := by
      simp [hst, hs, meetsR32, hm]
    obtain ⟨h1, h2, h3⟩ := (s.advance t).handedOver_tb misalign
    obtain ⟨h4, h5⟩ := (s.advance t).swapped_counts
    refine Does.of_effect (exec_handoverSwap ..) ?_
    rw [if_pos hdue]
    exact ⟨h1, h2, (State.fld_handedOver _ _ _ _ _ (by decide) (by decide)).trans h4,
      (State.fld_handedOver _ _ _ _ _ (by decide) (by decide)).trans h5, h3⟩
  · refine Idles.of_effect (t := t) rfl (exec_handoverSwap ..) (if_neg ?_)
    simp only [State.advance_tb, meetsR32, Bool.and_eq_true, beq_iff_eq, decide_eq_true_eq]
    rintro ⟨⟨hst, hs⟩, hm⟩
    obtain h | h | h := h
    · exact h hst
    · exact h hs
    · omega
  · have hmeas : (s.advance t).measures gap = true := by simp [State.measures, hst, hs, hret, meetsR32, hgap]
    have hres : (s.advance t).todResolves = true := by simp [State.todResolves, hp, ht]
    refine Does.of_effect (exec_returnOffsetMeasured ..) ?_
    rw [if_neg (by simp [hmeas]), if_neg (by simp [hret]), if_pos hres]
    exact ⟨rfl, hst⟩
  · have hmeas : (s.advance t).measures gap = true := by simp [State.measures, hst, hs, hret, meetsR32, hgap]
    have hres : (s.advance t).todResolves = false := by obtain h | h := h <;> simp [State.todResolves, h]
    have hoff : (s.advance t).measured edge = residue p0 edge (s.tb.ref s.tb.acqRef).num (s.tb.ref s.tb.acqRef).den := by
      simp [State.measured, hp0, hst]
    refine Does.of_effect (exec_returnOffsetMeasured ..) ?_
    rw [if_neg (by simp [hmeas]), if_neg (by simp [hret]), if_neg (by simp [hres]), hoff]
    exact (s.advance t).correct_return _ hst hret
  · refine Idles.of_effect (t := t) rfl (exec_returnOffsetMeasured ..) (if_pos ?_)
    simp [State.measures, hst, meetsR32, Nat.not_le.mpr hgap]
  · refine Idles.of_effect (t := t) rfl (exec_returnOffsetMeasured ..) (if_pos ?_)
    obtain h | h := h <;> simp [State.measures, h]
  · refine Does.of_effect (exec_slewStep ..) ?_
    rw [if_pos (by simp [hst, h0, hdue])]
    exact (s.advance t).slewOnce_does hst
  · refine Idles.of_effect (t := t) rfl (exec_slewStep ..) (if_neg ?_)
    simp only [State.advance_tb, State.slewDue_advance, Bool.and_eq_true, beq_iff_eq, bne_iff_ne]
    rintro ⟨⟨hst, h0⟩, hdue⟩
    obtain h | h | h := h
    · exact h hst
    · exact h0 h
    · exact Nat.not_le.mpr h (of_decide_eq_true hdue)
  · refine Does.of_effect (exec_todEdge ..) ?_
    rw [State.todPulse_first (s.advance t) _ hact h1 h2 hst hfirst]
    exact (s.advance t).todAlign_does _ hst h2
  · refine Does.of_effect (exec_todEdge ..) ?_
    have hpulse := State.todPulse_later (s.advance t) rising hact h1 h2 hal hfirst
    dsimp only
    split
    · next htol =>
      obtain ⟨k1, k2, k3, k4⟩ := (s.advance t).todWithin_does (todOffset (s.fld Reg.TB_TOD_OFFSET 0 41) (s.advance t).devTime) hst
      rw [hpulse.trans (if_pos htol)]
      exact ⟨k1, k2.trans hal, k3, k4⟩
    · next htol =>
      obtain ⟨k1, k2, k3⟩ := (s.advance t).todReject_does (todOffset (s.fld Reg.TB_TOD_OFFSET 0 41) (s.advance t).devTime) hal
      rw [hpulse.trans (if_neg htol)]
      exact ⟨k1, k2.trans hst, k3⟩
  · refine Idles.of_effect (t := t) rfl (exec_todEdge ..) (State.todPulse_idle _ _ ?_)
    obtain h | h | h := h <;> simp [State.todActive, h]
  · refine Does.of_effect (exec_todMiss ..) ?_
    rw [if_pos (by simp [hb, hal])]
    exact ⟨State.fld_bumpSat _ _ _ _ (by decide), by simp⟩
  · refine Idles.of_effect (t := t) rfl (exec_todMiss ..) (if_neg ?_)
    obtain h | h := h <;> simp [h]

end


namespace Sys2Proof.Machine

/-! ### Writes of TB_CMD and TB_CTRL -/

/-- A write of a register of the time base has reached its own effect: the time base, device time and the other registers, the
epoch of the block aside, are as before (R321, R325). -/
structure State.TbWritten (s x : State) (off : Nat) (new : Word) : Prop where
  tb : x.tb = s.tb
  devTime : x.devTime = s.devTime
  own : x.reg off = new
  reg (a : Nat) : a ≠ off → a ≠ Reg.GBL_EPOCH 0 → x.reg a = s.reg a

/-- What is stored by a write of `raw` to a register that holds `old`, through a mask. -/
def stored (old raw : Word) (mask : Nat) : Word := (old &&& ~~~BitVec.ofNat 64 mask) ||| (raw &&& BitVec.ofNat 64 mask)

theorem State.tbWritten_setReg (s : State) (h : Hit) (new : Word) (he : h.epoch = some 1) (hm : h.row.mask ≠ 0) :
    s.TbWritten (((s.rewritten h.reg).countEpoch h).setReg h.reg new).cfgAll h.reg new := by
  have counted : (s.rewritten h.reg).countEpoch h = (s.rewritten h.reg).bumpEpoch 1 := by
    simp [State.countEpoch, he, hm]
  have kept (x : State) : x.TbWritten ((x.bumpEpoch 1).setReg h.reg new).cfgAll h.reg new :=
    ⟨by simp, by simp, by simp, fun a h1 h2 => by
      rw [State.reg_cfgAll, State.reg_setReg, if_neg h1, State.reg_bumpEpoch _ _ _ h2]⟩
  obtain ⟨h1, h2, h3, h4⟩ := kept (s.rewritten h.reg)
  rw [counted]
  exact ⟨h1, h2, h3, h4⟩

/-- A write of a near register of the time base without a range, through a port that takes writes (R310, R321). -/
theorem State.write32_tb (s : State) (p : Port) (v : Nat) (h : Hit) (hp : s.portReady p) (hr : regAt h.reg = some h)
    (hm : mspiAt h.reg = some h) (hrow : h.row.wide = false ∧ h.row.msk = false ∧ h.row.key = false ∧ h.row.far = false)
    (hmask : h.row.mask ≠ 0) (he : h.epoch = some 1) (ha : h.reg % 4 = 0 ∧ h.reg < 0x100000)
    (hne : h.reg ≠ Reg.GBL_CTRL ∧ h.reg ≠ Reg.GBL_KEY ∧ h.reg ≠ Reg.GBL_SNAP_CMD) (hrange : ∀ new, rangeTb h.reg new = []) :
    let raw : Word := BitVec.setWidth 64 (BitVec.ofNat 32 v)
    let new := stored (s.reg h.reg) raw h.row.mask
    s.write32 p h.reg v =
      (((s.rewritten h.reg).countEpoch h).setReg h.reg new).tookTb h.reg (s.reg h.reg) new raw := by
  obtain ⟨hwide, hmsk, hkey, hfar⟩ := hrow
  intro raw new
  have hfaults : s.rangeFaults h (s.reg h.reg) new raw = [] := by simp [State.rangeFaults, he, hrange]
  rw [State.write32_open s p h.reg v h hp hr hm hwide ha.1 ha.2 hne.1,
    State.writeReg_takes s p h raw hp.2.1 hmsk hkey hfar (.inl hmask) hne.2.1 hne.2.2 new rfl hfaults]
  simp [State.takeWrite, he]

/-- TB_CMD and TB_CTRL as a port reaches them. -/
def tbCmdHit : Hit := { reg := Reg.TB_CMD, upper := false, row := { off := 0x4, mask := 0x1F }, epoch := some 1, inst := 0 }
def tbCtrlHit : Hit :=
  { reg := Reg.TB_CTRL, upper := false, row := { off := 0x0, mask := 0x1F, reset := 0x16 }, epoch := some 1, inst := 0 }

theorem regAt_tbCmd : regAt Reg.TB_CMD = some tbCmdHit := by decide
theorem mspiAt_tbCmd : mspiAt Reg.TB_CMD = some tbCmdHit := by decide
theorem regAt_tbCtrl : regAt Reg.TB_CTRL = some tbCtrlHit := by decide
theorem mspiAt_tbCtrl : mspiAt Reg.TB_CTRL = some tbCtrlHit := by decide

/-- The commands of TB_CMD, in their order (R68). -/
def State.tbCommands (s : State) (raw : Word) : State :=
  let s3 := if raw.getLsbD 0 then s.tbApply else s
  let s4 := if raw.getLsbD 1 then s3.tbSlew else s3
  let s5 := if raw.getLsbD 2 then s4.tbAccept (raw.getLsbD 3) else s4
  if raw.getLsbD 4 then s5.tbLatch else s5

theorem State.tookTb_cmd (s : State) (old new raw : Word) :
    s.tookTb Reg.TB_CMD old new raw = (s.cfgAll.setReg Reg.TB_CMD (raw &&& 8)).tbCommands raw := rfl

theorem State.tookTb_ctrl (s : State) (old new raw : Word) : s.tookTb Reg.TB_CTRL old new raw =
    if old.getLsbD 0 != new.getLsbD 0 then s.cfgAll.actOnSelection else s.cfgAll := rfl

theorem State.TbWritten.setReg {s x : State} {off : Nat} {new : Word} (h : s.TbWritten x off new) (v : Word) :
    s.TbWritten (x.setReg off v) off v :=
  ⟨h.tb, h.devTime, by simp, fun a ha hb => by rw [State.reg_setReg, if_neg ha, h.reg a ha hb]⟩

theorem State.write32_tbCmd (s : State) (p : Port) (v : Nat) (hp : s.portReady p) :
    ∃ x new, s.TbWritten x Reg.TB_CMD new ∧ s.write32 p Reg.TB_CMD v = x.tbCommands (BitVec.setWidth 64 (BitVec.ofNat 32 v)) := by
  have hw := s.write32_tb p v tbCmdHit hp regAt_tbCmd mspiAt_tbCmd ⟨rfl, rfl, rfl, rfl⟩ (by decide) rfl (by decide) (by decide)
    fun _ => rfl
  exact ⟨_, _, (s.tbWritten_setReg tbCmdHit _ rfl (by decide)).setReg _, hw.trans (State.tookTb_cmd _ _ _ _)⟩

/-- A write that sets one command bit reaches that command alone (R68). -/
theorem State.writeTbCmd_apply (s : State) (p : Port) (hp : s.portReady p) :
    ∃ x new, s.TbWritten x Reg.TB_CMD new ∧ s.writeTbCmd p 0 = x.tbApply := by
  obtain ⟨x, new, hx, e⟩ := s.write32_tbCmd p (2 ^ 0 + 8 * b2n (s.bit Reg.TB_CMD 3)) hp
  refine ⟨x, new, hx, e.trans ?_⟩
  cases s.bit Reg.TB_CMD 3 <;> rfl

theorem State.writeTbCmd_slew (s : State) (p : Port) (hp : s.portReady p) :
    ∃ x new, s.TbWritten x Reg.TB_CMD new ∧ s.writeTbCmd p 1 = x.tbSlew := by
  obtain ⟨x, new, hx, e⟩ := s.write32_tbCmd p (2 ^ 1 + 8 * b2n (s.bit Reg.TB_CMD 3)) hp
  refine ⟨x, new, hx, e.trans ?_⟩
  cases s.bit Reg.TB_CMD 3 <;> rfl

theorem State.writeTbCmd_latch (s : State) (p : Port) (hp : s.portReady p) :
    ∃ x new, s.TbWritten x Reg.TB_CMD new ∧ s.writeTbCmd p 4 = x.tbLatch := by
  obtain ⟨x, new, hx, e⟩ := s.write32_tbCmd p (2 ^ 4 + 8 * b2n (s.bit Reg.TB_CMD 3)) hp
  refine ⟨x, new, hx, e.trans ?_⟩
  cases s.bit Reg.TB_CMD 3 <;> rfl

theorem State.writeTbCmd_accept (s : State) (p : Port) (byStep : Bool) (hp : s.portReady p) :
    ∃ x new, s.TbWritten x Reg.TB_CMD new ∧ s.write32 p Reg.TB_CMD (4 + 8 * b2n byStep) = x.tbAccept byStep := by
  obtain ⟨x, new, hx, e⟩ := s.write32_tbCmd p (4 + 8 * b2n byStep) hp
  refine ⟨x, new, hx, e.trans ?_⟩
  cases byStep <;> rfl

theorem exec_tbApply (s : State) (t : Nat) (p : Port) : exec (.tbApply t p) s = atMoment t s fun x => x.writeTbCmd p 0 := rfl
theorem exec_tbSlew (s : State) (t : Nat) (p : Port) : exec (.tbSlew t p) s = atMoment t s fun x => x.writeTbCmd p 1 := rfl
theorem exec_tbAccept (s : State) (t : Nat) (p : Port) (byStep : Bool) :
    exec (.tbAccept t p byStep) s = atMoment t s fun x => x.write32 p Reg.TB_CMD (4 + 8 * b2n byStep) := rfl
theorem exec_tbLatch (s : State) (t : Nat) (p : Port) : exec (.tbLatch t p) s = atMoment t s fun x => x.writeTbCmd p 4 := rfl
theorem exec_refSelect (s : State) (t : Nat) (p : Port) (sel : Ref) :
    exec (.refSelect t p sel) s = atMoment t s fun x => x.writeBit p Reg.TB_CTRL 0 (sel == .refB) := rfl

/-- TB_CMD.slew in LOCKED begins the slew (R47). -/
theorem State.tbSlew_locked (s : State) (hst : s.tb.st = .locked) (h0 : sx 64 (s.reg Reg.TB_SLEW_REQ).toNat ≠ 0) :
    s.tbSlew.tb.st = .slewing ∧ s.tbSlew.tb.slewRemain = sx 64 (s.reg Reg.TB_SLEW_REQ).toNat ∧ s.tbSlew.tb.slewTotal = 0 := by
  simp [State.tbSlew, hst, h0, State.setSlew]

/-- In SLEWING it adds to the remainder (R47). -/
theorem State.tbSlew_slewing (s : State) (hst : s.tb.st = .slewing) :
    s.tbSlew.tb.slewRemain = s.tb.slewRemain + sx 64 (s.reg Reg.TB_SLEW_REQ).toNat ∧
    s.tbSlew.tb.st = (if s.tb.slewRemain + sx 64 (s.reg Reg.TB_SLEW_REQ).toNat = 0 then .locked else .slewing) := by
  have added (f : Tb → Tb) (v : Int) (hf : (f s.tb).st = .slewing) : (((s.modTb f).timeRecord 16 v).slewDone).tb.slewRemain = (f s.tb).slewRemain ∧
      (((s.modTb f).timeRecord 16 v).slewDone).tb.st = if (f s.tb).slewRemain = 0 then .locked else .slewing := by
    have htb : ((s.modTb f).timeRecord 16 v).tb = f s.tb := (State.timeRecord_keeps _ _ _).2.2.2.2.1
    obtain ⟨h1, -, -, -, h5⟩ := State.slewDone_keeps ((s.modTb f).timeRecord 16 v) (by rw [htb, hf])
    rw [htb] at h1 h5
    exact ⟨h1, h5⟩
  simp only [State.tbSlew, hst]
  exact added _ _ hst

/-- Elsewhere it is refused (R47). -/
theorem State.tbSlew_refused (s : State) (h1 : s.tb.st ≠ .locked) (h2 : s.tb.st ≠ .slewing) : s.tbSlew = s.raise .tbCmdState 0 := by
  unfold State.tbSlew
  split
  · next h => exact absurd h h1
  · next h => exact absurd h h2
  · rfl

theorem State.tbAccept_refused (s : State) (byStep : Bool) (h : s.tb.ret ≠ .held) : s.tbAccept byStep = s.raise .tbCmdState 0 := by
  simp [State.tbAccept, h]

theorem State.tbAccept_back (s : State) (h : s.tb.ret = .held) (hneg : sx 64 (s.reg Reg.TB_OFFSET).toNat < 0) :
    s.tbAccept true = s.raise .tbStepBack 0 := by
  simp [State.tbAccept, h, hneg]

/-- A held return is accepted (R58). -/
def Tb.accepted (b : Tb) : Tb := { b.swap with ret := .none }

/-- TB_CMD.accept by slew (R58). -/
theorem State.tbAccept_slew (s : State) (h : s.tb.ret = .held) :
    s.tb.accepted.Slewed (s.tbAccept false).tb (sx 64 (s.reg Reg.TB_OFFSET).toNat) := by
  simp only [State.tbAccept, h, bne_self_eq_false, Bool.false_and, Bool.false_eq_true, if_false]
  split
  · exact ((s.modTb Tb.accepted).correctBySlew_slewed _ _ _).setAligned
  · exact ((s.modTb Tb.accepted).correctBySlew_slewed _ _ _).firstLock s

/-- TB_CMD.accept by step (R58). -/
theorem State.tbAccept_step (s : State) (h : s.tb.ret = .held) (h0 : 0 ≤ sx 64 (s.reg Reg.TB_OFFSET).toNat) :
    let off := sx 64 (s.reg Reg.TB_OFFSET).toNat
    s.tb.accepted.Slewed (s.tbAccept true).tb (off % 512) ∧
    (s.tbAccept true).devTime = min spanMax (s.devTime + (off - off % 512).toNat) := by
  intro off
  have hback : decide (sx 64 (s.reg Reg.TB_OFFSET).toNat < 0) = false := decide_eq_false (by omega)
  simp only [State.tbAccept, h, bne_self_eq_false, Bool.true_and, Bool.false_eq_true, if_false, hback, if_true]
  split
  · exact ⟨((s.modTb Tb.accepted).correctByStep_slewed _ _ _).setAligned, by simp [off]⟩
  · exact ⟨((s.modTb Tb.accepted).correctByStep_slewed _ _ _).firstLock s, by simp [off]⟩

/-- TB_CMD.latch (R66). -/
theorem State.tbLatch_does (s : State) : s.tbLatch.reg Reg.TB_LATCH_LO = BitVec.ofNat 64 s.devTime ∧
    s.tbLatch.fld Reg.TB_LATCH_HI 0 8 = s.devTime / 2 ^ 64 % 256 ∧
    s.tbLatch.fld Reg.TB_LATCH_HI 8 16 = (s.fld Reg.TB_LATCH_HI 8 16 + 1) % 65536 := by
  have other : (s.setReg Reg.TB_LATCH_LO (BitVec.ofNat 64 s.devTime)).fld Reg.TB_LATCH_HI 8 16 = s.fld Reg.TB_LATCH_HI 8 16 := by
    rw [State.fld, State.reg_setReg, if_neg (by decide), ← State.fld]
  refine ⟨?_, ?_, ?_⟩
  · rw [State.tbLatch, State.reg_bump, if_neg (by decide), State.reg_setFld, if_neg (by decide), State.reg_setReg, if_pos rfl]
  · rw [State.tbLatch, State.bump, State.fld_bumpBy_other _ _ _ _ _ _ _ (by decide) (by decide)]
    exact State.fld_setFld _ _ _ _ _ (by decide)
  · rw [State.tbLatch, ← other, ← State.fld_setFld_other (s.setReg Reg.TB_LATCH_LO (BitVec.ofNat 64 s.devTime)) Reg.TB_LATCH_HI 0 8
      (s.devTime / 2 ^ 64) 8 16 (by decide) (by decide)]
    exact State.fld_bump _ _ _ _ (by decide)

/-- The lowest bit is stored as it is written, where the mask has it. -/
theorem stored_low (old : Word) (v : Nat) :
    (stored old (BitVec.setWidth 64 (BitVec.ofNat 32 v)) 0x1F).getLsbD 0 = v.testBit 0 := by
  have hmask : (BitVec.ofNat 64 0x1F).getLsbD 0 = true := rfl
  simp only [stored, BitVec.getLsbD_or, BitVec.getLsbD_and, BitVec.getLsbD_not, hmask, BitVec.getLsbD_setWidth, BitVec.getLsbD_ofNat]
  simp

/-- A write of TB_CTRL; the selection acts where it changes (R60). -/
theorem State.write32_tbCtrl (s : State) (p : Port) (v : Nat) (hp : s.portReady p) :
    ∃ x new, s.TbWritten x Reg.TB_CTRL new ∧ new.getLsbD 0 = v.testBit 0 ∧ s.write32 p Reg.TB_CTRL v =
      if s.bit Reg.TB_CTRL 0 != new.getLsbD 0 then x.actOnSelection else x := by
  have hw := s.write32_tb p v tbCtrlHit hp regAt_tbCtrl mspiAt_tbCtrl ⟨rfl, rfl, rfl, rfl⟩ (by decide) rfl (by decide) (by decide)
    fun _ => rfl
  exact ⟨_, _, s.tbWritten_setReg tbCtrlHit _ rfl (by decide), stored_low _ _, hw.trans (State.tookTb_ctrl _ _ _ _)⟩

/-- A write of the selection (R60). -/
theorem State.writeBit_refSel (s : State) (p : Port) (b : Bool) (hp : s.portReady p) :
    ∃ x new, s.TbWritten x Reg.TB_CTRL new ∧ new.getLsbD 0 = b ∧ s.writeBit p Reg.TB_CTRL 0 b =
      if s.bit Reg.TB_CTRL 0 != b then x.actOnSelection else x := by
  have hbit : (putField (s.reg Reg.TB_CTRL) 0 1 (b2n b)).toNat.testBit 0 = b := by
    rw [testBit_toNat_putField _ _ _ _ _ (by decide), if_pos (by decide)]
    cases b <;> rfl
  obtain ⟨x, new, hx, hnew, e⟩ := s.write32_tbCtrl p (putField (s.reg Reg.TB_CTRL) 0 1 (b2n b)).toNat hp
  rw [hbit] at hnew
  rw [hnew] at e
  exact ⟨x, new, hx, hnew, e⟩

/-- A selection of a reference that is not qualified waits (R60). -/
theorem State.actOnSelection_waits (s : State) (h : (s.tb.ref s.selRef).ok = false) : s.actOnSelection.tb.selPending = true := by
  simp [State.actOnSelection, h]

/-- A selection of a qualified reference that is not the live one switches a locked line to it (R60). -/
theorem State.actOnSelection_switches (s : State) (hok : (s.tb.ref s.selRef).ok = true) (hst : s.tb.st = .locked ∨ s.tb.st = .slewing)
    (hl : s.tb.liveRef ≠ s.selRef) : s.actOnSelection = (s.selWaits false).switchTo s.selRef := by
  have hl' : (s.tb.liveRef == s.selRef) = false := by simpa using hl
  obtain hst | hst := hst <;> simp [State.actOnSelection, State.selWaits, hok, hst, hl']

end Sys2Proof.Machine

section
open Sys2Proof.Machine

/-- Settles O5: a write of TB_CMD or TB_CTRL reaches the command in a state that agrees with the one before
(`State.TbWritten`), and the command does as its own lemma says. -/
theorem tbCommandRowsComplete : Obligations.TbCommandRowsComplete := by
  refine ⟨fun s t p hp => ?_, fun s t p hp => ⟨fun hst h0 => ?_, fun hst => ?_, fun h1 h2 => ?_⟩,
    fun s t p byStep hp => ⟨fun hret hb => ?_, fun hret hb h0 => ?_, fun hret hb hneg => ?_, fun hret => ?_⟩,
    fun s t p hp => ?_, fun s t p sel hp => ?_⟩
  · obtain ⟨x, new, hx, e⟩ := (s.advance t).writeTbCmd_apply p hp
    refine Does.of_effect (exec_tbApply ..) ?_
    rw [e]
    rfl
  · obtain ⟨x, new, hx, e⟩ := (s.advance t).writeTbCmd_slew p hp
    have hreq : x.reg Reg.TB_SLEW_REQ = s.reg Reg.TB_SLEW_REQ := hx.reg _ (by decide) (by decide)
    refine Does.of_effect (exec_tbSlew ..) ?_
    rw [e, ← hreq]
    exact x.tbSlew_locked (by rw [hx.tb]; exact hst) (by rw [hreq]; exact h0)
  · obtain ⟨x, new, hx, e⟩ := (s.advance t).writeTbCmd_slew p hp
    have hreq : x.reg Reg.TB_SLEW_REQ = s.reg Reg.TB_SLEW_REQ := hx.reg _ (by decide) (by decide)
    have htb : x.tb = s.tb := hx.tb
    refine Does.of_effect (exec_tbSlew ..) ?_
    rw [e, ← hreq, ← htb]
    exact x.tbSlew_slewing (by rw [htb]; exact hst)
  · obtain ⟨x, new, hx, e⟩ := (s.advance t).writeTbCmd_slew p hp
    have htb : x.tb = s.tb := hx.tb
    refine Does.of_effect (exec_tbSlew ..) ?_
    rw [e, x.tbSlew_refused (by rw [htb]; exact h1) (by rw [htb]; exact h2)]
    exact ⟨(x.raise_keeps ..).2.2.2.2.1.trans htb, raise_last ..⟩
  · subst hb
    obtain ⟨x, new, hx, e⟩ := (s.advance t).writeTbCmd_accept p false hp
    have hoff : x.reg Reg.TB_OFFSET = s.reg Reg.TB_OFFSET := hx.reg _ (by decide) (by decide)
    have htb : x.tb = s.tb := hx.tb
    have slewed := x.tbAccept_slew (by rw [htb]; exact hret)
    rw [htb, hoff] at slewed
    refine Does.of_effect (exec_tbAccept ..) ?_
    rw [e]
    exact ⟨slewed.ret, slewed.line, slewed.slewRemain, slewed.st⟩
  · subst hb
    obtain ⟨x, new, hx, e⟩ := (s.advance t).writeTbCmd_accept p true hp
    have hoff : x.reg Reg.TB_OFFSET = s.reg Reg.TB_OFFSET := hx.reg _ (by decide) (by decide)
    have htb : x.tb = s.tb := hx.tb
    obtain ⟨slewed, htime⟩ := x.tbAccept_step (by rw [htb]; exact hret) (by rw [hoff]; exact h0)
    rw [htb, hoff] at slewed
    rw [hx.devTime, hoff] at htime
    refine Does.of_effect (exec_tbAccept ..) ?_
    rw [e]
    exact ⟨slewed.ret, slewed.line, slewed.slewRemain, htime⟩
  · subst hb
    obtain ⟨x, new, hx, e⟩ := (s.advance t).writeTbCmd_accept p true hp
    have hoff : x.reg Reg.TB_OFFSET = s.reg Reg.TB_OFFSET := hx.reg _ (by decide) (by decide)
    have htb : x.tb = s.tb := hx.tb
    refine Does.of_effect (exec_tbAccept ..) ?_
    rw [e, x.tbAccept_back (by rw [htb]; exact hret) (by rw [hoff]; exact hneg)]
    exact ⟨(x.raise_keeps ..).2.2.2.2.1.trans htb, raise_last ..⟩
  · obtain ⟨x, new, hx, e⟩ := (s.advance t).writeTbCmd_accept p byStep hp
    have htb : x.tb = s.tb := hx.tb
    refine Does.of_effect (exec_tbAccept ..) ?_
    rw [e, x.tbAccept_refused byStep (by rw [htb]; exact hret)]
    exact ⟨(x.raise_keeps ..).2.2.2.2.1.trans htb, raise_last ..⟩
  · obtain ⟨x, new, hx, e⟩ := (s.advance t).writeTbCmd_latch p hp
    have hhi : x.fld Reg.TB_LATCH_HI 8 16 = s.fld Reg.TB_LATCH_HI 8 16 := by
      rw [State.fld, hx.reg _ (by decide) (by decide)]
      rfl
    have latched := x.tbLatch_does
    rw [hx.devTime, hhi] at latched
    refine Does.of_effect (exec_tbLatch ..) ?_
    rw [e]
    exact latched
  · obtain ⟨x, new, hx, hnew, e⟩ := (s.advance t).writeBit_refSel p (sel == .refB) hp
    have htb : x.tb = s.tb := hx.tb
    have hsel : x.selRef = sel := by
      rw [State.selRef, State.bit, hx.own, hnew]
      cases sel <;> rfl
    have hchange : ((s.advance t).bit Reg.TB_CTRL 0 != (sel == .refB)) = decide (s.selRef ≠ sel) := by
      rw [State.bit_advance, State.selRef]
      cases s.bit Reg.TB_CTRL 0 <;> cases sel <;> rfl
    rw [hchange] at e
    refine Does.of_effect (exec_refSelect ..) ?_
    rw [e]
    by_cases hne : s.selRef = sel
    · rw [if_neg (by simp [hne])]
      exact ⟨hsel, fun h => absurd hne h, fun h => absurd hne h⟩
    · rw [if_pos (by simp [hne])]
      refine ⟨?_, fun _ hok => x.actOnSelection_waits (by rw [hsel, htb]; exact hok), fun _ hok hst hl => ?_⟩
      · rw [State.settle_selRef, State.selRef, State.bit, x.reg_actOnSelection _ (by decide) (by decide), ← State.bit, ← State.selRef]
        exact hsel
      · rw [x.actOnSelection_switches (by rw [hsel, htb]; exact hok) (by rw [htb]; exact hst) (by rw [hsel, htb]; exact hl), hsel]
        have switched := (x.selWaits false).switchTo_searches sel
        exact ⟨by simp [switched.st], switched.acqRef, switched.shadow⟩

end

namespace Sys2Proof.Machine

/-! ### Writes of a front end's registers -/

/-- A register of a front end as a port reaches it. -/
def feHit (n : Nat) (r : RegRow) : Hit :=
  { reg := 0x4000 + r.off + 64 * n, upper := false, row := r, epoch := some 3, inst := n }

/-- The rows of FE_ALARM and of FE_SAMP. -/
def feAlarmRow : RegRow := { off := 0x18, mask := 0x3F1F }
def feSampRow : RegRow := { off := 0xC, mask := 0xFFFF, far := true, reset := 0x3E8 }

/-- A front end's register within its block: the unit and the offset in the unit. -/
theorem feUnit_place (n o : Nat) (ho : o < 64) :
    (0x4000 + o + 64 * n - 0x4000) / 64 = n ∧ (0x4000 + o + 64 * n - 0x4000) % 64 = o := by omega

theorem feBlock_hit (n : Nat) (r : RegRow) (hr : findRow rowsFe r.off = some (r, r.off)) (hg : r.group = false) :
    feBlock.hit n r.off = some (feHit n r) := by
  simp [Block.hit, feBlock, hr, hg, feHit, Nat.add_right_comm]

theorem regAt_fe (n : Fin 256) (r : RegRow) (ho : r.off < 64) (hr : findRow rowsFe r.off = some (r, r.off))
    (hg : r.group = false) : regAt (0x4000 + r.off + 64 * n) = some (feHit n r) := by
  have hb := findBlock_fe (0x4000 + r.off + 64 * n) (by omega) (by omega)
  obtain ⟨hunit, hoff⟩ := feUnit_place n r.off ho
  have hhit := feBlock_hit n r hr hg
  simp only [feBlock] at hb hhit
  simp [regAt, hb, hunit, hoff, hhit]

theorem mspiAt_fe (n : Fin 256) (r : RegRow) (ho : r.off < 64) (ha : r.off % 4 = 0)
    (hr : findRow rowsFe r.off = some (r, r.off)) (hg : r.group = false) :
    mspiAt (0x4000 + r.off + 64 * n) = some (feHit n r) := by
  have hb := findBlock_fe (0x4000 + r.off + 64 * n) (by omega) (by omega)
  have haddr : (0x4000 + r.off + 64 * n) % 0x20000 / 4 * 4 = 0x4000 + r.off + 64 * n := by omega
  have hlow : ¬0x10000 ≤ 0x4000 + r.off + 64 * n.val := by omega
  obtain ⟨hunit, hoff⟩ := feUnit_place n r.off ho
  have hn : n.val % 256 = n := Nat.mod_eq_of_lt n.2
  have ho' : r.off % 64 = r.off := Nat.mod_eq_of_lt ho
  have hhit := feBlock_hit n r hr hg
  simp only [feBlock] at hb hhit
  simp only [mspiAt, mspiPlace, haddr, if_neg hlow, hb, hunit, hoff, hn, ho', hhit]

/-- The registers below FLT's take no report of a fault. -/
theorem reportReg_low {a : Nat} (h : a < 0x12008) : reportReg a = false := by
  have hne : ∀ b, 0x12008 ≤ b → (a == b) = false := fun b hb => by simp; omega
  simp [reportReg, hne, h]

/-- A write of a whole 32-bit register of a front end through a port that takes writes (R310, R315, R321). -/
theorem State.write32_fe (s : State) (p : Port) (n : Fin 256) (r : RegRow) (v : Nat) (hp : s.portReady p) (ho : r.off < 64)
    (ha : r.off % 4 = 0) (hr : findRow rowsFe r.off = some (r, r.off)) (hg : r.group = false) (hw : r.wide = false) :
    s.write32 p (0x4000 + r.off + 64 * n) v = (s.writeReg p (feHit n r) (BitVec.setWidth 64 (BitVec.ofNat 32 v))).2 :=
  State.write32_open s p _ v (feHit n r) hp (regAt_fe n r ho hr hg) (mspiAt_fe n r ho ha hr hg) hw (by omega) (by omega)
    (by simp only [feHit, Reg.GBL_CTRL]; omega)

/-- A value outside its range leaves the register as it is and raises the block's fault (R321). -/
theorem State.writeReg_refuses (s : State) (p : Port) (h : Hit) (raw : Word) (hs : s.gbl.safe = false)
    (hm : h.row.msk = false) (hk : h.row.key = false) (hf : s.gbl.far = none) (hn : h.row.mask ≠ 0)
    (h1 : h.reg ≠ Reg.GBL_KEY) (h2 : h.reg ≠ Reg.GBL_SNAP_CMD) (f : FaultCode) (param : Nat)
    (hr : s.rangeFaults h (s.reg h.reg) (stored (s.reg h.reg) raw h.row.mask) raw = [(f, param)]) :
    (s.writeReg p h raw).2 = s.raise f param := by
  rw [stored] at hr
  simp [State.writeReg, hs, hm, hk, hf, h1, h2, hn, hr]

/-- A bit is stored as it is written where the mask has it, and kept elsewhere. -/
theorem getLsbD_stored (old raw : Word) (mask i : Nat) (hi : i < 64) :
    (stored old raw mask).getLsbD i = if mask.testBit i then raw.getLsbD i else old.getLsbD i := by
  simp only [stored, BitVec.getLsbD_or, BitVec.getLsbD_and, BitVec.getLsbD_not, BitVec.getLsbD_ofNat, hi, decide_true, Bool.true_and]
  cases mask.testBit i <;> simp

/-- The low bits are stored as they are written, where the mask is of the low bits. -/
theorem stored_mod (old raw : Word) (w : Nat) (hw : w ≤ 64) : (stored old raw (2 ^ w - 1)).toNat % 2 ^ w = raw.toNat % 2 ^ w := by
  apply Nat.eq_of_testBit_eq
  intro i
  by_cases hi : i < w
  · have hbit := getLsbD_stored old raw (2 ^ w - 1) i (by omega)
    rw [Nat.testBit_two_pow_sub_one, decide_eq_true hi, if_pos rfl] at hbit
    simp only [Nat.testBit_mod_two_pow, hi, decide_true, Bool.true_and]
    exact hbit
  · simp [Nat.testBit_mod_two_pow, hi]

/-- FE_SAMP refuses a period of 0 (R88). -/
theorem State.writeFeSamp_zero (s : State) (p : Port) (n : Fin 256) (raw : Word) (hs : s.gbl.safe = false)
    (hf : s.gbl.far = none) (h0 : raw.toNat % 2 ^ 16 = 0) :
    (s.writeReg p (feHit n feSampRow) raw).2 = s.raise .feRange n := by
  have hperiod : fieldOf (stored (s.reg (Reg.FE_SAMP n)) raw 0xFFFF).toNat 0 16 = 0 := by
    rw [fieldOf, pow_zero, Nat.div_one, ← h0]
    exact stored_mod _ _ 16 (by decide)
  have hreg : (feHit n feSampRow).reg = Reg.FE_SAMP n := rfl
  refine s.writeReg_refuses p _ raw hs rfl rfl hf (Nat.succ_ne_zero _) ?_ ?_ .feRange n ?_
  · rw [hreg, Reg.FE_SAMP, Reg.GBL_KEY]; omega
  · rw [hreg, Reg.FE_SAMP, Reg.GBL_SNAP_CMD]; omega
  · exact if_pos ⟨rfl, hperiod⟩

/-- A raised fault's parameter stands in FLT_LAST_PARAM (R445). -/
theorem State.raise_param (s : State) (f : FaultCode) (p : Nat) :
    (s.raise f p).reg Reg.FLT_LAST_PARAM = BitVec.ofNat 64 (p % 2 ^ 32) := by
  rw [reg_raise_other _ _ _ _ (by decide) (by decide), State.logFault]
  simp [Reg.FLT_LAST_PARAM, Reg.FLT_LAST_TIME_LO, Reg.FLT_LAST_TIME_HI]

theorem exec_registerWrite_one (s : State) (t : Nat) (p : Port) (off : Nat) (v : Dword) :
    exec (.registerWrite t p off [v] [15]) s = atMoment t s fun x => x.write32 p off v.toNat := by
  have heff : (fun x : State => x.write32 p off v.toNat) = fun x => x.portWrite p off [v] [15] := by
    simp [State.write32]
  rw [heff]
  rfl

end Sys2Proof.Machine

section
open Sys2Proof.Machine

/-- Settles O47: the write reaches the check of FE_SAMP's range, which finds FE_RANGE, and a raised fault leaves the
register, its working copy and the far path as they are. -/
theorem samplingPeriodIsNotZero : Obligations.SamplingPeriodIsNotZero := by
  intro s t p n v hp hfar h0
  have hraw : (BitVec.setWidth 64 (BitVec.ofNat 32 v.toNat)).toNat % 2 ^ 16 = 0 := by simpa using h0
  have hwrite : (s.advance t).write32 p (Reg.FE_SAMP n) v.toNat = (s.advance t).raise .feRange n :=
    ((s.advance t).write32_fe p n feSampRow v.toNat hp (by decide) rfl rfl rfl rfl).trans
      ((s.advance t).writeFeSamp_zero p n _ hp.2.1 hfar hraw)
  have hreport : reportReg (Reg.FE_SAMP n) = false := reportReg_low (by rw [Reg.FE_SAMP]; omega)
  refine Does.of_effect (exec_registerWrite_one ..) ?_
  rw [hwrite]
  refine ⟨State.reg_raise _ _ _ _ hreport, ?_, ?_, raise_last .., ?_⟩
  · simp [State.farReg, State.settle]
  · simpa [State.settle] using hfar
  · rw [State.settle_reg, State.raise_param, Nat.mod_eq_of_lt (by omega)]

end

namespace Sys2Proof.Machine

/-! ### The front end of an input, and what capture leaves of it -/

@[simp] theorem State.settle_input (w s : State) (t n : Nat) : (w.settle s t).input n = w.input n := rfl

/-- Inputs after an update of another part of the state. -/
theorem State.input_of_inputs (s u : State) (n : Nat) (h : u.inputs = s.inputs) : u.input n = s.input n := by
  rw [State.input, h, State.input]

@[simp] theorem State.input_setReg (s : State) (a : Nat) (v : Word) (n : Nat) : (s.setReg a v).input n = s.input n := rfl
@[simp] theorem State.input_setFld (s : State) (a lo w v n : Nat) : (s.setFld a lo w v).input n = s.input n :=
  State.input_of_inputs _ _ n (by simp)
@[simp] theorem State.input_bump (s : State) (a lo w n : Nat) : (s.bump a lo w).input n = s.input n :=
  State.input_of_inputs _ _ n (by simp)
@[simp] theorem State.input_push (s : State) (m c : Nat) (e : Option Nat) (r : Record) (n : Nat) :
    (s.push m c e r).input n = s.input n := State.input_of_inputs _ _ n (by simp)
@[simp] theorem State.input_wakeCause (s : State) (i n : Nat) : (s.wakeCause i).input n = s.input n := rfl
@[simp] theorem State.reg_wakeCause (s : State) (i a : Nat) : (s.wakeCause i).reg a = s.reg a := rfl

/-- The front-end side of an input (03): what its comparators, its windows, its samples and its alarm have left. -/
structure FrontEnd where
  zone : Zone
  accepted : Zone
  settling : Bool
  cross : Option Crossing
  alarmDue : Option (Zone × Nat)
  windows : List (Nat × Nat)
  lastSample : Option Nat

/-- The front-end side of an input's state. -/
def Input.fe (x : Input) : FrontEnd :=
  { zone := x.zone, accepted := x.accepted, settling := x.settling, cross := x.cross, alarmDue := x.alarmDue,
    windows := x.windows, lastSample := x.lastSample }

/-- The front-end side of input n. -/
def State.fe (s : State) (n : Nat) : FrontEnd := (s.input n).fe

@[simp] theorem State.fe_setInput (s : State) (n : Nat) (x : Input) : (s.setInput n x).fe n = x.fe := by simp [State.fe]
@[simp] theorem State.fe_bump (s : State) (a lo w n : Nat) : (s.bump a lo w).fe n = s.fe n := by simp [State.fe]

/-! #### The mailbag -/

@[simp] theorem Input.fe_closeFull (x : Input) : x.closeFull.fe = x.fe := by
  unfold Input.closeFull
  split <;> rfl

@[simp] theorem Input.fe_writeFrag (x : Input) (now : Nat) (f : Fragment) (item : Option Item) :
    (x.writeFrag now f item).fe = x.fe := Input.fe_closeFull _

@[simp] theorem Input.fe_writeFrags (now : Nat) (item : Option Item) (fs : List Fragment) (x : Input) :
    (Input.writeFrags now item x fs).fe = x.fe := by
  induction fs generalizing x with
  | nil => rfl
  | cons f g ih => cases g with
    | nil => exact Input.fe_writeFrag x now f item
    | cons k r => exact (ih _).trans (Input.fe_writeFrag x now f none)

@[simp] theorem Input.fe_unflush (x : Input) (cycle k : Nat) : (x.unflush cycle k).fe = x.fe := by
  unfold Input.unflush
  split
  · split <;> rfl
  · rfl

@[simp] theorem Input.fe_dropHit (x : Input) (cycle : Nat) : (x.dropHit cycle).fe = x.fe := by
  unfold Input.dropHit
  dsimp only
  split
  · split <;> rfl
  · rfl

@[simp] theorem Input.fe_amendLast (x : Input) (z : Zone) (st : Nat) : (x.amendLast z st).fe = x.fe := by
  unfold Input.amendLast
  split
  · split <;> rfl
  · rfl

/-! #### The groups of capture -/

/-- Capture has worked for input n: its front-end side and the count of its accepted edges are as they were. -/
structure State.CapturedFor (s u : State) (n : Nat) : Prop where
  fe : u.fe n = s.fe n
  count : u.reg (Reg.CAP_CNT_IN n) = s.reg (Reg.CAP_CNT_IN n)

theorem State.CapturedFor.refl (s : State) (n : Nat) : s.CapturedFor s n := ⟨rfl, rfl⟩

theorem State.CapturedFor.trans {s u v : State} {n : Nat} (h : s.CapturedFor u n) (k : u.CapturedFor v n) : s.CapturedFor v n :=
  ⟨k.fe.trans h.fe, k.count.trans h.count⟩

/-- An input is stored whose front-end side is as before. -/
theorem State.capturedFor_setInput (s : State) (n : Nat) (x : Input) (h : x.fe = s.fe n) : s.CapturedFor (s.setInput n x) n :=
  ⟨by simpa using h, by simp⟩

/-- A counter of capture other than that of accepted edges is written. -/
theorem State.capturedFor_setFld (s : State) (n a lo w v : Nat) (h : Reg.CAP_CNT_IN n ≠ a) : s.CapturedFor (s.setFld a lo w v) n :=
  ⟨by simp [State.fe], by simp [h]⟩

theorem State.capturedFor_bump (s : State) (n a lo w : Nat) (h : Reg.CAP_CNT_IN n ≠ a) : s.CapturedFor (s.bump a lo w) n :=
  s.capturedFor_setFld n a lo w _ h

theorem State.capturedFor_putInput (s : State) (n : Nat) (x : Input) (h : x.fe = s.fe n) : s.CapturedFor (s.putInput n x) n := by
  have stored := s.capturedFor_setInput n x h
  unfold State.putInput
  dsimp only
  split
  · exact stored.trans (State.capturedFor_setFld _ n _ _ _ _ (by simp [Reg.CAP_CNT_IN, Reg.CAP_FILL_MAX]))
  · exact stored

theorem State.capturedFor_putGroup (s : State) (n : Nat) (x : Input) (item : Option Item) (fs : List Fragment) (h : x.fe = s.fe n) :
    s.CapturedFor (s.putGroup n x item fs) n := s.capturedFor_putInput n _ (by simpa using h)

theorem State.capturedFor_writeGroup (s : State) (n : Nat) (g : List Mark) (item : Option Item) :
    s.CapturedFor (s.writeGroup n g item).2 n := by
  simp only [State.writeGroup]
  generalize groupFrags _ = fs
  split
  · exact s.capturedFor_putGroup n (s.input n).ovflWritten item fs rfl
  · exact .refl s n

theorem State.capturedFor_anchorGroup (s : State) (n time : Nat) (g : List Mark) (item : Option Item) :
    s.CapturedFor (s.anchorGroup n time g item) n := by
  have written := s.capturedFor_writeGroup n (.anchor (s.anchorTime n time) :: g) item
  unfold State.anchorGroup
  dsimp only
  split
  · exact written.trans (State.capturedFor_setInput _ n _ rfl)
  · exact written

theorem State.capturedFor_captureEst (s : State) (n : Nat) (z : Zone) : s.CapturedFor (s.captureEst n z) n :=
  s.capturedFor_anchorGroup n s.devTime _ _

theorem State.capturedFor_noteLate (s : State) (n : Nat) (a : Accepted) : s.CapturedFor (s.noteLate n a) n := by
  unfold State.noteLate
  split
  · split
    · exact s.capturedFor_setInput n _ rfl
    · exact .refl s n
  · exact .refl s n

theorem State.capturedFor_noteCut (s : State) (n stamp : Nat) : s.CapturedFor (s.noteCut n stamp) n := by
  unfold State.noteCut
  split
  · split <;> exact ⟨rfl, rfl⟩
  · exact .refl s n

theorem State.capturedFor_stampEdge (s : State) (n : Nat) (a : Accepted) : s.CapturedFor (s.stampEdge n a) n := by
  unfold State.stampEdge
  dsimp only
  split
  · refine .trans (s.capturedFor_putGroup n _ _ _ ?_) (State.capturedFor_bump _ n _ _ _ ?_)
    · rfl
    · simp [Reg.CAP_CNT_IN, Reg.CAP_CNT_STAMPED]
  · refine .trans (.trans (s.capturedFor_setInput n _ ?_) (State.capturedFor_noteLate _ n a)) (State.capturedFor_bump _ n _ _ _ ?_)
    · rfl
    · simp [Reg.CAP_CNT_IN, Reg.CAP_CNT_OVFL]

/-! #### An accepted edge -/

/-- A read after a change of every listed value, where the changed value is listed too: here the store need not be canonical. -/
theorem tget_tmap_of_ne {α : Type} [DecidableEq α] (d : α) (t : Table α) (f : α → α) (hf : f d = d) (x : Nat)
    (h : f (tget d t x) ≠ d) : tget d (tmap d t f) x = f (tget d t x) := by
  induction t with
  | nil => exact absurd hf h
  | cons p r ih =>
    obtain ⟨k, w⟩ := p
    by_cases hx : x = k
    · have hw : f w ≠ d := by simpa [tget, tget?, hx] using h
      simp [tmap, tget, tget?, hx, hw]
    · have hr : tget d ((k, w) :: r) x = tget d r x := by simp [tget, tget?, hx]
      rw [hr] at h ⊢
      rw [← ih h]
      by_cases hw : f w = d <;> simp [tmap, tget, tget?, hx, hw]

/-- The thinning rate of an input falls where its bucket is full (R101). -/
def Input.decay (x : Input) : Input := if 0 < x.rate && x.bucket = 64 then { x with rate := x.rate - 1 } else x

@[simp] theorem Input.fe_decay (x : Input) : x.decay.fe = x.fe := by
  unfold Input.decay
  split <;> rfl

/-- An input whose zone is resolved is listed. -/
theorem Input.ne_default_of_zone {x : Input} (h : x.fe.zone ≠ .unresolved) : x ≠ {} := by
  rintro rfl
  exact h rfl

theorem State.capturedFor_thinDecay (s : State) (n m : Nat) (h : (s.fe n).zone ≠ .unresolved) : s.CapturedFor (s.thinDecay m) n := by
  unfold State.thinDecay
  split
  · have hlisted : (s.input n).decay ≠ {} := Input.ne_default_of_zone (by rwa [Input.fe_decay])
    have hread : tget {} (tmap {} s.inputs Input.decay) n = (s.input n).decay :=
      tget_tmap_of_ne (α := Input) {} s.inputs Input.decay rfl n hlisted
    exact ⟨(congrArg Input.fe hread).trans (Input.fe_decay _), rfl⟩
  · exact .refl s n

/-- An accepted edge of input n is counted, before it is stamped or thinned (R75, R98, R101). -/
def State.countEdge (s : State) (n stamp : Nat) : State :=
  (((s.thinDecay ((s.boundaryTo s.devTime + 511) / usQ)).noteCut n stamp).modInput n
    (·.dropHit (s.boundaryTo s.devTime))).bump (Reg.CAP_CNT_IN n) 0 48

theorem State.countEdge_does (s : State) (n stamp : Nat) (h : (s.fe n).zone ≠ .unresolved) :
    (s.countEdge n stamp).fe n = s.fe n ∧
    (s.countEdge n stamp).fld (Reg.CAP_CNT_IN n) 0 48 = (s.fld (Reg.CAP_CNT_IN n) 0 48 + 1) % 2 ^ 48 := by
  have before := ((s.capturedFor_thinDecay n ((s.boundaryTo s.devTime + 511) / usQ) h).trans
    (State.capturedFor_noteCut _ n stamp)).trans
    (State.capturedFor_setInput _ n _ (Input.fe_dropHit _ (s.boundaryTo s.devTime)))
  refine ⟨(State.fe_bump ..).trans before.fe, (State.fld_bump _ _ _ _ (by decide)).trans ?_⟩
  rw [State.fld, State.fld, State.modInput_eq, before.count]

/-- Behind its count an accepted edge is capture's alone: it is stamped, or held back by thinning (R75, R101, R110). -/
theorem State.capturedFor_acceptEdge (s : State) (n : Nat) (a : Accepted) :
    (s.countEdge n a.stamp).CapturedFor (s.acceptEdge n a) n := by
  unfold State.acceptEdge
  dsimp only
  rw [← State.countEdge]
  generalize s.countEdge n a.stamp = u
  have anchored (c : Prop) [Decidable c] (y : State) : y.CapturedFor (if c then y.anchorGroup n y.devTime [] none else y) n := by
    split
    · exact y.capturedFor_anchorGroup n _ _ _
    · exact .refl y n
  split
  · refine .trans (.trans (u.capturedFor_setInput n _ ?_) (anchored _ _)) (State.capturedFor_stampEdge _ n a)
    rfl
  · refine .trans (.trans (u.capturedFor_setInput n _ ?_) (State.capturedFor_noteLate _ n a)) (State.capturedFor_bump _ n _ _ _ ?_)
    · rfl
    · simp [Reg.CAP_CNT_IN, Reg.CAP_CNT_THIN]

/-- An edge passed to capture: the new zone is the accepted one, and the edge is counted (R75, R82). -/
theorem State.passEdge_does (s : State) (n : Nat) (old new : Zone) (stamp : Nat) (r : Resync) (h : (s.fe n).zone ≠ .unresolved) :
    (s.passEdge n old new stamp r).fe n = { s.fe n with accepted := new } ∧
    (s.passEdge n old new stamp r).fld (Reg.CAP_CNT_IN n) 0 48 = (s.fld (Reg.CAP_CNT_IN n) 0 48 + 1) % 2 ^ 48 := by
  obtain ⟨hfe, hcount⟩ := s.countEdge_does n stamp h
  have captured := s.capturedFor_acceptEdge n (s.edgeOf n old new stamp r)
  have passed : (s.passEdge n old new stamp r).fe n =
      { (s.acceptEdge n (s.edgeOf n old new stamp r)).fe n with accepted := new } := State.fe_setInput ..
  refine ⟨?_, ?_⟩
  · rw [passed, captured.fe]
    exact congrArg (fun f : FrontEnd => { f with accepted := new }) hfe
  · rw [← hcount, State.fld, State.fld]
    exact congrArg (fun w : Word => fieldOf w.toNat 0 48) captured.count

end Sys2Proof.Machine

namespace Sys2Proof.Machine

/-! ### Alarms and blanking windows -/

theorem reportReg_cntIn (n : Fin 256) : reportReg (Reg.CAP_CNT_IN n) = false := reportReg_low (by rw [Reg.CAP_CNT_IN]; omega)
theorem reportReg_blanked (n : Fin 256) : reportReg (Reg.FE_BLANKED n) = false := reportReg_low (by rw [Reg.FE_BLANKED]; omega)

/-- An alarm test stores whether the zone lies in the alarm set, and reports (R89). -/
theorem State.alarmTest_does (s : State) (n : Nat) (z : Zone) (time : Nat) :
    ((s.alarmTest n z time).input n = { s.input n with inAlarm := s.bit (Reg.FE_ALARM n) 3 && s.inZones n z }) ∧
    ∀ a, reportReg a = false → (s.alarmTest n z time).reg a = s.reg a := by
  unfold State.alarmTest
  dsimp only
  split
  · split <;> simp +contextual
  · simp

theorem State.reg_alarmTest (s : State) (n : Nat) (z : Zone) (time a : Nat) (h : reportReg a = false) :
    (s.alarmTest n z time).reg a = s.reg a := (s.alarmTest_does n z time).2 a h

@[simp] theorem State.fe_alarmTest (s : State) (n : Nat) (z : Zone) (time : Nat) : (s.alarmTest n z time).fe n = s.fe n :=
  (congrArg Input.fe (s.alarmTest_does n z time).1).trans rfl

/-- The alarm test that waited, if one did, is made (R74, R89). -/
theorem State.fe_alarmFlush (s : State) (n : Nat) : (s.alarmFlush n).fe n = { s.fe n with alarmDue := none } := by
  unfold State.alarmFlush
  split
  · exact (State.fe_alarmTest ..).trans (State.fe_setInput ..)
  · next h => exact congrArg (fun d => { s.fe n with alarmDue := d }) h

theorem State.reg_alarmFlush (s : State) (n a : Nat) (h : reportReg a = false) : (s.alarmFlush n).reg a = s.reg a := by
  unfold State.alarmFlush
  split
  · exact State.reg_alarmTest _ n _ _ a h
  · rfl

theorem State.fld_alarmFlush (s : State) (n a lo w : Nat) (h : reportReg a = false) :
    (s.alarmFlush n).fld a lo w = s.fld a lo w := by
  rw [State.fld, State.fld, s.reg_alarmFlush n a h]

@[simp] theorem State.alarmFlush_tb (s : State) (n : Nat) : (s.alarmFlush n).tb = s.tb := by
  unfold State.alarmFlush
  split
  · exact State.alarmTest_tb ..
  · rfl

theorem State.alarmFlush_none (s : State) (n : Nat) (h : (s.input n).alarmDue = none) : s.alarmFlush n = s := by
  simp [State.alarmFlush, h]

theorem State.alarmSettle_due (s : State) (n : Nat) (h : s.mayMerge n = false) : s.alarmSettle n = s.alarmFlush n := by
  simp [State.alarmSettle, h]

theorem State.alarmSettle_none (s : State) (n : Nat) (h : (s.input n).alarmDue = none) : s.alarmSettle n = s := by
  rw [State.alarmSettle, s.alarmFlush_none n h, ite_self]

/-- The alarm test that time has made due moves the front end's `alarmDue` alone, and no register but those of reports. -/
theorem State.alarmSettle_does (s : State) (n : Nat) : (∃ d, (s.alarmSettle n).fe n = { s.fe n with alarmDue := d }) ∧
    (s.alarmSettle n).tb = s.tb ∧ ∀ a, reportReg a = false → (s.alarmSettle n).reg a = s.reg a := by
  unfold State.alarmSettle
  split
  · exact ⟨⟨(s.fe n).alarmDue, rfl⟩, rfl, fun _ _ => rfl⟩
  · exact ⟨⟨none, s.fe_alarmFlush n⟩, s.alarmFlush_tb n, s.reg_alarmFlush n⟩

/-- A trigger moves the windows of its input alone (R78, R80). -/
theorem State.fe_blankTrigger (s : State) (n tg : Nat) : ∃ w, (s.blankTrigger n tg).fe n = { s.fe n with windows := w } := by
  unfold State.blankTrigger
  dsimp only
  split
  · exact ⟨(s.fe n).windows, rfl⟩
  · exact ⟨_, State.fe_setInput ..⟩

theorem State.reg_blankTrigger (s : State) (n tg a : Nat) : (s.blankTrigger n tg).reg a = s.reg a := by
  unfold State.blankTrigger
  dsimp only
  split <;> rfl

/-- The window's end is a transition to the present zone, where that differs from the one accepted last (R82). -/
def State.endsWithEdge (s : State) (n : Nat) : Bool :=
  s.tb.st.live && (s.input n).zone != .unresolved && (s.input n).accepted != .unresolved && (s.input n).zone != (s.input n).accepted

/-- The oldest window of an input, which ends at `e`, closes; `r` are the others (R82). -/
def State.closeOldest (s : State) (n e : Nat) (r : List (Nat × Nat)) : State :=
  let x := s.input n
  let s1 := (s.setInput n { x with windows := r, cross := none }).alarmFlush n
  if s.endsWithEdge n then (s1.passEdge n x.accepted x.zone e .blankEnd).alarmTest n x.zone e else s1

theorem State.closeWindows_nil (k : Nat) (s : State) (n time : Nat) (h : (s.input n).windows = []) :
    State.closeWindows k s n time = s := by
  cases k <;> simp [State.closeWindows, h]

theorem State.closeWindows_later (k : Nat) (s : State) (n time a e : Nat) (r : List (Nat × Nat))
    (h : (s.input n).windows = (a, e) :: r) (he : time < e) : State.closeWindows k s n time = s := by
  cases k <;> simp [State.closeWindows, h, he]

theorem State.closeWindows_ended (k : Nat) (s : State) (n time a e : Nat) (r : List (Nat × Nat))
    (h : (s.input n).windows = (a, e) :: r) (he : e ≤ time) :
    State.closeWindows (k + 1) s n time = State.closeWindows k (s.closeOldest n e r) n time := by
  simp [State.closeWindows, h, he, State.closeOldest, State.endsWithEdge]

theorem State.closeOldest_does (s : State) (n : Fin 256) (e : Nat) (r : List (Nat × Nat)) :
    (s.closeOldest n e r).fe n =
      { s.fe n with windows := r, cross := none, alarmDue := none
                    accepted := if s.endsWithEdge n then (s.fe n).zone else (s.fe n).accepted } ∧
    (s.closeOldest n e r).fld (Reg.CAP_CNT_IN n) 0 48 =
      (if s.endsWithEdge n then (s.fld (Reg.CAP_CNT_IN n) 0 48 + 1) % 2 ^ 48 else s.fld (Reg.CAP_CNT_IN n) 0 48) := by
  have shut : ((s.setInput n { s.input n with windows := r, cross := none }).alarmFlush n).fe n =
      { s.fe n with windows := r, cross := none, alarmDue := none } := by
    rw [State.fe_alarmFlush, State.fe_setInput]
    rfl
  have counted : ((s.setInput n { s.input n with windows := r, cross := none }).alarmFlush n).fld (Reg.CAP_CNT_IN n) 0 48 =
      s.fld (Reg.CAP_CNT_IN n) 0 48 := State.fld_alarmFlush _ _ _ _ _ (reportReg_cntIn n)
  unfold State.closeOldest
  dsimp only
  split
  · next hedge =>
    have hzone : (s.fe n).zone ≠ .unresolved := by
      simp only [State.endsWithEdge, Bool.and_eq_true, bne_iff_ne] at hedge
      exact hedge.1.1.2
    obtain ⟨hfe, hcount⟩ := State.passEdge_does _ n (s.input n).accepted (s.input n).zone e .blankEnd (by rwa [shut])
    refine ⟨?_, ?_⟩
    · rw [State.fe_alarmTest, hfe, shut]
      rfl
    · rw [State.fld, State.reg_alarmTest _ _ _ _ _ (reportReg_cntIn n), ← State.fld, hcount, counted]
  · exact ⟨shut, counted⟩

/-- Between two states the front end has come to zone `z`, and has neither begun nor ended to settle, nor sampled. -/
structure FrontEnd.MovesTo (f g : FrontEnd) (z : Zone) : Prop where
  zone : g.zone = z
  settling : g.settling = f.settling
  lastSample : g.lastSample = f.lastSample

theorem FrontEnd.MovesTo.trans {f g h : FrontEnd} {z z' : Zone} (m : f.MovesTo g z) (k : g.MovesTo h z') : f.MovesTo h z' :=
  ⟨k.zone, k.settling.trans m.settling, k.lastSample.trans m.lastSample⟩

/-- Windows that close leave the zone as it is, and no alarm test waiting that was not. -/
theorem State.closeWindows_keeps (k : Nat) (s : State) (n : Fin 256) (time : Nat) :
    (s.fe n).MovesTo ((State.closeWindows k s n time).fe n) (s.fe n).zone ∧
    ((s.fe n).alarmDue = none → ((State.closeWindows k s n time).fe n).alarmDue = none) := by
  induction k generalizing s with
  | zero => exact ⟨⟨rfl, rfl, rfl⟩, id⟩
  | succ k ih =>
    match hw : (s.input n).windows with
    | [] =>
      rw [State.closeWindows_nil _ _ _ _ hw]
      exact ⟨⟨rfl, rfl, rfl⟩, id⟩
    | (a, e) :: r =>
      by_cases he : e ≤ time
      · rw [State.closeWindows_ended _ _ _ _ _ _ _ hw he]
        obtain ⟨hfe, -⟩ := s.closeOldest_does n e r
        obtain ⟨hmoves, hdue⟩ := ih (s.closeOldest n e r)
        rw [hfe] at hmoves hdue
        exact ⟨⟨hmoves.zone, hmoves.settling, hmoves.lastSample⟩, fun _ => hdue rfl⟩
      · rw [State.closeWindows_later _ _ _ _ _ _ _ hw (Nat.lt_of_not_le he)]
        exact ⟨⟨rfl, rfl, rfl⟩, id⟩

theorem State.endWindows_nil (s : State) (n time : Nat) (h : (s.input n).windows = []) : s.endWindows n time = s :=
  State.closeWindows_nil _ s n time h

theorem State.endWindows_later (s : State) (n time a e : Nat) (r : List (Nat × Nat)) (h : (s.input n).windows = (a, e) :: r)
    (he : time < e) : s.endWindows n time = s := State.closeWindows_later _ s n time a e r h he

theorem State.endWindows_one (s : State) (n time a e : Nat) (h : (s.input n).windows = [(a, e)]) (he : e ≤ time) :
    s.endWindows n time = s.closeOldest n e [] := by
  simp only [State.endWindows, h, List.length_singleton]
  exact State.closeWindows_ended 0 s n time a e [] h he

theorem Input.blanks_none (x : Input) (st : Nat) (h : x.windows = []) : ¬x.blanks st = true := by simp [Input.blanks, h]

theorem Input.blanks_inside (x : Input) (st a b : Nat) (h : x.windows = [(a, b)]) (hst : a ≤ st ∧ st < b) : x.blanks st = true := by
  simp [Input.blanks, h, hst]

/-! ### Transitions -/

/-- A resolved zone stays resolved (R71, R72). -/
theorem State.feDecide_resolved (s : State) (n : Nat) (v : Int) (h : (s.input n).zone ≠ .unresolved) :
    (s.feDecide n v).zone ≠ .unresolved := by
  have hwindow (lo hi : Bool) : windowZone lo hi ≠ .unresolved := by cases lo <;> cases hi <;> decide
  have hkept : (s.input n).decided.zone ≠ .unresolved := h
  unfold State.feDecide
  dsimp only
  split
  · split
    · exact hkept
    · exact hwindow _ _
  · split
    · nofun
    · split
      · nofun
      · exact hkept

/-- The comparators' decision is taken, behind the alarm test that waited. -/
def State.takeZone (s : State) (n : Nat) (d : Decided) : State :=
  (s.alarmFlush n).modInput n fun y => { y.take d with cross := none }

/-- The transition at stamp `st` is counted as blanked, or passed on (R75, R79). -/
def State.carryEdge (s : State) (n : Nat) (d : Decided) (st : Nat) (r : Resync) : State :=
  if (s.input n).blanks st then (s.takeZone n d).bump (Reg.FE_BLANKED n) 0 32
  else (s.takeZone n d).passEdge n (s.input n).zone d.zone st r

/-- What a transition leaves to a second one that may merge with it, or its alarm test (R74, R89): `s` is the state before it,
`u` the one in which it has been counted or passed on. -/
def State.noteEdge (s u : State) (n : Nat) (d : Decided) (st : Nat) (r : Resync) : State :=
  let blanked := (s.input n).blanks st
  let y := u.input n
  if s.feBit n 1 && d.zone == .mid && r == .none then
    u.setInput n { y with
      cross := some { stamp := st, rising := decide ((s.input n).zone.code < d.zone.code), passed := !blanked, seen := s.devTime
                      head := if !blanked && y.held = 0 && y.ovfl = 0 then some y.lastTime else none }
      alarmDue := if blanked then y.alarmDue else some (d.zone, st) }
  else if blanked then u else u.alarmTest n d.zone st

theorem State.feTransit_single (s : State) (n : Nat) (d : Decided) (st : Nat) (r : Resync)
    (h : mergesWith (s.input n) (decide ((s.input n).zone.code < d.zone.code)) st = none) :
    s.feTransit n d st r =
      if !(s.input n).blanks st && s.fld (Reg.FE_BLANK_SRC n) 0 3 = 1
      then (s.noteEdge (s.carryEdge n d st r) n d st r).blankTrigger n st
      else s.noteEdge (s.carryEdge n d st r) n d st r := by
  simp only [State.feTransit, h]
  rfl

theorem State.takeZone_does (s : State) (n : Nat) (d : Decided) :
    (s.takeZone n d).fe n = { s.fe n with zone := d.zone, cross := none, alarmDue := none } ∧
    ∀ a, reportReg a = false → (s.takeZone n d).reg a = s.reg a := by
  refine ⟨(State.fe_setInput ..).trans ?_, s.reg_alarmFlush n⟩
  exact congrArg (fun f : FrontEnd => { f with zone := d.zone, cross := none }) (s.fe_alarmFlush n)

theorem State.carryEdge_does (s : State) (n : Fin 256) (d : Decided) (st : Nat) (r : Resync) (hd : d.zone ≠ .unresolved) :
    let u := s.carryEdge n d st r
    u.fe n = { s.fe n with zone := d.zone, cross := none, alarmDue := none
                           accepted := if (s.input n).blanks st then (s.fe n).accepted else d.zone } ∧
    u.fld (Reg.CAP_CNT_IN n) 0 48 = (if (s.input n).blanks st then s.fld (Reg.CAP_CNT_IN n) 0 48
      else (s.fld (Reg.CAP_CNT_IN n) 0 48 + 1) % 2 ^ 48) ∧
    ((s.input n).blanks st = true → u.fld (Reg.FE_BLANKED n) 0 32 = (s.fld (Reg.FE_BLANKED n) 0 32 + 1) % 2 ^ 32) := by
  intro u
  obtain ⟨hfe, hreg⟩ := s.takeZone_does n d
  have hcount : (s.takeZone n d).fld (Reg.CAP_CNT_IN n) 0 48 = s.fld (Reg.CAP_CNT_IN n) 0 48 := by
    rw [State.fld, State.fld, hreg _ (reportReg_cntIn n)]
  have hblanked : (s.takeZone n d).fld (Reg.FE_BLANKED n) 0 32 = s.fld (Reg.FE_BLANKED n) 0 32 := by
    rw [State.fld, State.fld, hreg _ (reportReg_blanked n)]
  by_cases hb : (s.input n).blanks st
  · have hu : u = (s.takeZone n d).bump (Reg.FE_BLANKED n) 0 32 := if_pos hb
    rw [hu, if_pos hb, if_pos hb]
    refine ⟨(State.fe_bump ..).trans hfe, ?_, fun _ => ?_⟩
    · rw [State.bump, State.bumpBy, State.fld_setFld_reg _ _ _ _ _ _ _ _ (by simp [Reg.CAP_CNT_IN, Reg.FE_BLANKED]), hcount]
    · rw [State.fld_bump _ _ _ _ (by decide), hblanked]
  · have hu : u = (s.takeZone n d).passEdge n (s.input n).zone d.zone st r := if_neg hb
    obtain ⟨hpass, hpassed⟩ := (s.takeZone n d).passEdge_does n (s.input n).zone d.zone st r (by rwa [hfe])
    rw [hu, if_neg hb, if_neg hb]
    exact ⟨hpass.trans (by rw [hfe]), hpassed.trans (by rw [hcount]), fun h => absurd h hb⟩

theorem State.noteEdge_does (s u : State) (n : Nat) (d : Decided) (st : Nat) (r : Resync) :
    (∃ c q, (s.noteEdge u n d st r).fe n = { u.fe n with cross := c, alarmDue := q }) ∧
    ∀ a, reportReg a = false → (s.noteEdge u n d st r).reg a = u.reg a := by
  unfold State.noteEdge
  dsimp only
  split
  · exact ⟨⟨_, _, State.fe_setInput ..⟩, fun _ _ => rfl⟩
  · split
    · exact ⟨⟨_, _, rfl⟩, fun _ _ => rfl⟩
    · exact ⟨⟨_, _, State.fe_alarmTest ..⟩, u.reg_alarmTest n _ _⟩

/-- A transition that merges with none: it is blanked and counted so, or accepted (R75, R79). -/
theorem State.feTransit_does (s : State) (n : Fin 256) (d : Decided) (st : Nat) (r : Resync) (hd : d.zone ≠ .unresolved)
    (h : mergesWith (s.input n) (decide ((s.input n).zone.code < d.zone.code)) st = none) :
    let u := s.feTransit n d st r
    (s.fe n).MovesTo (u.fe n) d.zone ∧
    (u.fe n).accepted = (if (s.input n).blanks st then (s.fe n).accepted else d.zone) ∧
    u.fld (Reg.CAP_CNT_IN n) 0 48 = (if (s.input n).blanks st then s.fld (Reg.CAP_CNT_IN n) 0 48
      else (s.fld (Reg.CAP_CNT_IN n) 0 48 + 1) % 2 ^ 48) ∧
    ((s.input n).blanks st = true → u.fld (Reg.FE_BLANKED n) 0 32 = (s.fld (Reg.FE_BLANKED n) 0 32 + 1) % 2 ^ 32) := by
  intro u
  obtain ⟨hfe, hcount, hblanked⟩ := s.carryEdge_does n d st r hd
  obtain ⟨⟨c, q, hnote⟩, hreg⟩ := s.noteEdge_does (s.carryEdge n d st r) n d st r
  obtain ⟨w, htrig, htreg⟩ : ∃ w, u.fe n = { (s.noteEdge (s.carryEdge n d st r) n d st r).fe n with windows := w } ∧
      ∀ a, u.reg a = (s.noteEdge (s.carryEdge n d st r) n d st r).reg a := by
    have hu : u = _ := s.feTransit_single n d st r h
    rw [hu]
    split
    · obtain ⟨w, hw⟩ := (s.noteEdge (s.carryEdge n d st r) n d st r).fe_blankTrigger n st
      exact ⟨w, hw, State.reg_blankTrigger _ n st⟩
    · exact ⟨_, rfl, fun _ => rfl⟩
  have hregs (a lo k : Nat) (ha : reportReg a = false) : u.fld a lo k = (s.carryEdge n d st r).fld a lo k := by
    rw [State.fld, State.fld, htreg, hreg a ha]
  rw [hregs _ _ _ (reportReg_cntIn n), hregs _ _ _ (reportReg_blanked n), htrig, hnote, hfe]
  exact ⟨⟨rfl, rfl, rfl⟩, rfl, hcount, hblanked⟩

/-- A transition moves the input to the zone that was decided, whether it merges or not (R73, R74). -/
theorem State.feTransit_moves (s : State) (n : Fin 256) (d : Decided) (st : Nat) (r : Resync) (hd : d.zone ≠ .unresolved) :
    (s.fe n).MovesTo ((s.feTransit n d st r).fe n) d.zone := by
  have stored (y : Input) (q : Option (Zone × Nat)) (hy : (s.fe n).MovesTo y.fe d.zone) :
      (s.fe n).MovesTo (((s.setInput n { y with accepted := d.zone, alarmDue := q }).alarmFlush n).fe n) d.zone := by
    rw [State.fe_alarmFlush, State.fe_setInput]
    exact ⟨hy.zone, hy.settling, hy.lastSample⟩
  match hm : mergesWith (s.input n) (decide ((s.input n).zone.code < d.zone.code)) st with
  | none => exact (s.feTransit_does n d st r hd hm).1
  | some c =>
    simp only [State.feTransit, hm]
    split
    · refine stored _ _ ?_
      split
      · rw [Input.fe_amendLast]
        exact ⟨rfl, rfl, rfl⟩
      · exact ⟨rfl, rfl, rfl⟩
    · rw [State.fe_setInput]
      exact ⟨rfl, rfl, rfl⟩

theorem State.feCross_moves (s : State) (n : Fin 256) (d : Decided) (st : Nat) (r : Resync) (hd : d.zone ≠ .unresolved) :
    (s.fe n).MovesTo ((s.feCross n d st r).fe n) d.zone := by
  obtain ⟨ended, -⟩ := State.closeWindows_keeps (s.input n).windows.length s n st
  unfold State.feCross
  dsimp only
  split
  · refine ended.trans ?_
    rw [State.modInput_eq, State.fe_setInput]
    exact ⟨rfl, rfl, rfl⟩
  · exact ended.trans (State.feTransit_moves _ n d st r hd)

theorem State.feEstablish_moves (s : State) (n : Nat) (d : Decided) : (s.fe n).MovesTo ((s.feEstablish n d).fe n) d.zone := by
  unfold State.feEstablish
  dsimp only
  rw [State.fe_alarmTest]
  split
  · rw [(State.capturedFor_captureEst _ n d.zone).fe, State.modInput_eq, State.fe_setInput]
    exact ⟨rfl, rfl, rfl⟩
  · rw [State.modInput_eq, State.fe_setInput]
    exact ⟨rfl, rfl, rfl⟩

/-- Whatever the line's state, a voltage brings the input to the zone that its comparators decide (R71, R72, R76). -/
theorem State.feInput_moves (s : State) (n : Fin 256) (v : Int) (stamp : Bool → Nat) (r : Resync) :
    (s.fe n).MovesTo ((s.feInput n v stamp r).fe n) (s.feDecide n v).zone := by
  unfold State.feInput
  dsimp only
  split
  · next hz =>
    split
    · next hd => exact ⟨(eq_of_beq hz).trans (eq_of_beq hd).symm, rfl, rfl⟩
    · exact s.feEstablish_moves n _
  · next hz =>
    split
    · rw [State.fe_setInput]
      exact ⟨rfl, rfl, rfl⟩
    · exact s.feCross_moves n _ _ r (s.feDecide_resolved n v (by simpa using hz))

/-- Under a live line a voltage that moves a resolved input makes one transition, where no window has ended and no crossing waits. -/
theorem State.feInput_transit (s : State) (n : Fin 256) (v : Int) (stamp : Bool → Nat) (r : Resync) (hl : s.tb.st.live = true)
    (hz : (s.input n).zone ≠ .unresolved) (hd : (s.feDecide n v).zone ≠ (s.input n).zone) (hc : (s.input n).cross = none)
    (st : Nat) (hst : st = stamp (decide ((s.input n).zone.code < (s.feDecide n v).zone.code)))
    (hw : s.endWindows n st = s) :
    let u := s.feInput n v stamp r
    (u.input n).accepted = (if (s.input n).blanks st then (s.input n).accepted else (s.feDecide n v).zone) ∧
    u.fld (Reg.CAP_CNT_IN n) 0 48 = (if (s.input n).blanks st then s.fld (Reg.CAP_CNT_IN n) 0 48
      else (s.fld (Reg.CAP_CNT_IN n) 0 48 + 1) % 2 ^ 48) ∧
    ((s.input n).blanks st = true → u.fld (Reg.FE_BLANKED n) 0 32 = (s.fld (Reg.FE_BLANKED n) 0 32 + 1) % 2 ^ 32) := by
  intro u
  have hu : u = s.feTransit n (s.feDecide n v) st r := by
    simp only [u, State.feInput, beq_iff_eq, hz, hl, Bool.not_true, Bool.false_eq_true, if_false, State.feCross, ← hst, hw, hd]
  have hmerge : mergesWith (s.input n) (decide ((s.input n).zone.code < (s.feDecide n v).zone.code)) st = none := by
    simp [mergesWith, hc]
  rw [hu]
  exact (s.feTransit_does n _ st r (s.feDecide_resolved n v hz) hmerge).2

end Sys2Proof.Machine

namespace Sys2Proof.Machine

/-! ### The commands of the front ends -/

@[simp] theorem State.feBit_advance (s : State) (t n i : Nat) : (s.advance t).feBit n i = s.feBit n i := rfl
@[simp] theorem State.feOn_advance (s : State) (t n : Nat) : (s.advance t).feOn n = s.feOn n := rfl
@[simp] theorem State.farFld_advance (s : State) (t a lo w : Nat) : (s.advance t).farFld a lo w = s.farFld a lo w := rfl

theorem exec_inputTransition (s : State) (t : Nat) (n : Fin 256) (v : Int) (code : Fin 512) :
    exec (.inputTransition t n ⟨v, code⟩) s = atMoment t s fun x =>
      if x.fePowered n && x.feOn n && !(x.input n).settling && !x.feBit n 3 then x.feInput n v (x.stampOf n · code.val) .none
      else x := rfl

/-- The moved voltage reaches the comparators of an input that has power, is enabled and settled, and is not sampled (R71, R76, R86). -/
theorem inputTransition_does {s : State} {t : Nat} {n : Fin 256} {v : Int} {code : Fin 512} {P : State → Prop}
    (hpow : (s.advance t).fePowered n = true) (hon : s.feOn n = true) (hset : (s.input n).settling = false)
    (hsamp : s.feBit n 3 = false) (h : P (((s.advance t).feInput n v ((s.advance t).stampOf n · code.val) .none).settle s t)) :
    Does (.inputTransition t n ⟨v, code⟩) s P :=
  Does.of_effect (exec_inputTransition ..) (by rwa [if_pos (by simp [hpow, hon, hset, hsamp])])

/-- The comparators decide as before where an update leaves what they decided last. -/
theorem State.feDecide_modInput (s : State) (n : Nat) (v : Int) (f : Input → Input)
    (h : (f (s.input n)).decided = (s.input n).decided) : (s.modInput n f).feDecide n v = s.feDecide n v := by
  have hdecided : ((s.modInput n f).input n).decided = (s.input n).decided := by
    rw [State.modInput_eq, State.input_setInput, if_pos rfl, h]
  simp only [State.feDecide, hdecided]
  rfl

/-- 1 µs after a change the comparators decide, but in sampled operation (R76). -/
def State.feSettle (s : State) (n : Nat) (v : Int) : State :=
  let s1 := s.modInput n fun x => { x with settling := false }
  if s1.feBit n 3 then s1 else s1.feInput n v (s1.stampOf n · 0) .none

theorem exec_zoneSettle (s : State) (t : Nat) (n : Fin 256) (v : Int) : exec (.zoneSettle t n v) s = atMoment t s fun x =>
    if x.fePowered n && x.feOn n && (x.input n).settling then x.feSettle n v else x := rfl

theorem zoneSettle_does {s : State} {t : Nat} {n : Fin 256} {v : Int} {P : State → Prop}
    (hpow : (s.advance t).fePowered n = true) (hon : s.feOn n = true) (hset : (s.input n).settling = true)
    (h : P (((s.advance t).feSettle n v).settle s t)) : Does (.zoneSettle t n v) s P :=
  Does.of_effect (exec_zoneSettle ..) (by rwa [if_pos (by simp [hpow, hon, hset])])

theorem State.feSettle_does (s : State) (n : Fin 256) (v : Int) : ((s.feSettle n v).input n).settling = false ∧
    (s.feBit n 3 = false → ((s.feSettle n v).input n).zone = (s.feDecide n v).zone) := by
  have settled : (s.modInput n fun x => { x with settling := false }).fe n = { s.fe n with settling := false } := State.fe_setInput ..
  have decides := s.feDecide_modInput n v (fun x => { x with settling := false }) rfl
  unfold State.feSettle
  dsimp only
  split
  · next hsampled => exact ⟨congrArg FrontEnd.settling settled, fun h => absurd (hsampled.symm.trans h) (by decide)⟩
  · have moved := (s.modInput n fun x => { x with settling := false }).feInput_moves n v
      ((s.modInput n fun x => { x with settling := false }).stampOf n · 0) .none
    exact ⟨moved.settling.trans (congrArg FrontEnd.settling settled), fun _ => moved.zone.trans (congrArg Decided.zone decides)⟩

/-- A registered edge of a pin triggers input n where the input selects the pin and this edge (R78, R81). -/
def State.pinTrigger (pin : Nat) (rising : Bool) (s : State) (n : Nat) : State :=
  if s.fld (Reg.FE_BLANK_SRC n) 0 3 = pin + 2 && s.bit (Reg.FE_BLANK_SRC n) 3 != rising
  then s.blankTrigger n (s.boundaryTo s.devTime) else s

/-- The level of a BLANK_TRIG pin after an edge. -/
def State.pinLevel (s : State) (pin : Nat) (rising : Bool) : State :=
  { s with trig := if rising then s.trig ||| (1#4 <<< pin) else s.trig &&& ~~~(1#4 <<< pin) }

theorem exec_blankTrigEdge (s : State) (t : Nat) (pin : Fin 4) (rising : Bool) :
    exec (.blankTrigEdge t pin rising) s = atMoment t s fun x =>
      if !x.tb.st.live then x.pinLevel pin rising
      else (List.range 256).foldl (State.pinTrigger pin rising) (x.pinLevel pin rising) := rfl

/-- Of the state a trigger moves the inputs alone, and of those its own. -/
theorem State.pinTrigger_inputs (pin : Nat) (rising : Bool) (s : State) (n : Nat) :
    ∃ l, s.pinTrigger pin rising n = { s with inputs := l } := by
  unfold State.pinTrigger State.blankTrigger
  dsimp only
  split
  · split <;> exact ⟨_, rfl⟩
  · exact ⟨s.inputs, rfl⟩

theorem State.input_pinTrigger_other (pin : Nat) (rising : Bool) (s : State) (n m : Nat) (h : n ≠ m) :
    (s.pinTrigger pin rising m).input n = s.input n := by
  unfold State.pinTrigger State.blankTrigger
  dsimp only
  split
  · split
    · rfl
    · simp [h]
  · rfl

theorem State.foldl_pinTrigger_inputs (pin : Nat) (rising : Bool) (ms : List Nat) (s : State) :
    ∃ l, ms.foldl (State.pinTrigger pin rising) s = { s with inputs := l } := by
  refine foldl_keeps (fun x => ∃ l, x = { s with inputs := l }) _ ?_ ms s ⟨s.inputs, rfl⟩
  rintro x m ⟨l, rfl⟩
  exact State.pinTrigger_inputs pin rising { s with inputs := l } m

theorem State.foldl_pinTrigger_other (pin : Nat) (rising : Bool) (n : Nat) (ms : List Nat) (h : n ∉ ms) (s : State) :
    (ms.foldl (State.pinTrigger pin rising) s).input n = s.input n := by
  induction ms generalizing s with
  | nil => rfl
  | cons m r ih =>
    obtain ⟨hne, hr⟩ := not_or.mp (mt List.mem_cons.mpr h)
    exact (ih hr _).trans (State.input_pinTrigger_other pin rising s n m hne)

/-- The window that a trigger of an input without windows opens (R78). -/
theorem State.windows_blankTrigger (s : State) (n tg : Nat) (hw : s.fld (Reg.FE_BLANK n) 0 16 ≠ 0) (h : (s.input n).windows = []) :
    ((s.blankTrigger n tg).input n).windows =
      [(tg + 512 * s.fld (Reg.FE_BLANK n) 16 16, tg + 512 * s.fld (Reg.FE_BLANK n) 16 16 + 512 * s.fld (Reg.FE_BLANK n) 0 16)] := by
  simp [State.blankTrigger, hw, h]

/-- Of the inputs that an edge of a pin reaches in turn, one that selects the edge has its window. -/
theorem State.foldl_pinTrigger_opens (pin : Nat) (rising : Bool) (n : Nat) (ms : List Nat) (hn : n ∈ ms) (hms : ms.Nodup) (s : State)
    (hsrc : s.fld (Reg.FE_BLANK_SRC n) 0 3 = pin + 2) (hedge : s.bit (Reg.FE_BLANK_SRC n) 3 = !rising)
    (hw : s.fld (Reg.FE_BLANK n) 0 16 ≠ 0) (h : (s.input n).windows = []) :
    let start := s.boundaryTo s.devTime + 512 * s.fld (Reg.FE_BLANK n) 16 16
    ((ms.foldl (State.pinTrigger pin rising) s).input n).windows = [(start, start + 512 * s.fld (Reg.FE_BLANK n) 0 16)] := by
  induction ms generalizing s with
  | nil => cases hn
  | cons m r ih =>
    obtain ⟨hm, hr⟩ := List.nodup_cons.mp hms
    by_cases hne : n = m
    · subst hne
      have htrig : s.pinTrigger pin rising n = s.blankTrigger n (s.boundaryTo s.devTime) :=
        if_pos (by rw [hsrc, hedge]; cases rising <;> simp)
      rw [List.foldl_cons, State.foldl_pinTrigger_other pin rising n r hm, htrig]
      exact s.windows_blankTrigger n _ hw h
    · have hother := State.input_pinTrigger_other pin rising s n m hne
      obtain ⟨l, e⟩ := s.pinTrigger_inputs pin rising m
      rw [e] at hother
      rw [List.foldl_cons, e]
      exact ih ((List.mem_cons.mp hn).resolve_left hne) hr { s with inputs := l } hsrc hedge hw (by rw [hother, h])

/-- The windows of an input that have ended close, behind the alarm test that time has made due (R82, R89). -/
def State.feWindowEnd (s : State) (n : Nat) : State := (s.alarmSettle n).endWindows n (s.stampFloor n)

/-- The level of the pin and the windows that its edge opens. -/
theorem blankTrigEdge_does (s : State) (t : Nat) (pin : Fin 4) (rising : Bool) : Does (.blankTrigEdge t pin rising) s fun u =>
    u.trig = (if rising then s.trig ||| (1#4 <<< pin.val) else s.trig &&& ~~~(1#4 <<< pin.val)) ∧
    (∀ n : Fin 256, s.tb.st.live = true → s.fld (Reg.FE_BLANK_SRC n) 0 3 = pin.val + 2 →
      s.bit (Reg.FE_BLANK_SRC n) 3 = !rising → s.fld (Reg.FE_BLANK n) 0 16 ≠ 0 → (s.input n).windows = [] →
      let start := s.boundaryTo (s.advance t).devTime + 512 * s.fld (Reg.FE_BLANK n) 16 16
      (u.input n).windows = [(start, start + 512 * s.fld (Reg.FE_BLANK n) 0 16)]) := by
  refine Does.of_effect (exec_blankTrigEdge ..) ?_
  by_cases hl : s.tb.st.live
  · obtain ⟨l, e⟩ := State.foldl_pinTrigger_inputs pin.val rising (List.range 256) ((s.advance t).pinLevel pin.val rising)
    rw [if_neg (by simp [hl])]
    refine ⟨?_, fun n _ hsrc hedge hw h => ?_⟩
    · rw [e]
      rfl
    · exact State.foldl_pinTrigger_opens pin.val rising n (List.range 256) (List.mem_range.mpr n.2) List.nodup_range
        ((s.advance t).pinLevel pin.val rising) hsrc hedge hw h
  · rw [if_pos (by simp [hl])]
    exact ⟨rfl, fun n h => absurd h hl⟩

theorem exec_blankWindowEnd (s : State) (t : Nat) (n : Fin 256) :
    exec (.blankWindowEnd t n) s = atMoment t s fun x => x.feWindowEnd n := rfl

/-- The windows of the input before and behind the alarm test that time has made due. -/
theorem State.alarmSettle_windows (s : State) (n : Nat) : ((s.alarmSettle n).input n).windows = (s.input n).windows := by
  obtain ⟨⟨d, hfe⟩, -⟩ := s.alarmSettle_does n
  exact congrArg FrontEnd.windows hfe

/-- The only window of an input closes, with the edge that its end makes (R82). -/
theorem State.feWindowEnd_closes (s : State) (n : Fin 256) (a e : Nat) (hw : (s.input n).windows = [(a, e)]) (he : e ≤ s.stampFloor n) :
    ((s.feWindowEnd n).input n).windows = [] ∧
    (s.tb.st.live = true → (s.input n).zone ≠ .unresolved → (s.input n).accepted ≠ .unresolved →
      (s.input n).zone ≠ (s.input n).accepted →
      ((s.feWindowEnd n).input n).accepted = (s.input n).zone ∧
      (s.feWindowEnd n).fld (Reg.CAP_CNT_IN n) 0 48 = (s.fld (Reg.CAP_CNT_IN n) 0 48 + 1) % 2 ^ 48) := by
  obtain ⟨⟨d, hfe⟩, htb, hreg⟩ := s.alarmSettle_does n
  obtain ⟨hclosed, hcount⟩ := (s.alarmSettle n).closeOldest_does n e []
  have hend : s.feWindowEnd n = (s.alarmSettle n).closeOldest n e [] :=
    State.endWindows_one _ n _ a e ((s.alarmSettle_windows n).trans hw) he
  rw [hend]
  refine ⟨congrArg FrontEnd.windows hclosed, fun hl hz ha hne => ?_⟩
  have hzone : ((s.alarmSettle n).input n).zone = (s.input n).zone := congrArg FrontEnd.zone hfe
  have haccepted : ((s.alarmSettle n).input n).accepted = (s.input n).accepted := congrArg FrontEnd.accepted hfe
  have hedge : (s.alarmSettle n).endsWithEdge n = true := by simp [State.endsWithEdge, htb, hzone, haccepted, hl, hz, ha, hne]
  rw [if_pos hedge] at hcount hclosed
  refine ⟨(congrArg FrontEnd.accepted hclosed).trans hzone, hcount.trans ?_⟩
  rw [State.fld, State.fld, hreg _ (reportReg_cntIn n)]

/-- Once no crossing can merge any more no alarm test waits (R74, R89; log entry 52). -/
theorem State.feWindowEnd_tests (s : State) (n : Fin 256) (hm : s.mayMerge n = false) :
    ((s.feWindowEnd n).input n).alarmDue = none ∧
    ((s.input n).windows = [] → (s.feWindowEnd n).reg (Reg.CAP_CNT_IN n) = s.reg (Reg.CAP_CNT_IN n)) := by
  have hflushed : ((s.alarmSettle n).fe n).alarmDue = none := by rw [s.alarmSettle_due n hm, State.fe_alarmFlush]
  refine ⟨(State.closeWindows_keeps _ (s.alarmSettle n) n (s.stampFloor n)).2 hflushed, fun hw => ?_⟩
  obtain ⟨-, -, hreg⟩ := s.alarmSettle_does n
  rw [State.feWindowEnd, State.endWindows_nil _ n _ ((s.alarmSettle_windows n).trans hw)]
  exact hreg _ (reportReg_cntIn n)

theorem State.feWindowEnd_idle (s : State) (n : Nat)
    (hw : (s.input n).windows = [] ∨ ∃ a e r, (s.input n).windows = (a, e) :: r ∧ s.stampFloor n < e)
    (hdue : (s.input n).alarmDue = none) : s.feWindowEnd n = s := by
  rw [State.feWindowEnd, s.alarmSettle_none n hdue]
  obtain hw | ⟨a, e, r, hw, he⟩ := hw
  · exact s.endWindows_nil n _ hw
  · exact s.endWindows_later n _ a e r hw he

/-- The last multiple of the sampling period, and the sample taken there (R86). -/
def State.sampleAt (s : State) (n : Nat) : Nat :=
  s.devTime / (131072 * s.farFld (Reg.FE_SAMP n) 0 16) * (131072 * s.farFld (Reg.FE_SAMP n) 0 16)

def State.feTakeSample (s : State) (n : Nat) (v : Int) : State :=
  (s.modInput n fun x => { x with lastSample := some (s.sampleAt n) }).feInput n v (fun _ => s.sampleAt n) .sampled

theorem exec_feSample (s : State) (t : Nat) (n : Fin 256) (v : Int) : exec (.feSample t n v) s = atMoment t s fun x =>
    if x.tb.st.live && x.fePowered n && x.feOn n && x.feBit n 3 && !(x.input n).settling &&
      131072 * x.farFld (Reg.FE_SAMP n) 0 16 != 0 && (x.input n).lastSample != some (x.sampleAt n)
    then x.feTakeSample n v else x := rfl

theorem feSample_does {s : State} {t : Nat} {n : Fin 256} {v : Int} {P : State → Prop} (hpow : (s.advance t).fePowered n = true)
    (hon : s.feOn n = true) (hsamp : s.feBit n 3 = true) (hset : (s.input n).settling = false) (hl : s.tb.st.live = true)
    (hper : s.farFld (Reg.FE_SAMP n) 0 16 ≠ 0) (hnew : (s.input n).lastSample ≠ some ((s.advance t).sampleAt n))
    (h : P (((s.advance t).feTakeSample n v).settle s t)) : Does (.feSample t n v) s P :=
  Does.of_effect (exec_feSample ..) (by rwa [if_pos (by simp [hpow, hon, hsamp, hset, hl, hper, hnew])])

theorem State.feTakeSample_does (s : State) (n : Fin 256) (v : Int) : ((s.feTakeSample n v).input n).zone = (s.feDecide n v).zone ∧
    ((s.feTakeSample n v).input n).lastSample = some (s.sampleAt n) := by
  have noted : (s.modInput n fun x => { x with lastSample := some (s.sampleAt n) }).fe n =
      { s.fe n with lastSample := some (s.sampleAt n) } := State.fe_setInput ..
  have decides := s.feDecide_modInput n v (fun x => { x with lastSample := some (s.sampleAt n) }) rfl
  have moved := (s.modInput n fun x => { x with lastSample := some (s.sampleAt n) }).feInput_moves n v (fun _ => s.sampleAt n) .sampled
  exact ⟨moved.zone.trans (congrArg Decided.zone decides), moved.lastSample.trans (congrArg FrontEnd.lastSample noted)⟩

theorem exec_feAlarmWrite (s : State) (t : Nat) (p : Port) (n : Fin 256) (value : Dword) :
    exec (.feAlarmWrite t p n value) s = atMoment t s fun x => x.write32 p (Reg.FE_ALARM n) value.toNat := rfl

/-- FE_ALARM re-evaluates the present zone at once (R93). -/
theorem State.feAlarmWritten_does (s : State) (n : Nat) : let u := s.feAlarmWritten n
    (u.input n).alarmDue = none ∧ (u.input n).inAlarm = (s.bit (Reg.FE_ALARM n) 3 && s.inZones n (s.input n).zone) ∧
    ∀ a, reportReg a = false → u.reg a = s.reg a := by
  intro u
  obtain ⟨hinput, hreg⟩ := (s.modInput n fun x => { x with alarmDue := none }).alarmTest_does n
    ((s.modInput n fun x => { x with alarmDue := none }).input n).zone s.devTime
  have hu : u.input n = _ := hinput
  have hzone : ((s.modInput n fun x => { x with alarmDue := none }).input n).zone = (s.input n).zone := by simp
  rw [hu]
  refine ⟨by simp, ?_, fun a ha => (hreg a ha).trans rfl⟩
  rw [hzone]
  rfl

/-- The bits of a mask are stored as they are written. -/
theorem stored_and (old raw : Word) (mask : Nat) :
    stored old raw mask &&& BitVec.ofNat 64 mask = raw &&& BitVec.ofNat 64 mask := by
  ext i hi
  simp only [stored, BitVec.getElem_and, BitVec.getElem_or, BitVec.getElem_not]
  cases (BitVec.ofNat 64 mask)[i] <;> simp

/-- A write of FE_ALARM is stored, and acts, on a state whose inputs are as before (R93, R321). -/
theorem State.write32_feAlarm (s : State) (p : Port) (n : Fin 256) (v : Dword) (hp : s.portReady p) :
    ∃ x : State, x.input n = s.input n ∧ x.reg (Reg.FE_ALARM n) = stored (s.reg (Reg.FE_ALARM n)) (v.setWidth 64) 0x3F1F ∧
      s.write32 p (Reg.FE_ALARM n) v.toNat = x.feAlarmWritten n := by
  have hreg : (feHit n feAlarmRow).reg = Reg.FE_ALARM n := rfl
  have hwrite := s.write32_fe p n feAlarmRow v.toNat hp (by decide) rfl rfl rfl rfl
  have htakes := s.writeReg_takes p (feHit n feAlarmRow) (v.setWidth 64) hp.2.1 rfl rfl rfl (.inl (Nat.succ_ne_zero _))
    (by rw [hreg, Reg.FE_ALARM, Reg.GBL_KEY]; omega) (by rw [hreg, Reg.FE_ALARM, Reg.GBL_SNAP_CMD]; omega)
    (stored (s.reg (Reg.FE_ALARM n)) (v.setWidth 64) 0x3F1F) rfl
    (if_neg fun h => absurd h.1 (by rw [hreg, Reg.FE_ALARM, Reg.FE_SAMP]; simp [feHit]))
  rw [BitVec.ofNat_toNat, BitVec.setWidth_eq, htakes] at hwrite
  refine ⟨_, ?_, ?_, hwrite.trans (if_pos rfl)⟩
  · exact (State.input_setReg ..).trans (State.input_bump ..)
  · exact (State.reg_setReg ..).trans (if_pos rfl)

/-- What the zone's bit of FE_ALARM says, where a write has stored it (R89). -/
theorem State.inZones_stored (s : State) (n : Nat) (old : Word) (v : Dword) (z : Zone)
    (h : s.reg (Reg.FE_ALARM n) = stored old (v.setWidth 64) 0x3F1F) :
    s.bit (Reg.FE_ALARM n) 3 = v.getLsbD 3 ∧ s.inZones n z = (match z with
      | .low => v.getLsbD 0 | .mid => v.getLsbD 1 | .high => v.getLsbD 2 | .unresolved => false) := by
  have hbit (i : Nat) (hi : i < 4) : s.bit (Reg.FE_ALARM n) i = v.getLsbD i := by
    have hmask : Nat.testBit 0x3F1F i = true := by
      match i with
      | 0 | 1 | 2 | 3 => rfl
    rw [State.bit, h, getLsbD_stored _ _ _ _ (by omega), if_pos hmask, BitVec.getLsbD_setWidth, decide_eq_true (by omega),
      Bool.true_and]
  refine ⟨hbit 3 (by decide), ?_⟩
  cases z
  · rfl
  · exact hbit 0 (by decide)
  · exact hbit 1 (by decide)
  · exact hbit 2 (by decide)

end Sys2Proof.Machine

section
open Sys2Proof.Machine

/-- Settles O6: a voltage by what a transition does (`State.feInput_moves`, `State.feInput_transit`), a pin's edge by the
fold over the inputs, a window's end by `State.closeOldest_does`, a sample as a voltage, and FE_ALARM by the write's own
effect. -/
theorem frontEndRowsComplete : Obligations.FrontEndRowsComplete := by
  refine ⟨fun s t n v code hpow hon hset hsamp => ⟨?_, fun hl hz hd hc hw => ?_, fun a b hl hz hd hc hw hst => ?_⟩,
    fun s t n v => ⟨fun hpow hon hset => ?_, fun h => ?_⟩,
    fun s t pin rising => ?_, fun s t n => ⟨fun a e hw he => ?_, fun hm => ?_, fun hw hdue => ?_⟩,
    fun s t n v => ⟨fun hpow hon hsamp hset hl hper => ⟨fun hnew => ?_, fun hold => ?_⟩, fun h => ?_⟩,
    fun s t p n value hp => ?_⟩
  · exact inputTransition_does hpow hon hset hsamp ((s.advance t).feInput_moves n v _ .none).zone
  · obtain ⟨hacc, hcount, -⟩ := (s.advance t).feInput_transit n v ((s.advance t).stampOf n · code.val) .none hl hz hd hc _ rfl
      (State.endWindows_nil _ n _ hw)
    have hopen (st : Nat) := Input.blanks_none (s.input n) st hw
    exact inputTransition_does hpow hon hset hsamp ⟨hacc.trans (if_neg (hopen _)), hcount.trans (if_neg (hopen _))⟩
  · obtain ⟨hacc, hcount, hblank⟩ := (s.advance t).feInput_transit n v ((s.advance t).stampOf n · code.val) .none hl hz hd hc _ rfl
      (State.endWindows_later _ n _ a b [] hw hst.2)
    have hin := Input.blanks_inside _ _ a b hw hst
    exact inputTransition_does hpow hon hset hsamp ⟨hacc.trans (if_pos hin), hcount.trans (if_pos hin), hblank hin⟩
  · exact zoneSettle_does hpow hon hset ((s.advance t).feSettle_does n v)
  · exact Idles.of_effect rfl (exec_zoneSettle ..) (if_neg (by obtain h | h := h <;> simp [h]))
  · exact blankTrigEdge_does s t pin rising
  · exact Does.of_effect (exec_blankWindowEnd ..) ((s.advance t).feWindowEnd_closes n a e hw he)
  · exact Does.of_effect (exec_blankWindowEnd ..) ((s.advance t).feWindowEnd_tests n hm)
  · exact Idles.of_effect rfl (exec_blankWindowEnd ..) ((s.advance t).feWindowEnd_idle n hw hdue)
  · exact feSample_does hpow hon hsamp hset hl hper hnew ((s.advance t).feTakeSample_does n v)
  · have htaken : ((s.advance t).input n).lastSample = some ((s.advance t).sampleAt n) := hold
    exact Idles.of_effect (t := t) rfl (exec_feSample ..) (if_neg (by rw [htaken]; simp))
  · exact Idles.of_effect rfl (exec_feSample ..) (if_neg (by obtain h | h | h | h := h <;> simp [h]))
  · obtain ⟨x, hinput, hreg, hwrite⟩ := (s.advance t).write32_feAlarm p n value hp
    obtain ⟨hdue, halarm, hkeeps⟩ := x.feAlarmWritten_does n
    obtain ⟨hen, hzones⟩ := x.inZones_stored n _ value (x.input n).zone hreg
    refine Does.of_effect (exec_feAlarmWrite ..) ?_
    rw [hwrite]
    refine ⟨?_, hdue, ?_⟩
    · rw [State.settle_reg, hkeeps _ (reportReg_low (by rw [Reg.FE_ALARM]; omega)), hreg]
      exact stored_and _ _ 0x3F1F
    · rw [State.settle_input, halarm, hen, hzones, hinput]
      rfl

end

namespace Sys2Proof.Machine

/-! ### Marks and their fragments (R103 to R105) -/

/-- Continuations read back as the value that they were cut from, with the fragments behind them left over. -/
theorem readConts_conts (k v : Nat) (rest : List Fragment) (hv : v < 2 ^ (14 * k)) :
    readConts k (conts k v ++ rest) = some (v, rest) := by
  induction k generalizing v with
  | zero =>
    have hzero : v = 0 := by simpa using hv
    rw [hzero]
    rfl
  | succ k ih =>
    have hdiv : v / 2 ^ 14 < 2 ^ (14 * k) := by
      rw [Nat.div_lt_iff_lt_mul (by decide), ← Nat.pow_add]
      exact hv
    have hlow : (BitVec.ofNat 16 (v % 2 ^ 14)).toNat = v % 2 ^ 14 := Nat.mod_eq_of_lt (by omega)
    simp only [conts, List.cons_append, readConts, hlow, ih _ hdiv]
    rw [if_pos (by omega), Nat.mod_add_div]

theorem contCount_lt (w v : Nat) : contCount w v < 4 := by
  unfold contCount
  (repeat' split) <;> decide

/-- The continuations that R104 counts hold what the first fragment does not, where three can. -/
theorem div_lt_contCount {w v : Nat} (hv : v < 2 ^ (w + 42)) : v / 2 ^ w < 2 ^ (14 * contCount w v) := by
  rw [Nat.div_lt_iff_lt_mul (by positivity), ← Nat.pow_add, Nat.add_comm]
  unfold contCount
  split
  · assumption
  · split
    · assumption
    · split
      · assumption
      · exact hv

/-- The continuations of a count read back as what the first fragment does not hold of it. -/
theorem readConts_contCount {w v : Nat} (rest : List Fragment) (hv : v < 2 ^ (w + 42)) :
    readConts (contCount w v) (conts (contCount w v) (v / 2 ^ w) ++ rest) = some (v / 2 ^ w, rest) :=
  readConts_conts _ _ rest (div_lt_contCount hv)

theorem bitOf_of_bit {v i : Nat} {b : Bool} (h : v / 2 ^ i % 2 = b2n b) : bitOf v i = b := by
  rw [bitOf, h]
  cases b <;> rfl

@[simp] theorem zoneOf_code (z : Zone) : zoneOf z.code = z := by cases z <;> rfl

theorem Zone.code_lt (z : Zone) : z.code < 4 := by cases z <;> decide

theorem b2n_lt (b : Bool) : b2n b < 2 := by cases b <;> decide

theorem ctlFrag_toNat {sub k p : Nat} (hsub : sub < 8) (hk : k < 4) (hp : p < 2 ^ 9) :
    (ctlFrag sub k p).toNat = 3 * 2 ^ 14 + sub * 2 ^ 11 + k * 2 ^ 9 + p := Nat.mod_eq_of_lt (by omega)

/-- The class, the subtype and the count of continuations of a control fragment (R103, R105). -/
theorem ctlFrag_fields {sub k p : Nat} (hsub : sub < 8) (hk : k < 4) (hp : p < 2 ^ 9) :
    (ctlFrag sub k p).toNat / 2 ^ 14 = 3 ∧ (ctlFrag sub k p).toNat / 2 ^ 11 % 8 = sub ∧
      (ctlFrag sub k p).toNat / 2 ^ 9 % 4 = k ∧ (ctlFrag sub k p).toNat % 2 ^ 9 = p := by
  rw [ctlFrag_toNat hsub hk hp]
  omega

theorem headFrag_fields {c k p : Nat} (hc : c < 4) (hk : k < 4) (hp : p < 2 ^ 12) :
    (BitVec.ofNat 16 (c * 2 ^ 14 + k * 2 ^ 12 + p)).toNat / 2 ^ 14 = c ∧
      (BitVec.ofNat 16 (c * 2 ^ 14 + k * 2 ^ 12 + p)).toNat / 2 ^ 12 % 4 = k ∧
      (BitVec.ofNat 16 (c * 2 ^ 14 + k * 2 ^ 12 + p)).toNat % 2 ^ 12 = p := by
  rw [BitVec.toNat_ofNat, Nat.mod_eq_of_lt (by omega)]
  omega

theorem readMark_head (rising : Bool) {d : Nat} (rest : List Fragment) (hd : d < 2 ^ 54) :
    readMark ((Mark.head rising d).encode ++ rest) = some (.head rising d, rest) := by
  obtain ⟨hclass, hconts, hlow⟩ := headFrag_fields (c := if rising then 1 else 2) (k := contCount 12 d) (p := d % 2 ^ 12)
    (by split <;> decide) (contCount_lt 12 d) (Nat.mod_lt _ (by decide))
  simp only [Mark.encode, List.cons_append, readMark, hclass, hconts, hlow, readConts_contCount (w := 12) rest hd,
    Nat.mod_add_div]
  cases rising <;> rfl

/-- A control fragment that holds eight bits under a flag (R105: CFG, THIN). -/
theorem ctlFrag_flagged {sub k p : Nat} (flag : Bool) (hsub : sub < 8) (hk : k < 4) (hp : p < 2 ^ 8) :
    (ctlFrag sub k (p + 2 ^ 8 * b2n flag)).toNat % 2 ^ 8 = p ∧ bitOf (ctlFrag sub k (p + 2 ^ 8 * b2n flag)).toNat 8 = flag := by
  have hb := b2n_lt flag
  obtain ⟨-, -, -, hlow⟩ := ctlFrag_fields (p := p + 2 ^ 8 * b2n flag) hsub hk (by omega)
  exact ⟨by omega, bitOf_of_bit (by omega)⟩

theorem readMark_zone (z : Zone) (skip : Bool) (rest : List Fragment) :
    readMark ((Mark.zone z skip).encode ++ rest) = some (.zone z skip, rest) := by
  have hz := z.code_lt
  have hb := b2n_lt skip
  obtain ⟨hclass, hsub, -, hlow⟩ := ctlFrag_fields (sub := 0) (k := 0) (p := z.code + 4 * b2n skip)
    (by decide) (by decide) (by omega)
  have hcode : (ctlFrag 0 0 (z.code + 4 * b2n skip)).toNat % 4 = z.code := by omega
  have hflag : bitOf (ctlFrag 0 0 (z.code + 4 * b2n skip)).toNat 2 = skip := bitOf_of_bit (by omega)
  simp only [Mark.encode, List.cons_append, List.nil_append, readMark, hclass, hsub, hcode, hflag, readConts, zoneOf_code]

theorem readMark_est (z : Zone) (rest : List Fragment) : readMark ((Mark.est z).encode ++ rest) = some (.est z, rest) := by
  have hz := z.code_lt
  obtain ⟨hclass, hsub, -, hlow⟩ := ctlFrag_fields (sub := 1) (k := 0) (p := z.code) (by decide) (by decide) (by omega)
  have hcode : (ctlFrag 1 0 z.code).toNat % 4 = z.code := by omega
  simp only [Mark.encode, List.cons_append, List.nil_append, readMark, hclass, hsub, hcode, readConts, zoneOf_code]

theorem readMark_thin (pressure : Bool) {n : Nat} (rest : List Fragment) (hn : n < 2 ^ 50) :
    readMark ((Mark.thin n pressure).encode ++ rest) = some (.thin n pressure, rest) := by
  have hp := b2n_lt pressure
  have hk := contCount_lt 8 n
  obtain ⟨hclass, hsub, hconts, -⟩ := ctlFrag_fields (sub := 2) (k := contCount 8 n) (p := n % 2 ^ 8 + 2 ^ 8 * b2n pressure)
    (by decide) hk (by omega)
  obtain ⟨hlow, hflag⟩ := ctlFrag_flagged (sub := 2) (p := n % 2 ^ 8) pressure (by decide) hk (by omega)
  simp only [Mark.encode, List.cons_append, readMark, hclass, hsub, hconts, hlow, hflag,
    readConts_contCount (w := 8) rest hn, Nat.mod_add_div]

theorem readMark_ovfl {n : Nat} (rest : List Fragment) (hn : n < 2 ^ 51) :
    readMark ((Mark.ovfl n).encode ++ rest) = some (.ovfl n, rest) := by
  obtain ⟨hclass, hsub, hconts, hlow⟩ := ctlFrag_fields (sub := 3) (k := contCount 9 n) (p := n % 2 ^ 9)
    (by decide) (contCount_lt 9 n) (by omega)
  simp only [Mark.encode, List.cons_append, readMark, hclass, hsub, hconts, hlow, readConts_contCount (w := 9) rest hn,
    Nat.mod_add_div]

theorem readMark_resync (sampled : Bool) (rest : List Fragment) :
    readMark ((Mark.resync sampled).encode ++ rest) = some (.resync sampled, rest) := by
  have hb := b2n_lt sampled
  obtain ⟨hclass, hsub, -, hlow⟩ := ctlFrag_fields (sub := 4) (k := 0) (p := b2n sampled) (by decide) (by decide) (by omega)
  have hflag : bitOf (ctlFrag 4 0 (b2n sampled)).toNat 0 = sampled := bitOf_of_bit (by omega)
  simp only [Mark.encode, List.cons_append, List.nil_append, readMark, hclass, hsub, hflag, readConts]

theorem readMark_anchor {t : Nat} (rest : List Fragment) (ht : t < 2 ^ 72) :
    readMark ((Mark.anchor t).encode ++ rest) = some (.anchor t, rest) := by
  obtain ⟨hclass, hsub, -, hlow⟩ := ctlFrag_fields (sub := 5) (k := 3) (p := t % 2 ^ 9) (by decide) (by decide) (by omega)
  have hconts := readConts_conts 5 (t / 2 ^ 9) rest (by omega)
  simp only [Mark.encode, List.cons_append, readMark, hclass, hsub, hlow, hconts, Nat.mod_add_div]

theorem readMark_cfg (cap : Bool) {epoch : Nat} (rest : List Fragment) (he : epoch < 2 ^ 8) :
    readMark ((Mark.cfg cap epoch).encode ++ rest) = some (.cfg cap epoch, rest) := by
  have hb := b2n_lt cap
  obtain ⟨hclass, hsub, -, -⟩ := ctlFrag_fields (sub := 6) (k := 0) (p := epoch + 2 ^ 8 * b2n cap) (by decide) (by decide) (by omega)
  obtain ⟨hlow, hflag⟩ := ctlFrag_flagged (sub := 6) (k := 0) cap (by decide) (by decide) he
  simp only [Mark.encode, List.cons_append, List.nil_append, readMark, Nat.mod_eq_of_lt he, hclass, hsub, hlow, hflag,
    readConts, Nat.mul_zero, Nat.add_zero]

end Sys2Proof.Machine

section
open Sys2Proof.Machine

/-- Settles O45, mark by mark (`readMark_head` to `readMark_cfg`): the continuations read back as the part of the value that
the first fragment leaves to them. -/
theorem marksReadBack : Obligations.MarksReadBack := by
  intro m rest hm
  cases m with
  | head rising d => exact readMark_head rising rest hm
  | zone z skip => exact readMark_zone z skip rest
  | est z => exact readMark_est z rest
  | thin n pressure => exact readMark_thin pressure rest hm
  | ovfl n => exact readMark_ovfl rest hm
  | resync sampled => exact readMark_resync sampled rest
  | anchor t => exact readMark_anchor rest hm
  | cfg cap epoch => exact readMark_cfg cap rest hm

end

namespace Sys2Proof.Machine

/-! ### The ledger's points under reports

A fault that is raised and a record that is pushed write the reporting side of the hub; the ledger (R452) counts edges alone. -/

/-- The points of the ledger at which edges are routed and at which they find no use (R452). -/
def State.points (s : State) : Nat × Nat := (s.flt.routed, s.flt.unbound)

@[simp] theorem raise_routed (s : State) (f : FaultCode) (p : Nat) : (s.raise f p).flt.routed = s.flt.routed := by
  obtain ⟨_, _, _, _, _, _, _, h⟩ := raise_flt s f p
  rw [h]

@[simp] theorem raise_unbound (s : State) (f : FaultCode) (p : Nat) : (s.raise f p).flt.unbound = s.flt.unbound := by
  obtain ⟨_, _, _, _, _, _, _, h⟩ := raise_flt s f p
  rw [h]

@[simp] theorem State.points_raise (s : State) (f : FaultCode) (p : Nat) : (s.raise f p).points = s.points :=
  Prod.ext (raise_routed s f p) (raise_unbound s f p)
@[simp] theorem State.points_setRing (s : State) (n : Nat) (r : Ring) : (s.setRing n r).points = s.points := rfl
theorem State.points_modRing (s : State) (n : Nat) (f : Ring → Ring) : (s.modRing n f).points = s.points := rfl
@[simp] theorem State.points_setInput (s : State) (n : Nat) (x : Input) : (s.setInput n x).points = s.points := rfl
@[simp] theorem State.points_wakeCause (s : State) (i : Nat) : (s.wakeCause i).points = s.points := rfl

@[simp] theorem State.points_holdCheck (s : State) : s.holdCheck.points = s.points := by
  unfold State.points State.holdCheck
  dsimp only
  (repeat' split) <;> simp

theorem State.points_grant (s u : State) (n size : Nat) (data : Bool) (bs : List Nat)
    (h : State.place.grant s n size data = some (bs, u)) : u.points = s.points := by
  unfold State.place.grant at h
  obtain ⟨rs, e⟩ := State.makeRoom_keeps 8192 s (max 1 (ceilDiv size 4096))
  simp only [e] at h
  rw [Option.ite_none_left_eq_some] at h
  obtain ⟨_, h⟩ := h
  cases h
  rw [State.points_holdCheck, State.points_setRing]
  rfl

theorem State.points_place (s u : State) (n size : Nat) (data : Bool) (bs : List Nat)
    (h : s.place n size data = some (bs, u)) : u.points = s.points := by
  unfold State.place at h
  dsimp only at h
  split at h
  · split at h
    · cases h
      rfl
    · exact s.points_grant u n size data bs h
  · exact s.points_grant u n size data bs h

theorem State.points_tryPush (s u : State) (n : Nat) (p : Push) (h : s.tryPush n p = some u) : u.points = s.points := by
  unfold State.tryPush at h
  dsimp only at h
  split at h
  · split at h
    · cases h
    · split at h
      · cases h
      · next e =>
        cases h
        exact (State.points_modRing ..).trans (s.points_place _ _ _ _ _ e)
  · split at h
    · cases h
    · cases h
      rfl

@[simp] theorem State.points_push (s : State) (n c : Nat) (e : Option Nat) (r : Record) : (s.push n c e r).points = s.points := by
  unfold State.push
  dsimp only
  split
  · rfl
  · split
    · next h => exact (State.points_tryPush _ _ _ _ h).trans (s.points_modRing n _)
    · rfl

@[simp] theorem State.points_alarmTest (s : State) (n : Nat) (z : Zone) (time : Nat) : (s.alarmTest n z time).points = s.points := by
  unfold State.alarmTest
  dsimp only
  (repeat' split) <;> simp

@[simp] theorem State.points_alarmSettle (s : State) (n : Nat) : (s.alarmSettle n).points = s.points := by
  unfold State.alarmSettle State.alarmFlush
  (repeat' split) <;> simp

/-! ### What the sorting office does with a word (R115, R116) -/

theorem foldl_inputs {α : Type} (f : State → α → State) (h : ∀ s a, (f s a).inputs = s.inputs) (l : List α) (s : State) :
    (l.foldl f s).inputs = s.inputs :=
  foldl_keeps (fun x => x.inputs = s.inputs) f (fun x a hx => (h x a).trans hx) l s rfl

theorem foldl_flt {α : Type} (f : State → α → State) (h : ∀ s a, (f s a).flt = s.flt) (l : List α) (s : State) :
    (l.foldl f s).flt = s.flt :=
  foldl_keeps (fun x => x.flt = s.flt) f (fun x a hx => (h x a).trans hx) l s rfl

@[simp] theorem State.routeCount_inputs (s : State) (i : Item) (uses : Nat) : (s.routeCount i uses).inputs = s.inputs := by
  unfold State.routeCount
  dsimp only
  split <;> rfl

@[simp] theorem State.routeCount_active (s : State) (i : Item) (uses : Nat) : (s.routeCount i uses).flt.active = s.flt.active := by
  unfold State.routeCount
  dsimp only
  split <;> rfl

theorem State.routeCount_routed (s : State) (i : Item) (uses : Nat) :
    (s.routeCount i uses).flt.routed = (s.flt.routed + i.edges) % 2 ^ 48 := by
  unfold State.routeCount
  dsimp only
  split <;> rfl

@[simp] theorem State.hand_inputs (s : State) (c : Nat) (word : List (Nat × Item)) : (s.hand c word).inputs = s.inputs := by
  unfold State.hand
  dsimp only
  split <;> rfl

@[simp] theorem State.hand_flt (s : State) (c : Nat) (word : List (Nat × Item)) : (s.hand c word).flt = s.flt := by
  unfold State.hand
  dsimp only
  split <;> rfl

@[simp] theorem State.route_inputs (s : State) (src : Source) (word : List Item) : (s.route src word).inputs = s.inputs :=
  (foldl_inputs _ (fun _ _ => State.hand_inputs ..) _ _).trans (foldl_inputs _ (fun _ _ => State.routeCount_inputs ..) _ _)

/-- What routing does to the ledger and the faults is the counting of the items: the handing over does nothing to them. -/
theorem State.route_flt (s : State) (src : Source) (word : List Item) :
    (s.route src word).flt = (word.foldl (fun (x : State) i => x.routeCount i (s.users src i.stamp).length) s).flt :=
  foldl_flt _ (fun _ _ => State.hand_flt ..) _ _

@[simp] theorem State.route_active (s : State) (src : Source) (word : List Item) : (s.route src word).flt.active = s.flt.active := by
  rw [State.route_flt]
  exact foldl_keeps (fun x => x.flt.active = s.flt.active) _ (fun x i hx => (x.routeCount_active i _).trans hx) word s rfl

/-- Items that are counted one by one add their edges to the ledger's first point. -/
theorem foldl_routeCount_routed (uses : Item → Nat) (word : List Item) (s : State) :
    (word.foldl (fun (x : State) i => x.routeCount i (uses i)) s).flt.routed % 2 ^ 48 =
      (s.flt.routed + (word.map Item.edges).sum) % 2 ^ 48 := by
  induction word generalizing s with
  | nil => simp
  | cons i word ih =>
    rw [List.foldl_cons, ih, State.routeCount_routed, List.map_cons, List.sum_cons, Nat.mod_add_mod, Nat.add_assoc]

/-- Every edge of a word is routed (R116, R452). -/
theorem State.route_routed (s : State) (src : Source) (word : List Item) :
    (s.route src word).flt.routed % 2 ^ 48 = (s.flt.routed + (word.map Item.edges).sum) % 2 ^ 48 := by
  rw [State.route_flt]
  exact foldl_routeCount_routed _ word s

end Sys2Proof.Machine

namespace Sys2Proof.Machine

/-! ### A word is popped (R107, R109) -/

/-- The alarm test that time has made due leaves the mailbag as it is. -/
theorem State.alarmSettle_input (s : State) (n : Nat) :
    ∃ a d, (s.alarmSettle n).input n = { s.input n with inAlarm := a, alarmDue := d } := by
  unfold State.alarmSettle State.alarmFlush
  split
  · exact ⟨_, _, rfl⟩
  · split
    · rw [(State.alarmTest_does _ n _ _).1, State.modInput_eq, State.input_setInput, if_pos rfl]
      exact ⟨_, none, rfl⟩
    · exact ⟨_, _, rfl⟩

theorem Input.closeFull_of_lt (x : Input) (h : x.openFrags.length < 8) : x.closeFull = x :=
  if_neg (by simp [Nat.not_le.mpr h])

@[simp] theorem Input.closeFull_routerSeq (x : Input) : x.closeFull.routerSeq = x.routerSeq := by
  unfold Input.closeFull
  split <;> rfl

@[simp] theorem Input.closeFull_popped (x : Input) : x.closeFull.popped = x.popped := by
  unfold Input.closeFull
  split <;> rfl

theorem State.input_raise (s : State) (f : FaultCode) (p n : Nat) : (s.raise f p).input n = s.input n :=
  State.input_of_inputs _ _ n (by simp)

/-- Input n behind the pop of the word `w` in front of `rest`. -/
def State.poppedInput (s : State) (n : Nat) (w : MailWord) (rest : List MailWord) : Input :=
  ({ (s.alarmSettle n).input n with fifo := rest, routerSeq := w.seq + 1, popped := some (w.out n) } : Input).closeFull

/-- The hub behind the pop, with the sequence of the word checked (R107). -/
def State.popChecked (s : State) (n : Nat) (w : MailWord) (rest : List MailWord) : State :=
  let s1 := (s.alarmSettle n).setInput n (s.poppedInput n w rest)
  if w.seq = (s.input n).routerSeq then s1 else s1.raise .mailbagSeq n

/-- A pop takes NOT_VALID. -/
def State.popNothing (s : State) (n : Nat) : State := s.modInput n fun x => { x with popped := some (x.notValid n) }

/-- The newest head may still merge, and its word has not closed: a pop finds nothing (R74, R111). -/
def State.mergeHolds (s : State) (n : Nat) (rest : List MailWord) : Bool :=
  rest = [] && s.mayMerge n && (s.input n).openFrags = []

theorem State.mergeHolds_eq_false {s : State} {n : Nat} {rest : List MailWord}
    (h : rest = [] → (s.input n).openFrags = [] → s.mayMerge n = false) : s.mergeHolds n rest = false := by
  rw [State.mergeHolds, Bool.eq_false_iff]
  simp only [ne_eq, Bool.and_eq_true, decide_eq_true_eq, not_and, and_imp]
  intro hr hm ho
  exact absurd hm (Bool.eq_false_iff.mp (h hr ho))

theorem exec_mailbagPop (s : State) (t : Nat) (n : Fin 256) : exec (.mailbagPop t n) s = atMoment t s fun x =>
    match (x.input n).fifo with
    | [] => (x.alarmSettle n).popNothing n
    | w :: rest =>
      if x.arbiterHeld (.local n) then x
      else if x.mergeHolds n rest then x.popNothing n
      else (x.popChecked n w rest).route (.local n) w.items := rfl

theorem State.popChecked_input (s : State) (n : Nat) (w : MailWord) (rest : List MailWord) :
    (s.popChecked n w rest).input n = s.poppedInput n w rest := by
  unfold State.popChecked
  dsimp only
  split
  · rw [State.input_setInput, if_pos rfl]
  · rw [State.input_raise, State.input_setInput, if_pos rfl]

@[simp] theorem State.points_popChecked (s : State) (n : Nat) (w : MailWord) (rest : List MailWord) :
    (s.popChecked n w rest).points = s.points := by
  unfold State.popChecked
  dsimp only
  split <;> simp

/-- A word out of its sequence raises MAILBAG_SEQ (R107). -/
theorem State.popChecked_raises (s : State) (n : Nat) (w : MailWord) (rest : List MailWord) (h : w.seq ≠ (s.input n).routerSeq) :
    (s.popChecked n w rest).flt.active.getLsbD FaultCode.mailbagSeq.cls = true := by
  unfold State.popChecked
  dsimp only
  rw [if_neg h, State.raise_class]

theorem State.poppedInput_does (s : State) (n : Nat) (w : MailWord) (rest : List MailWord) :
    (s.poppedInput n w rest).routerSeq = w.seq + 1 ∧ (s.poppedInput n w rest).popped = some (w.out n) ∧
    ((s.input n).openFrags.length < 8 → (s.poppedInput n w rest).fifo = rest) := by
  obtain ⟨a, d, hin⟩ := s.alarmSettle_input n
  refine ⟨Input.closeFull_routerSeq _, Input.closeFull_popped _, fun h => ?_⟩
  rw [State.poppedInput, Input.closeFull_of_lt _ (by rw [hin]; exact h)]

theorem State.popNothing_does (s : State) (n : Nat) :
    (((s.alarmSettle n).popNothing n).input n).popped = some ((s.input n).notValid n) ∧
    (((s.alarmSettle n).popNothing n).input n).fifo = (s.input n).fifo ∧ ((s.alarmSettle n).popNothing n).points = s.points := by
  obtain ⟨a, d, hin⟩ := s.alarmSettle_input n
  have hpop : ((s.alarmSettle n).popNothing n).input n =
      { (s.alarmSettle n).input n with popped := some (((s.alarmSettle n).input n).notValid n) } := by simp [State.popNothing]
  rw [hpop, hin]
  exact ⟨rfl, rfl, s.points_alarmSettle n⟩

/-- The routed word, as the sorting office was handed it (R107, R109, R115). -/
theorem mailbagPop_does {s : State} {t : Nat} {n : Fin 256} {w : MailWord} {rest : List MailWord}
    (hfifo : (s.input n).fifo = w :: rest) (hheld : s.arbiterHeld (.local n) = false)
    (hmerge : rest = [] → (s.input n).openFrags = [] → (s.advance t).mayMerge n = false) :
    Does (.mailbagPop t n) s fun u =>
      (u.input n).routerSeq = w.seq + 1 ∧ (u.input n).popped = some (w.out n) ∧
      ((s.input n).openFrags.length < 8 → (u.input n).fifo = rest) ∧
      u.flt.routed % 2 ^ 48 = (s.flt.routed + (w.items.map Item.edges).sum) % 2 ^ 48 ∧
      (w.seq ≠ (s.input n).routerSeq → u.flt.active.getLsbD FaultCode.mailbagSeq.cls = true) := by
  have hopen : (s.advance t).arbiterHeld (.local n) = false := hheld
  have hwins : (s.advance t).mergeHolds n rest = false := State.mergeHolds_eq_false hmerge
  obtain ⟨hseq, hpop, hrest⟩ := (s.advance t).poppedInput_does n w rest
  have hinput : (((s.advance t).popChecked n w rest).route (.local n) w.items).input n = (s.advance t).poppedInput n w rest :=
    (State.input_of_inputs _ _ n (State.route_inputs ..)).trans (State.popChecked_input ..)
  have hrouted : ((s.advance t).popChecked n w rest).flt.routed = s.flt.routed :=
    congrArg Prod.fst (State.points_popChecked (s.advance t) n w rest)
  refine Does.of_effect (exec_mailbagPop ..) ?_
  simp only [State.input_advance, hfifo]
  rw [if_neg (Bool.eq_false_iff.mp hopen), if_neg (Bool.eq_false_iff.mp hwins), State.settle_input, State.settle_flt,
    hinput, State.route_active]
  refine ⟨hseq, hpop, hrest, ?_, State.popChecked_raises (s.advance t) n w rest⟩
  rw [State.route_routed, hrouted]

/-- An empty mailbag gives NOT_VALID (R109). -/
theorem mailbagPop_empty {s : State} (t : Nat) {n : Fin 256} (hfifo : (s.input n).fifo = []) :
    Does (.mailbagPop t n) s fun u =>
      (u.input n).popped = some ((s.input n).notValid n) ∧ (u.input n).fifo = [] ∧ u.flt.routed = s.flt.routed := by
  refine Does.of_effect (exec_mailbagPop ..) ?_
  obtain ⟨hpop, hrest, hpoints⟩ := (s.advance t).popNothing_does n
  simp only [State.input_advance, hfifo, State.settle_input, State.settle_flt]
  exact ⟨hpop, hrest.trans hfifo, congrArg Prod.fst hpoints⟩

/-- A word whose only channel's diversion queue is full stays in the mailbag (R228). -/
theorem mailbagPop_held {s : State} (t : Nat) {n : Fin 256} (hfifo : (s.input n).fifo ≠ [])
    (hheld : s.arbiterHeld (.local n) = true) : Idles (.mailbagPop t n) s := by
  refine Idles.of_effect (t := t) rfl (exec_mailbagPop ..) ?_
  have hopen : (s.advance t).arbiterHeld (.local n) = true := hheld
  obtain ⟨w, rest, hw⟩ := List.exists_cons_of_ne_nil hfifo
  simp only [State.input_advance, hw]
  rw [if_pos hopen]

end Sys2Proof.Machine

namespace Sys2Proof.Machine

/-! ### What reports and statistics leave of a channel's count -/

/-- What an engine has counted for a channel: the items it has still to take, the totaliser, and the state of quadrature. -/
structure Tally where
  inbox : List (Nat × Item)
  count : Nat
  quad : QuadState

def Chan.tally (x : Chan) : Tally := { inbox := x.inbox, count := x.count, quad := x.quad }

/-- The tally of channel c. -/
def State.tally (s : State) (c : Nat) : Tally := (s.chan c).tally

theorem State.tally_of_chans {s u : State} (h : u.chans = s.chans) (c : Nat) : u.tally c = s.tally c := by
  rw [State.tally, State.chan, h, State.tally, State.chan]

theorem State.tally_setChan (s : State) (c : Nat) (x : Chan) : (s.setChan c x).tally c = x.tally := by
  rw [State.tally, State.chan_setChan, if_pos rfl]

/-- The fields of a channel that its reports and its statistics write are none of its tally's. -/
@[simp] theorem State.tally_setChan_report (s : State) (c : Nat) (place : Placed) (withheld : Option Withheld) (cfg gapFlag : Bool)
    (guard : Guarded) (line : StatLine) (dev : Option DevSet) (histos : Table Histo) (targets : List (TargetOp × Option Nat)) :
    (s.setChan c { s.chan c with place := place, withheld := withheld, cfg := cfg, gapFlag := gapFlag, guard := guard, line := line,
                                 dev := dev, histos := histos, targets := targets }).tally c = s.tally c := s.tally_setChan c _

theorem foldl_tally {α : Type} (f : State → α → State) (c : Nat) (h : ∀ s a, (f s a).tally c = s.tally c) (l : List α) (s : State) :
    (l.foldl f s).tally c = s.tally c :=
  foldl_keeps (fun x => x.tally c = s.tally c) f (fun x a hx => (h x a).trans hx) l s rfl

@[simp] theorem State.tally_push (s : State) (n k : Nat) (e : Option Nat) (r : Record) (c : Nat) : (s.push n k e r).tally c = s.tally c :=
  State.tally_of_chans (by simp) c
@[simp] theorem State.tally_raise (s : State) (f : FaultCode) (p c : Nat) : (s.raise f p).tally c = s.tally c :=
  State.tally_of_chans (by simp) c
@[simp] theorem State.tally_bump (s : State) (a lo w c : Nat) : (s.bump a lo w).tally c = s.tally c :=
  State.tally_of_chans (by simp) c
@[simp] theorem State.tally_unrefAll (s : State) (n : Nat) (bs : List Nat) (c : Nat) : (s.unrefAll n bs).tally c = s.tally c :=
  State.tally_of_chans (by simp) c
@[simp] theorem State.tally_imageChanged (s : State) (c : Nat) : s.imageChanged.tally c = s.tally c := rfl
@[simp] theorem State.tally_engineWork (s : State) (e k c : Nat) : (s.engineWork e k).tally c = s.tally c := rfl
@[simp] theorem State.tally_addUnbound (s : State) (k c : Nat) : (s.addUnbound k).tally c = s.tally c := rfl
@[simp] theorem State.tally_addCounted (s : State) (e k c : Nat) : (s.addCounted e k).tally c = s.tally c := rfl

@[simp] theorem State.tally_setRing (s : State) (n : Nat) (r : Ring) (c : Nat) : (s.setRing n r).tally c = s.tally c := rfl

@[simp] theorem State.tally_addWork (s : State) (c k : Nat) : (s.addWork c k).tally c = s.tally c := by
  unfold State.addWork
  dsimp only
  split <;> simp

@[simp] theorem State.tally_withhold (s : State) (c ring : Nat) (stamp : Bool) (a : At) :
    (s.withhold c ring stamp a).tally c = s.tally c := by simp [State.withhold]

@[simp] theorem State.tally_chanRec (s : State) (c : Nat) (d : Decl) (r : Record) (stamps : Used) (a : At) :
    (s.chanRec c d r stamps a).tally c = s.tally c := by
  unfold State.chanRec
  dsimp only
  (repeat' split) <;> simp

@[simp] theorem State.tally_chanAck (s : State) (c stage : Nat) (tag : Dword) (time : Nat) (body : List Word) :
    (s.chanAck c stage tag time body).tally c = s.tally c := State.tally_chanRec ..

@[simp] theorem State.tally_statsRecord (s : State) (c : Nat) (reason : Reason) (line : Option StatLine) (dev : Option DevSet) :
    (s.statsRecord c reason line dev).tally c = s.tally c := by simp [State.statsRecord]

@[simp] theorem State.tally_histoRecord (s : State) (c no : Nat) (h : Histo) (reasons : Nat) :
    (s.histoRecord c no h reasons).tally c = s.tally c := by simp [State.histoRecord]

@[simp] theorem State.tally_devReportDue (s : State) (c : Nat) : (s.devReportDue c).tally c = s.tally c := by
  unfold State.devReportDue
  (repeat' split) <;> simp

@[simp] theorem State.tally_histoDue (s : State) (c no : Nat) : (s.histoDue c no).tally c = s.tally c := by
  unfold State.histoDue
  (repeat' split) <;> simp

@[simp] theorem State.tally_histoPeriod (s : State) (c no reasons began : Nat) :
    (s.histoPeriod c no reasons began).tally c = s.tally c := by
  unfold State.histoPeriod
  split <;> simp

@[simp] theorem State.tally_histoFlush (s : State) (c no : Nat) : (s.histoFlush c no).tally c = s.tally c := by
  unfold State.histoFlush
  (repeat' split) <;> simp

@[simp] theorem State.tally_histoCatchUp (k : Nat) (s : State) (c no t : Nat) :
    (State.histoCatchUp k s c no t).tally c = s.tally c := by
  induction k generalizing s with
  | zero => rfl
  | succ k ih =>
    unfold State.histoCatchUp
    (repeat' split) <;> simp [ih]

@[simp] theorem State.tally_histoSettle (s : State) (c no t : Nat) : (s.histoSettle c no t).tally c = s.tally c := by
  simp [State.histoSettle]

@[simp] theorem State.tally_histoFeed (s : State) (c no : Nat) (u : Int) (held : Bool) (t : Nat) (fl : BitVec 10) :
    (s.histoFeed c no u held t fl).tally c = s.tally c := by
  unfold State.histoFeed
  dsimp only
  (repeat' split) <;> simp

@[simp] theorem State.tally_histoSkip (s : State) (c no k t : Nat) : (s.histoSkip c no k t).tally c = s.tally c := by
  unfold State.histoSkip
  dsimp only
  (repeat' split) <;> simp

@[simp] theorem State.tally_histoRelease (s : State) (c no t : Nat) : (s.histoRelease c no t).tally c = s.tally c := by
  unfold State.histoRelease
  dsimp only
  split <;> simp

@[simp] theorem State.tally_targetApply (s : State) (c : Nat) (op : TargetOp) (tq : Nat) :
    (s.targetApply c op tq).tally c = s.tally c := by
  cases op with
  | dev =>
    unfold State.targetApply
    dsimp only
    (repeat' split) <;> simp [-State.chan_setChan]
  | histo =>
    unfold State.targetApply
    dsimp only
    split <;> simp
  | read line dev histos clear =>
    refine (foldl_tally _ c (fun x no => ?_) _ _).trans ?_
    · dsimp only
      split <;> simp
    · split <;> simp

/-- Targets that take effect at an edge leave the tally as it is (R210). -/
@[simp] theorem State.tally_intervalTargets (s : State) (c t : Nat) : (s.intervalTargets c t).tally c = s.tally c := by
  refine (foldl_tally _ c (fun x o => ?_) _ _).trans (by simp)
  (repeat' split) <;> simp

@[simp] theorem State.tally_interval (s : State) (c mode : Nat) (len : Int) (t0 t : Nat) :
    (s.interval c mode len t0 t).tally c = s.tally c :=
  (foldl_tally _ c (fun _ _ => State.tally_histoFeed ..) _ _).trans (s.tally_intervalTargets c t)

@[simp] theorem State.tally_intervalSkip (s : State) (c mode k t : Nat) : (s.intervalSkip c mode k t).tally c = s.tally c :=
  (foldl_tally _ c (fun _ _ => State.tally_histoSkip ..) _ _).trans (s.tally_intervalTargets c t)

@[simp] theorem State.tally_periodHisto (s : State) (c : Nat) (a e : Edge) : (s.periodHisto c a e).tally c = s.tally c := by
  unfold State.periodHisto
  (repeat' split) <;> simp

@[simp] theorem State.tally_widthHistos (s : State) (c : Nat) (a e : Edge) : (s.widthHistos c a e).tally c = s.tally c := by
  unfold State.widthHistos
  dsimp only
  (repeat' split) <;> simp only [State.tally_interval, State.tally_intervalSkip]

@[simp] theorem State.tally_edgeHistos (s : State) (c : Nat) : (s.edgeHistos c).tally c = s.tally c := by
  unfold State.edgeHistos
  dsimp only
  (repeat' split) <;> simp

@[simp] theorem State.tally_stampRec (s : State) (c : Nat) (src : Source) (stamp : Nat) (rising : Bool) (n before : Nat) :
    (s.stampRec c src stamp rising n before).tally c = s.tally c := by
  unfold State.stampRec
  dsimp only
  split <;> simp

@[simp] theorem State.tally_coverCheck (s : State) (c : Nat) : s.coverCheck.tally c = s.tally c := by
  unfold State.coverCheck
  dsimp only
  split
  · exact State.tally_raise ..
  · rfl

end Sys2Proof.Machine

namespace Sys2Proof.Machine

/-! ### The engine takes an item (R116, R118, R142, R143) -/

theorem exec_engineEdge (s : State) (t : Nat) (c : BitVec 20) :
    exec (.engineEdge t c) s = atMoment t s fun x => (x.engineEdge c.toNat).coverCheck := rfl

/-- What stands open for an engine: the front item of the channel's inbox waits for nothing. -/
structure State.Serves (s : State) (c use : Nat) (i : Item) (rest : List (Nat × Item)) : Prop where
  inbox : (s.chan c).inbox = (use, i) :: rest
  free : s.engineHeld (s.chan c).place.engine = false
  unsealed : s.sealedCastling c = none
  ready : (s.chan c).waits i.stamp = false
  runs : s.pst.endgame = none

theorem State.engineEdge_serves {s : State} {c use : Nat} {i : Item} {rest : List (Nat × Item)} (h : s.Serves c use i rest) :
    s.engineEdge c = s.engineTake c := by
  simp [State.engineEdge, h.inbox, h.free, h.unsealed, h.ready]

/-- The state in which the front item has left the channel's inbox. -/
def State.fetched (s : State) (c : Nat) (rest : List (Nat × Item)) : State := s.setChan c { s.chan c with inbox := rest }

theorem State.engineTake_takes {s : State} {c use : Nat} {i : Item} {rest : List (Nat × Item)} (h : s.Serves c use i rest)
    (ht : (s.chan c).takes i.stamp = true) : s.engineTake c = (s.fetched c rest).takeItem c use i := by
  simp [State.engineTake, h.inbox, h.runs, ht, State.fetched]

theorem State.engineTake_leaves {s : State} {c use : Nat} {i : Item} {rest : List (Nat × Item)} (h : s.Serves c use i rest)
    (ht : (s.chan c).takes i.stamp = false) : s.engineTake c = (s.fetched c rest).addUnbound i.edges := by
  simp [State.engineTake, h.inbox, h.runs, ht, State.fetched]

theorem State.tally_fetched (s : State) (c : Nat) (rest : List (Nat × Item)) :
    (s.fetched c rest).tally c = { s.tally c with inbox := rest } := s.tally_setChan c _

theorem State.decl_fetched (s : State) (c : Nat) (rest : List (Nat × Item)) : ((s.fetched c rest).chan c).decl = (s.chan c).decl := by
  simp [State.fetched]

/-- An edge of side A is counted, with the unstamped edges that its head stands for (R142, R143). -/
theorem State.tally_sideEdge (s : State) (c : Nat) (i : Item) :
    (s.sideEdge c false i).tally c = { s.tally c with
      count := ((s.tally c).count + (i.share (s.chan c).decl.selA).1 + b2n ((s.chan c).decl.selA.takes i.rising)) % 2 ^ 48 } := by
  have stored (x : Chan) (e k u w : Nat) : ((((s.setChan c x).addCounted e k).addUnbound u).addWork c w).tally c = x.tally := by
    rw [State.tally_addWork, State.tally_addUnbound, State.tally_addCounted, State.tally_setChan]
  unfold State.sideEdge
  simp only [Bool.false_eq_true, if_false, Chan.setSide]
  split
  · rw [State.tally_stampRec, stored]
    simp only [Chan.tally, State.tally]
  · rw [stored]
    simp only [Chan.tally, State.tally]

/-- An edge that a channel of a counting kind takes. -/
theorem State.tally_takeItem (s : State) (c use : Nat) (i : Item) (hi : i.kind = .edge)
    (hk : (s.chan c).decl.kind = .edge ∨ (s.chan c).decl.kind = .window ∨ (s.chan c).decl.kind = .remote) :
    (s.takeItem c use i).tally c = (s.sideEdge c false i).tally c := by
  have counted : (if (s.chan c).decl.selA.takes i.rising then (s.sideEdge c false i).edgeHistos c
      else s.sideEdge c false i).tally c = (s.sideEdge c false i).tally c := by
    split
    · exact State.tally_edgeHistos ..
    · rfl
  obtain hk | hk | hk := hk <;> simpa [State.takeItem, hi, hk] using counted

@[simp] theorem State.coverCheck_unbound (s : State) : s.coverCheck.flt.unbound = s.flt.unbound := by
  unfold State.coverCheck
  dsimp only
  split
  · exact raise_unbound ..
  · rfl

end Sys2Proof.Machine

namespace Sys2Proof.Machine

theorem State.Serves.advance {s : State} {c use : Nat} {i : Item} {rest : List (Nat × Item)} (h : s.Serves c use i rest) (t : Nat) :
    (s.advance t).Serves c use i rest :=
  { inbox := h.inbox, free := h.free, unsealed := h.unsealed, ready := h.ready, runs := h.runs }

/-- The engine counts an edge of a counting kind (R142, R143). -/
theorem engineEdge_counts {s : State} {c : BitVec 20} {use : Nat} {i : Item} {rest : List (Nat × Item)} (t : Nat)
    (h : s.Serves c.toNat use i rest) (ht : (s.chan c.toNat).takes i.stamp = true) (hi : i.kind = .edge)
    (hk : (s.chan c.toNat).decl.kind = .edge ∨ (s.chan c.toNat).decl.kind = .window ∨ (s.chan c.toNat).decl.kind = .remote) :
    Does (.engineEdge t c) s fun u =>
      (u.chan c.toNat).inbox = rest ∧
      (u.chan c.toNat).count = ((s.chan c.toNat).count + (i.share (s.chan c.toNat).decl.selA).1 +
        b2n ((s.chan c.toNat).decl.selA.takes i.rising)) % 2 ^ 48 := by
  have hdecl := (s.advance t).decl_fetched c.toNat rest
  have htally : (((s.advance t).engineEdge c.toNat).coverCheck).tally c.toNat =
      { s.tally c.toNat with
        inbox := rest
        count := ((s.chan c.toNat).count + (i.share (s.chan c.toNat).decl.selA).1 +
          b2n ((s.chan c.toNat).decl.selA.takes i.rising)) % 2 ^ 48 } := by
    rw [State.tally_coverCheck, State.engineEdge_serves (h.advance t), State.engineTake_takes (h.advance t) ht,
      State.tally_takeItem _ _ _ _ hi (by rw [hdecl]; exact hk), State.tally_sideEdge, State.tally_fetched, hdecl]
    rfl
  exact Does.of_effect (exec_engineEdge ..) ⟨congrArg Tally.inbox htally, congrArg Tally.count htally⟩

/-- An edge outside the channel's periods finds no use (R127, R452). -/
theorem engineEdge_leaves {s : State} {c : BitVec 20} {use : Nat} {i : Item} {rest : List (Nat × Item)} (t : Nat)
    (h : s.Serves c.toNat use i rest) (ht : (s.chan c.toNat).takes i.stamp = false) :
    Does (.engineEdge t c) s fun u =>
      (u.chan c.toNat).inbox = rest ∧ (u.chan c.toNat).count = (s.chan c.toNat).count ∧
      u.flt.unbound = (s.flt.unbound + i.edges) % 2 ^ 48 := by
  have heff : ((s.advance t).engineEdge c.toNat).coverCheck =
      (((s.advance t).fetched c.toNat rest).addUnbound i.edges).coverCheck := by
    rw [State.engineEdge_serves (h.advance t), State.engineTake_leaves (h.advance t) ht]
  have htally : (((s.advance t).engineEdge c.toNat).coverCheck).tally c.toNat = { s.tally c.toNat with inbox := rest } := by
    rw [heff, State.tally_coverCheck, State.tally_addUnbound, State.tally_fetched]
    rfl
  refine Does.of_effect (exec_engineEdge ..) ⟨congrArg Tally.inbox htally, congrArg Tally.count htally, ?_⟩
  rw [State.settle_flt, heff, State.coverCheck_unbound]
  rfl

/-! ### A quadrature change that stands alone (R119) -/

theorem exec_quadDecide (s : State) (t : Nat) (c : BitVec 20) : exec (.quadDecide t c) s = atMoment t s fun x =>
    if x.engineHeld (x.chan c.toNat).place.engine || (x.sealedCastling c.toNat).isSome then x
    else (x.quadAll c.toNat).coverCheck := rfl

@[simp] theorem QuadState.setZone_todo (q : QuadState) (onB rising : Bool) : (q.setZone onB rising).todo = q.todo := by
  unfold QuadState.setZone
  dsimp only
  split <;> rfl

/-- The channel's changes have been taken to be decided. -/
def State.changesTaken (s : State) (c : Nat) : State :=
  s.setChan c { s.chan c with quad := { (s.chan c).quad with todo := [] } }

/-- The only change is decided as one that stands alone, once no other can lie within 400 ps of it. -/
theorem State.quadAll_single {s : State} {c : Nat} {e : QuadChange} (htodo : (s.chan c).quad.todo = [e]) (hest : e.est = none)
    (hhead : e.headless = false) (hdue : e.stamp + 860652 ≤ s.devTime) : s.quadAll c = (s.changesTaken c).quadSingle c e := by
  have hcluster : quadCluster [] [e] = ([e], []) := by simp [quadCluster]
  have hdecided : decidable? s.devTime [e] e = true := by simp [decidable?, hdue]
  simp [State.quadAll, State.quadRun, htodo, hcluster, hdecided, hest, hhead, State.changesTaken]

theorem State.quad_changesTaken (s : State) (c : Nat) :
    ((s.changesTaken c).chan c).quad = { (s.chan c).quad with todo := [] } := by simp [State.changesTaken]

theorem State.decl_changesTaken (s : State) (c : Nat) : ((s.changesTaken c).chan c).decl = (s.chan c).decl := by
  simp [State.changesTaken]

/-- A tally behind a step of quadrature from the state `q`: nothing is left to decide, the position has taken `step`, and the
totaliser shows it (R119). -/
structure Tally.Stepped (x : Tally) (q : QuadState) (step : Int) : Prop where
  todo : x.quad.todo = q.todo
  position : x.quad.position = q.position + step
  count : x.count = toField 48 x.quad.position

/-- A change without unstamped transitions, with both inputs established, makes its step (R119). -/
theorem State.tally_quadSingle (s : State) (c : Nat) (e : QuadChange) (hready : (s.chan c).quad.ready = true)
    (hu : e.unstamped = 0) :
    ((s.quadSingle c e).tally c).Stepped (s.chan c).quad (quadStep (s.chan c).decl.decode e.onB e.rising
      (if e.onB then (s.chan c).quad.zoneA else (s.chan c).quad.zoneB)) := by
  have hcover : (s.chan c).quad.cover (s.chan c).decl.decode e = (false, (s.chan c).quad) := if_pos hu
  unfold State.quadSingle State.quadStamp
  simp only [hcover, hready, Bool.false_eq_true, if_false, if_true]
  split
  · rw [State.tally_stampRec, State.tally_setChan]
    exact ⟨QuadState.setZone_todo .., rfl, rfl⟩
  · rw [State.tally_setChan]
    exact ⟨QuadState.setZone_todo .., rfl, rfl⟩

/-- The change is decided, where no held push and no seal keeps the engine from it. -/
theorem quadDecide_steps {s : State} {t : Nat} {c : BitVec 20} {e : QuadChange} (htodo : (s.chan c.toNat).quad.todo = [e])
    (hfree : s.engineHeld (s.chan c.toNat).place.engine = false) (hseal : s.sealedCastling c.toNat = none)
    (hready : (s.chan c.toNat).quad.ready = true) (hest : e.est = none) (hhead : e.headless = false) (hu : e.unstamped = 0)
    (hdue : e.stamp + 860652 ≤ (s.advance t).devTime) :
    Does (.quadDecide t c) s fun u =>
      let q := (s.chan c.toNat).quad
      let other := if e.onB then q.zoneA else q.zoneB
      (u.chan c.toNat).quad.todo = [] ∧
      (u.chan c.toNat).quad.position = q.position + quadStep (s.chan c.toNat).decl.decode e.onB e.rising other ∧
      (u.chan c.toNat).count = toField 48 (u.chan c.toNat).quad.position := by
  have hquad := (s.advance t).quad_changesTaken c.toNat
  have hstep := ((s.advance t).changesTaken c.toNat).tally_quadSingle c.toNat e (by rw [hquad]; exact hready) hu
  rw [← State.quadAll_single (s := s.advance t) htodo hest hhead hdue, ← State.tally_coverCheck, hquad,
    State.decl_changesTaken] at hstep
  have hidle : (s.advance t).engineHeld ((s.advance t).chan c.toNat).place.engine = false := hfree
  have hunsealed : (s.advance t).sealedCastling c.toNat = none := hseal
  refine Does.of_effect (exec_quadDecide ..) ?_
  rw [if_neg (by rw [hidle, hunsealed]; decide)]
  exact ⟨hstep.todo, hstep.position, hstep.count⟩

end Sys2Proof.Machine

section
open Sys2Proof.Machine

/-- Settles O8: a pop by `mailbagPop_does`, the engine's edges by the channel's tally (`State.tally_sideEdge`), a change of
quadrature by `State.tally_quadSingle`. -/
theorem engineRowsComplete : Obligations.EngineRowsComplete := by
  refine ⟨fun s t n => ⟨fun w rest hfifo hheld hmerge => ?_, fun hfifo => ?_, fun hfifo hheld => ?_⟩,
    fun s t c use i rest hinbox hfree hseal hwaits hend => ⟨fun ht hi hk => ?_, fun ht => ?_⟩,
    fun s t c e htodo hfree hseal hready hest hhead hu hdue => ?_⟩
  · exact mailbagPop_does hfifo hheld hmerge
  · exact mailbagPop_empty t hfifo
  · exact mailbagPop_held t hfifo hheld
  · exact engineEdge_counts t ⟨hinbox, hfree, hseal, hwaits, hend⟩ ht hi hk
  · exact engineEdge_leaves t ⟨hinbox, hfree, hseal, hwaits, hend⟩ ht
  · exact quadDecide_steps htodo hfree hseal hready hest hhead hu hdue

end

namespace Sys2Proof.Machine

/-! ### What an engine's work leaves of the channels and the cadences -/

/-- A channel's lifecycle: its state, its declaration, its totaliser, the descriptor that it holds, and the times from which its
periods run (R121 to R127). -/
structure Life where
  st : ChanState
  decl : Decl
  tB : Nat
  tLive : Nat
  sampleFrom : Nat
  stampFrom : Nat
  countOnly : Bool
  count : Nat
  op : Option ChanOp
  opAt : Option Nat

def Chan.life (x : Chan) : Life :=
  { st := x.st, decl := x.decl, tB := x.tB, tLive := x.tLive, sampleFrom := x.sampleFrom, stampFrom := x.stampFrom,
    countOnly := x.countOnly, count := x.count, op := x.op, opAt := x.opAt }

/-- The lifecycle of every channel, the cadences, and the registers from those of the cadences on. -/
structure EngineFrame where
  life : Nat → Life
  cadences : Table Cadence
  cadReg : Nat → Word

def State.engineFrame (s : State) : EngineFrame :=
  { life := fun c => (s.chan c).life, cadences := s.cadences, cadReg := fun o => s.reg (0x13000 + o) }

theorem State.life_of_frame {s u : State} (h : u.engineFrame = s.engineFrame) (c : Nat) : (u.chan c).life = (s.chan c).life :=
  congrFun (congrArg EngineFrame.life h) c

theorem State.cadence_of_frame {s u : State} (h : u.engineFrame = s.engineFrame) (c : Nat) : u.cadence c = s.cadence c :=
  congrArg (fun f : EngineFrame => tget ({} : Cadence) f.cadences c) h

theorem State.reg_of_frame {s u : State} (h : u.engineFrame = s.engineFrame) {a : Nat} (ha : 0x13000 ≤ a) : u.reg a = s.reg a := by
  obtain ⟨o, rfl⟩ := Nat.exists_eq_add_of_le ha
  exact congrFun (congrArg EngineFrame.cadReg h) o

/-- P and the phase of a cadence, where its registers are as before. -/
theorem State.cadP_of_frame {s u : State} (h : u.engineFrame = s.engineFrame) (c : Nat) : u.cadP c = s.cadP c :=
  congrArg periodOf (State.reg_of_frame h (by rw [Reg.CAD_PERIOD]; omega))

theorem State.cadPhase_of_frame {s u : State} (h : u.engineFrame = s.engineFrame) (c : Nat) : u.cadPhase c = s.cadPhase c :=
  congrArg (fun w : Word => fieldOf w.toNat 0 54) (State.reg_of_frame h (by rw [Reg.CAD_PHASE]; omega))

/-- The reports of faults lie below the registers of the cadences. -/
theorem reportReg_cad {a : Nat} (h : 0x13000 ≤ a) : reportReg a = false := by
  have hne : ∀ b, b < 0x13000 → (a == b) = false := fun b hb => by simp; omega
  have hge : ¬a < 0x12044 := by omega
  simp [reportReg, hne, hge]

theorem State.engineFrame_eq {s u : State} (hch : u.chans = s.chans) (hcad : u.cadences = s.cadences)
    (hreg : ∀ a, 0x13000 ≤ a → u.reg a = s.reg a) : u.engineFrame = s.engineFrame := by
  have hcad' : (fun o => u.reg (0x13000 + o)) = fun o => s.reg (0x13000 + o) := funext fun o => hreg _ (by omega)
  simp only [State.engineFrame, State.chan, hch, hcad, hcad']

/-- A channel is stored in another shape with its lifecycle as before. -/
theorem State.engineFrame_setChan (s : State) (c : Nat) (x : Chan) (h : x.life = (s.chan c).life) :
    (s.setChan c x).engineFrame = s.engineFrame := by
  have hlife : (fun k => ((s.setChan c x).chan k).life) = fun k => (s.chan k).life := by
    funext k
    rw [State.chan_setChan]
    split
    · next hk => rw [hk, h]
    · rfl
  exact congrArg (fun l => ({ s.engineFrame with life := l } : EngineFrame)) hlife

/-- The fields of a channel that an engine and the reports write are none of its lifecycle's. -/
@[simp] theorem State.engineFrame_setChan_work (s : State) (c : Nat) (a b : Side) (pair : PairState) (quad : QuadState)
    (late cfg gapFlag : Bool) (old : Option (Nat × Decl)) (gridCut : Option Nat) (stages : List StageState) (line : StatLine)
    (dev : Option DevSet) (histos : Table Histo) (targets : List (TargetOp × Option Nat)) (place : Placed)
    (withheld : Option Withheld) (guard : Guarded) :
    (s.setChan c { s.chan c with a := a, b := b, pair := pair, quad := quad, late := late, cfg := cfg, gapFlag := gapFlag, old := old,
                                 gridCut := gridCut, stages := stages, line := line, dev := dev, histos := histos,
                                 targets := targets, place := place, withheld := withheld, guard := guard }).engineFrame =
      s.engineFrame := s.engineFrame_setChan c _ rfl

@[simp] theorem State.engineFrame_setRing (s : State) (n : Nat) (r : Ring) : (s.setRing n r).engineFrame = s.engineFrame := rfl
@[simp] theorem State.engineFrame_out (s : State) (o : Output) : (s.out o).engineFrame = s.engineFrame := rfl
@[simp] theorem State.engineFrame_imageChanged (s : State) : s.imageChanged.engineFrame = s.engineFrame := rfl
@[simp] theorem State.engineFrame_engineWork (s : State) (e k : Nat) : (s.engineWork e k).engineFrame = s.engineFrame := rfl
@[simp] theorem State.engineFrame_push (s : State) (n k : Nat) (e : Option Nat) (r : Record) :
    (s.push n k e r).engineFrame = s.engineFrame :=
  State.engineFrame_eq (by simp) (by simp) fun a ha => s.reg_push n k e r a (reportReg_cad ha)
@[simp] theorem State.engineFrame_raise (s : State) (f : FaultCode) (p : Nat) : (s.raise f p).engineFrame = s.engineFrame :=
  State.engineFrame_eq (by simp) (by simp) fun a ha => s.reg_raise f p a (reportReg_cad ha)
@[simp] theorem State.engineFrame_unrefAll (s : State) (n : Nat) (bs : List Nat) : (s.unrefAll n bs).engineFrame = s.engineFrame :=
  State.engineFrame_eq (by simp) (by simp) fun a ha => s.reg_unrefAll n bs a (reportReg_cad ha)
theorem State.engineFrame_bump (s : State) (a lo w : Nat) (h : a < 0x13000) : (s.bump a lo w).engineFrame = s.engineFrame :=
  State.engineFrame_eq (by simp) (by simp) fun b hb => by rw [State.reg_bump, if_neg (by omega)]

@[simp] theorem State.engineFrame_addWork (s : State) (c k : Nat) : (s.addWork c k).engineFrame = s.engineFrame := by
  unfold State.addWork
  dsimp only
  split <;> simp

@[simp] theorem State.engineFrame_withhold (s : State) (c ring : Nat) (stamp : Bool) (a : At) :
    (s.withhold c ring stamp a).engineFrame = s.engineFrame := by
  refine (State.engineFrame_bump _ _ _ _ (by decide)).trans ?_
  simp

@[simp] theorem State.engineFrame_chanRec (s : State) (c : Nat) (d : Decl) (r : Record) (stamps : Used) (a : At) :
    (s.chanRec c d r stamps a).engineFrame = s.engineFrame := by
  unfold State.chanRec
  dsimp only
  (repeat' split) <;> simp

@[simp] theorem State.engineFrame_chanAck (s : State) (c stage : Nat) (tag : Dword) (time : Nat) (body : List Word) :
    (s.chanAck c stage tag time body).engineFrame = s.engineFrame := State.engineFrame_chanRec ..

@[simp] theorem State.engineFrame_statsRecord (s : State) (c : Nat) (reason : Reason) (line : Option StatLine) (dev : Option DevSet) :
    (s.statsRecord c reason line dev).engineFrame = s.engineFrame := by simp [State.statsRecord]

@[simp] theorem State.engineFrame_devReportDue (s : State) (c : Nat) : (s.devReportDue c).engineFrame = s.engineFrame := by
  unfold State.devReportDue
  (repeat' split) <;> simp

@[simp] theorem State.engineFrame_devRestart (s : State) (c : Nat) : (s.devRestart c).engineFrame = s.engineFrame := by
  unfold State.devRestart
  split <;> simp

@[simp] theorem State.engineFrame_gridRestart (s : State) (c : Nat) : (s.gridRestart c).engineFrame = s.engineFrame := by
  unfold State.gridRestart
  dsimp only
  (repeat' split) <;> simp

/-- A fold whose steps are an engine's work. -/
theorem foldl_engineFrame {α : Type} (f : State → α → State) (h : ∀ s a, (f s a).engineFrame = s.engineFrame) (l : List α)
    (s : State) : (l.foldl f s).engineFrame = s.engineFrame :=
  foldl_keeps (fun x => x.engineFrame = s.engineFrame) f (fun x a hx => (h x a).trans hx) l s rfl

end Sys2Proof.Machine

namespace Sys2Proof.Machine

/-! ### The registers of a cadence -/

/-- The block of the cadences. -/
def cadBlock : Block :=
  { base := 0x13000, top := 0x14000, stride := 64, inst := 16, window := 64, epoch := some 12, rows := rowsCad }

/-- A register of a cadence as a port reaches it. -/
def cadHit (c : Nat) (r : RegRow) : Hit :=
  { reg := 0x13000 + r.off + 64 * c, upper := false, row := r, epoch := some 12, inst := c }

/-- The rows of CAD_CTRL, CAD_PERIOD and CAD_PHASE. -/
def cadCtrlRow : RegRow := { off := 0x0, mask := 0xFFF, reset := 0x180 }
def cadPeriodRow : RegRow := { off := 0x8, wide := true, mask := 0x1FFFFFFFFFFFF, reset := 0xBB8000 }
def cadPhaseRow : RegRow := { off := 0x10, wide := true, mask := 0x3FFFFFFFFFFFFF }

theorem findBlock_cad (a : Nat) (hle : 0x13000 ≤ a) (hlt : a < 0x14000) : findBlock blocks a = some cadBlock := by
  have hlow (k : Nat) (hk : k ≤ 0x13000) : ¬a < k := by omega
  simp [blocks, findBlock, cadBlock, hlt, hle, hlow]

/-- A cadence's register within its block: the unit and the offset in the unit. -/
theorem cadUnit_place (c o : Nat) (ho : o < 64) :
    (0x13000 + o + 64 * c - 0x13000) / 64 = c ∧ (0x13000 + o + 64 * c - 0x13000) % 64 = o := by omega

/-- The dword at offset `o` of a cadence reaches the register of the row that holds it. -/
theorem cadBlock_hit (c o : Nat) (r : RegRow) (hr : findRow rowsCad o = some (r, r.off)) (hg : r.group = false) :
    cadBlock.hit c o = some { cadHit c r with upper := decide (r.off + 4 ≤ o) } := by
  simp [Block.hit, cadBlock, hr, hg, cadHit, Nat.add_right_comm]

theorem regAt_cad (c : Fin 16) (o : Nat) (r : RegRow) (ho : o < 64) (hr : findRow rowsCad o = some (r, r.off))
    (hg : r.group = false) : regAt (0x13000 + o + 64 * c) = some { cadHit c r with upper := decide (r.off + 4 ≤ o) } := by
  have hb := findBlock_cad (0x13000 + o + 64 * c) (by omega) (by omega)
  obtain ⟨hunit, hoff⟩ := cadUnit_place c o ho
  have hhit := cadBlock_hit c o r hr hg
  simp only [cadBlock] at hb hhit
  simp [regAt, hb, hunit, hoff, hhit]

theorem mspiAt_cad (c : Fin 16) (o : Nat) (r : RegRow) (ho : o < 64) (ha : o % 4 = 0)
    (hr : findRow rowsCad o = some (r, r.off)) (hg : r.group = false) :
    mspiAt (0x13000 + o + 64 * c) = some { cadHit c r with upper := decide (r.off + 4 ≤ o) } := by
  have hb := findBlock_cad (0x13000 + o + 64 * c) (by omega) (by omega)
  have haddr : (0x13000 + o + 64 * c) % 0x20000 / 4 * 4 = 0x13000 + o + 64 * c := by omega
  have hhigh : 0x10000 ≤ 0x13000 + o + 64 * c.val := by omega
  have hwrap : 0x10000 + (0x13000 + o + 64 * c) % 0x8000 = 0x13000 + o + 64 * c := by omega
  obtain ⟨hunit, hoff⟩ := cadUnit_place c o ho
  have hc : c.val % 16 = c := Nat.mod_eq_of_lt c.2
  have ho' : o % 64 = o := Nat.mod_eq_of_lt ho
  have hhit := cadBlock_hit c o r hr hg
  simp only [cadBlock] at hb hhit
  simp only [mspiAt, mspiPlace, haddr, if_pos hhigh, hwrap, hb, hunit, hoff, hc, ho', hhit]

/-- A word is what its two halves make. -/
theorem word_of_halves (v : Word) :
    (BitVec.ofNat 32 v.toNat).setWidth 64 ||| ((BitVec.ofNat 32 (v.toNat / 2 ^ 32)).setWidth 64 <<< 32) = v := by
  apply BitVec.eq_of_getLsbD_eq
  intro i hi
  simp only [BitVec.getLsbD_or, BitVec.getLsbD_setWidth, BitVec.getLsbD_shiftLeft, BitVec.getLsbD_ofNat, Nat.testBit_div_two_pow,
    hi, decide_true, Bool.true_and]
  by_cases h : i < 32
  · simp [h, BitVec.getLsbD]
  · have hlow : i - 32 < 32 := by omega
    have hlow' : i - 32 < 64 := by omega
    have hsum : i - 32 + 32 = i := by omega
    simp [h, hlow, hlow', hsum, BitVec.getLsbD]

/-- A write of a 64-bit register of a cadence through a port that takes writes (R310, R315, R321). -/
theorem State.write64_cad (s : State) (p : Port) (c : Fin 16) (r : RegRow) (v : Word) (hp : s.portReady p) (ho : r.off + 4 < 64)
    (ha : r.off % 8 = 0) (hr : findRow rowsCad r.off = some (r, r.off)) (hr' : findRow rowsCad (r.off + 4) = some (r, r.off))
    (hg : r.group = false) (hw : r.wide = true) :
    s.write64 p (0x13000 + r.off + 64 * c) v.toNat = (s.writeReg p (cadHit c r) v).2 := by
  have hlow : ({ cadHit c r with upper := decide (r.off + 4 ≤ r.off) } : Hit) = cadHit c r := by simp [cadHit]
  have hupper : 0x13000 + r.off + 64 * c.val + 4 = 0x13000 + (r.off + 4) + 64 * c := by omega
  have hreg := regAt_cad c r.off r (by omega) hr hg
  have hmspi := mspiAt_cad c r.off r (by omega) (by omega) hr hg
  have hreg' := regAt_cad c (r.off + 4) r ho hr' hg
  have hmspi' := mspiAt_cad c (r.off + 4) r ho (by omega) hr' hg
  rw [hlow] at hreg hmspi
  rw [← hupper] at hreg' hmspi'
  rw [State.write64_open s p _ _ _ _ hp hreg hmspi hreg' hmspi' hw rfl rfl rfl (by omega) (by omega)
    (by simp only [cadHit, Reg.GBL_CTRL]; omega), word_of_halves]

/-- A write of CAD_CTRL through a port that takes writes (R310, R315, R321). -/
theorem State.write32_cadCtrl (s : State) (p : Port) (c : Fin 16) (v : Nat) (hp : s.portReady p) :
    s.write32 p (Reg.CAD_CTRL c) v = (s.writeReg p (cadHit c cadCtrlRow) (BitVec.setWidth 64 (BitVec.ofNat 32 v))).2 :=
  State.write32_open s p (0x13000 + 0 + 64 * c) v (cadHit c cadCtrlRow) hp (regAt_cad c 0 cadCtrlRow (by decide) (by decide) rfl)
    (mspiAt_cad c 0 cadCtrlRow (by decide) (by decide) (by decide) rfl) rfl (by omega) (by omega)
    (by simp only [cadHit, Reg.GBL_CTRL]; omega)

end Sys2Proof.Machine

namespace Sys2Proof.Machine

/-! ### Instants, output pulses and grids (R135 to R140) -/

@[simp] theorem State.settle_cadence (w s : State) (t c : Nat) : (w.settle s t).cadence c = w.cadence c := rfl
@[simp] theorem State.settle_cadP (w s : State) (t c : Nat) : (w.settle s t).cadP c = w.cadP c := rfl
@[simp] theorem State.settle_cadPhase (w s : State) (t c : Nat) : (w.settle s t).cadPhase c = w.cadPhase c := rfl

theorem exec_cadenceInstant (s : State) (t : Nat) (c : Fin 16) : exec (.cadenceInstant t c) s = atMoment t s fun x =>
    if (x.cadence c).running && x.tb.st.live && decide ((x.cadence c).next ≤ x.devTime) then x.issueInstant c (x.cadence c).next
    else x := rfl
theorem exec_cadenceOutEnd (s : State) (t : Nat) (pin : Fin 4) : exec (.cadenceOutEnd t pin) s = atMoment t s fun x =>
    if tget 0 x.cadEnd pin.val ≤ x.now then
      { x with cadOut := x.cadOut &&& ~~~(1#4 <<< pin.val), cadEnd := tdel x.cadEnd pin.val }
    else x := rfl
theorem exec_cadenceEnable (s : State) (t : Nat) (p : Port) (c : Fin 16) :
    exec (.cadenceEnable t p c) s = atMoment t s fun x => x.writeBit p (Reg.CAD_CTRL c) 0 true := rfl
theorem exec_cadenceDisable (s : State) (t : Nat) (p : Port) (c : Fin 16) :
    exec (.cadenceDisable t p c) s = atMoment t s fun x => x.writeBit p (Reg.CAD_CTRL c) 0 false := rfl

/-- CAD_PERIOD or CAD_PHASE of a cadence. -/
def gridReg (c : Nat) (phase : Bool) : Nat := if phase then Reg.CAD_PHASE c else Reg.CAD_PERIOD c

theorem exec_cadenceGridWrite (s : State) (t : Nat) (p : Port) (c : Fin 16) (phase : Bool) (v : Word) :
    exec (.cadenceGridWrite t p c phase v) s = atMoment t s fun x => x.write64 p (gridReg c phase) v.toNat := rfl

/-- An instant moves its cadence on by P and leaves the other cadences (R135). -/
theorem State.cadence_issueInstant (s : State) (c time k : Nat) :
    (s.issueInstant c time).cadence k = if k = c then { s.cadence c with next := time + s.cadP c } else s.cadence k := by
  have stored := s.cadence_setCadence c k { s.cadence c with next := time + s.cadP c }
  unfold State.issueInstant
  dsimp only
  split <;> exact stored

/-- An instant is counted, and no other register is written (R135). -/
theorem State.reg_issueInstant_cad (s : State) (c time a : Nat) : (s.issueInstant c time).reg a =
    if a = Reg.CAD_COUNT c then s.reg (Reg.CAD_COUNT c) + 1 else s.reg a := by
  have counted := (s.setCadence c { s.cadence c with next := time + s.cadP c }).reg_setReg (Reg.CAD_COUNT c) a
    (s.reg (Reg.CAD_COUNT c) + 1)
  unfold State.issueInstant
  dsimp only
  split <;> exact counted

/-- An instant holds its cadence's pin for out_width core cycles from the next boundary on, 0 handled as 1 (R140). -/
theorem State.issueInstant_pin (s : State) (c time p : Nat) (hp : s.cadPin c = some p) (hlt : p < 4) :
    (s.issueInstant c time).cadOut.getLsbD p = true ∧
    tget 0 (s.issueInstant c time).cadEnd p =
      max (s.now + (s.nextCycle - s.devTime) + 512 * max 1 (s.fld (Reg.CAD_CTRL c) 4 8)) (tget 0 s.cadEnd p) := by
  have raised : (s.cadOut ||| 1#4 <<< p).getLsbD p = true := by simp [hlt]
  have held (v : Nat) : tget 0 (tset 0 s.cadEnd p v) p = v := by simp
  unfold State.issueInstant
  simp only [hp]
  exact ⟨raised, held _⟩

/-- A pulse that ends takes its own pin down alone (R140). -/
theorem getLsbD_pinDown (x : BitVec 4) (pin i : Fin 4) :
    (x &&& ~~~(1#4 <<< pin.val)).getLsbD i.val = (x.getLsbD i.val && decide (i ≠ pin)) := by
  have hbit : (1#4 <<< pin.val).getLsbD i.val = decide (i = pin) := by
    revert pin i
    decide
  rw [BitVec.getLsbD_and, BitVec.getLsbD_not, hbit, decide_eq_true i.2, Bool.true_and, decide_not]

/-- CAD_CTRL.enable goes to 1: the start is the later of CAD_START and the write, and with a live line the grid runs from there
(R136). -/
theorem State.cadenceOn_does (s : State) (c : Nat) :
    ((s.cadenceOn c).cadence c).tStart =
      max ((s.reg (Reg.CAD_START_LO c)).toNat + s.fld (Reg.CAD_START_HI c) 0 8 * 2 ^ 64) s.devTime ∧
    (s.tb.st.live = true → ((s.cadenceOn c).cadence c).running = true ∧ ((s.cadenceOn c).cadence c).next =
      gridFrom (s.cadP c) (s.cadPhase c) (max s.devTime ((s.cadenceOn c).cadence c).tStart)) := by
  unfold State.cadenceOn
  by_cases hl : s.tb.st.live
  · simp [hl, State.resumeCadence]
    rfl
  · simp [hl]

theorem State.reg_cadenceOn (s : State) (c a : Nat) : (s.cadenceOn c).reg a = s.reg a := by
  unfold State.cadenceOn
  dsimp only
  split <;> rfl

/-- CAD_CTRL.enable is cleared: no instant is issued behind that at the write (R136). -/
theorem State.cadenceOff_running (s : State) (c : Nat) : ((s.cadenceOff c).cadence c).running = false := by
  simp [State.cadenceOff]

theorem State.reg_cadenceOff (s : State) (c a : Nat) (h : a ≠ Reg.CAD_COUNT c) : (s.cadenceOff c).reg a = s.reg a := by
  unfold State.cadenceOff
  dsimp only
  rw [State.reg_setCadence]
  split
  · rw [State.reg_issueInstant_cad, if_neg h]
  · rfl

/-- A register of the grid is stored, and every other one is as before but for the count of an instant at the write (R137). -/
theorem State.reg_cadenceGrid (s : State) (c a b : Nat) (new : Word) (hb : b ≠ Reg.CAD_COUNT c) :
    (s.cadenceGrid c (·.setReg a new)).reg b = if b = a then new else s.reg b := by
  have written (x : State) (hx : x.reg b = s.reg b) : (x.setReg a new).reg b = if b = a then new else s.reg b := by
    rw [State.reg_setReg, hx]
  have issued : (if (s.cadence c).running = true ∧ (s.cadence c).next = s.devTime then s.issueInstant c (s.cadence c).next
      else s).reg b = s.reg b := by
    split
    · rw [State.reg_issueInstant_cad, if_neg hb]
    · rfl
  unfold State.cadenceGrid
  simp only [Bool.and_eq_true, decide_eq_true_eq]
  split <;> exact written _ issued

/-- The next instant of a running cadence is the first point of the new grid behind the write (R137). -/
theorem State.cadenceGrid_next (s : State) (c a : Nat) (new : Word) (hrun : (s.cadence c).running = true) :
    ((s.cadenceGrid c (·.setReg a new)).cadence c).next = gridFrom ((s.cadenceGrid c (·.setReg a new)).cadP c)
      ((s.cadenceGrid c (·.setReg a new)).cadPhase c) (max (s.devTime + 1) (s.cadence c).tStart) := by
  unfold State.cadenceGrid
  simp only [hrun, if_true]
  rw [State.cadence_setCadence, if_pos rfl]
  rfl

end Sys2Proof.Machine

namespace Sys2Proof.Machine

/-! ### Writes of a cadence's registers (R136 to R138) -/

/-- A write of a register of a cadence that has passed its checks finds the cadences, the time base and device time as they were:
its parity is good again, and the epoch of the block has advanced (R325, R329). -/
structure State.CadOpened (s x : State) : Prop where
  frame : x.engineFrame = s.engineFrame
  tb : x.tb = s.tb
  devTime : x.devTime = s.devTime

/-- A register of a cadence is not one of the registers with a rule of their own. -/
theorem cadHit_reg_ne (c : Nat) (r : RegRow) : (cadHit c r).reg ≠ Reg.GBL_KEY ∧ (cadHit c r).reg ≠ Reg.GBL_SNAP_CMD := by
  simp only [cadHit, Reg.GBL_KEY, Reg.GBL_SNAP_CMD]
  omega

theorem State.cadOpened_countEpoch (s : State) (c : Nat) (r : RegRow) (hm : r.mask ≠ 0) :
    s.CadOpened ((s.rewritten (cadHit c r).reg).countEpoch (cadHit c r)) := by
  have counted : (s.rewritten (cadHit c r).reg).countEpoch (cadHit c r) = (s.rewritten (cadHit c r).reg).bumpEpoch 12 := by
    simp [State.countEpoch, cadHit, hm]
  rw [counted]
  exact ⟨State.engineFrame_bump (s.rewritten _) _ _ _ (by decide), by simp [State.bumpEpoch, State.bump, State.rewritten],
    by simp [State.bumpEpoch, State.bump]⟩

/-- What a cadence's register takes, where its range allows it (R321). -/
theorem State.writeReg_cad (s : State) (p : Port) (c : Nat) (r : RegRow) (raw : Word) (hs : s.gbl.safe = false)
    (hrow : r.msk = false ∧ r.key = false ∧ r.far = false) (hm : r.mask ≠ 0)
    (hr : s.rangeCad c (cadHit c r).reg (stored (s.reg (cadHit c r).reg) raw r.mask) = []) :
    ∃ x, s.CadOpened x ∧ (s.writeReg p (cadHit c r) raw).2 = x.takeWrite (cadHit c r) (s.reg (cadHit c r).reg)
      (stored (s.reg (cadHit c r).reg) raw r.mask) raw := by
  obtain ⟨hmsk, hkey, hfar⟩ := hrow
  obtain ⟨hne, hne'⟩ := cadHit_reg_ne c r
  exact ⟨_, s.cadOpened_countEpoch c r hm, s.writeReg_takes p (cadHit c r) raw hs hmsk hkey hfar (.inl hm) hne hne' _ rfl hr⟩

/-- A write of CAD_CTRL acts behind its store (R136). -/
theorem State.write_cadCtrl (s : State) (p : Port) (c : Fin 16) (v : Nat) (hp : s.portReady p) :
    ∃ x, s.CadOpened x ∧ s.write32 p (Reg.CAD_CTRL c) v =
      (x.setReg (Reg.CAD_CTRL c) (stored (s.reg (Reg.CAD_CTRL c)) (BitVec.setWidth 64 (BitVec.ofNat 32 v)) 0xFFF)).tookCadCtrl c
        (s.reg (Reg.CAD_CTRL c)) (stored (s.reg (Reg.CAD_CTRL c)) (BitVec.setWidth 64 (BitVec.ofNat 32 v)) 0xFFF) := by
  obtain ⟨x, hx, e⟩ := s.writeReg_cad p c cadCtrlRow (BitVec.setWidth 64 (BitVec.ofNat 32 v)) hp.2.1 ⟨rfl, rfl, rfl⟩ (by decide)
    (by simp [State.rangeCad, cadHit, cadCtrlRow, Reg.CAD_PERIOD, Reg.CAD_PHASE])
  refine ⟨x, hx, (s.write32_cadCtrl p c v hp).trans (e.trans ?_)⟩
  simp [State.takeWrite, cadHit, cadCtrlRow, Reg.CAD_PERIOD, Reg.CAD_PHASE, Reg.CAD_CTRL]

/-- The enable that a write of CAD_CTRL stores. -/
theorem enable_stored (old : Word) (b : Bool) :
    (stored old (BitVec.setWidth 64 (BitVec.ofNat 32 (putField old 0 1 (b2n b)).toNat)) 0xFFF).getLsbD 0 = b := by
  have hbit : (putField old 0 1 (b2n b)).toNat.testBit 0 = b := by
    rw [testBit_toNat_putField _ _ _ _ _ (by decide), if_pos (by decide)]
    cases b <;> rfl
  rw [getLsbD_stored _ _ _ _ (by decide), if_pos (by decide), BitVec.getLsbD_setWidth, BitVec.getLsbD_ofNat, hbit]
  rfl

/-- The reserved code of CAD_CTRL.out is logged (R141). -/
def State.cadOutChecked (s : State) (c : Nat) (new : Word) : State := if 4 < fieldOf new.toNat 1 3 then s.raise .cadRange c else s

theorem State.tookCadCtrl_eq (s : State) (c : Nat) (old new : Word) : s.tookCadCtrl c old new =
    if new.getLsbD 0 && !old.getLsbD 0 then (s.cadOutChecked c new).cadenceOn c
    else if !new.getLsbD 0 && old.getLsbD 0 then (s.cadOutChecked c new).cadenceOff c
    else s.cadOutChecked c new := rfl

theorem State.cadOpened_cadOutChecked (s : State) (c : Nat) (new : Word) : s.CadOpened (s.cadOutChecked c new) := by
  unfold State.cadOutChecked
  split
  · exact ⟨by simp, by simp, by simp⟩
  · exact ⟨rfl, rfl, rfl⟩

/-- CAD_CTRL is stored with its enable as written; nothing else of the cadences has changed. -/
structure State.CtrlWritten (s x : State) (c : Nat) (enable : Bool) : Prop where
  cadence (k : Nat) : x.cadence k = s.cadence k
  tb : x.tb = s.tb
  devTime : x.devTime = s.devTime
  enable : x.bit (Reg.CAD_CTRL c) 0 = enable
  reg (a : Nat) : 0x13000 ≤ a → a ≠ Reg.CAD_CTRL c → x.reg a = s.reg a

/-- A write of the enable (R136). -/
theorem State.writeBit_cadCtrl (s : State) (p : Port) (c : Fin 16) (b : Bool) (hp : s.portReady p) :
    ∃ x : State, s.CtrlWritten x c b ∧ s.writeBit p (Reg.CAD_CTRL c) 0 b =
      if b && !s.bit (Reg.CAD_CTRL c) 0 then x.cadenceOn c else if !b && s.bit (Reg.CAD_CTRL c) 0 then x.cadenceOff c else x := by
  obtain ⟨x, hx, e⟩ := s.write_cadCtrl p c (putField (s.reg (Reg.CAD_CTRL c)) 0 1 (b2n b)).toNat hp
  have hnew := enable_stored (s.reg (Reg.CAD_CTRL c)) b
  generalize stored _ _ _ = new at e hnew
  have checked := (x.setReg (Reg.CAD_CTRL c) new).cadOpened_cadOutChecked c new
  have hctrl : 0x13000 ≤ Reg.CAD_CTRL c := Nat.le_add_right ..
  have kept : s.CtrlWritten ((x.setReg (Reg.CAD_CTRL c) new).cadOutChecked c new) c b :=
    { cadence := fun k => (State.cadence_of_frame checked.frame k).trans (State.cadence_of_frame hx.frame k)
      tb := checked.tb.trans hx.tb
      devTime := checked.devTime.trans hx.devTime
      enable := by rw [State.bit, State.reg_of_frame checked.frame hctrl, State.reg_setReg, if_pos rfl, hnew]
      reg := fun a ha hne => by
        rw [State.reg_of_frame checked.frame ha, State.reg_setReg, if_neg hne, State.reg_of_frame hx.frame ha] }
  refine ⟨_, kept, ?_⟩
  rw [State.tookCadCtrl_eq, hnew] at e
  exact e

/-- Setting the enable (R136). -/
theorem cadenceEnable_starts (s : State) (t : Nat) (p : Port) (c : Fin 16) (hp : s.portReady p)
    (h0 : s.bit (Reg.CAD_CTRL c) 0 = false) :
    Does (.cadenceEnable t p c) s fun u =>
      u.bit (Reg.CAD_CTRL c) 0 = true ∧
      (s.tb.st.live = true → (u.cadence c).running = true ∧
        (u.cadence c).next = gridFrom (s.cadP c) (s.cadPhase c) (max (s.advance t).devTime (u.cadence c).tStart)) ∧
      (u.cadence c).tStart = max ((s.reg (Reg.CAD_START_LO c)).toNat + s.fld (Reg.CAD_START_HI c) 0 8 * 2 ^ 64)
        (s.advance t).devTime := by
  obtain ⟨x, hx, e⟩ := (s.advance t).writeBit_cadCtrl p c true hp
  rw [State.bit_advance, h0, if_pos (by decide)] at e
  have kept (a : Nat) (ha : 0x13004 ≤ a - 64 * c ∧ a - 64 * c < 0x13040) : x.reg a = s.reg a :=
    hx.reg a (by omega) (by rw [Reg.CAD_CTRL]; omega)
  have hlo : x.reg (Reg.CAD_START_LO c) = s.reg (Reg.CAD_START_LO c) := kept _ (by rw [Reg.CAD_START_LO]; omega)
  have hhi : x.reg (Reg.CAD_START_HI c) = s.reg (Reg.CAD_START_HI c) := kept _ (by rw [Reg.CAD_START_HI]; omega)
  have hperiod : x.reg (Reg.CAD_PERIOD c) = s.reg (Reg.CAD_PERIOD c) := kept _ (by rw [Reg.CAD_PERIOD]; omega)
  have hphase : x.reg (Reg.CAD_PHASE c) = s.reg (Reg.CAD_PHASE c) := kept _ (by rw [Reg.CAD_PHASE]; omega)
  obtain ⟨hstart, hruns⟩ := x.cadenceOn_does c
  simp only [State.cadP, State.cadPhase, State.fld, hlo, hhi, hperiod, hphase, hx.tb, hx.devTime, State.advance_tb] at hstart hruns
  refine Does.of_effect (exec_cadenceEnable ..) ?_
  rw [e]
  exact ⟨(congrArg (·.getLsbD 0) (x.reg_cadenceOn c _)).trans hx.enable, hruns, hstart⟩

/-- Clearing the enable (R136). -/
theorem cadenceDisable_stops (s : State) (t : Nat) (p : Port) (c : Fin 16) (hp : s.portReady p)
    (h1 : s.bit (Reg.CAD_CTRL c) 0 = true) :
    Does (.cadenceDisable t p c) s fun u => u.bit (Reg.CAD_CTRL c) 0 = false ∧ (u.cadence c).running = false := by
  obtain ⟨x, hx, e⟩ := (s.advance t).writeBit_cadCtrl p c false hp
  rw [State.bit_advance, h1, if_neg (by decide), if_pos (by decide)] at e
  have hne : Reg.CAD_CTRL c ≠ Reg.CAD_COUNT c := by rw [Reg.CAD_CTRL, Reg.CAD_COUNT]; omega
  refine Does.of_effect (exec_cadenceDisable ..) ?_
  rw [e]
  exact ⟨(congrArg (·.getLsbD 0) (x.reg_cadenceOff c _ hne)).trans hx.enable, x.cadenceOff_running c⟩

end Sys2Proof.Machine

namespace Sys2Proof.Machine

/-! ### Writes of CAD_PERIOD and CAD_PHASE (R137, R138) -/

/-- The row and the mask of CAD_PERIOD or CAD_PHASE. -/
def gridRow (phase : Bool) : RegRow := if phase then cadPhaseRow else cadPeriodRow
def gridMask (phase : Bool) : Nat := if phase then 2 ^ 54 - 1 else 2 ^ 49 - 1

/-- The grid that a write of `v` asks for. -/
def State.askedP (s : State) (c : Nat) (phase : Bool) (v : Word) : Nat := if phase then s.cadP c else periodOf v
def State.askedPhase (s : State) (c : Nat) (phase : Bool) (v : Word) : Nat := if phase then fieldOf v.toNat 0 54 else s.cadPhase c

/-- The low field of a register is stored as it is written, where the mask is of the low bits. -/
theorem fieldOf_stored (old raw : Word) (n w : Nat) (hw : w ≤ n) (hn : n ≤ 64) :
    fieldOf (stored old raw (2 ^ n - 1)).toNat 0 w = fieldOf raw.toNat 0 w := by
  rw [fieldOf, fieldOf, pow_zero, Nat.div_one, Nat.div_one, ← Nat.mod_mod_of_dvd _ (Nat.pow_dvd_pow 2 hw), stored_mod old raw n hn,
    Nat.mod_mod_of_dvd _ (Nat.pow_dvd_pow 2 hw)]

/-- P is stored as it is written. -/
theorem periodOf_stored (old raw : Word) : periodOf (stored old raw (2 ^ 49 - 1)) = periodOf raw := by
  have hunit := getLsbD_stored old raw (2 ^ 49 - 1) 48 (by decide)
  rw [Nat.testBit_two_pow_sub_one, decide_eq_true (by decide), if_pos rfl] at hunit
  rw [periodOf, periodOf, fieldOf_stored old raw 49 48 (by decide) (by decide), hunit]

theorem gridReg_eq (c : Nat) (phase : Bool) : gridReg c phase = (cadHit c (gridRow phase)).reg := by cases phase <;> rfl

theorem gridReg_ne_count (c : Nat) (phase : Bool) : gridReg c phase ≠ Reg.CAD_COUNT c := by
  cases phase <;> simp [gridReg, Reg.CAD_PERIOD, Reg.CAD_PHASE, Reg.CAD_COUNT]

theorem gridReg_ge (c : Nat) (phase : Bool) : 0x13000 ≤ gridReg c phase := by
  cases phase <;> simp [gridReg, Reg.CAD_PERIOD, Reg.CAD_PHASE] <;> omega

/-- The check of R138 on what a write would store is the check on what it asks for. -/
theorem State.rangeCad_grid (s : State) (c : Nat) (phase : Bool) (old v : Word) :
    s.rangeCad c (gridReg c phase) (stored old v (gridMask phase)) =
      if gridOk (s.askedP c phase v) (s.askedPhase c phase v) then [] else [(.cadRange, c)] := by
  cases phase with
  | false =>
    simp only [State.rangeCad, gridReg, gridMask, Bool.false_eq_true, if_false, if_true, periodOf_stored old v]
    rfl
  | true =>
    have hne : Reg.CAD_PHASE c ≠ Reg.CAD_PERIOD c := by simp [Reg.CAD_PHASE, Reg.CAD_PERIOD]
    have hfield := fieldOf_stored old v 54 54 (by decide) (by decide)
    simp only [State.rangeCad, gridReg, gridMask, if_true, hne, if_false, hfield]
    rfl

/-- A register of the grid is stored, the grid acts from the write on, and a change of τ0 restarts the sets it reaches (R137, R203). -/
theorem State.takeWrite_grid (s : State) (c : Nat) (phase : Bool) (old new raw : Word) :
    s.takeWrite (cadHit c (gridRow phase)) old new raw =
      (tkeys (s.cadenceGrid c (·.setReg (gridReg c phase) new)).chans).foldl State.gridRestart
        (s.cadenceGrid c (·.setReg (gridReg c phase) new)) := by
  have hgrid : (cadHit c (gridRow phase)).reg = Reg.CAD_PERIOD c ∨ (cadHit c (gridRow phase)).reg = Reg.CAD_PHASE c := by
    cases phase
    · exact .inl rfl
    · exact .inr rfl
  rw [gridReg_eq]
  exact if_pos hgrid

theorem State.write64_grid (s : State) (p : Port) (c : Fin 16) (phase : Bool) (v : Word) (hp : s.portReady p) :
    s.write64 p (gridReg c phase) v.toNat = (s.writeReg p (cadHit c (gridRow phase)) v).2 := by
  cases phase
  · exact s.write64_cad p c cadPeriodRow v hp (by decide) (by decide) (by decide) (by decide) rfl rfl
  · exact s.write64_cad p c cadPhaseRow v hp (by decide) (by decide) (by decide) (by decide) rfl rfl

/-- The rows of the grid are those of near registers without a key. -/
theorem gridRow_near (phase : Bool) :
    ((gridRow phase).msk = false ∧ (gridRow phase).key = false ∧ (gridRow phase).far = false) ∧
    (gridRow phase).mask = gridMask phase ∧ gridMask phase ≠ 0 := by
  cases phase <;> exact ⟨⟨rfl, rfl, rfl⟩, rfl, by decide⟩

/-- A value outside its range leaves a near register as it is and raises the block's fault (R321). -/
theorem State.writeReg_refuses_near (s : State) (p : Port) (h : Hit) (raw : Word) (hs : s.gbl.safe = false)
    (hrow : h.row.msk = false ∧ h.row.key = false ∧ h.row.far = false) (hn : h.row.mask ≠ 0)
    (h1 : h.reg ≠ Reg.GBL_KEY) (h2 : h.reg ≠ Reg.GBL_SNAP_CMD) (f : FaultCode) (param : Nat)
    (hr : s.rangeFaults h (s.reg h.reg) (stored (s.reg h.reg) raw h.row.mask) raw = [(f, param)]) :
    (s.writeReg p h raw).2 = s.raise f param := by
  rw [stored] at hr
  simp [State.writeReg, hs, hrow, h1, h2, hn, hr]

/-- A grid out of range is refused (R138). -/
theorem State.write64_grid_refused (s : State) (p : Port) (c : Fin 16) (phase : Bool) (v : Word) (hp : s.portReady p)
    (hok : gridOk (s.askedP c phase v) (s.askedPhase c phase v) = false) :
    s.write64 p (gridReg c phase) v.toNat = s.raise .cadRange c := by
  obtain ⟨hrow, hmask, hm⟩ := gridRow_near phase
  obtain ⟨hkey, hsnap⟩ := cadHit_reg_ne c (gridRow phase)
  have hrange := s.rangeCad_grid c phase (s.reg (gridReg c phase)) v
  rw [if_neg (by simp [hok]), gridReg_eq, ← hmask] at hrange
  rw [s.write64_grid p c phase v hp]
  exact s.writeReg_refuses_near p _ v hp.2.1 hrow (hmask ▸ hm) hkey hsnap _ _ hrange

/-- A grid in range is stored, and acts (R137, R138). -/
theorem State.write64_grid_taken (s : State) (p : Port) (c : Fin 16) (phase : Bool) (v : Word) (hp : s.portReady p)
    (hok : gridOk (s.askedP c phase v) (s.askedPhase c phase v) = true) :
    ∃ x : State, s.CadOpened x ∧ (s.write64 p (gridReg c phase) v.toNat).engineFrame =
      (x.cadenceGrid c (·.setReg (gridReg c phase) (stored (s.reg (gridReg c phase)) v (gridMask phase)))).engineFrame := by
  obtain ⟨hrow, hmask, hm⟩ := gridRow_near phase
  have hrange := s.rangeCad_grid c phase (s.reg (gridReg c phase)) v
  rw [if_pos hok, gridReg_eq, ← hmask] at hrange
  obtain ⟨x, hx, e⟩ := s.writeReg_cad p c (gridRow phase) v hp.2.1 hrow (hmask ▸ hm) hrange
  refine ⟨x, hx, ?_⟩
  rw [s.write64_grid p c phase v hp, e, State.takeWrite_grid, hmask, ← gridReg_eq]
  exact foldl_engineFrame _ (fun _ _ => State.engineFrame_gridRestart ..) _ _

end Sys2Proof.Machine

namespace Sys2Proof.Machine

/-- A grid write that is refused leaves the grid, and says why (R138). -/
theorem cadenceGridWrite_refused (s : State) (t : Nat) (p : Port) (c : Fin 16) (phase : Bool) (v : Word) (hp : s.portReady p)
    (hok : gridOk (s.askedP c phase v) (s.askedPhase c phase v) = false) :
    Does (.cadenceGridWrite t p c phase v) s fun u =>
      u.cadP c = s.cadP c ∧ u.cadPhase c = s.cadPhase c ∧ u.reg Reg.FLT_LAST = BitVec.ofNat 64 FaultCode.cadRange.code := by
  have frame := (s.advance t).engineFrame_raise .cadRange c
  refine Does.of_effect (exec_cadenceGridWrite ..) ?_
  rw [(s.advance t).write64_grid_refused p c phase v hp hok]
  exact ⟨State.cadP_of_frame frame c, State.cadPhase_of_frame frame c, raise_last ..⟩

/-- What a grid write that is taken leaves: the register as stored, the grid that was asked for, and a running cadence on its way to
the first point behind the write (R137). -/
theorem cadenceGridWrite_taken (s : State) (t : Nat) (p : Port) (c : Fin 16) (phase : Bool) (v : Word) (hp : s.portReady p)
    (hok : gridOk (s.askedP c phase v) (s.askedPhase c phase v) = true) :
    Does (.cadenceGridWrite t p c phase v) s fun u =>
      u.reg (gridReg c phase) = stored (s.reg (gridReg c phase)) v (gridMask phase) ∧
      u.cadP c = s.askedP c phase v ∧ u.cadPhase c = s.askedPhase c phase v ∧
      ((s.cadence c).running = true → (u.cadence c).next =
        gridFrom (s.askedP c phase v) (s.askedPhase c phase v) (max ((s.advance t).devTime + 1) (s.cadence c).tStart)) := by
  obtain ⟨x, hx, frame⟩ := (s.advance t).write64_grid_taken p c phase v hp hok
  rw [State.reg_advance] at frame
  refine Does.of_effect (exec_cadenceGridWrite ..) ?_
  simp only [State.settle_reg, State.settle_cadP, State.settle_cadPhase, State.settle_cadence]
  generalize (s.advance t).write64 p (gridReg c phase) v.toNat = u at frame
  have hcad : x.cadence c = s.cadence c := State.cadence_of_frame hx.frame c
  have reg (b : Bool) : u.reg (gridReg c b) =
      if gridReg c b = gridReg c phase then stored (s.reg (gridReg c phase)) v (gridMask phase) else s.reg (gridReg c b) := by
    rw [State.reg_of_frame frame (gridReg_ge c b), State.reg_cadenceGrid _ _ _ _ _ (gridReg_ne_count c b),
      State.reg_of_frame hx.frame (gridReg_ge c b), State.reg_advance]
  have hne : gridReg c true ≠ gridReg c false := by simp [gridReg, Reg.CAD_PERIOD, Reg.CAD_PHASE]
  have hP : u.cadP c = s.askedP c phase v := by
    refine (congrArg periodOf (reg false)).trans ?_
    cases phase with
    | false => rw [if_pos rfl]; exact periodOf_stored _ v
    | true => rw [if_neg hne.symm]; rfl
  have hPhase : u.cadPhase c = s.askedPhase c phase v := by
    refine (congrArg (fun w : Word => fieldOf w.toNat 0 54) (reg true)).trans ?_
    cases phase with
    | false => rw [if_neg hne]; rfl
    | true => rw [if_pos rfl]; exact fieldOf_stored _ v 54 54 (by decide) (by decide)
  refine ⟨(reg phase).trans (if_pos rfl), hP, hPhase, fun hrun => ?_⟩
  have next := x.cadenceGrid_next c (gridReg c phase) (stored (s.reg (gridReg c phase)) v (gridMask phase)) (hcad ▸ hrun)
  rwa [← State.cadence_of_frame frame, ← State.cadP_of_frame frame, ← State.cadPhase_of_frame frame, hP, hPhase, hcad, hx.devTime] at next

/-- A command answers one state. -/
theorem Does.both {c : Instr} {s : State} {P Q : State → Prop} (h : Does c s P) (k : Does c s Q) : ∃ u, P u ∧ Q u := by
  obtain ⟨u, hu, hP⟩ := h
  obtain ⟨w, hw, hQ⟩ := k
  cases hu.symm.trans hw
  exact ⟨u, hP, hQ⟩

/-- A hub whose CAD_PERIOD of cadence 0 holds a reserved bit, beside the P of its Reset value. -/
def reservedPeriod : State :=
  (State.reset.setReg (Reg.CAD_PHASE 0) 0).setReg (Reg.CAD_PERIOD 0) 0x8000000000BB8000

end Sys2Proof.Machine

section
open Sys2Proof.Machine

/-- Settles O11. -/
theorem cadenceRowsComplete : Obligations.CadenceRowsComplete := by
  refine ⟨fun s t c => ⟨fun hrun hl hdue => ?_, fun h => ?_⟩, fun s t pin => ⟨fun hend => ?_, fun hend => ?_⟩,
    fun s t p c hp h0 => ?_, fun s t p c hp h1 => ?_, fun s t p c phase v hp => ⟨fun hok => ?_, fun hok => ?_⟩⟩
  · refine Does.of_effect (exec_cadenceInstant ..) ?_
    rw [if_pos (by simp [hrun, hl, hdue])]
    refine ⟨?_, ?_, fun q hq hlt => ?_⟩
    · rw [State.settle_cadence, State.cadence_issueInstant, if_pos rfl]
      rfl
    · exact (State.reg_issueInstant_cad ..).trans (if_pos rfl)
    · have hnow : (s.advance t).now = max s.now t := by rw [State.advance_now]; omega
      rw [← hnow]
      exact (s.advance t).issueInstant_pin c (s.cadence c).next q hq hlt
  · refine Idles.of_effect (t := t) rfl (exec_cadenceInstant ..) (if_neg ?_)
    simp only [State.cadence_advance, State.advance_tb, Bool.and_eq_true]
    rintro ⟨⟨hrun, hl⟩, hdue⟩
    obtain h | h | h := h
    · rw [hrun] at h; cases h
    · rw [hl] at h; cases h
    · exact Nat.not_le.mpr h (of_decide_eq_true hdue)
  · refine Does.of_effect (exec_cadenceOutEnd ..) ?_
    rw [if_pos (by simp only [State.advance_cadEnd, State.advance_now]; omega)]
    exact fun i => getLsbD_pinDown ..
  · refine Idles.of_effect (t := t) rfl (exec_cadenceOutEnd ..) (if_neg ?_)
    simp only [State.advance_cadEnd, State.advance_now]
    omega
  · exact cadenceEnable_starts s t p c hp h0
  · exact cadenceDisable_stops s t p c hp h1
  · obtain ⟨u, hu, -, hP, hPhase, hnext⟩ := cadenceGridWrite_taken s t p c phase v hp hok
    exact ⟨u, hu, hP, hPhase, hnext⟩
  · exact cadenceGridWrite_refused s t p c phase v hp hok

/-- Refutes O46: a reserved bit that CAD_PERIOD holds stays there through a write. -/
theorem not_cadenceGridIsChecked : ¬ Obligations.CadenceGridIsChecked := by
  intro h
  have hperiod : reservedPeriod.reg (Reg.CAD_PERIOD 0) = 0x8000000000BB8000 := State.reg_setReg .. 
  have hphase : reservedPeriod.reg (Reg.CAD_PHASE 0) = 0 := by simp [reservedPeriod, Reg.CAD_PHASE, Reg.CAD_PERIOD]
  have hp : reservedPeriod.portReady .host := ⟨rfl, rfl, nofun⟩
  obtain ⟨-, hstored⟩ := h reservedPeriod 0 .host 0 false 0xBB8000 _ hp (.inl rfl)
  have hwant := hstored (by simp [hphase])
  have hdoes := cadenceGridWrite_taken reservedPeriod 0 .host 0 false 0xBB8000 hp
    (by simp [State.askedPhase, State.cadPhase, State.fld, hphase]; decide)
  obtain ⟨u, hu, hu', -⟩ := hwant.both hdoes
  have := hu.symm.trans hu'
  rw [show gridReg ((0 : Fin 16) : Nat) false = Reg.CAD_PERIOD 0 from rfl, hperiod] at this
  exact absurd this (by decide)

end

namespace Sys2Proof.Machine

/-! ### Reports, histograms and stages within the frame -/

@[simp] theorem State.engineFrame_histoRecord (s : State) (c no : Nat) (h : Histo) (reasons : Nat) :
    (s.histoRecord c no h reasons).engineFrame = s.engineFrame := by simp [State.histoRecord]

@[simp] theorem State.engineFrame_histoDue (s : State) (c no : Nat) : (s.histoDue c no).engineFrame = s.engineFrame := by
  unfold State.histoDue
  (repeat' split) <;> simp

@[simp] theorem State.engineFrame_histoPeriod (s : State) (c no reasons began : Nat) :
    (s.histoPeriod c no reasons began).engineFrame = s.engineFrame := by
  unfold State.histoPeriod
  split <;> simp

@[simp] theorem State.engineFrame_histoFlush (s : State) (c no : Nat) : (s.histoFlush c no).engineFrame = s.engineFrame := by
  unfold State.histoFlush
  (repeat' split) <;> simp

@[simp] theorem State.engineFrame_histoCatchUp (k : Nat) (s : State) (c no t : Nat) :
    (State.histoCatchUp k s c no t).engineFrame = s.engineFrame := by
  induction k generalizing s with
  | zero => rfl
  | succ k ih =>
    unfold State.histoCatchUp
    (repeat' split) <;> simp [ih]

@[simp] theorem State.engineFrame_histoSettle (s : State) (c no t : Nat) : (s.histoSettle c no t).engineFrame = s.engineFrame := by
  simp [State.histoSettle]

@[simp] theorem State.engineFrame_histoFeed (s : State) (c no : Nat) (u : Int) (held : Bool) (t : Nat) (fl : BitVec 10) :
    (s.histoFeed c no u held t fl).engineFrame = s.engineFrame := by
  unfold State.histoFeed
  dsimp only
  (repeat' split) <;> simp

@[simp] theorem State.engineFrame_histoSkip (s : State) (c no k t : Nat) : (s.histoSkip c no k t).engineFrame = s.engineFrame := by
  unfold State.histoSkip
  dsimp only
  (repeat' split) <;> simp

@[simp] theorem State.engineFrame_histoRelease (s : State) (c no t : Nat) :
    (s.histoRelease c no t).engineFrame = s.engineFrame := by
  unfold State.histoRelease
  dsimp only
  split <;> simp

@[simp] theorem State.engineFrame_targetApply (s : State) (c : Nat) (op : TargetOp) (tq : Nat) :
    (s.targetApply c op tq).engineFrame = s.engineFrame := by
  cases op with
  | dev =>
    unfold State.targetApply
    dsimp only
    (repeat' split) <;> simp [-State.chan_setChan]
  | histo =>
    unfold State.targetApply
    dsimp only
    split <;> simp
  | read line dev histos clear =>
    refine (foldl_engineFrame _ (fun x no => ?_) _ _).trans ?_
    · dsimp only
      split <;> simp
    · split <;> simp

@[simp] theorem State.engineFrame_intervalTargets (s : State) (c t : Nat) :
    (s.intervalTargets c t).engineFrame = s.engineFrame := by
  refine (foldl_engineFrame _ (fun x o => ?_) _ _).trans (by simp)
  (repeat' split) <;> simp

@[simp] theorem State.engineFrame_interval (s : State) (c mode : Nat) (len : Int) (t0 t : Nat) :
    (s.interval c mode len t0 t).engineFrame = s.engineFrame :=
  (foldl_engineFrame _ (fun _ _ => State.engineFrame_histoFeed ..) _ _).trans (s.engineFrame_intervalTargets c t)

@[simp] theorem State.engineFrame_intervalSkip (s : State) (c mode k t : Nat) :
    (s.intervalSkip c mode k t).engineFrame = s.engineFrame :=
  (foldl_engineFrame _ (fun _ _ => State.engineFrame_histoSkip ..) _ _).trans (s.engineFrame_intervalTargets c t)

@[simp] theorem State.engineFrame_stampRec (s : State) (c : Nat) (src : Source) (stamp : Nat) (rising : Bool) (n before : Nat) :
    (s.stampRec c src stamp rising n before).engineFrame = s.engineFrame := by
  unfold State.stampRec
  dsimp only
  split <;> simp

@[simp] theorem State.engineFrame_quadAlarm (s : State) (c time : Nat) : (s.quadAlarm c time).engineFrame = s.engineFrame := by
  simp [State.quadAlarm]

@[simp] theorem State.engineFrame_closeParcel (s : State) (c : Nat) (d : Decl) (k idx : Nat) :
    (s.closeParcel c d k idx).engineFrame = s.engineFrame := by
  unfold State.closeParcel
  dsimp only
  split <;> simp [State.setStage]

@[simp] theorem State.engineFrame_closeParcels (s : State) (c : Nat) (d : Decl) :
    (s.closeParcels c d).engineFrame = s.engineFrame := by
  unfold State.closeParcels
  split
  · exact foldl_engineFrame _ (fun _ _ => State.engineFrame_closeParcel ..) _ _
  · rfl

@[simp] theorem State.engineFrame_resetStages (s : State) (c : Nat) (d : Decl) : (s.resetStages c d).engineFrame = s.engineFrame := by
  simp [State.resetStages]

@[simp] theorem State.engineFrame_finishRedeclare (s : State) (c : Nat) : (s.finishRedeclare c).engineFrame = s.engineFrame := by
  unfold State.finishRedeclare
  dsimp only
  (repeat' split) <;> simp

@[simp] theorem State.engineFrame_gapRec (s : State) (c : Nat) (g : GapOwed) (count : Nat) (phase : Word) (fl : BitVec 10)
    (extra : List Word) : (s.gapRec c g count phase fl extra).engineFrame = s.engineFrame := by
  simp [State.gapRec]

@[simp] theorem State.engineFrame_coverCheck (s : State) : s.coverCheck.engineFrame = s.engineFrame := by
  unfold State.coverCheck
  dsimp only
  split
  · exact State.engineFrame_raise ..
  · rfl

/-! ### Placement within the frame -/

@[simp] theorem State.engineFrame_placeReport (s : State) (c reason : Nat) : (s.placeReport c reason).engineFrame = s.engineFrame := by
  unfold State.placeReport State.placeRecord
  split <;> simp

@[simp] theorem State.engineFrame_payPin (s : State) (c : Nat) : (s.payPin c).engineFrame = s.engineFrame := by
  unfold State.payPin
  dsimp only
  split
  · exact State.engineFrame_push ..
  · rfl

/-- Allotting touches the places in use and the free values alone. -/
@[simp] theorem State.engineFrame_allot (squares : List Nat) (s : State) (got : List (Nat × Nat)) :
    (State.allot squares s got).2.engineFrame = s.engineFrame := by
  induction squares generalizing s got with
  | nil => rfl
  | cons sq r ih => exact ih _ _

@[simp] theorem State.engineFrame_predict (s : State) (c e : Nat) : (s.predict c e).engineFrame = s.engineFrame := rfl
@[simp] theorem State.engineFrame_takeGuard (s : State) (e n : Nat) : (s.takeGuard e n).engineFrame = s.engineFrame := rfl
@[simp] theorem State.engineFrame_giveGuard (s : State) (e n : Nat) : (s.giveGuard e n).engineFrame = s.engineFrame := rfl

@[simp] theorem State.engineFrame_placeChan (s : State) (c : Nat) (d : Decl) : (s.placeChan c d).engineFrame = s.engineFrame := by
  unfold State.placeChan
  dsimp only
  split <;> simp

@[simp] theorem State.engineFrame_growTwin (s : State) (c k : Nat) : (s.growTwin c k).engineFrame = s.engineFrame := by
  unfold State.growTwin
  dsimp only
  split <;> simp

@[simp] theorem State.engineFrame_changeLines (s : State) (c : Nat) (d : Decl) : (s.changeLines c d).engineFrame = s.engineFrame := by
  unfold State.changeLines
  dsimp only
  split
  · exact (State.engineFrame_setChan_work ..).trans (s.engineFrame_growTwin c _)
  · simp

end Sys2Proof.Machine

namespace Sys2Proof.Machine

/-! ### What counting and pairing leave of the channels' states -/

/-- The state of every channel (R121). -/
def State.chanStates (s : State) : Nat → ChanState := fun c => (s.chan c).st

theorem State.chanStates_of_frame {s u : State} (h : u.engineFrame = s.engineFrame) : u.chanStates = s.chanStates :=
  congrArg (fun f : EngineFrame => fun c => (f.life c).st) h

theorem State.chanStates_setChan (s : State) (c : Nat) (x : Chan) (h : x.st = (s.chan c).st) :
    (s.setChan c x).chanStates = s.chanStates := by
  funext k
  simp only [State.chanStates, State.chan_setChan]
  split
  · next hk => rw [hk, h]
  · rfl

theorem foldl_chanStates {α : Type} (f : State → α → State) (h : ∀ s a, (f s a).chanStates = s.chanStates) (l : List α)
    (s : State) : (l.foldl f s).chanStates = s.chanStates :=
  foldl_keeps (fun x => x.chanStates = s.chanStates) f (fun x a hx => (h x a).trans hx) l s rfl

/-- An effect that a condition guards. -/
theorem chanStates_ite {s u : State} (p : Prop) [Decidable p] (h : u.chanStates = s.chanStates) :
    (if p then u else s).chanStates = s.chanStates := by
  split
  · exact h
  · rfl

theorem State.chanStates_quadAlarm (s : State) (c time : Nat) : (s.quadAlarm c time).chanStates = s.chanStates :=
  State.chanStates_of_frame (s.engineFrame_quadAlarm c time)

theorem State.chanStates_quadStamp (s : State) (c : Nat) (e : QuadChange) (n before : Nat) :
    (s.quadStamp c e n before).chanStates = s.chanStates := State.chanStates_of_frame (State.engineFrame_stampRec ..)

theorem State.chanStates_quadQuiet (s : State) (c : Nat) (e : QuadChange) : (s.quadQuiet c e).chanStates = s.chanStates := by
  unfold State.quadQuiet
  dsimp only
  split
  · exact s.chanStates_setChan c _ rfl
  · exact (chanStates_ite _ (State.chanStates_quadAlarm ..)).trans (s.chanStates_setChan c _ rfl)

theorem State.chanStates_quadSingle (s : State) (c : Nat) (e : QuadChange) : (s.quadSingle c e).chanStates = s.chanStates :=
  (chanStates_ite _ (State.chanStates_quadStamp ..)).trans
    ((chanStates_ite _ (State.chanStates_quadAlarm ..)).trans (s.chanStates_setChan c _ rfl))

theorem State.chanStates_quadSkip (s : State) (c : Nat) (es : List QuadChange) : (s.quadSkip c es).chanStates = s.chanStates :=
  (foldl_chanStates _ (fun _ _ => chanStates_ite _ (State.chanStates_quadStamp ..)) _ _).trans
    ((chanStates_ite _ (State.chanStates_quadAlarm ..)).trans (s.chanStates_setChan c _ rfl))

theorem State.chanStates_quadRun (k : Nat) (s : State) (c now : Nat) : (State.quadRun k s c now).chanStates = s.chanStates := by
  induction k generalizing s with
  | zero => rfl
  | succ k ih =>
    have taken (q : QuadState) : (s.setChan c { s.chan c with quad := q }).chanStates = s.chanStates := s.chanStates_setChan c _ rfl
    unfold State.quadRun
    dsimp only
    split
    · refine (ih _).trans ?_
      split
      · split
        · exact (State.chanStates_quadQuiet ..).trans (taken _)
        · exact (State.chanStates_quadSingle ..).trans (taken _)
      · exact (State.chanStates_quadSkip ..).trans (taken _)
    · rfl

theorem State.chanStates_quadAll (s : State) (c : Nat) : (s.quadAll c).chanStates = s.chanStates := s.chanStates_quadRun ..

@[simp] theorem State.engineFrame_pairOne (s : State) (c : Nat) (e : PairEdge) : (s.pairOne c e).engineFrame = s.engineFrame := by
  unfold State.pairOne
  dsimp only
  (repeat' split) <;> simp

theorem State.engineFrame_pairRun (k : Nat) (s : State) (c : Nat) : (State.pairRun k s c).engineFrame = s.engineFrame := by
  induction k generalizing s with
  | zero => rfl
  | succ k ih =>
    unfold State.pairRun
    dsimp only
    (repeat' split) <;> simp [ih]

/-- The state in which everything that has been decided is counted, and every edge that can be paired is. -/
def State.caught (s : State) (c : Nat) : State := (s.quadAll c).pairAll c

theorem State.chanStates_caught (s : State) (c : Nat) : (s.caught c).chanStates = s.chanStates :=
  (State.chanStates_of_frame (State.engineFrame_pairRun ..)).trans (s.chanStates_quadAll c)

end Sys2Proof.Machine

namespace Sys2Proof.Machine

/-! ### A submission ring's position and its fetched descriptors (R340, R341) -/

/-- What a ring has consumed and what it has fetched. -/
def Ring.posted (r : Ring) : Nat × List Desc := (r.pos, r.fetched)

/-- The position and the descriptors of every ring. -/
def State.posted (s : State) : Nat → Nat × List Desc := fun n => (s.ring n).posted

theorem State.posted_of_rings {s u : State} (h : u.rings = s.rings) : u.posted = s.posted := by
  funext n
  rw [State.posted, State.ring, h, State.posted, State.ring]

theorem State.posted_setRing (s : State) (n : Nat) (r : Ring) (h : r.posted = (s.ring n).posted) :
    (s.setRing n r).posted = s.posted := by
  funext m
  simp only [State.posted, State.ring_setRing]
  split
  · next hm => rw [hm, h]
  · rfl

theorem State.posted_modRing (s : State) (n : Nat) (f : Ring → Ring) (h : ∀ r : Ring, (f r).posted = r.posted) :
    (s.modRing n f).posted = s.posted := s.posted_setRing n _ (h _)

theorem Ring.posted_foldl {α : Type} (f : Ring → α → Ring) (h : ∀ r a, (f r a).posted = r.posted) (l : List α) (r : Ring) :
    (l.foldl f r).posted = r.posted := by
  induction l generalizing r with
  | nil => rfl
  | cons a l ih => exact (ih _).trans (h r a)

theorem Ring.posted_ref (r : Ring) (b : Nat) : (r.ref b).posted = r.posted := rfl
theorem Ring.posted_unref (r : Ring) (b : Nat) : (r.unref b).posted = r.posted := rfl

@[simp] theorem Ring.posted_setQueue (r : Ring) (cls : Nat) (q : List Record) : (r.setQueue cls q).posted = r.posted := by
  unfold Ring.setQueue
  split <;> rfl

/-- Rewind copies that are given up leave the rings' descriptors (R379). -/
theorem posted_freeRewind (rings : Table Ring) {freed : Table Ring} (h : freeRewind rings = some freed) (n : Nat) :
    (tget {} freed n : Ring).posted = (tget {} rings n : Ring).posted := by
  induction rings generalizing freed with
  | nil => cases h
  | cons x rest ih =>
    obtain ⟨k, r⟩ := x
    unfold freeRewind at h
    split at h
    · cases h
      simp only [tget, tget?]
      split
      · exact Ring.posted_foldl _ (fun r (k : Kept) => r.posted_unref k.block) _ _
      · rfl
    · obtain ⟨freed', hrest, rfl⟩ := Option.map_eq_some_iff.mp h
      have hn := ih hrest
      simp only [tget, tget?] at hn ⊢
      split
      · rfl
      · exact hn

theorem State.posted_makeRoom (k : Nat) (s : State) (need : Nat) : (State.makeRoom k s need).posted = s.posted := by
  induction k generalizing s with
  | zero => rfl
  | succ k ih =>
    unfold State.makeRoom
    split
    · split
      · next freed h =>
        exact (ih _).trans (funext fun n => posted_freeRewind s.rings h n)
      · rfl
    · rfl

theorem State.posted_holdCheck (s : State) : s.holdCheck.posted = s.posted := State.posted_of_rings (by simp)

theorem State.posted_grant (s u : State) (n size : Nat) (data : Bool) (bs : List Nat)
    (h : State.place.grant s n size data = some (bs, u)) : u.posted = s.posted := by
  unfold State.place.grant at h
  dsimp only at h
  rw [Option.ite_none_left_eq_some] at h
  obtain ⟨_, h⟩ := h
  cases h
  refine (State.posted_holdCheck _).trans ((State.posted_setRing _ _ _ ?_).trans (State.posted_makeRoom ..))
  exact Ring.posted_foldl _ Ring.posted_ref _ _

theorem State.posted_place (s u : State) (n size : Nat) (data : Bool) (bs : List Nat)
    (h : s.place n size data = some (bs, u)) : u.posted = s.posted := by
  unfold State.place at h
  dsimp only at h
  split at h
  · split at h
    · cases h
      exact s.posted_setRing n _ rfl
    · exact s.posted_grant u n size data bs h
  · exact s.posted_grant u n size data bs h

theorem State.posted_tryPush (s u : State) (n : Nat) (p : Push) (h : s.tryPush n p = some u) : u.posted = s.posted := by
  unfold State.tryPush at h
  dsimp only at h
  split at h
  · split at h
    · cases h
    · split at h
      · cases h
      · next e =>
        cases h
        exact (State.posted_setRing _ _ _ (Ring.posted_setQueue ..)).trans (s.posted_place _ _ _ _ _ e)
  · split at h
    · cases h
    · cases h
      exact s.posted_setRing n _ (Ring.posted_setQueue ..)

/-- A pushed record leaves what the rings have been given. -/
theorem State.posted_push (s : State) (n c : Nat) (e : Option Nat) (r : Record) : (s.push n c e r).posted = s.posted := by
  have counted := s.posted_modRing n (fun r => { r with produced := r.produced + 1 }) fun _ => rfl
  have waits (x : State) (p : Push) := x.posted_modRing n (fun r => { r with waiting := r.waiting ++ [p] }) fun _ => rfl
  unfold State.push
  dsimp only
  split
  · exact (waits _ _).trans counted
  · split
    · next h => exact (State.posted_tryPush _ _ _ _ h).trans counted
    · exact (waits _ _).trans counted

/-- The status block and the message of a ring (R346, R357) leave the channels, the cadences, every register and what the rings have
been given. -/
structure State.Announced (s u : State) : Prop where
  chans : u.chans = s.chans
  cadences : u.cadences = s.cadences
  regs : u.regs = s.regs
  posted : u.posted = s.posted

theorem State.Announced.trans {s u v : State} (h : s.Announced u) (k : u.Announced v) : s.Announced v :=
  ⟨k.chans.trans h.chans, k.cadences.trans h.cadences, k.regs.trans h.regs, k.posted.trans h.posted⟩

theorem State.announced_entries (s : State) (n k : Nat) : s.Announced (s.entries n k) :=
  ⟨rfl, rfl, rfl, s.posted_setRing n _ rfl⟩

theorem State.announced_statusBlock (s : State) (n : Nat) : s.Announced (s.statusBlock n) := by
  unfold State.statusBlock
  split
  · exact ⟨rfl, rfl, rfl, rfl⟩
  · exact ⟨rfl, rfl, rfl, s.posted_setRing n _ rfl⟩

theorem State.announced_ringMessage (s : State) (n : Nat) : s.Announced (s.ringMessage n) := by
  unfold State.ringMessage
  dsimp only
  split
  · have told := s.posted_modRing n (fun r => { r with pendingEntries := 0 }) fun _ => rfl
    exact ⟨by simp, by simp, by simp [State.setRing], (State.posted_of_rings (by simp)).trans told⟩
  · exact ⟨rfl, rfl, rfl, rfl⟩

/-- The head descriptor leaves the ring, and h advances (R341). -/
def State.dropHead (s : State) (n : Nat) : State :=
  s.modRing n fun r => { r with pos := (r.pos + 1) % (2 * s.depth n), fetched := r.fetched.tail }

theorem State.announced_consume (s : State) (n : Nat) : ((s.dropHead n).bump (Reg.RING_SEQ n) 0 48).Announced (s.consume n) :=
  ((State.announced_entries _ n 1).trans (State.announced_statusBlock _ n)).trans (State.announced_ringMessage _ n)

theorem State.posted_consume (s : State) (n : Nat) :
    (s.consume n).posted n = (((s.ring n).pos + 1) % (2 * s.depth n), (s.ring n).fetched.tail) := by
  rw [(s.announced_consume n).posted, State.posted_of_rings (s := s.dropHead n) (by simp)]
  simp [State.posted, State.dropHead, Ring.posted]

/-- Of the registers a consumed descriptor counts in RING_SEQ alone (R341). -/
theorem State.reg_consume (s : State) (n a : Nat) (h : a ≠ Reg.RING_SEQ n) : (s.consume n).reg a = s.reg a := by
  rw [State.reg_of_regs _ _ a (s.announced_consume n).regs, State.reg_bump, if_neg h]
  rfl

theorem State.chans_consume (s : State) (n : Nat) : (s.consume n).chans = s.chans := by
  rw [(s.announced_consume n).chans]
  simp [State.dropHead]

theorem State.engineFrame_consume (s : State) (n : Nat) (hn : n < 64) : (s.consume n).engineFrame = s.engineFrame := by
  refine State.engineFrame_eq (s.chans_consume n) ?_ fun a ha => s.reg_consume n a (by rw [Reg.RING_SEQ]; omega)
  rw [(s.announced_consume n).cadences]
  simp [State.dropHead]

/-- The RETURN of a rejected descriptor, and the state behind it with the rejection counted (R353). -/
def State.sendReject (s : State) (n : Nat) (d : Desc) (reason : Nat) : State :=
  s.sendReturn (descRet d) n reason (descTag d) (descType d) (posField (s.depth n) (s.ring n).pos) 0 1
def State.returned (s : State) (n : Nat) (d : Desc) (reason : Nat) : State := (s.sendReject n d reason).bump (Reg.RING_REJ n) 0 32

theorem State.rejectHead_eq (s : State) (n : Nat) (d : Desc) (reason : Nat) :
    s.rejectHead n d reason = (s.returned n d reason).consume n := rfl

theorem State.reg_returned (s : State) (n : Nat) (d : Desc) (reason a : Nat) (h : a ≠ Reg.RING_REJ n) (hr : reportReg a = false) :
    (s.returned n d reason).reg a = s.reg a := by
  rw [State.returned, State.reg_bump, if_neg h, State.sendReject, State.reg_sendReturn _ _ _ _ _ _ _ _ _ _ hr]

theorem State.posted_returned (s : State) (n : Nat) (d : Desc) (reason : Nat) : (s.returned n d reason).posted = s.posted :=
  (State.posted_of_rings (s := s.sendReject n d reason) (by simp [State.returned])).trans (State.posted_push ..)

theorem State.engineFrame_returned (s : State) (n : Nat) (d : Desc) (reason : Nat) (hn : n < 64) :
    (s.returned n d reason).engineFrame = s.engineFrame :=
  (State.engineFrame_bump _ _ _ _ (by rw [Reg.RING_REJ]; omega)).trans (State.engineFrame_push ..)

/-- A rejected descriptor changes nothing but what is reported, and the ring's own counts (R353). -/
theorem State.rejectHead_does (s : State) (n : Nat) (d : Desc) (reason : Nat) (hn : n < 64) :
    (s.rejectHead n d reason).chans = s.chans ∧
    (s.rejectHead n d reason).fld (Reg.RING_REJ n) 0 32 = (s.fld (Reg.RING_REJ n) 0 32 + 1) % 2 ^ 32 ∧
    (s.rejectHead n d reason).posted n = (((s.ring n).pos + 1) % (2 * s.depth n), (s.ring n).fetched.tail) := by
  have hseq : Reg.RING_REJ n ≠ Reg.RING_SEQ n := by simp [Reg.RING_REJ, Reg.RING_SEQ]
  have hcfg : Reg.RING_CFG n ≠ Reg.RING_REJ n := by simp [Reg.RING_REJ, Reg.RING_CFG]
  have hrej : reportReg (Reg.RING_REJ n) = false := reportReg_low (by rw [Reg.RING_REJ]; omega)
  have hdepth : (s.returned n d reason).depth n = s.depth n := by
    rw [State.depth, State.fld, s.reg_returned n d reason _ hcfg (reportReg_low (by rw [Reg.RING_CFG]; omega))]
    rfl
  have hposted : ((s.returned n d reason).ring n).posted = (s.ring n).posted := congrFun (s.posted_returned n d reason) n
  obtain ⟨hpos, hfetched⟩ := Prod.mk.inj hposted
  rw [State.rejectHead_eq]
  refine ⟨(State.chans_consume ..).trans (by simp [State.returned, State.sendReject]), ?_, ?_⟩
  · rw [State.fld, State.reg_consume _ _ _ hseq, ← State.fld, State.returned, State.fld_bump _ _ _ _ (by decide), State.fld,
      State.sendReject, State.reg_sendReturn _ _ _ _ _ _ _ _ _ _ hrej, ← State.fld]
  · rw [State.posted_consume, hdepth, hpos, hfetched]

theorem State.engineFrame_rejectBad (k : Nat) (s : State) (n : Nat) (hn : n < 64) :
    (State.rejectBad k s n).engineFrame = s.engineFrame := by
  induction k generalizing s with
  | zero => rfl
  | succ k ih =>
    unfold State.rejectBad
    split
    · split
      · rfl
      · exact (ih _).trans ((State.engineFrame_consume _ n hn).trans (s.engineFrame_returned n _ 1 hn))
    · rfl

/-- Behind an accepted descriptor nothing of the channels and the cadences changes but by its effect (R341, R353). -/
theorem State.engineFrame_judge (s : State) (n : Nat) (d : Desc) (effect : State → State) (hn : n < 64) :
    (s.judge n d none effect).engineFrame = (effect s).engineFrame :=
  (State.engineFrame_rejectBad _ _ n hn).trans (State.engineFrame_consume _ n hn)

/-- The last fetched descriptor is rejected (R353). -/
theorem State.judge_rejected (s : State) (n : Nat) (d : Desc) (reason : Nat) (effect : State → State) (hn : n < 64)
    (hlast : (s.ring n).fetched = [d]) : s.judge n d (some reason) effect = s.rejectHead n d reason := by
  have hempty : ((s.rejectHead n d reason).ring n).fetched = [] := by
    have hposted := (s.rejectHead_does n d reason hn).2.2
    rw [hlast] at hposted
    exact (Prod.mk.inj hposted).2
  show (s.rejectHead n d reason).nextDesc n = _
  rw [State.nextDesc, hempty]
  rfl

end Sys2Proof.Machine

namespace Sys2Proof.Machine

/-! ### Descriptors at the head of a ring -/

@[simp] theorem State.settle_chan (w s : State) (t c : Nat) : (w.settle s t).chan c = w.chan c := rfl

/-- What holds of a descriptor row's effect holds after the command. -/
theorem Does.of_head {c : Instr} {s : State} {t : Nat} {ring : Fin 64} {ty : Nat} {d : Desc} {f : State → Desc → State}
    {P : State → Prop} (h : exec c s = onHead t ring ty s f) (hd : s.head ring.val ty = some d)
    (hP : P ((f (s.advance t) d).settle s t)) : Does c s P := by
  have hd' : (s.advance t).head ring.val ty = some d := hd
  refine Does.of_effect (f := fun x => match x.head ring.val ty with | some d => f x d | none => x) h ?_
  simp only [hd']
  exact hP

/-- The lifecycle of a channel behind an accepted descriptor is what its effect made it. -/
theorem State.life_judge (s : State) (ring : Fin 64) (d : Desc) (effect : State → State) (c : Nat) :
    ((s.judge ring d none effect).chan c).life = ((effect s).chan c).life :=
  State.life_of_frame (s.engineFrame_judge ring d effect ring.2) c

theorem State.life_setChan (s : State) (c : Nat) (x : Chan) : ((s.setChan c x).chan c).life = x.life := by
  rw [State.chan_setChan, if_pos rfl]

/-- A channel's lifecycle where it has been stored, and reports alone have followed. -/
theorem State.life_of_stored {s u : State} {c : Nat} {x : Chan} (h : u.engineFrame = (s.setChan c x).engineFrame) :
    (u.chan c).life = x.life := (State.life_of_frame h c).trans (s.life_setChan c x)

/-! ### Operations on a channel's lifecycle (R121 to R127) -/

theorem Chan.life_takeZones (x : Chan) (t : Nat) (z : Zone × Zone) : (x.takeZones t z).life = x.life := by
  unfold Chan.takeZones
  split
  · rfl
  · split <;> rfl
  · rfl

@[simp] theorem State.engineFrame_zonesNow (s : State) (c t : Nat) : (s.zonesNow c t).engineFrame = s.engineFrame :=
  s.engineFrame_setChan c _ (Chan.life_takeZones ..)

theorem State.life_noteZones (s : State) (x : Chan) : (s.noteZones x).life = x.life := by
  unfold State.noteZones
  split
  · split <;> rfl
  · rfl

/-- An accepted descriptor is held until it applies (R124, R125). -/
theorem State.life_acceptOp (s : State) (c : Nat) (op : ChanOp) (t : Option Nat) :
    ((s.acceptOp c op t).chan c).life = { (s.chan c).life with op := some op, opAt := t } :=
  (s.life_setChan c _).trans (State.life_noteZones ..)

/-- A declared channel (R124). -/
def Chan.declaredAs (d : Decl) (tag : Dword) (td : Nat) : Chan :=
  { st := .declared, decl := d, tag := tag, tB := td, tLive := max td d.start, sampleFrom := max td d.start, count := d.countInit,
    base := d.countInit, quad := { position := sx 48 d.countInit }, image := if d.guarded then none else some (d.countInit, 0, td) }

theorem State.life_declare (s : State) (c : Nat) (d : Decl) (tag : Dword) :
    ((s.declare c d tag).chan c).life = (Chan.declaredAs d tag s.devTime).life := by
  have frame : (s.declare c d tag).engineFrame = (s.setChan c (Chan.declaredAs d tag s.devTime)).engineFrame := by
    unfold State.declare
    simp only [State.engineFrame_coverCheck, State.engineFrame_imageChanged, State.engineFrame_payPin,
      State.engineFrame_placeReport, State.engineFrame_chanAck, State.engineFrame_placeChan]
    rfl
  exact State.life_of_stored frame

/-- A channel that enters LIVE at t_live with the instants issued from there on (R126). -/
def Chan.liveFrom (x : Chan) (tLive : Nat) (instants : List Nat) : Chan :=
  { x.restartBoth tLive with
    st := .live, tLive := tLive, sampleFrom := tLive, stampFrom := tLive, stages := [], instants := instants }

theorem Chan.life_liveFrom (x : Chan) (tLive : Nat) (instants : List Nat) : (x.liveFrom tLive instants).life =
    { x.life with st := .live, tLive := tLive, sampleFrom := tLive, stampFrom := tLive } := rfl

theorem State.life_enterLive (s : State) (c tLive : Nat) (tag : Dword) :
    ((s.enterLive c tLive tag).chan c).life =
      { (s.chan c).life with st := .live, tLive := tLive, sampleFrom := tLive, stampFrom := tLive } := by
  have frame : (s.enterLive c tLive tag).engineFrame =
      (s.setChan c ((s.chan c).liveFrom tLive (s.issuedFrom (s.chan c).decl.cadence tLive))).engineFrame := by
    unfold State.enterLive
    simp only [State.engineFrame_chanAck, State.engineFrame_imageChanged, State.engineFrame_zonesNow]
    rw [State.modChan_eq, Chan.liveFrom]
  exact (State.life_of_stored frame).trans (Chan.life_liveFrom ..)

/-! ### The rows of the lifecycle -/

/-- The checks of a DECLARE, and of a REDECLARE as `x`, in their order (R123). -/
def State.declareFail (s : State) (d : Desc) : Option Nat :=
  firstFail [(1, !declFieldOk d), (2, !declRangeOk d), (3, (s.chan (descChan d)).st != .vacant), (4, !s.bindOk (declOf d)),
    (5, !(s.capacityOk (descChan d) (declOf d) && s.pinRoom (descChan d) (declOf d))), (6, !s.guardOk (descChan d) (declOf d))]
def State.redeclareFail (s : State) (d : Desc) (x : Decl) : Option Nat :=
  firstFail [(1, !declFieldOk d), (2, !declRangeOk d),
    (3, (s.chan (descChan d)).st != .live && (s.chan (descChan d)).st != .paused),
    (4, !s.bindOk x || x.kind != (s.chan (descChan d)).decl.kind || x.guarded != (s.chan (descChan d)).decl.guarded),
    (5, !s.capacityOk (descChan d) x), (6, !s.guardOk (descChan d) x)]

/-- The declaration that a REDECLARE asks for: start and count are the channel's (R129). -/
def State.redeclOf (s : State) (d : Desc) : Decl :=
  { declOf d with start := (s.chan (descChan d)).decl.start, countInit := (s.chan (descChan d)).decl.countInit }

theorem exec_declare (s : State) (t : Nat) (ring : Fin 64) : exec (.declare t ring) s = onHead t ring 0x10 s fun x d =>
    if (x.chan (descChan d)).waitsDesc || x.slotLoading (declOf d) then x
    else x.judge ring d (x.declareFail d) fun y => y.declare (descChan d) (declOf d) (descTag d) := rfl

theorem exec_redeclare (s : State) (t : Nat) (ring : Fin 64) : exec (.redeclare t ring) s = onHead t ring 0x11 s fun x d =>
    if (x.chan (descChan d)).waitsDesc || x.slotLoading (x.redeclOf d) then x
    else x.judge ring d (x.redeclareFail d (x.redeclOf d)) fun y =>
      y.acceptOp (descChan d) (.redeclare (x.redeclOf d) (descTag d) y.devTime ring) (y.applyAt (x.chan (descChan d))) := rfl

theorem exec_pause (s : State) (t : Nat) (ring : Fin 64) : exec (.pause t ring) s = onHead t ring 0x12 s fun x d =>
    if (x.chan (descChan d)).waitsDesc then x
    else x.judge ring d (firstFail [(1, !shortOk d true), (3, (x.chan (descChan d)).st != .live)]) fun y =>
      y.acceptOp (descChan d) (.pause (df d 8 20 1 = 1) (descTag d) y.devTime ring) (y.applyAt (x.chan (descChan d))) := rfl

/-- A channel resumed at `td` (R127). -/
def Chan.resumedAs (ch : Chan) (td : Nat) : Chan :=
  let ch1 : Chan := { ch with st := .live, countOnly := false, sampleFrom := td + 1, stampFrom := td
                              gap := ch.gap.map fun g => { g with to_ := td } }
  if ch.countOnly then ch1
  else { ch1.restartBoth td with tLive := td, pair := ch.pair.cut, guard := { ch.guard with off := none } }

/-- The effect of an accepted RESUME of a channel that was `ch` (R127). -/
def State.resumeChan (s : State) (c : Nat) (ch : Chan) (tag : Dword) : State :=
  let s1 := (s.setChan c (ch.resumedAs s.devTime)).resetStages c ch.decl
  ((if ch.countOnly then s1 else s1.zonesNow c s.devTime).chanAck c 4 tag s.devTime []).imageChanged

theorem exec_resume (s : State) (t : Nat) (ring : Fin 64) : exec (.resume t ring) s = onHead t ring 0x13 s fun x d =>
    if (x.chan (descChan d)).waitsDesc then x
    else x.judge ring d (firstFail [(1, !shortOk d false), (3, (x.chan (descChan d)).st != .paused)]) fun y =>
      y.resumeChan (descChan d) (x.chan (descChan d)) (descTag d) := rfl

theorem exec_retire (s : State) (t : Nat) (ring : Fin 64) : exec (.retire t ring) s = onHead t ring 0x14 s fun x d =>
    if (x.chan (descChan d)).waitsDesc then x
    else x.judge ring d (firstFail [(1, !shortOk d true), (3, (x.chan (descChan d)).st != .declared &&
        (x.chan (descChan d)).st != .live && (x.chan (descChan d)).st != .paused)]) fun y =>
      y.acceptOp (descChan d) (.retire (df d 8 20 1 = 1) (descTag d) y.devTime ring)
        (if df d 8 20 1 = 1 || (x.chan (descChan d)).st != .live then some y.devTime else y.applyAt (x.chan (descChan d))) := rfl

theorem Chan.resumedAs_life (ch : Chan) (td : Nat) :
    (ch.resumedAs td).life.st = .live ∧ (ch.resumedAs td).life.countOnly = false ∧
    (ch.resumedAs td).life.sampleFrom = td + 1 ∧ (ch.resumedAs td).life.stampFrom = td := by
  unfold Chan.resumedAs
  dsimp only
  split <;> exact ⟨rfl, rfl, rfl, rfl⟩

theorem State.life_resumeChan (s : State) (c : Nat) (ch : Chan) (tag : Dword) :
    ((s.resumeChan c ch tag).chan c).life = (ch.resumedAs s.devTime).life := by
  have frame : (s.resumeChan c ch tag).engineFrame = (s.setChan c (ch.resumedAs s.devTime)).engineFrame := by
    unfold State.resumeChan
    dsimp only
    split <;> simp
  exact State.life_of_stored frame

end Sys2Proof.Machine

namespace Sys2Proof.Machine

/-! ### The moments at which descriptors apply (R124, R126, R127) -/

theorem exec_channelLive (s : State) (t : Nat) (c : BitVec 20) : exec (.channelLive t c) s = atMoment t s fun x =>
    if (x.chan c.toNat).st == .declared && (x.chan c.toNat).op.isNone && decide ((x.chan c.toNat).decl.start ≤ x.devTime) then
      match (x.chan c.toNat).restoring with
      | none => x.enterLive c.toNat
          (max (min x.devTime ((x.chan c.toNat).tB + 10 * usQ)) (x.chan c.toNat).decl.start) (x.chan c.toNat).tag
      | some st => if x.tb.st.live then x.reenter c.toNat (max x.devTime (x.chan c.toNat).decl.start) st else x
    else x := rfl

/-- The channel of a REDECLARE that applies at t_r (R124, R144): `ch` as it was, `z` the zones of the new sources. -/
def Chan.redeclaredAs (ch : Chan) (d : Decl) (tr : Nat) (z : Zone × Zone) : Chan :=
  let ch1 : Chan := if ch.decl.rebinds d then { ch.restartBoth (tr + 1) with pair := ch.pair.cut } else ch
  let ch2 : Chan := { ch1 with
    decl := d, op := none, opAt := none, zonesAt := none, old := some (tr, ch.decl)
    since := if ch.decl.rebinds d then ch.since ++ [ch.decl.srcA, ch.decl.srcB, ch.decl.srcX] else ch.since
    guard := if ch.decl.rebinds d || d.keeper != ch.decl.keeper then { ch1.guard with off := none } else ch1.guard }
  if ch.decl.rebinds d then ch2.takeZones tr z else ch2

/-- A REDECLARE applies. -/
def State.applyRedeclare (s : State) (c : Nat) (d : Decl) (tr : Nat) (z : Zone × Zone) : State :=
  (((s.setChan c ((s.chan c).redeclaredAs d tr z)).changeLines c d).imageChanged).finishRedeclare c

theorem exec_redeclareApply (s : State) (t : Nat) (c : BitVec 20) : exec (.redeclareApply t c) s = atMoment t s fun x =>
    match ((x.caught c.toNat).chan c.toNat).op, (x.caught c.toNat).opTime ((x.caught c.toNat).chan c.toNat) with
    | some (.redeclare d _ _ _), some tr =>
      if ((x.caught c.toNat).chan c.toNat).old.isSome || !(x.caught c.toNat).drained c.toNat tr ||
          ((x.caught c.toNat).sealedCastling c.toNat).isSome then x
      else (x.caught c.toNat).applyRedeclare c.toNat d tr
        (((x.caught c.toNat).chan c.toNat).zonesAt.getD (x.srcZone d.srcA, x.srcZone d.srcB))
    | _, _ => x := rfl

theorem Chan.life_redeclaredAs (ch : Chan) (d : Decl) (tr : Nat) (z : Zone × Zone) :
    (ch.redeclaredAs d tr z).life = { ch.life with decl := d, op := none, opAt := none } := by
  unfold Chan.redeclaredAs
  dsimp only
  split
  · exact Chan.life_takeZones ..
  · rfl

theorem State.life_applyRedeclare (s : State) (c : Nat) (d : Decl) (tr : Nat) (z : Zone × Zone) :
    ((s.applyRedeclare c d tr z).chan c).life = { (s.chan c).life with decl := d, op := none, opAt := none } := by
  have frame : (s.applyRedeclare c d tr z).engineFrame = (s.setChan c ((s.chan c).redeclaredAs d tr z)).engineFrame := by
    simp [State.applyRedeclare]
  exact (State.life_of_stored frame).trans (Chan.life_redeclaredAs ..)

/-- The channel of a PAUSE that applies (R127): the GAP owed reports the phase at t_p. -/
def Chan.pausedAs (ch : Chan) (countOnly : Bool) (tp : Nat) (v : Solved) : Chan :=
  { ch with
    st := .paused, countOnly := countOnly, op := none, opAt := none
    gap := some { code := 1, from_ := tp, to_ := 0, count := v.count, phase := v.phase, frozen := !countOnly, flags := v.extrap }
    a := ch.a.reported v.phiA, b := ch.b.reported v.phiB }

/-- A PAUSE applies: parcels and a withheld interval close first (R188, R377). -/
def State.applyPause (s : State) (c : Nat) (countOnly : Bool) (tag : Dword) (tp : Nat) (v : Solved) : State :=
  let s1 := (s.closeParcels c (s.chan c).decl).closeWithheld c (s.chan c).decl tp v.count v.phase v.flags
  ((s1.setChan c ((s1.chan c).pausedAs countOnly tp v)).chanAck c 3 tag tp []).imageChanged

theorem exec_pauseApply (s : State) (t : Nat) (c : BitVec 20) : exec (.pauseApply t c) s = atMoment t s fun x =>
    match ((x.caught c.toNat).chan c.toNat).op, (x.caught c.toNat).opTime ((x.caught c.toNat).chan c.toNat) with
    | some (.pause countOnly tag _ _), some tp =>
      if ((x.caught c.toNat).chan c.toNat).st == .live && ((x.caught c.toNat).chan c.toNat).gap.isNone &&
          (x.caught c.toNat).caughtUp c.toNat tp &&
          (!countOnly || ((x.caught c.toNat).chan c.toNat).resolved = tp || (x.caught c.toNat).bracketDone c.toNat tp) then
        (x.caught c.toNat).applyPause c.toNat countOnly tag tp ((x.caught c.toNat).solveAt c.toNat tp)
      else x
    | _, _ => x := rfl

theorem State.applyPause_does (s : State) (c : Nat) (countOnly : Bool) (tag : Dword) (tp : Nat) (v : Solved) :
    let u := s.applyPause c countOnly tag tp v
    (u.chan c).st = .paused ∧ (u.chan c).countOnly = countOnly ∧ (u.chan c).op = none := by
  intro u
  have life : (u.chan c).life = Chan.life _ := State.life_of_stored (State.engineFrame_chanAck ..)
  exact ⟨congrArg Life.st life, congrArg Life.countOnly life, congrArg Life.op life⟩

/-- The GAP of a RESUME is reported (R127). -/
def State.payGap (s : State) (c : Nat) (g : GapOwed) : State :=
  if g.frozen then (s.gapRec c g g.count noneWord 0 []).modChan c fun ch => { ch with gap := none }
  else
    let s0 := s.caught c
    if s0.caughtUp c g.to_ && s0.bracketDone c g.to_ then
      let v := s0.solveAt c g.to_
      ((s0.modChan c fun ch => { ch with a := ch.a.reported v.phiA, b := ch.b.reported v.phiB }).gapRec c g v.count v.phase
        (v.extrap ||| v.flags) []).modChan c fun ch => { ch with gap := none }
    else s

theorem exec_resumeGap (s : State) (t : Nat) (c : BitVec 20) : exec (.resumeGap t c) s = atMoment t s fun x =>
    match (x.chan c.toNat).gap with
    | some g => if (x.chan c.toNat).st != .live || (x.sealedCastling c.toNat).isSome then x else x.payGap c.toNat g
    | none => if (x.sealedCastling c.toNat).isSome then x else x.payLaneGap c.toNat := rfl

/-- A GAP that is owed no more leaves the channel in its state. -/
theorem State.gapPaid_does (s u : State) (c : Nat) (h : u.chanStates = s.chanStates) :
    ((u.modChan c fun ch => { ch with gap := none }).chan c).gap = none ∧
    ((u.modChan c fun ch => { ch with gap := none }).chan c).st = (s.chan c).st := by
  rw [State.modChan_eq, State.chan_setChan, if_pos rfl]
  exact ⟨rfl, congrFun h c⟩

theorem State.payGap_does (s : State) (c : Nat) (g : GapOwed)
    (h : g.frozen = false → (s.caught c).caughtUp c g.to_ = true ∧ (s.caught c).bracketDone c g.to_ = true) :
    ((s.payGap c g).chan c).gap = none ∧ ((s.payGap c g).chan c).st = (s.chan c).st := by
  unfold State.payGap
  dsimp only
  split
  · exact s.gapPaid_does _ c (State.chanStates_of_frame (State.engineFrame_gapRec ..))
  · next hfrozen =>
    obtain ⟨hup, hdone⟩ := h (Bool.eq_false_iff.mpr hfrozen)
    rw [if_pos (by rw [hup, hdone]; rfl)]
    refine s.gapPaid_does _ c ((State.chanStates_of_frame (State.engineFrame_gapRec ..)).trans ?_)
    exact (State.chanStates_of_frame (State.engineFrame_setChan_work ..)).trans (s.chanStates_caught c)

/-- The start of a lane's GAP is solved, once its edges are in (R285). -/
theorem State.payLaneGap_start (s : State) (c : Nat) (g : GapOwed) (hg : ((s.caught c).chan c).laneGap = some g)
    (hstart : g.startOwed = true) (hup : (s.caught c).caughtUp c g.from_ = true) (hdone : (s.caught c).bracketDone c g.from_ = true) :
    ∃ h, ((s.payLaneGap c).chan c).laneGap = some h ∧ h.startOwed = false ∧ h.from_ = g.from_ ∧
      h.count = ((s.caught c).solveAt c g.from_).count := by
  unfold State.caught at hg hup hdone
  simp only [State.payLaneGap, State.laneEnd, hg, hstart, hup, hdone, if_true, Bool.and_self, State.modChan_eq, State.chan_setChan]
  exact ⟨_, rfl, rfl, rfl, rfl⟩

/-- The record of a lane's GAP follows once both ends are known (R285). -/
theorem State.payLaneGap_end (s : State) (c : Nat) (g : GapOwed) (hg : ((s.caught c).chan c).laneGap = some g)
    (hstart : g.startOwed = false) (hend : g.endOwed = false) (hup : (s.caught c).caughtUp c g.to_ = true)
    (hdone : (s.caught c).bracketDone c g.to_ = true) : ((s.payLaneGap c).chan c).laneGap = none := by
  unfold State.caught at hg hup hdone
  simp only [State.payLaneGap, State.laneEnd, hg, hstart, hend, hup, hdone, if_true, Bool.and_self, Bool.false_eq_true, if_false,
    State.modChan_eq, State.chan_setChan]

theorem State.coverCheck_chans (s : State) : s.coverCheck.chans = s.chans := by
  unfold State.coverCheck
  dsimp only
  split
  · exact (State.raise_keeps ..).2.2.2.2.2.2.2.2.2.2.2.1
  · rfl

/-- The channel of a RETIRE that applies (R121, R124). -/
def Chan.retiredAs (ch : Chan) : Chan :=
  { ch with st := .retired, op := none, opAt := none, old := none, gap := none, instants := [], image := none }

/-- What a RETIRE at t_x reports, and the places it frees, before the channel is retired (R188, R212, R236, R377). -/
def State.retireReported (s : State) (c : Nat) (tag : Dword) (tx : Nat) (v : Solved) : State :=
  let s1 := (s.closeParcels c (s.chan c).decl).closeWithheld c (s.chan c).decl tx v.count v.phase v.flags
  let s2 := (s1.applyTargets c tx).finalReports c tx
  (s2.chanAck c 5 tag tx [BitVec.ofNat 64 (s2.chan c).count]).unplace c

/-- The channel is retired: binding, pin and hint are freed. -/
def State.retireChan (s : State) (c : Nat) : State :=
  (((s.setChan c (s.chan c).retiredAs).dropWish c).imageChanged).coverCheck

/-- A RETIRE applies. -/
def State.applyRetire (s : State) (c : Nat) (tag : Dword) (tx : Nat) (v : Solved) : State :=
  (s.retireReported c tag tx v).retireChan c

theorem exec_retireApply (s : State) (t : Nat) (c : BitVec 20) : exec (.retireApply t c) s = atMoment t s fun x =>
    match ((x.caught c.toNat).chan c.toNat).op, (x.caught c.toNat).opTime ((x.caught c.toNat).chan c.toNat) with
    | some (.retire _ tag _ _), some tx =>
      if ((x.caught c.toNat).chan c.toNat).st == .castling ||
          (((x.caught c.toNat).chan c.toNat).gap.isSome && ((x.caught c.toNat).chan c.toNat).st == .live) ||
          (((x.caught c.toNat).chan c.toNat).counting && !(x.caught c.toNat).caughtUp c.toNat tx) then x
      else (x.caught c.toNat).applyRetire c.toNat tag tx ((x.caught c.toNat).solveAt c.toNat tx)
    | _, _ => x := rfl

theorem State.chan_retireChan (s : State) (c : Nat) : (s.retireChan c).chan c = (s.chan c).retiredAs := by
  have stored : (s.setChan c (s.chan c).retiredAs).chan c = (s.chan c).retiredAs := (s.chan_setChan ..).trans (if_pos rfl)
  rw [State.retireChan, State.chan, State.coverCheck_chans]
  exact stored

theorem State.applyRetire_does (s : State) (c : Nat) (tag : Dword) (tx : Nat) (v : Solved) :
    ((s.applyRetire c tag tx v).chan c).st = .retired ∧ ((s.applyRetire c tag tx v).chan c).op = none ∧
    ((s.applyRetire c tag tx v).chan c).instants = [] := by
  rw [State.applyRetire, State.chan_retireChan]
  exact ⟨rfl, rfl, rfl⟩

end Sys2Proof.Machine

namespace Sys2Proof.Machine

/-! ### The clauses of the lifecycle's rows -/

/-- A channel behind a descriptor that is accepted: its lifecycle is what the descriptor's effect made it. -/
theorem Does.of_accepted {i : Instr} {s : State} {t : Nat} {ring : Fin 64} {ty : Nat} {d : Desc} {f : State → Desc → State}
    {effect : State → State} {c : Nat} {l : Life} {P : State → Prop} (h : exec i s = onHead t ring ty s f)
    (hd : s.head ring.val ty = some d) (haccept : f (s.advance t) d = (s.advance t).judge ring d none effect)
    (hlife : ((effect (s.advance t)).chan c).life = l) (hP : ∀ u : State, (u.chan c).life = l → P u) : Does i s P := by
  refine Does.of_head h hd (hP _ ?_)
  rw [State.settle_chan, haccept, State.life_judge, hlife]

/-- The last fetched descriptor of a ring, where it is rejected. -/
theorem Does.of_rejected {i : Instr} {s : State} {t : Nat} {ring : Fin 64} {ty reason : Nat} {d : Desc}
    {f : State → Desc → State} {effect : State → State} (h : exec i s = onHead t ring ty s f) (hd : s.head ring.val ty = some d)
    (hlast : (s.ring ring).fetched = [d]) (hreject : f (s.advance t) d = (s.advance t).judge ring d (some reason) effect) :
    Does i s fun u =>
      u.chans = s.chans ∧ u.fld (Reg.RING_REJ ring) 0 32 = (s.fld (Reg.RING_REJ ring) 0 32 + 1) % 2 ^ 32 ∧
      (u.ring ring).fetched = [] ∧ (u.ring ring).pos = ((s.ring ring).pos + 1) % (2 * s.depth ring) := by
  refine Does.of_head h hd ?_
  rw [hreject, (s.advance t).judge_rejected ring d reason effect ring.2 hlast]
  obtain ⟨hchans, hcount, hposted⟩ := (s.advance t).rejectHead_does ring d reason ring.2
  obtain ⟨hpos, hfetched⟩ := Prod.mk.inj hposted
  exact ⟨hchans, hcount, hfetched.trans (congrArg List.tail hlast), hpos⟩

/-- A descriptor that nothing holds back is judged by its checks. -/
theorem State.judged {s : State} {ring : Fin 64} {d : Desc} {p : Prop} [Decidable p] {fail res : Option Nat}
    {effect : State → State} (hgo : ¬p) (hfail : fail = res) :
    (if p then s else s.judge ring d fail effect) = s.judge ring d res effect := by
  rw [if_neg hgo, hfail]

theorem declare_does (s : State) (t : Nat) (ring : Fin 64) (d : Desc) (hd : s.head ring.val 0x10 = some d)
    (hwaits : (s.chan (descChan d)).waitsDesc = false) (hslot : s.slotLoading (declOf d) = false)
    (hfail : s.declareFail d = none) :
    Does (.declare t ring) s fun u =>
      (u.chan (descChan d)).st = .declared ∧ (u.chan (descChan d)).decl = declOf d ∧
      (u.chan (descChan d)).count = (declOf d).countInit ∧ (u.chan (descChan d)).tB = (s.advance t).devTime := by
  have hgo : ¬((s.chan (descChan d)).waitsDesc || s.slotLoading (declOf d)) = true := by simp [hwaits, hslot]
  exact Does.of_accepted (c := descChan d) (exec_declare s t ring) hd (State.judged hgo hfail) (State.life_declare ..) fun u life =>
    ⟨congrArg Life.st life, congrArg Life.decl life, congrArg Life.count life, congrArg Life.tB life⟩

theorem declare_rejected (s : State) (t : Nat) (ring : Fin 64) (d : Desc) (hd : s.head ring.val 0x10 = some d)
    (hwaits : (s.chan (descChan d)).waitsDesc = false) (hslot : s.slotLoading (declOf d) = false)
    (hfail : s.declareFail d = some 3) (hlast : (s.ring ring).fetched = [d]) :
    Does (.declare t ring) s fun u =>
      u.chans = s.chans ∧ u.fld (Reg.RING_REJ ring) 0 32 = (s.fld (Reg.RING_REJ ring) 0 32 + 1) % 2 ^ 32 ∧
      (u.ring ring).fetched = [] ∧ (u.ring ring).pos = ((s.ring ring).pos + 1) % (2 * s.depth ring) := by
  have hgo : ¬((s.chan (descChan d)).waitsDesc || s.slotLoading (declOf d)) = true := by simp [hwaits, hslot]
  exact Does.of_rejected (exec_declare s t ring) hd hlast (State.judged hgo hfail)

theorem channelLive_does (s : State) (t : Nat) (c : BitVec 20) (hst : (s.chan c.toNat).st = .declared)
    (hop : (s.chan c.toNat).op = none) (hrest : (s.chan c.toNat).restoring = none)
    (hstart : (s.chan c.toNat).decl.start ≤ (s.advance t).devTime) :
    Does (.channelLive t c) s fun u =>
      (u.chan c.toNat).st = .live ∧ (u.chan c.toNat).tLive =
        max (min (s.advance t).devTime ((s.chan c.toNat).tB + 10 * usQ)) (s.chan c.toNat).decl.start := by
  refine Does.of_effect (exec_channelLive s t c) ?_
  simp only [State.chan_advance, hst, hop, hrest, hstart, Option.isNone_none, beq_self_eq_true, decide_true, Bool.and_self, if_true,
    State.settle_chan]
  have life := (s.advance t).life_enterLive c.toNat
    (max (min (s.advance t).devTime ((s.chan c.toNat).tB + 10 * usQ)) (s.chan c.toNat).decl.start) (s.chan c.toNat).tag
  exact ⟨congrArg Life.st life, congrArg Life.tLive life⟩

theorem channelLive_idles (s : State) (t : Nat) (c : BitVec 20) (hst : (s.chan c.toNat).st ≠ .declared) :
    Idles (.channelLive t c) s :=
  Idles.of_effect (t := t) rfl (exec_channelLive s t c) (if_neg (by simp [hst]))

theorem redeclare_does (s : State) (t : Nat) (ring : Fin 64) (d : Desc) (hd : s.head ring.val 0x11 = some d)
    (hwaits : (s.chan (descChan d)).waitsDesc = false) (hslot : s.slotLoading (s.redeclOf d) = false)
    (hfail : s.redeclareFail d (s.redeclOf d) = none) :
    Does (.redeclare t ring) s fun u =>
      (u.chan (descChan d)).op = some (.redeclare (s.redeclOf d) (descTag d) (s.advance t).devTime ring) ∧
      (u.chan (descChan d)).opAt = (s.advance t).applyAt (s.chan (descChan d)) ∧
      (u.chan (descChan d)).decl = (s.chan (descChan d)).decl := by
  have hgo : ¬((s.chan (descChan d)).waitsDesc || s.slotLoading (s.redeclOf d)) = true := by simp [hwaits, hslot]
  exact Does.of_accepted (c := descChan d) (exec_redeclare s t ring) hd (State.judged hgo hfail) (State.life_acceptOp ..)
    fun u life => ⟨congrArg Life.op life, congrArg Life.opAt life, congrArg Life.decl life⟩

theorem redeclareApply_does (s : State) (t : Nat) (c : BitVec 20) (d : Decl) (tag : Dword) (a r tr : Nat)
    (hop : (((s.advance t).caught c.toNat).chan c.toNat).op = some (.redeclare d tag a r))
    (htr : ((s.advance t).caught c.toNat).opTime (((s.advance t).caught c.toNat).chan c.toNat) = some tr)
    (hold : (((s.advance t).caught c.toNat).chan c.toNat).old = none)
    (hdrained : ((s.advance t).caught c.toNat).drained c.toNat tr = true)
    (hfree : ((s.advance t).caught c.toNat).sealedCastling c.toNat = none) :
    Does (.redeclareApply t c) s fun u =>
      (u.chan c.toNat).decl = d ∧ (u.chan c.toNat).op = none ∧
      (u.chan c.toNat).count = (((s.advance t).caught c.toNat).chan c.toNat).count := by
  refine Does.of_effect (exec_redeclareApply s t c) ?_
  simp only [hop, htr, hold, hdrained, hfree, Option.isSome_none, Bool.not_true, Bool.or_self, Bool.false_eq_true, if_false,
    State.settle_chan]
  have life := ((s.advance t).caught c.toNat).life_applyRedeclare c.toNat d tr
    ((((s.advance t).caught c.toNat).chan c.toNat).zonesAt.getD ((s.advance t).srcZone d.srcA, (s.advance t).srcZone d.srcB))
  exact ⟨congrArg Life.decl life, congrArg Life.op life, congrArg Life.count life⟩

theorem redeclareApply_idles (s : State) (t : Nat) (c : BitVec 20) (d : Decl) (tag : Dword) (a r tr : Nat)
    (hop : (((s.advance t).caught c.toNat).chan c.toNat).op = some (.redeclare d tag a r))
    (htr : ((s.advance t).caught c.toNat).opTime (((s.advance t).caught c.toNat).chan c.toNat) = some tr)
    (hdrained : ((s.advance t).caught c.toNat).drained c.toNat tr = false) : Idles (.redeclareApply t c) s := by
  refine Idles.of_effect (t := t) rfl (exec_redeclareApply s t c) ?_
  simp only [hop, htr, hdrained]
  exact if_pos (by simp)

theorem pause_does (s : State) (t : Nat) (ring : Fin 64) (d : Desc) (hd : s.head ring.val 0x12 = some d)
    (hwaits : (s.chan (descChan d)).waitsDesc = false) (hform : shortOk d true = true) (hst : (s.chan (descChan d)).st = .live) :
    Does (.pause t ring) s fun u =>
      (u.chan (descChan d)).op = some (.pause (df d 8 20 1 = 1) (descTag d) (s.advance t).devTime ring) ∧
      (u.chan (descChan d)).st = .live := by
  have hfail : firstFail [(1, !shortOk d true), (3, (s.chan (descChan d)).st != .live)] = none := by simp [firstFail, hform, hst]
  exact Does.of_accepted (c := descChan d) (exec_pause s t ring) hd (State.judged (by simp [hwaits]) hfail)
    (State.life_acceptOp ..) fun u life => ⟨congrArg Life.op life, (congrArg Life.st life).trans hst⟩

theorem pauseApply_does (s : State) (t : Nat) (c : BitVec 20) (countOnly : Bool) (tag : Dword) (a r tp : Nat)
    (hop : (((s.advance t).caught c.toNat).chan c.toNat).op = some (.pause countOnly tag a r))
    (htp : ((s.advance t).caught c.toNat).opTime (((s.advance t).caught c.toNat).chan c.toNat) = some tp)
    (hst : (((s.advance t).caught c.toNat).chan c.toNat).st = .live)
    (hgap : (((s.advance t).caught c.toNat).chan c.toNat).gap = none)
    (hup : ((s.advance t).caught c.toNat).caughtUp c.toNat tp = true)
    (hbracket : countOnly = true → (((s.advance t).caught c.toNat).chan c.toNat).resolved = tp ∨
      ((s.advance t).caught c.toNat).bracketDone c.toNat tp = true) :
    Does (.pauseApply t c) s fun u =>
      (u.chan c.toNat).st = .paused ∧ (u.chan c.toNat).countOnly = countOnly ∧ (u.chan c.toNat).op = none := by
  refine Does.of_effect (exec_pauseApply s t c) ?_
  have hready : (!countOnly || (((s.advance t).caught c.toNat).chan c.toNat).resolved = tp ||
      ((s.advance t).caught c.toNat).bracketDone c.toNat tp) = true := by
    cases countOnly with
    | false => rfl
    | true => simpa using hbracket rfl
  simp only [hop, htp, hst, hgap, hup, hready, beq_self_eq_true, Option.isNone_none, Bool.and_self, if_true, State.settle_chan]
  exact State.applyPause_does ..

theorem resume_does (s : State) (t : Nat) (ring : Fin 64) (d : Desc) (hd : s.head ring.val 0x13 = some d)
    (hwaits : (s.chan (descChan d)).waitsDesc = false) (hform : shortOk d false = true)
    (hst : (s.chan (descChan d)).st = .paused) :
    Does (.resume t ring) s fun u =>
      (u.chan (descChan d)).st = .live ∧ (u.chan (descChan d)).countOnly = false ∧
      (u.chan (descChan d)).sampleFrom = (s.advance t).devTime + 1 ∧ (u.chan (descChan d)).stampFrom = (s.advance t).devTime := by
  have hfail : firstFail [(1, !shortOk d false), (3, (s.chan (descChan d)).st != .paused)] = none := by
    simp [firstFail, hform, hst]
  obtain ⟨hlive, hcounts, hsample, hstamp⟩ := (s.chan (descChan d)).resumedAs_life (s.advance t).devTime
  exact Does.of_accepted (c := descChan d) (exec_resume s t ring) hd (State.judged (by simp [hwaits]) hfail)
    (State.life_resumeChan ..) fun u life =>
      ⟨(congrArg Life.st life).trans hlive, (congrArg Life.countOnly life).trans hcounts,
        (congrArg Life.sampleFrom life).trans hsample, (congrArg Life.stampFrom life).trans hstamp⟩

theorem resumeGap_does (s : State) (t : Nat) (c : BitVec 20) (g : GapOwed) (hgap : (s.chan c.toNat).gap = some g)
    (hst : (s.chan c.toNat).st = .live) (hfree : s.sealedCastling c.toNat = none)
    (hsolved : g.frozen = false → ((s.advance t).caught c.toNat).caughtUp c.toNat g.to_ = true ∧
      ((s.advance t).caught c.toNat).bracketDone c.toNat g.to_ = true) :
    Does (.resumeGap t c) s fun u => (u.chan c.toNat).gap = none ∧ (u.chan c.toNat).st = .live := by
  refine Does.of_effect (exec_resumeGap s t c) ?_
  have hgo : ¬(((s.advance t).chan c.toNat).st != .live || ((s.advance t).sealedCastling c.toNat).isSome) = true := by
    simp [hst, show (s.advance t).sealedCastling c.toNat = none from hfree]
  simp only [show ((s.advance t).chan c.toNat).gap = some g from hgap]
  rw [if_neg hgo]
  exact ((s.advance t).payGap_does c.toNat g hsolved).imp_right (·.trans hst)

/-- Without a RESUME's GAP the command serves a lane's. -/
theorem Does.of_laneGap {s : State} {t : Nat} {c : BitVec 20} {P : State → Prop} (hgap : (s.chan c.toNat).gap = none)
    (hfree : s.sealedCastling c.toNat = none) (hP : P (((s.advance t).payLaneGap c.toNat).settle s t)) :
    Does (.resumeGap t c) s P := by
  refine Does.of_effect (exec_resumeGap s t c) ?_
  have hgo : ¬((s.advance t).sealedCastling c.toNat).isSome = true := by
    simp [show (s.advance t).sealedCastling c.toNat = none from hfree]
  simp only [show ((s.advance t).chan c.toNat).gap = none from hgap]
  rw [if_neg hgo]
  exact hP

theorem retire_does (s : State) (t : Nat) (ring : Fin 64) (d : Desc) (hd : s.head ring.val 0x14 = some d)
    (hwaits : (s.chan (descChan d)).waitsDesc = false) (hform : shortOk d true = true)
    (hst : (s.chan (descChan d)).st = .declared ∨ (s.chan (descChan d)).st = .live ∨ (s.chan (descChan d)).st = .paused) :
    Does (.retire t ring) s fun u =>
      (u.chan (descChan d)).op = some (.retire (df d 8 20 1 = 1) (descTag d) (s.advance t).devTime ring) := by
  have hfail : firstFail [(1, !shortOk d true), (3, (s.chan (descChan d)).st != .declared &&
      (s.chan (descChan d)).st != .live && (s.chan (descChan d)).st != .paused)] = none := by
    obtain h | h | h := hst <;> simp [firstFail, hform, h]
  exact Does.of_accepted (c := descChan d) (exec_retire s t ring) hd (State.judged (by simp [hwaits]) hfail)
    (State.life_acceptOp ..) fun u life => congrArg Life.op life

theorem retireApply_does (s : State) (t : Nat) (c : BitVec 20) (now : Bool) (tag : Dword) (a r tx : Nat)
    (hop : (((s.advance t).caught c.toNat).chan c.toNat).op = some (.retire now tag a r))
    (htx : ((s.advance t).caught c.toNat).opTime (((s.advance t).caught c.toNat).chan c.toNat) = some tx)
    (hst : (((s.advance t).caught c.toNat).chan c.toNat).st ≠ .castling)
    (hgap : (((s.advance t).caught c.toNat).chan c.toNat).gap = none ∨
      (((s.advance t).caught c.toNat).chan c.toNat).st ≠ .live)
    (hup : (((s.advance t).caught c.toNat).chan c.toNat).counting = true →
      ((s.advance t).caught c.toNat).caughtUp c.toNat tx = true) :
    Does (.retireApply t c) s fun u =>
      (u.chan c.toNat).st = .retired ∧ (u.chan c.toNat).op = none ∧ (u.chan c.toNat).instants = [] := by
  refine Does.of_effect (exec_retireApply s t c) ?_
  have hcastling : ((((s.advance t).caught c.toNat).chan c.toNat).st == .castling) = false := beq_false_of_ne hst
  have howed : ((((s.advance t).caught c.toNat).chan c.toNat).gap.isSome &&
      (((s.advance t).caught c.toNat).chan c.toNat).st == .live) = false := by
    obtain h | h := hgap <;> simp [h]
  have hbehind : ((((s.advance t).caught c.toNat).chan c.toNat).counting &&
      !((s.advance t).caught c.toNat).caughtUp c.toNat tx) = false := by simpa using hup
  simp only [hop, htx, hcastling, howed, hbehind, Bool.or_self, Bool.false_eq_true, if_false, State.settle_chan]
  exact ((s.advance t).caught c.toNat).applyRetire_does ..

end Sys2Proof.Machine

section
open Sys2Proof.Machine

/-- Settles O10: a descriptor's own checks decide whether its effect comes about, and each moment of application finds the
channel caught up with what has been decided. -/
theorem lifecycleRowsComplete : Obligations.LifecycleRowsComplete := by
  unfold Obligations.LifecycleRowsComplete
  refine ⟨?_, channelLive_does, channelLive_idles, ?_, ?_, pause_does, pauseApply_does, resume_does, resumeGap_does, ?_,
    retire_does, retireApply_does⟩
  · intro s t ring d hd hwaits hslot hfield hrange
    constructor
    · intro hst hbind hcap hpin hguard
      refine declare_does s t ring d hd hwaits hslot ?_
      simp [State.declareFail, firstFail, hfield, hrange, hst, hbind, hcap, hpin, hguard]
    · intro hst hlast
      refine declare_rejected s t ring d hd hwaits hslot ?_ hlast
      simp [State.declareFail, firstFail, hfield, hrange, hst]
  · intro s t ring d hd c x hwaits hslot hfield hrange hst hbind hkind hguarded hcap hguard
    refine redeclare_does s t ring d hd hwaits hslot ?_
    show s.redeclareFail d x = none
    dsimp only [c] at hst hkind hguarded hcap hguard
    obtain h | h := hst <;>
      simp [State.redeclareFail, firstFail, hfield, hrange, h, hbind, hkind, hguarded, hcap, hguard]
  · intro s t c d tag a r tr s0 hop htr hold
    exact ⟨redeclareApply_does s t c d tag a r tr hop htr hold, redeclareApply_idles s t c d tag a r tr hop htr⟩
  · intro s t c g hgap hfree s0 hlane
    exact ⟨fun hstart hup hdone => Does.of_laneGap hgap hfree (State.payLaneGap_start _ _ g hlane hstart hup hdone),
      fun hstart hend hup hdone => Does.of_laneGap hgap hfree (State.payLaneGap_end _ _ g hlane hstart hend hup hdone)⟩

end

namespace Sys2Proof.Machine

/-! ### The last instant that a channel has resolved (R146) -/

/-- The last instant that channel c has resolved. -/
def State.lastInstant (s : State) (c : Nat) : Nat := (s.chan c).resolved

theorem State.lastInstant_of_chans {s u : State} (h : u.chans = s.chans) (c : Nat) : u.lastInstant c = s.lastInstant c := by
  rw [State.lastInstant, State.chan, h, State.lastInstant, State.chan]

theorem State.lastInstant_setChan (s : State) (c : Nat) (x : Chan) : (s.setChan c x).lastInstant c = x.resolved := by
  rw [State.lastInstant, State.chan_setChan, if_pos rfl]

/-- The fields of a channel that records, statistics, stages and the end of a REDECLARE write: none tells what is resolved. -/
@[simp] theorem State.lastInstant_setChan_report (s : State) (c : Nat) (place : Placed) (withheld : Option Withheld)
    (cfg gapFlag : Bool) (guard : Guarded) (dev : Option DevSet) (stages : List StageState) (old : Option (Nat × Decl))
    (gridCut : Option Nat) :
    (s.setChan c { s.chan c with place := place, withheld := withheld, cfg := cfg, gapFlag := gapFlag, guard := guard, dev := dev,
                                 stages := stages, old := old, gridCut := gridCut }).lastInstant c = s.lastInstant c :=
  s.lastInstant_setChan c _

@[simp] theorem State.lastInstant_push (s : State) (n k : Nat) (e : Option Nat) (r : Record) (c : Nat) :
    (s.push n k e r).lastInstant c = s.lastInstant c := State.lastInstant_of_chans (by simp) c
@[simp] theorem State.lastInstant_bump (s : State) (a lo w c : Nat) : (s.bump a lo w).lastInstant c = s.lastInstant c :=
  State.lastInstant_of_chans (by simp) c
@[simp] theorem State.lastInstant_unrefAll (s : State) (n : Nat) (bs : List Nat) (c : Nat) :
    (s.unrefAll n bs).lastInstant c = s.lastInstant c := State.lastInstant_of_chans (by simp) c
@[simp] theorem State.lastInstant_setRing (s : State) (n : Nat) (r : Ring) (c : Nat) :
    (s.setRing n r).lastInstant c = s.lastInstant c := rfl
@[simp] theorem State.lastInstant_engineWork (s : State) (e k c : Nat) :
    (s.engineWork e k).lastInstant c = s.lastInstant c := rfl

@[simp] theorem State.lastInstant_addWork (s : State) (c k : Nat) : (s.addWork c k).lastInstant c = s.lastInstant c := by
  unfold State.addWork
  dsimp only
  split <;> simp

@[simp] theorem State.lastInstant_withhold (s : State) (c ring : Nat) (stamp : Bool) (a : At) :
    (s.withhold c ring stamp a).lastInstant c = s.lastInstant c := by simp [State.withhold]

@[simp] theorem State.lastInstant_chanRec (s : State) (c : Nat) (d : Decl) (r : Record) (stamps : Used) (a : At) :
    (s.chanRec c d r stamps a).lastInstant c = s.lastInstant c := by
  unfold State.chanRec
  dsimp only
  (repeat' split) <;> simp

@[simp] theorem State.lastInstant_statsRecord (s : State) (c : Nat) (reason : Reason) (line : Option StatLine)
    (dev : Option DevSet) : (s.statsRecord c reason line dev).lastInstant c = s.lastInstant c := by simp [State.statsRecord]

@[simp] theorem State.lastInstant_devReportDue (s : State) (c : Nat) : (s.devReportDue c).lastInstant c = s.lastInstant c := by
  unfold State.devReportDue
  (repeat' split) <;> simp

@[simp] theorem State.lastInstant_devRestart (s : State) (c : Nat) : (s.devRestart c).lastInstant c = s.lastInstant c := by
  unfold State.devRestart
  split <;> simp

@[simp] theorem State.lastInstant_gridRestart (s : State) (c : Nat) : (s.gridRestart c).lastInstant c = s.lastInstant c := by
  unfold State.gridRestart
  dsimp only
  (repeat' split) <;> simp

@[simp] theorem State.lastInstant_closeParcel (s : State) (c : Nat) (d : Decl) (k idx : Nat) :
    (s.closeParcel c d k idx).lastInstant c = s.lastInstant c := by
  unfold State.closeParcel
  dsimp only
  split <;> simp [State.setStage]

@[simp] theorem State.lastInstant_closeParcels (s : State) (c : Nat) (d : Decl) :
    (s.closeParcels c d).lastInstant c = s.lastInstant c := by
  unfold State.closeParcels
  split
  · exact foldl_keeps (fun x => x.lastInstant c = s.lastInstant c) _
      (fun x p hx => (x.lastInstant_closeParcel c d p.1 p.2).trans hx) _ s rfl
  · rfl

@[simp] theorem State.lastInstant_resetStages (s : State) (c : Nat) (d : Decl) :
    (s.resetStages c d).lastInstant c = s.lastInstant c := by simp [State.resetStages]

@[simp] theorem State.lastInstant_finishRedeclare (s : State) (c : Nat) :
    (s.finishRedeclare c).lastInstant c = s.lastInstant c := by
  unfold State.finishRedeclare
  dsimp only
  (repeat' split) <;> simp

/-- Resolving an instant ends with the channel's bookkeeping of it, and what then falls due (R146, R170, R203). -/
theorem State.resolveAt_ends (s : State) (c i : Nat) : ∃ (x : State) (v : Solved) (fr : Nat) (expA expB : Bool),
    s.resolveAt c i = ((x.modChan c fun ch => ch.after i v fr expA expB).finishRedeclare c).gridRestart c := by
  unfold State.resolveAt
  exact ⟨_, _, _, _, _, rfl⟩

/-- A resolved instant is the channel's last (R146). -/
theorem State.resolveAt_lastInstant (s : State) (c i : Nat) : (s.resolveAt c i).lastInstant c = i := by
  obtain ⟨x, v, fr, expA, expB, h⟩ := s.resolveAt_ends c i
  rw [h, State.lastInstant_gridRestart, State.lastInstant_finishRedeclare]
  exact x.lastInstant_setChan c _

/-! ### The rows of an instant (R146 to R149) -/

/-- The effect of a row that resolves the instant that is due where `ready` holds, with the changes decided so far counted. -/
def State.resolveDue (s : State) (c : Nat) (ready : State → Nat → Bool) : State :=
  match (s.quadNow c).dueInstant c with
  | some i => if ready (s.quadNow c) i then (s.quadNow c).resolveAt c i else s
  | none => s

/-- The bracket of the channel's instant is known, or not needed (R146, R147). -/
def State.bracketKnown (c : Nat) (s : State) (i : Nat) : Bool := s.bracketReady (s.chan c) ((s.chan c).declAt i) i

/-- The bracket of the channel's instant is lacking, and the wait for it is used up (R149). -/
def State.bracketGivenUp (c : Nat) (s : State) (i : Nat) : Bool :=
  !s.bracketKnown c i && (s.chan c).allOverdue ((s.chan c).declAt i) i s.devTime

theorem exec_instantResolve (s : State) (t : Nat) (c : BitVec 20) : exec (.instantResolve t c) s =
    atMoment t s fun x => x.resolveDue c.toNat (State.bracketKnown c.toNat) := rfl

theorem exec_bracketWaitExpiry (s : State) (t : Nat) (c : BitVec 20) : exec (.bracketWaitExpiry t c) s =
    atMoment t s fun x => x.resolveDue c.toNat (State.bracketGivenUp c.toNat) := rfl

theorem State.resolveDue_none {s : State} {c : Nat} (ready : State → Nat → Bool) (hdue : (s.quadNow c).dueInstant c = none) :
    s.resolveDue c ready = s := by
  rw [State.resolveDue, hdue]

theorem State.resolveDue_waits {s : State} {c i : Nat} {ready : State → Nat → Bool} (hdue : (s.quadNow c).dueInstant c = some i)
    (h : ready (s.quadNow c) i = false) : s.resolveDue c ready = s := by
  simp only [State.resolveDue, hdue, h, Bool.false_eq_true, if_false]

theorem State.resolveDue_resolves {s : State} {c i : Nat} {ready : State → Nat → Bool}
    (hdue : (s.quadNow c).dueInstant c = some i) (h : ready (s.quadNow c) i = true) :
    ((s.resolveDue c ready).chan c).resolved = i := by
  simp only [State.resolveDue, hdue, h, if_true]
  exact State.resolveAt_lastInstant ..

end Sys2Proof.Machine

section
open Sys2Proof.Machine

/-- Settles O12: both rows resolve the instant that is due, each in its own case of the bracket. -/
theorem instantRowsComplete : Obligations.InstantRowsComplete := by
  refine ⟨fun s t i c => ?_, fun s t c hdue => ⟨?_, ?_⟩⟩
  · intro s0 ch hdue
    refine ⟨fun hknown => ?_, fun hlacks => ⟨?_, fun hover => ?_, fun hover => ?_⟩⟩
    · exact Does.of_effect (exec_instantResolve ..) (State.resolveDue_resolves hdue hknown)
    · exact Idles.of_effect (t := t) rfl (exec_instantResolve ..) (State.resolveDue_waits hdue hlacks)
    · have hgone : State.bracketGivenUp c.toNat s0 i = true := by
        simp only [State.bracketGivenUp, s0, State.quadNow_devTime]
        exact Bool.and_eq_true_iff.mpr ⟨congrArg not hlacks, hover⟩
      exact Does.of_effect (exec_bracketWaitExpiry ..) (State.resolveDue_resolves hdue hgone)
    · have hwaits : State.bracketGivenUp c.toNat s0 i = false := by
        simp only [State.bracketGivenUp, s0, State.quadNow_devTime]
        exact Bool.and_eq_false_iff.mpr (.inr hover)
      exact Idles.of_effect (t := t) rfl (exec_bracketWaitExpiry ..) (State.resolveDue_waits hdue hwaits)
  · exact Idles.of_effect (t := t) rfl (exec_instantResolve ..) (State.resolveDue_none _ hdue)
  · exact Idles.of_effect (t := t) rfl (exec_bracketWaitExpiry ..) (State.resolveDue_none _ hdue)

end

namespace Sys2Proof.Machine

/-! ### The stores of recipes and coefficients, and the loads that wait (R175 to R178) -/

/-- The loads that wait, and the two stores that they go to. -/
structure LoadStore where
  loads : List Load
  recipes : Table (List Dword)
  banks : Table (List Dword)

def State.loadStore (s : State) : LoadStore := { loads := s.loads, recipes := s.recipes, banks := s.banks }

/-- The state with `l` behind the loads that wait. -/
def State.queueLoad (s : State) (l : Load) : State := { s with loads := s.loads ++ [l] }

theorem State.loadStore_bump (s : State) (a lo w : Nat) : (s.bump a lo w).loadStore = s.loadStore := by
  simp [State.loadStore]

theorem State.loadStore_raise (s : State) (f : FaultCode) (p : Nat) : (s.raise f p).loadStore = s.loadStore := by
  simp [State.loadStore]

theorem State.loadStore_sendAck (s : State) (d c ch aux stage : Nat) (tag : Dword) (body : List Word) :
    (s.sendAck d c ch aux stage tag body).loadStore = s.loadStore := by simp [State.loadStore]

theorem State.loadStore_returned (s : State) (n : Nat) (d : Desc) (reason : Nat) :
    (s.returned n d reason).loadStore = s.loadStore := by
  simp [State.loadStore, State.returned, State.sendReject]

/-- The status block and the message of a ring (R346, R357) leave the loads, the stores and the faults. -/
theorem State.statusBlock_keeps (s : State) (n : Nat) :
    (s.statusBlock n).loadStore = s.loadStore ∧ (s.statusBlock n).flt = s.flt := by
  unfold State.statusBlock
  split <;> exact ⟨rfl, rfl⟩

theorem State.ringMessage_keeps (s : State) (n : Nat) :
    (s.ringMessage n).loadStore = s.loadStore ∧ (s.ringMessage n).flt = s.flt := by
  unfold State.ringMessage
  dsimp only
  split
  · simp [State.loadStore]
  · exact ⟨rfl, rfl⟩

/-- A consumed descriptor leaves the loads, the stores and the faults (R341). -/
theorem State.consume_keeps (s : State) (n : Nat) : (s.consume n).loadStore = s.loadStore ∧ (s.consume n).flt = s.flt := by
  have counted : ((s.dropHead n).bump (Reg.RING_SEQ n) 0 48).loadStore = s.loadStore ∧
      ((s.dropHead n).bump (Reg.RING_SEQ n) 0 48).flt = s.flt := ⟨State.loadStore_bump .., by simp [State.dropHead]⟩
  exact ⟨(State.ringMessage_keeps ..).1.trans ((State.statusBlock_keeps ..).1.trans counted.1),
    (State.ringMessage_keeps ..).2.trans ((State.statusBlock_keeps ..).2.trans counted.2)⟩

theorem State.loadStore_rejectHead (s : State) (n : Nat) (d : Desc) (reason : Nat) :
    (s.rejectHead n d reason).loadStore = s.loadStore :=
  (State.consume_keeps ..).1.trans (s.loadStore_returned n d reason)

theorem State.loadStore_rejectBad (k : Nat) (s : State) (n : Nat) : (State.rejectBad k s n).loadStore = s.loadStore := by
  induction k generalizing s with
  | zero => rfl
  | succ k ih =>
    unfold State.rejectBad
    split
    · split
      · rfl
      · exact (ih _).trans (s.loadStore_rejectHead n _ 1)
    · rfl

/-- Behind an accepted descriptor the loads and the stores are what its effect made them (R353). -/
theorem State.loadStore_judge (s : State) (n : Nat) (d : Desc) (effect : State → State) :
    (s.judge n d none effect).loadStore = (effect s).loadStore :=
  (State.loadStore_rejectBad ..).trans (State.consume_keeps ..).1

/-- An accepted load waits behind the others, and both stores are as they were (R178). -/
theorem State.judge_queueLoad (s : State) (n : Nat) (d : Desc) (l : Load) :
    let u := s.judge n d none fun x => x.queueLoad l
    u.loads = s.loads ++ [l] ∧ u.recipes = s.recipes ∧ u.banks = s.banks :=
  have store := s.loadStore_judge n d fun x => x.queueLoad l
  ⟨congrArg LoadStore.loads store, congrArg LoadStore.recipes store, congrArg LoadStore.banks store⟩

theorem State.loadStore_setStage (s : State) (c k : Nat) (x : StageState) : (s.setStage c k x).loadStore = s.loadStore := rfl

/-- Behind the load of a bank the EMIT stages are marked; no store changes (R178). -/
theorem State.loadStore_markBank (s : State) (b : Nat) : (s.markBank b).loadStore = s.loadStore := by
  refine foldl_keeps (fun x => x.loadStore = s.loadStore) _ (fun x p hx => ?_) _ s rfl
  dsimp only
  split
  · refine foldl_keeps (fun y => y.loadStore = s.loadStore) _ (fun y q hy => ?_) _ x hx
    exact (y.loadStore_setStage p.1 q.1 _).trans hy
  · exact hx

/-! ### A rejected descriptor leaves the faults raised (R353, R445) -/

theorem State.rejectHead_stand (s : State) (n : Nat) (d : Desc) (reason : Nat) : s.FaultsStand (s.rejectHead n d reason) := by
  have counted : (s.sendReject n d reason).FaultsStand (s.returned n d reason) := .of_flt (by simp [State.returned])
  have consumed : (s.returned n d reason).FaultsStand (s.rejectHead n d reason) := .of_flt (State.consume_keeps ..).2
  exact ((State.push_stand ..).trans counted).trans consumed

/-! ### Descriptors that name a buffer (R353; log entry 62) -/

/-- A read that failed raises DMA_READ and rejects the descriptor (R335, R353). -/
theorem State.judgeBuf_unread {α : Type} (s : State) (n : Nat) (d : Desc) {before : Option Nat} (after : α → Option Nat)
    (effect : α → State → State) (hbefore : before = none) :
    s.judgeBuf n d before none after effect = (s.raise .dmaRead n).judge n d (some 8) id := by
  subst hbefore
  rfl

/-- A descriptor that passes its own checks, and whose buffer passes the others, is accepted. -/
theorem State.judgeBuf_accepts {α : Type} (s : State) (n : Nat) (d : Desc) {before : Option Nat} (b : α) {after : α → Option Nat}
    (effect : α → State → State) (hbefore : before = none) (hafter : after b = none) :
    s.judgeBuf n d before (some b) after effect = s.judge n d none (effect b) := by
  subst hbefore
  rw [State.judgeBuf, hafter]

/-- What the last fetched descriptor leaves where the read of its buffer failed (R335, R353). -/
theorem State.unread_does (s : State) (ring : Fin 64) (d : Desc) (hlast : (s.ring ring).fetched = [d]) :
    let u := (s.raise .dmaRead ring).judge ring d (some 8) id
    u.loads = s.loads ∧ u.fld (Reg.RING_REJ ring) 0 32 = (s.fld (Reg.RING_REJ ring) 0 32 + 1) % 2 ^ 32 ∧
    u.flt.active.getLsbD FaultCode.dmaRead.cls = true := by
  have hring : ((s.raise .dmaRead ring).ring ring).fetched = [d] := by simpa [State.ring] using hlast
  have hreg : (s.raise .dmaRead ring).reg (Reg.RING_REJ ring) = s.reg (Reg.RING_REJ ring) :=
    State.reg_raise _ _ _ _ (reportReg_low (by rw [Reg.RING_REJ]; omega))
  obtain ⟨-, hcount, -⟩ := (s.raise .dmaRead ring).rejectHead_does ring d 8 ring.2
  rw [State.judge_rejected _ _ _ _ _ ring.2 hring]
  refine ⟨congrArg LoadStore.loads ((State.loadStore_rejectHead ..).trans (s.loadStore_raise ..)), ?_,
    (State.rejectHead_stand ..).2 _ (s.raise_class ..)⟩
  rw [hcount, State.fld, hreg, ← State.fld]

/-! ### The rows of a load (R175 to R178) -/

/-- The checks of a RECIPE_LOAD that need no buffer (R176). -/
def recipeForm (d : Desc) : Option Nat :=
  firstFail [(1, !descOnly d [(8, 0, 14), (0x10, 0, 64), (0x18, 0, 32)] || df d 0x10 0 3 != 0),
    (2, decide (df d 0x18 0 32 < 416))]

/-- The checks of the image that a RECIPE_LOAD brings (R176, R177). -/
def State.imageFail (s : State) (slot : Nat) (img : List Dword) : Option Nat :=
  match imageCheck img with
  | some r => some r
  | none => if s.slotUsed slot then some 3 else none

/-- The checks of a COEF_LOAD (R178). -/
def coefForm (d : Desc) : Option Nat :=
  let off := df d 0xC 0 10
  let len := df d 0xC 16 11
  firstFail [(1, !descOnly d [(8, 0, 6), (8, 8, 6), (0xC, 0, 10), (0xC, 16, 11), (0x10, 0, 64), (0x18, 0, 32)] ||
      df d 0x10 0 2 != 0),
    (2, off % 4 != 0 || len % 4 != 0 || len == 0 || decide (1024 < off + len) || decide (df d 0x18 0 32 < len))]

theorem exec_recipeLoad (s : State) (t : Nat) (ring : Fin 64) (buf : Option (List Dword)) : exec (.recipeLoad t ring buf) s =
    onHead t ring 0x20 s fun x d =>
      x.judgeBuf ring d (recipeForm d) (buf.map fun l => (l ++ List.replicate 104 0).take 104) (x.imageFail (df d 8 0 8))
        fun img y => y.queueLoad (.recipe (df d 8 0 8) (df d 8 8 6) (descTag d) img ring) := rfl

theorem exec_coefLoad (s : State) (t : Nat) (ring : Fin 64) (buf : Option (List Dword)) : exec (.coefLoad t ring buf) s =
    onHead t ring 0x21 s fun x d =>
      x.judgeBuf ring d (coefForm d) (buf.map fun l => (l ++ List.replicate 256 0).take (df d 0xC 16 11 / 4)) (fun _ => none)
        fun data y => y.queueLoad (.bank (df d 8 0 6) (df d 8 8 6) (descTag d) (df d 0xC 0 10 / 4) data ring) := rfl

/-- A bank with `data` from coefficient `first` on (R178). -/
def overlay (old : List Dword) (first : Nat) (data : List Dword) : List Dword :=
  trimZeros (old.take first ++ data ++ old.drop (first + data.length))

theorem exec_loadApply (s : State) (t : Nat) : exec (.loadApply t) s = atMoment t s fun x =>
    match x.loads with
    | [] => x
    | .recipe slot ack tag img _ :: rest =>
      ({ x with loads := rest, recipes := tset [] x.recipes slot (trimZeros img) } : State).sendAck ack 1 0xFFFFF slot 7 tag []
    | .bank b ack tag first data _ :: rest =>
      (({ x with loads := rest, banks := tset [] x.banks b (overlay ((x.bank b ++ List.replicate 256 0).take 256) first data) } :
        State).markBank b).sendAck ack 1 0xFFFFF b 8 tag [] := rfl

theorem recipeForm_ok {d : Desc} (hform : descOnly d [(8, 0, 14), (0x10, 0, 64), (0x18, 0, 32)] = true) (halign : df d 0x10 0 3 = 0)
    (hlen : 416 ≤ df d 0x18 0 32) : recipeForm d = none := by
  simp [recipeForm, firstFail, hform, halign, hlen]

theorem coefForm_ok {d : Desc}
    (hform : descOnly d [(8, 0, 6), (8, 8, 6), (0xC, 0, 10), (0xC, 16, 11), (0x10, 0, 64), (0x18, 0, 32)] = true)
    (halign : df d 0x10 0 2 = 0) (hoff : df d 0xC 0 10 % 4 = 0) (hwhole : df d 0xC 16 11 % 4 = 0) (hpos : df d 0xC 16 11 ≠ 0)
    (hfits : df d 0xC 0 10 + df d 0xC 16 11 ≤ 1024) (hbuf : df d 0xC 16 11 ≤ df d 0x18 0 32) : coefForm d = none := by
  have hend : ¬1024 < df d 0xC 0 10 + df d 0xC 16 11 := Nat.not_lt.mpr hfits
  have hshort : ¬df d 0x18 0 32 < df d 0xC 16 11 := Nat.not_lt.mpr hbuf
  simp only [coefForm, firstFail, hform, halign, hoff, hwhole, beq_false_of_ne hpos, decide_eq_false hend, decide_eq_false hshort,
    Bool.not_true, bne_self_eq_false, Bool.or_self, Bool.false_eq_true, if_false]

theorem recipeLoad_does (s : State) (t : Nat) (ring : Fin 64) (d : Desc) (buf : List Dword) (hd : s.head ring.val 0x20 = some d)
    (hform : recipeForm d = none) (hlen : buf.length = 104) (himg : imageCheck buf = none)
    (hfree : s.slotUsed (df d 8 0 8) = false) :
    Does (.recipeLoad t ring (some buf)) s fun u =>
      u.loads = s.loads ++ [.recipe (df d 8 0 8) (df d 8 8 6) (descTag d) buf ring] ∧ u.recipes = s.recipes := by
  refine Does.of_head (exec_recipeLoad ..) hd ?_
  have hpass : (s.advance t).imageFail (df d 8 0 8) buf = none := by
    rw [State.imageFail, himg]
    exact if_neg ((show (s.advance t).slotUsed (df d 8 0 8) = false from hfree) ▸ Bool.false_ne_true)
  rw [Option.map_some, List.take_left' hlen, State.judgeBuf_accepts _ _ _ _ _ hform hpass]
  obtain ⟨hloads, hrecipes, -⟩ := (s.advance t).judge_queueLoad ring d _
  exact ⟨hloads, hrecipes⟩

theorem recipeLoad_unread (s : State) (t : Nat) (ring : Fin 64) (d : Desc) (hd : s.head ring.val 0x20 = some d)
    (hlast : (s.ring ring).fetched = [d]) (hform : recipeForm d = none) :
    Does (.recipeLoad t ring none) s fun u =>
      u.loads = s.loads ∧ u.fld (Reg.RING_REJ ring) 0 32 = (s.fld (Reg.RING_REJ ring) 0 32 + 1) % 2 ^ 32 ∧
      u.flt.active.getLsbD FaultCode.dmaRead.cls = true := by
  refine Does.of_head (exec_recipeLoad ..) hd ?_
  rw [Option.map_none, State.judgeBuf_unread _ _ _ _ _ hform]
  exact (s.advance t).unread_does ring d hlast

theorem coefLoad_does (s : State) (t : Nat) (ring : Fin 64) (d : Desc) (buf : List Dword) (hd : s.head ring.val 0x21 = some d)
    (hform : coefForm d = none) (hlen : 4 * buf.length = df d 0xC 16 11) :
    Does (.coefLoad t ring (some buf)) s fun u =>
      u.loads = s.loads ++ [.bank (df d 8 0 6) (df d 8 8 6) (descTag d) (df d 0xC 0 10 / 4) buf ring] ∧ u.banks = s.banks := by
  refine Does.of_head (exec_coefLoad ..) hd ?_
  have hdwords : buf.length = df d 0xC 16 11 / 4 := by omega
  rw [Option.map_some, List.take_left' hdwords, State.judgeBuf_accepts _ _ _ _ _ hform rfl]
  obtain ⟨hloads, -, hbanks⟩ := (s.advance t).judge_queueLoad ring d _
  exact ⟨hloads, hbanks⟩

theorem loadApply_recipe (s : State) (t slot ack : Nat) (tag : Dword) (img : List Dword) (r : Nat) (rest : List Load)
    (hloads : s.loads = .recipe slot ack tag img r :: rest) :
    Does (.loadApply t) s fun u =>
      u.loads = rest ∧ u.recipe slot = trimZeros img ∧ (∀ k, k ≠ slot → u.recipe k = s.recipe k) ∧ u.banks = s.banks := by
  refine Does.of_effect (exec_loadApply s t) ?_
  simp only [State.advance_loads, hloads]
  have store := State.loadStore_sendAck
    ({ s.advance t with loads := rest, recipes := tset [] s.recipes slot (trimZeros img) } : State) ack 1 0xFFFFF slot 7 tag []
  have hrecipe (k : Nat) := congrArg (fun x : LoadStore => tget [] x.recipes k) store
  refine ⟨congrArg LoadStore.loads store, (hrecipe slot).trans ?_, fun k hk => (hrecipe k).trans ?_, congrArg LoadStore.banks store⟩
  · exact (tget_tset ..).trans (if_pos rfl)
  · exact (tget_tset ..).trans (if_neg hk)

theorem loadApply_bank (s : State) (t b ack : Nat) (tag : Dword) (first : Nat) (data : List Dword) (r : Nat) (rest : List Load)
    (hloads : s.loads = .bank b ack tag first data r :: rest) :
    Does (.loadApply t) s fun u =>
      u.loads = rest ∧ u.bank b = overlay ((s.bank b ++ List.replicate 256 0).take 256) first data ∧
      (∀ k, k ≠ b → u.bank k = s.bank k) ∧ u.recipes = s.recipes := by
  refine Does.of_effect (exec_loadApply s t) ?_
  simp only [State.advance_loads, hloads]
  have store := (State.loadStore_sendAck _ ack 1 0xFFFFF b 8 tag []).trans (State.loadStore_markBank
    { s.advance t with loads := rest, banks := tset [] s.banks b (overlay ((s.bank b ++ List.replicate 256 0).take 256) first data) } b)
  have hbank (k : Nat) := congrArg (fun x : LoadStore => tget [] x.banks k) store
  refine ⟨congrArg LoadStore.loads store, (hbank b).trans ?_, fun k hk => (hbank k).trans ?_, congrArg LoadStore.recipes store⟩
  · exact (tget_tset ..).trans (if_pos rfl)
  · exact (tget_tset ..).trans (if_neg hk)

end Sys2Proof.Machine

section
open Sys2Proof.Machine

/-- Settles O13: an accepted load waits and the oldest is applied whole, since reports, acknowledgements and marked stages leave
the loads and both stores as they are. -/
theorem loadRowsComplete : Obligations.LoadRowsComplete := by
  refine ⟨fun s t ring d buf hd hform halign hlen => recipeLoad_does s t ring d buf hd (recipeForm_ok hform halign hlen),
    fun s t ring d hd hlast hform halign hlen => recipeLoad_unread s t ring d hd hlast (recipeForm_ok hform halign hlen),
    fun s t ring d buf hd hform halign hoff hwhole hpos hfits hbuf =>
      coefLoad_does s t ring d buf hd (coefForm_ok hform halign hoff hwhole hpos hfits hbuf),
    loadApply_recipe, loadApply_bank, fun s t hnone => ?_⟩
  refine Idles.of_effect (t := t) rfl (exec_loadApply s t) ?_
  simp only [State.advance_loads, hnone]

end

namespace Sys2Proof.Machine

/-! ### Stages whose result is binary64 (R168, R184, R185) -/

/-- A finite result passes, and a stage without a group delay adds none (R168). -/
theorem finish_passes (r : Run) (k e : Nat) (y : Word) (fl : BitVec 10) (x : StageState) (hdelay : stageDelay e = 0)
    (hfinite : f64Finite y = true) :
    (finish r k e y fl x).1 = true ∧ (finish r k e y fl x).2.1.v = .real y ∧ (finish r k e y fl x).2.1.delay = r.delay := by
  have hpass : finish r k e y fl x =
      (true, { r with v := .real y, flags := fl, delay := r.delay + stageDelay e * r.ratio }, x) := if_pos hfinite
  rw [hpass, hdelay, Nat.zero_mul, Nat.add_zero]
  exact ⟨rfl, rfl, rfl⟩

theorem stageDelay_scale {e : Nat} (h : stageType e = some .scale) : stageDelay e = 0 := by rw [stageDelay, h]
theorem stageDelay_poly {e : Nat} (h : stageType e = some .poly) : stageDelay e = 0 := by rw [stageDelay, h]

/-- Horner's recursion takes the coefficients from the highest down to c_0 (R185). -/
theorem horner_eq_foldl (bank : List Dword) (x : Word) (n : Nat) (y : Word) : horner bank x n y =
    (List.range n).reverse.foldl (fun y i => f64Add (f64Mul y x) (bankReal bank (672 + 8 * i))) y := by
  induction n generalizing y with
  | zero => rfl
  | succ n ih => rw [horner, ih, List.range_succ, List.reverse_concat, List.foldl_cons]

end Sys2Proof.Machine

section
open Sys2Proof.Machine

/-- Settles O51: a SCALE stage passes its product and sum where they are finite, and its delay is 0. -/
theorem scaleIsGainAndOffset : Obligations.ScaleIsGainAndOffset :=
  fun _ k e r hscale => finish_passes r k e _ _ _ (stageDelay_scale hscale)

/-- Settles O52: the recursion of a POLY stage is the fold over its coefficients, by induction on the order. -/
theorem polyIsHornersRule : Obligations.PolyIsHornersRule := by
  intro x bank k e r hpoly n c y hfinite
  rw [show y = horner bank r.v.toReal n (c n) from (horner_eq_foldl ..).symm] at hfinite ⊢
  exact finish_passes r k e _ _ _ (stageDelay_poly hpoly) hfinite

end

namespace Sys2Proof.Machine

/-! ### Fields of a descriptor outside those it may set (R353) -/

theorem fieldOf_and (x y lo w : Nat) : fieldOf (x &&& y) lo w = fieldOf x lo w &&& fieldOf y lo w := by
  refine Nat.eq_of_testBit_eq fun i => ?_
  rw [Nat.testBit_and, testBit_fieldOf, testBit_fieldOf, testBit_fieldOf, Nat.testBit_and]
  cases decide (i < w) <;> simp

/-- The bits that `descOnly` lets be set. -/
def descMask (fields : List (Nat × Nat × Nat)) : Nat :=
  packBits ((0, 14, 2 ^ 14 - 1) :: (32, 32, 2 ^ 32 - 1) :: fields.map fun (o, l, w) => (8 * o + l, w, 2 ^ w - 1))

/-- A field that the descriptor's form leaves out is 0. -/
theorem df_of_descOnly {d : Desc} {fields : List (Nat × Nat × Nat)} {off lo w : Nat} (hform : descOnly d fields = true)
    (hout : fieldOf (descMask fields) (8 * off + lo) w = 0) : df d off lo w = 0 := by
  have hmask : d.toNat &&& descMask fields = d.toNat := eq_of_beq hform
  rw [df, ← hmask, fieldOf_and, hout, Nat.and_zero]

/-! ### The channels behind a judged descriptor (R353) -/

theorem State.chans_rejectBad (k : Nat) (s : State) (n : Nat) (hn : n < 64) : (State.rejectBad k s n).chans = s.chans := by
  induction k generalizing s with
  | zero => rfl
  | succ k ih =>
    unfold State.rejectBad
    split
    · split
      · rfl
      · exact (ih _).trans (s.rejectHead_does n _ 1 hn).1
    · rfl

/-- Behind an accepted descriptor the channels are what its effect made them. -/
theorem State.chans_judge (s : State) (n : Nat) (d : Desc) (effect : State → State) (hn : n < 64) :
    (s.judge n d none effect).chans = (effect s).chans :=
  (State.chans_rejectBad _ _ n hn).trans (State.chans_consume ..)

theorem State.chan_of_chans {s u : State} (h : u.chans = s.chans) (c : Nat) : u.chan c = s.chan c := by
  rw [State.chan, h, State.chan]

/-! ### Accepted statistics descriptors join the channel's targets (R208 to R210) -/

/-- A channel that holds no descriptor back waits for no statistics descriptor. -/
theorem Chan.targets_of_waitsDesc {ch : Chan} (h : ch.waitsDesc = false) : ch.targets = [] := by
  rw [Chan.waitsDesc, Bool.or_eq_false_iff, Bool.or_eq_false_iff] at h
  obtain ⟨⟨-, hnone⟩, -⟩ := h
  simpa using hnone

/-- The t_q of a statistics descriptor that is accepted now: open until the next grid instant, or now where no cadence runs (R210). -/
def State.targetTime (s : State) (c : Nat) : Option Nat :=
  if (s.cadence (s.chan c).decl.cadence).running then none else some s.devTime

theorem State.chan_addTarget (s : State) (c : Nat) (op : TargetOp) : (s.addTarget c op).chan c =
    { s.chan c with targets := (s.chan c).targets ++ [(op, s.targetTime c)] } :=
  (State.chan_setChan ..).trans (if_pos rfl)

/-- A channel behind an accepted statistics descriptor waits for that one alone. -/
theorem Does.of_target {i : Instr} {s : State} {t : Nat} {ring : Fin 64} {ty : Nat} {d : Desc} {f : State → Desc → State}
    {effect : State → State} {op : TargetOp} (h : exec i s = onHead t ring ty s f) (hd : s.head ring.val ty = some d)
    (hwaits : (s.chan (descChan d)).waitsDesc = false) (haccept : f (s.advance t) d = (s.advance t).judge ring d none effect)
    (heffect : (effect (s.advance t)).chans = ((s.advance t).addTarget (descChan d) op).chans) :
    Does i s fun u => (u.chan (descChan d)).targets = [(op, (s.advance t).targetTime (descChan d))] := by
  refine Does.of_head h hd ?_
  rw [State.settle_chan, haccept, State.chan_of_chans (((s.advance t).chans_judge ring d effect ring.2).trans heffect),
    State.chan_addTarget, State.chan_advance, Chan.targets_of_waitsDesc hwaits, List.nil_append]

/-- The checks of a DEV_SETUP (R209). -/
def State.devFail (s : State) (d : Desc) : Option Nat :=
  firstFail [
    (1, !if df d 8 20 1 = 1 then descOnly d [(8, 0, 21)]
      else descOnly d [(8, 0, 22), (0xC, 0, 8), (0x10, 0, 64), (0x18, 0, 32)] && f64Positive (BitVec.ofNat 64 (df d 0x10 0 64))),
    (2, decide (sx 8 (df d 0xC 0 8) < -64 ∨ 63 < sx 8 (df d 0xC 0 8))),
    (3, !(s.chan (descChan d)).holds || (df d 8 20 1 = 1 && (s.chan (descChan d)).dev.isNone)),
    (5, !decide (df d 8 20 1 = 1) && (s.chan (descChan d)).dev.isNone && decide (8192 ≤ s.devUse))]

/-- The target of a DEV_SETUP that ring r brings at t_d. -/
def devTarget (d : Desc) (td r : Nat) : TargetOp :=
  .dev (df d 8 20 1 = 1) (df d 8 21 1 = 1) (sx 8 (df d 0xC 0 8)) (BitVec.ofNat 64 (df d 0x10 0 64)) (df d 0x18 0 32) (descTag d) td r

theorem exec_devSetup (s : State) (t : Nat) (ring : Fin 64) : exec (.devSetup t ring) s = onHead t ring 0x30 s fun x d =>
    if (x.chan (descChan d)).waitsDesc then x
    else x.judge ring d (x.devFail d) fun y => (y.addTarget (descChan d) (devTarget d y.devTime ring)).imageChanged := rfl

/-- The histogram that a HISTO_SETUP sets up (R208). -/
def histoOf (d : Desc) : Histo :=
  { auto := df d 8 21 1 = 1, mode := df d 8 22 3, w := df d 0xC 0 6, hq := sx 7 (df d 0xC 8 7), origin := sx 64 (df d 0x10 0 64),
    target := df d 0x18 0 32, stop := df d 0x20 0 64 + 2 ^ 64 * df d 0x28 0 8 }

/-- The fields that a HISTO_SETUP may set where it does not release (R208). -/
def histoFields : List (Nat × Nat × Nat) :=
  [(8, 0, 27), (0xC, 0, 6), (0xC, 8, 7), (0x10, 0, 64), (0x18, 0, 32), (0x20, 0, 64), (0x28, 0, 8)]

/-- Entries of the histogram store that a channel's histogram gives back where another one replaces it (R207). -/
def Chan.histoFreed (ch : Chan) (no : Nat) : Nat :=
  match tget? ch.histos no with | some x => if x.auto then 2 else 1 | none => 0

/-- The checks of a HISTO_SETUP (R209); BINDING is R204's. -/
def State.histoFail (s : State) (d : Desc) : Option Nat :=
  firstFail [
    (1, !if df d 8 20 1 = 1 then descOnly d [(8, 0, 21), (8, 25, 2)] else descOnly d histoFields && decide ((histoOf d).mode ≤ 4)),
    (2, !decide (df d 8 20 1 = 1) &&
      (decide (40 < (histoOf d).w) || ((histoOf d).auto && (histoOf d).target == 0 && (histoOf d).stop == 0))),
    (3, !(s.chan (descChan d)).holds || (df d 8 20 1 = 1 && (tget? (s.chan (descChan d)).histos (df d 8 25 2)).isNone)),
    (4, !decide (df d 8 20 1 = 1) && !histoSuits (s.chan (descChan d)).decl (histoOf d).mode),
    (5, !decide (df d 8 20 1 = 1) &&
      (decide (4096 < s.histoUse - (s.chan (descChan d)).histoFreed (df d 8 25 2) + (if (histoOf d).auto then 2 else 1)) ||
        ((histoOf d).mode == 0 && (s.chan (descChan d)).histos.any fun x => x.2.mode == 0 && x.1 != df d 8 25 2)))]

theorem exec_histoSetup (s : State) (t : Nat) (ring : Fin 64) : exec (.histoSetup t ring) s = onHead t ring 0x31 s fun x d =>
    if (x.chan (descChan d)).waitsDesc then x
    else x.judge ring d (x.histoFail d) fun y =>
      (y.addTarget (descChan d) (.histo (df d 8 20 1 = 1) (df d 8 25 2) (histoOf d) (descTag d) y.devTime ring)).imageChanged := rfl

/-- A STATS_READ names a set or a histogram that the channel does not have (R209). -/
def Chan.readMissing (ch : Chan) (d : Desc) : Bool :=
  (df d 8 21 1 = 1 && ch.dev.isNone) ||
    (List.range 4).any fun no => (BitVec.ofNat 4 (df d 8 22 4)).getLsbD no && (tget? ch.histos no).isNone

/-- The checks of a STATS_READ (R209). -/
def State.readFail (s : State) (d : Desc) : Option Nat :=
  firstFail [(1, !descOnly d [(8, 0, 27)]),
    (2, !decide (df d 8 20 1 = 1) && !decide (df d 8 21 1 = 1) && BitVec.ofNat 4 (df d 8 22 4) == 0),
    (3, !(s.chan (descChan d)).holds || (s.chan (descChan d)).readMissing d)]

theorem exec_statsRead (s : State) (t : Nat) (ring : Fin 64) : exec (.statsRead t ring) s = onHead t ring 0x32 s fun x d =>
    if (x.chan (descChan d)).waitsDesc then x
    else x.judge ring d (x.readFail d) fun y => y.addTarget (descChan d)
      (.read (df d 8 20 1 = 1) (df d 8 21 1 = 1) (BitVec.ofNat 4 (df d 8 22 4)) (df d 8 26 1 = 1) y.devTime ring) := rfl

theorem devSetup_does (s : State) (t : Nat) (ring : Fin 64) (d : Desc) (hd : s.head ring.val 0x30 = some d)
    (hwaits : (s.chan (descChan d)).waitsDesc = false) (hfail : s.devFail d = none) :
    Does (.devSetup t ring) s fun u => (u.chan (descChan d)).targets =
      [(devTarget d (s.advance t).devTime ring, (s.advance t).targetTime (descChan d))] :=
  Does.of_target (exec_devSetup s t ring) hd hwaits (State.judged (by simp [hwaits]) hfail) rfl

theorem histoSetup_does (s : State) (t : Nat) (ring : Fin 64) (d : Desc) (hd : s.head ring.val 0x31 = some d)
    (hwaits : (s.chan (descChan d)).waitsDesc = false) (hfail : s.histoFail d = none) :
    Does (.histoSetup t ring) s fun u => (u.chan (descChan d)).targets =
      [(.histo (df d 8 20 1 = 1) (df d 8 25 2) (histoOf d) (descTag d) (s.advance t).devTime ring,
        (s.advance t).targetTime (descChan d))] :=
  Does.of_target (exec_histoSetup s t ring) hd hwaits (State.judged (by simp [hwaits]) hfail) rfl

theorem statsRead_does (s : State) (t : Nat) (ring : Fin 64) (d : Desc) (hd : s.head ring.val 0x32 = some d)
    (hwaits : (s.chan (descChan d)).waitsDesc = false) (hfail : s.readFail d = none) :
    Does (.statsRead t ring) s fun u => (u.chan (descChan d)).targets =
      [(.read (df d 8 20 1 = 1) (df d 8 21 1 = 1) (BitVec.ofNat 4 (df d 8 22 4)) (df d 8 26 1 = 1) (s.advance t).devTime ring,
        (s.advance t).targetTime (descChan d))] :=
  Does.of_target (exec_statsRead s t ring) hd hwaits (State.judged (by simp [hwaits]) hfail) rfl

/-! #### The checks that a descriptor passes -/

theorem State.devFail_setup {s : State} {d : Desc} (hset : df d 8 20 1 = 0)
    (hform : descOnly d [(8, 0, 22), (0xC, 0, 8), (0x10, 0, 64), (0x18, 0, 32)] = true)
    (hunit : f64Positive (BitVec.ofNat 64 (df d 0x10 0 64)) = true) (hlow : -64 ≤ sx 8 (df d 0xC 0 8))
    (hhigh : sx 8 (df d 0xC 0 8) ≤ 63) (hholds : (s.chan (descChan d)).holds = true) (hroom : s.devUse < 8192) :
    s.devFail d = none := by
  have hrange : ¬(sx 8 (df d 0xC 0 8) < -64 ∨ 63 < sx 8 (df d 0xC 0 8)) := by omega
  have hfits : ¬8192 ≤ s.devUse := Nat.not_le.mpr hroom
  simp [State.devFail, firstFail, hset, hform, hunit, hrange, hholds, hfits]

/-- A release carries no q: its field is among those that are zero. -/
theorem State.devFail_release {s : State} {d : Desc} (hrel : df d 8 20 1 = 1) (hform : descOnly d [(8, 0, 21)] = true)
    (hholds : (s.chan (descChan d)).holds = true) (hdev : (s.chan (descChan d)).dev.isSome = true) : s.devFail d = none := by
  have hq : df d 0xC 0 8 = 0 := df_of_descOnly hform (by decide)
  have hrange : decide (sx 8 0 < -64 ∨ 63 < sx 8 0) = false := by decide
  simp [State.devFail, firstFail, hrel, hform, hq, hrange, hholds, Option.isSome_iff_ne_none.mp hdev]

theorem State.histoFail_release {s : State} {d : Desc} (hrel : df d 8 20 1 = 1)
    (hform : descOnly d [(8, 0, 21), (8, 25, 2)] = true) (hholds : (s.chan (descChan d)).holds = true)
    (hhas : (tget? (s.chan (descChan d)).histos (df d 8 25 2)).isSome = true) : s.histoFail d = none := by
  simp [State.histoFail, firstFail, hrel, hform, hholds, Option.isSome_iff_ne_none.mp hhas]

theorem State.histoFail_setup {s : State} {d : Desc} (hset : df d 8 20 1 = 0) (hform : descOnly d histoFields = true)
    (hmode : df d 8 22 3 ≤ 4) (hw : df d 0xC 0 6 ≤ 40) (hends : df d 0x18 0 32 ≠ 0 ∨ df d 8 21 1 = 0)
    (hholds : (s.chan (descChan d)).holds = true) (hsuits : histoSuits (s.chan (descChan d)).decl (df d 8 22 3) = true)
    (hroom : s.histoUse + 2 ≤ 4096) (hstream : ∀ x ∈ (s.chan (descChan d)).histos, x.2.mode = 0 → x.1 = df d 8 25 2) :
    s.histoFail d = none := by
  have hstops : ((histoOf d).auto && (histoOf d).target == 0 && (histoOf d).stop == 0) = false := by
    obtain h | h := hends <;> simp [histoOf, h]
  have hone : ((s.chan (descChan d)).histos.any fun x => x.2.mode == 0 && x.1 != df d 8 25 2) = false := by
    simpa using fun a b hab h0 => hstream (a, b) hab h0
  have hfits : ¬4096 < s.histoUse - (s.chan (descChan d)).histoFreed (df d 8 25 2) + (if (histoOf d).auto then 2 else 1) := by
    split <;> omega
  simp only [State.histoFail, firstFail, hset, hform, hstops, hone, decide_eq_false hfits, hholds,
    show decide ((histoOf d).mode ≤ 4) = true from decide_eq_true hmode,
    show decide (40 < (histoOf d).w) = false from decide_eq_false (Nat.not_lt.mpr hw),
    show histoSuits (s.chan (descChan d)).decl (histoOf d).mode = true from hsuits]
  simp

theorem Chan.readMissing_of_has {ch : Chan} {d : Desc} (hdev : df d 8 21 1 = 1 → ch.dev.isSome = true)
    (hhistos : ∀ no : Fin 4, (BitVec.ofNat 4 (df d 8 22 4)).getLsbD no.val = true → (tget? ch.histos no.val).isSome = true) :
    ch.readMissing d = false := by
  refine Bool.or_eq_false_iff.mpr ⟨?_, List.any_eq_false.mpr fun no hno => ?_⟩
  · by_cases h : df d 8 21 1 = 1
    · rw [Option.isNone_eq_false_iff.mpr (hdev h), Bool.and_false]
    · rw [decide_eq_false h, Bool.false_and]
  · rw [Bool.and_eq_true]
    rintro ⟨hnamed, hnone⟩
    have hhas := hhistos ⟨no, List.mem_range.mp hno⟩ hnamed
    rw [Option.isNone_iff_eq_none.mp hnone] at hhas
    cases hhas

theorem State.readFail_passes {s : State} {d : Desc} (hform : descOnly d [(8, 0, 27)] = true)
    (hsome : df d 8 20 1 = 1 ∨ df d 8 21 1 = 1 ∨ df d 8 22 4 ≠ 0) (hholds : (s.chan (descChan d)).holds = true)
    (hhas : (s.chan (descChan d)).readMissing d = false) : s.readFail d = none := by
  have hnames : (!decide (df d 8 20 1 = 1) && !decide (df d 8 21 1 = 1) && BitVec.ofNat 4 (df d 8 22 4) == 0) = false := by
    obtain h | h | h := hsome
    · simp [h]
    · simp [h]
    · have hlt : df d 8 22 4 < 2 ^ 4 := fieldOf_lt ..
      have hne : BitVec.ofNat 4 (df d 8 22 4) ≠ 0 := fun h0 => h ((Nat.mod_eq_of_lt hlt).symm.trans (congrArg BitVec.toNat h0))
      rw [beq_false_of_ne hne, Bool.and_false]
  simp only [State.readFail, firstFail, hform, hnames, hholds, hhas, Bool.not_true, Bool.or_self, Bool.false_eq_true, if_false]

/-! ### What reports leave of a channel -/

/-- A channel without what its reports write: where it lives and its work, what is withheld or to be compared, and two flags. -/
def Chan.unreported (ch : Chan) : Chan := { ch with place := {}, withheld := none, cfg := false, gapFlag := false, guard := {} }

/-- Channel c without what its reports write. -/
def State.unreported (s : State) (c : Nat) : Chan := (s.chan c).unreported

theorem State.unreported_of_chans {s u : State} (h : u.chans = s.chans) (c : Nat) : u.unreported c = s.unreported c := by
  rw [State.unreported, State.chan_of_chans h, State.unreported]

theorem State.unreported_setChan (s : State) (c : Nat) (x : Chan) : (s.setChan c x).unreported c = x.unreported := by
  rw [State.unreported, State.chan_setChan, if_pos rfl]

theorem State.unreported_push (s : State) (n k : Nat) (e : Option Nat) (r : Record) (c : Nat) :
    (s.push n k e r).unreported c = s.unreported c := State.unreported_of_chans (by simp) c
theorem State.unreported_unrefAll (s : State) (n : Nat) (bs : List Nat) (c : Nat) :
    (s.unrefAll n bs).unreported c = s.unreported c := State.unreported_of_chans (by simp) c
theorem State.unreported_bump (s : State) (a lo w c : Nat) : (s.bump a lo w).unreported c = s.unreported c :=
  State.unreported_of_chans (by simp) c

theorem State.unreported_addWork (s : State) (c k : Nat) : (s.addWork c k).unreported c = s.unreported c := by
  unfold State.addWork
  dsimp only
  split <;> exact s.unreported_setChan c _

theorem State.unreported_withhold (s : State) (c ring : Nat) (stamp : Bool) (a : At) :
    (s.withhold c ring stamp a).unreported c = s.unreported c :=
  (State.unreported_bump ..).trans (s.unreported_setChan c _)

theorem State.unreported_chanRec (s : State) (c : Nat) (d : Decl) (r : Record) (stamps : Used) (a : At) :
    (s.chanRec c d r stamps a).unreported c = s.unreported c := by
  unfold State.chanRec
  dsimp only
  split
  · exact (State.unreported_unrefAll ..).trans (s.unreported_withhold c ..)
  · split
    · exact s.unreported_setChan c _
    · exact (State.unreported_push ..).trans (s.unreported_setChan c _)

theorem State.unreported_statsRecord (s : State) (c : Nat) (reason : Reason) (line : Option StatLine) (dev : Option DevSet) :
    (s.statsRecord c reason line dev).unreported c = s.unreported c :=
  (State.unreported_chanRec ..).trans (s.unreported_addWork c _)

/-- Reports leave the targets that wait, and the set. -/
theorem State.targets_of_unreported {s u : State} {c : Nat} (h : u.unreported c = s.unreported c) :
    (u.chan c).targets = (s.chan c).targets :=
  show (u.unreported c).targets = (s.unreported c).targets from congrArg Chan.targets h
theorem State.dev_of_unreported {s u : State} {c : Nat} (h : u.unreported c = s.unreported c) :
    (u.chan c).dev = (s.chan c).dev :=
  show (u.unreported c).dev = (s.unreported c).dev from congrArg Chan.dev h

/-! ### The targets of a channel where its set is reported, released or replaced (R208 to R211) -/

theorem State.targets_setDev (s : State) (c : Nat) (f : Option DevSet → Option DevSet) :
    ((s.modChan c fun ch => { ch with dev := f ch.dev }).chan c).targets = (s.chan c).targets := by simp

theorem State.dev_setDev (s : State) (c : Nat) (f : Option DevSet → Option DevSet) :
    ((s.modChan c fun ch => { ch with dev := f ch.dev }).chan c).dev = f (s.chan c).dev := by simp

theorem State.devReportDue_due {s : State} {c : Nat} {d : DevSet} (hdev : (s.chan c).dev = some d) (hdue : d.due = true) :
    s.devReportDue c = (s.statsRecord c .auto none (some d)).modChan c fun ch =>
      { ch with dev := some { d with due := false, restored := false } } := by
  simp only [State.devReportDue, hdev, hdue, if_true]

theorem State.devReportDue_not_due {s : State} {c : Nat} {d : DevSet} (hdev : (s.chan c).dev = some d) (hdue : d.due = false) :
    s.devReportDue c = s := by
  simp only [State.devReportDue, hdev, hdue, Bool.false_eq_true, if_false]

theorem State.targets_devReportDue (s : State) (c : Nat) : ((s.devReportDue c).chan c).targets = (s.chan c).targets := by
  cases hdev : (s.chan c).dev with
  | none => rw [State.devReportDue, hdev]
  | some d =>
    cases hdue : d.due with
    | false => rw [State.devReportDue_not_due hdev hdue]
    | true =>
      rw [State.devReportDue_due hdev hdue]
      exact (State.targets_setDev _ c fun _ => _).trans (State.targets_of_unreported (s.unreported_statsRecord c ..))

/-- The final report of a set that goes or is replaced (R208, R210). -/
def State.devEnd (s : State) (c : Nat) : State :=
  match ((s.devReportDue c).chan c).dev with
  | some d => ((s.devReportDue c).statsRecord c .release none (some d)).modChan c fun ch => { ch with dev := none }
  | none => s.devReportDue c

theorem State.dev_devEnd (s : State) (c : Nat) : ((s.devEnd c).chan c).dev = none := by
  unfold State.devEnd
  split
  · exact State.dev_setDev _ c fun _ => none
  · assumption

theorem State.targets_devEnd (s : State) (c : Nat) : ((s.devEnd c).chan c).targets = (s.chan c).targets := by
  refine Eq.trans ?_ (s.targets_devReportDue c)
  unfold State.devEnd
  split
  · exact (State.targets_setDev _ c fun _ => none).trans (State.targets_of_unreported (State.unreported_statsRecord ..))
  · rfl

/-- Where a DEV_SETUP takes effect the channel's set ends, and a new one lies in a bank that has room for it (R210, R219). -/
theorem State.targetApply_dev (s : State) (c : Nat) (release y : Bool) (dq : Int) (unit : Word) (n : Nat) (tag : Dword) (a r tq : Nat) :
    s.targetApply c (.dev release y dq unit n tag a r) tq =
      (if release then s.devEnd c else (s.devEnd c).modChan c fun ch => { ch with
        dev := some { modeY := y, dq := dq, unit := unit, reportN := n
                      bank := freeBank (s.devEnd c).devBanks 512 (s.chan c).place.engine } }).imageChanged.chanAck c 9 tag tq [] := rfl

/-- The image's mark and a CONFIG_ACK are reports. -/
theorem State.unreported_acked (s : State) (c stage : Nat) (tag : Dword) (time : Nat) (body : List Word) :
    (s.imageChanged.chanAck c stage tag time body).unreported c = s.unreported c :=
  (State.unreported_chanRec ..).trans (State.unreported_of_chans s.imageChanged_chans c)

theorem State.targetApply_dev_does (s : State) (c : Nat) (release y : Bool) (dq : Int) (unit : Word) (n : Nat) (tag : Dword)
    (a r tq : Nat) :
    let u := s.targetApply c (.dev release y dq unit n tag a r) tq
    (u.chan c).targets = (s.chan c).targets ∧ (release = true → (u.chan c).dev = none) ∧
    (release = false → ∃ b, (u.chan c).dev = some { modeY := y, dq := dq, unit := unit, reportN := n, bank := b }) := by
  intro u
  have reports := State.unreported_acked (if release then s.devEnd c else (s.devEnd c).modChan c fun ch => { ch with
    dev := some { modeY := y, dq := dq, unit := unit, reportN := n
                  bank := freeBank (s.devEnd c).devBanks 512 (s.chan c).place.engine } }) c 9 tag tq []
  rw [← State.targetApply_dev s c release y dq unit n tag a r tq] at reports
  have htargets := State.targets_of_unreported reports
  have hdev := State.dev_of_unreported reports
  cases release with
  | true => exact ⟨htargets.trans (s.targets_devEnd c), fun _ => hdev.trans (s.dev_devEnd c), nofun⟩
  | false => exact ⟨htargets.trans ((State.targets_setDev _ c fun _ => _).trans (s.targets_devEnd c)), nofun,
      fun _ => ⟨_, hdev.trans (State.dev_setDev _ c fun _ => _)⟩⟩

/-! ### The moment at which a target applies (R210, R230) -/

/-- The t_q of a target: now, where its cadence has been disabled before it was fixed (log entry 65). -/
def State.fixedTime (s : State) (c : Nat) : Option Nat → Option Nat
  | some x => some x
  | none => if (s.chan c).decl.cadence ≤ 15 && s.bit (Reg.CAD_CTRL (s.chan c).decl.cadence) 0 then none else some s.devTime

/-- Every input before x has been fed, and channel c's engine is free (R210, R230). -/
def State.fedTo (s : State) (c x : Nat) : Bool :=
  s.settled (s.chan c).decl x && !(s.chan c).instants.any (fun i => decide (i < x)) &&
    !(s.chan c).inbox.any (fun i => decide (i.2.stamp < x)) &&
    !((s.pairAll c).chan c).pair.todo.any (fun e => decide (e.stamp < x)) && !s.engineHeld (s.chan c).place.engine &&
    (s.sealedCastling c).isNone

/-- The oldest target of channel c applies where it can. -/
def State.applyOldest (s : State) (c : Nat) : State :=
  match (s.chan c).targets with
  | (op, q) :: rest =>
    match s.fixedTime c q with
    | some x => if s.fedTo c x then ((s.pairAll c).modChan c fun ch => { ch with targets := rest }).targetApply c op x else s
    | none => s
  | [] => s

theorem exec_statsTargetApply (s : State) (t : Nat) (c : BitVec 20) :
    exec (.statsTargetApply t c) s = atMoment t s fun x => x.applyOldest c.toNat := rfl

theorem State.pairAll_of_paired {s : State} {c : Nat} (h : (s.chan c).pair.todo = []) : s.pairAll c = s := by
  rw [State.pairAll, h]
  rfl

theorem State.fedTo_of_fed {s : State} {c x : Nat} (hsettled : s.settled (s.chan c).decl x = true)
    (hinstants : ∀ i ∈ (s.chan c).instants, x ≤ i) (hinbox : ∀ i ∈ (s.chan c).inbox, x ≤ i.2.stamp)
    (hpaired : (s.chan c).pair.todo = []) (hengine : s.engineHeld (s.chan c).place.engine = false)
    (hfree : s.sealedCastling c = none) : s.fedTo c x = true := by
  have hsampled : (s.chan c).instants.any (fun i => decide (i < x)) = false := by simpa using hinstants
  have htaken : (s.chan c).inbox.any (fun i => decide (i.2.stamp < x)) = false := by
    simpa using fun k i hi => hinbox (k, i) hi
  simp [State.fedTo, State.pairAll_of_paired hpaired, hpaired, hsettled, hsampled, htaken, hengine, hfree]

theorem State.applyOldest_fed {s : State} {c x : Nat} {op : TargetOp} {rest : List (TargetOp × Option Nat)}
    (htargets : (s.chan c).targets = (op, some x) :: rest) (hpaired : (s.chan c).pair.todo = []) (hfed : s.fedTo c x = true) :
    s.applyOldest c = (s.modChan c fun ch => { ch with targets := rest }).targetApply c op x := by
  simp only [State.applyOldest, htargets, State.fixedTime, hfed, if_true, State.pairAll_of_paired hpaired]

theorem State.targets_setTargets (s : State) (c : Nat) (rest : List (TargetOp × Option Nat)) :
    ((s.modChan c fun ch => { ch with targets := rest }).chan c).targets = rest := by simp

theorem statsTargetApply_dev (s : State) (t x : Nat) (c : BitVec 20) (release y : Bool) (dq : Int) (unit : Word) (n : Nat)
    (tag : Dword) (a r : Nat) (rest : List (TargetOp × Option Nat))
    (htargets : (s.chan c.toNat).targets = (.dev release y dq unit n tag a r, some x) :: rest)
    (hpaired : (s.chan c.toNat).pair.todo = []) (hfed : (s.advance t).fedTo c.toNat x = true) :
    Does (.statsTargetApply t c) s fun u =>
      (u.chan c.toNat).targets = rest ∧ (release = true → (u.chan c.toNat).dev = none) ∧
      (release = false → ∃ b, (u.chan c.toNat).dev = some { modeY := y, dq := dq, unit := unit, reportN := n, bank := b }) := by
  refine Does.of_effect (exec_statsTargetApply s t c) ?_
  rw [State.settle_chan, State.applyOldest_fed (s := s.advance t) htargets hpaired hfed]
  obtain ⟨hrest, hset⟩ :=
    State.targetApply_dev_does ((s.advance t).modChan c.toNat fun ch => { ch with targets := rest }) c.toNat release y dq unit n tag a r x
  exact ⟨hrest.trans (State.targets_setTargets ..), hset⟩

theorem statsTargetApply_idles (s : State) (t : Nat) (c : BitVec 20) (hnone : (s.chan c.toNat).targets = []) :
    Idles (.statsTargetApply t c) s := by
  refine Idles.of_effect (t := t) rfl (exec_statsTargetApply s t c) ?_
  rw [State.applyOldest, State.chan_advance, hnone]

/-! ### The reports that are due (R206 to R208, R211) -/

/-- An effect on channel c that a castling's seal keeps off (R230). -/
def State.unlessSealed (s : State) (c : Nat) (f : State → State) : State := if (s.sealedCastling c).isSome then s else f s

theorem State.unlessSealed_free {s : State} {c : Nat} (f : State → State) (h : s.sealedCastling c = none) : s.unlessSealed c f = f s := by
  rw [State.unlessSealed, h]
  rfl

theorem exec_devReport (s : State) (t : Nat) (c : BitVec 20) : exec (.devReport t c) s = atMoment t s fun x =>
    x.unlessSealed c.toNat fun y => y.devReportDue c.toNat := rfl

theorem exec_histoComplete (s : State) (t : Nat) (c : BitVec 20) (no : Fin 4) : exec (.histoComplete t c no) s = atMoment t s fun x =>
    x.unlessSealed c.toNat fun y => y.histoDue c.toNat no.val := rfl

theorem devReport_due (s : State) (t : Nat) (c : BitVec 20) (d : DevSet) (hdev : (s.chan c.toNat).dev = some d)
    (hfree : s.sealedCastling c.toNat = none) (hdue : d.due = true) :
    Does (.devReport t c) s fun u => (u.chan c.toNat).dev = some { d with due := false, restored := false } := by
  refine Does.of_effect (exec_devReport s t c) ?_
  rw [State.settle_chan, State.unlessSealed_free (s := s.advance t) _ hfree, State.devReportDue_due (s := s.advance t) hdev hdue]
  exact State.dev_setDev _ _ fun _ => _

theorem devReport_idles (s : State) (t : Nat) (c : BitVec 20) (d : DevSet) (hdev : (s.chan c.toNat).dev = some d)
    (hfree : s.sealedCastling c.toNat = none) (hdue : d.due = false) : Idles (.devReport t c) s := by
  refine Idles.of_effect (t := t) rfl (exec_devReport s t c) ?_
  rw [State.unlessSealed_free (s := s.advance t) _ hfree, State.devReportDue_not_due (s := s.advance t) hdev hdue]

/-- Channel c's histogram `no` becomes `h`. -/
def State.putHisto (s : State) (c no : Nat) (h : Histo) : State := s.modChan c fun ch => { ch with histos := tput ch.histos no h }

theorem State.histo_putHisto (s : State) (c no : Nat) (h : Histo) : tget? ((s.putHisto c no h).chan c).histos no = some h := by
  simp [State.putHisto, tget?_tput]

theorem State.histoDue_due {s : State} {c no : Nat} {h : Histo} (hget : tget? (s.chan c).histos no = some h) (hreasons : h.reasons ≠ 0)
    (hshot : h.auto = false) :
    s.histoDue c no = (s.histoRecord c no h h.reasons.toNat).putHisto c no { h with reasons := 0, restored := false } := by
  have hdue : (decide (h.reasons ≠ 0) && !h.auto) = true := by rw [decide_eq_true hreasons, hshot]; rfl
  simp only [State.histoDue, hget, hdue, if_true]
  rfl

theorem State.histoDue_not_due {s : State} {c no : Nat} {h : Histo} (hget : tget? (s.chan c).histos no = some h)
    (hnot : h.reasons = 0 ∨ h.auto = true) : s.histoDue c no = s := by
  obtain hn | hn := hnot <;> simp [State.histoDue, hget, hn]

theorem histoComplete_due (s : State) (t : Nat) (c : BitVec 20) (no : Fin 4) (h : Histo)
    (hget : tget? (s.chan c.toNat).histos no.val = some h) (hfree : s.sealedCastling c.toNat = none) (hreasons : h.reasons ≠ 0)
    (hshot : h.auto = false) :
    Does (.histoComplete t c no) s fun u => tget? (u.chan c.toNat).histos no.val = some { h with reasons := 0, restored := false } := by
  refine Does.of_effect (exec_histoComplete s t c no) ?_
  rw [State.settle_chan, State.unlessSealed_free (s := s.advance t) _ hfree,
    State.histoDue_due (s := s.advance t) hget hreasons hshot]
  exact State.histo_putHisto ..

theorem histoComplete_idles (s : State) (t : Nat) (c : BitVec 20) (no : Fin 4) (h : Histo)
    (hget : tget? (s.chan c.toNat).histos no.val = some h) (hfree : s.sealedCastling c.toNat = none)
    (hnot : h.reasons = 0 ∨ h.auto = true) : Idles (.histoComplete t c no) s := by
  refine Idles.of_effect (t := t) rfl (exec_histoComplete s t c no) ?_
  rw [State.unlessSealed_free (s := s.advance t) _ hfree, State.histoDue_not_due (s := s.advance t) hget hnot]

/-! ### The end of an AUTO period (R207) -/

/-- A period of histogram `h` that has ended: its reason, and where the next begins; by count, or by time once every input before its
end has been fed. -/
def State.periodEnd (s : State) (c : Nat) (h : Histo) : Option (Nat × Nat) :=
  if h.auto && h.reasons ≠ 0 then some (1, h.began)
  else if h.auto && h.stop ≠ 0 && h.began + h.stop + 860652 ≤ s.devTime &&
      !(s.chan c).instants.any (fun i => decide (i < h.began + h.stop)) then some (2, h.began + h.stop)
  else none

/-- The effect of AUTO_PERIOD_END on histogram `no` of channel c. -/
def State.endPeriod (s : State) (c no : Nat) : State :=
  match tget? (s.chan c).histos no with
  | some h => s.unlessSealed c fun x =>
    if h.auto && h.reasons ≠ 0 then x.histoPeriod c no 1 h.began
    else if h.auto && h.stop ≠ 0 && h.began + h.stop + 860652 ≤ x.devTime &&
        !(x.chan c).instants.any (fun i => decide (i < h.began + h.stop)) then x.histoPeriod c no 2 (h.began + h.stop)
    else x
  | none => s

theorem exec_autoPeriodEnd (s : State) (t : Nat) (c : BitVec 20) (no : Fin 4) :
    exec (.autoPeriodEnd t c no) s = atMoment t s fun x => x.endPeriod c.toNat no.val := rfl

theorem State.endPeriod_free {s : State} {c no : Nat} {h : Histo} (hget : tget? (s.chan c).histos no = some h)
    (hfree : s.sealedCastling c = none) : s.endPeriod c no =
      match s.periodEnd c h with | some (reason, began) => s.histoPeriod c no reason began | none => s := by
  simp only [State.endPeriod, hget, State.unlessSealed_free _ hfree, State.periodEnd]
  split
  · rfl
  · split <;> rfl

theorem State.histoPeriod_restarts {s : State} {c no : Nat} {h : Histo} (hget : tget? (s.chan c).histos no = some h)
    (reasons began : Nat) : tget? ((s.histoPeriod c no reasons began).chan c).histos no = some (h.clear began) := by
  simp only [State.histoPeriod, hget]
  exact State.histo_putHisto ..

theorem autoPeriodEnd_ended (s : State) (t : Nat) (c : BitVec 20) (no : Fin 4) (h : Histo) (reason began : Nat)
    (hget : tget? (s.chan c.toNat).histos no.val = some h) (hfree : s.sealedCastling c.toNat = none)
    (hend : (s.advance t).periodEnd c.toNat h = some (reason, began)) :
    Does (.autoPeriodEnd t c no) s fun u => tget? (u.chan c.toNat).histos no.val = some (h.clear began) := by
  refine Does.of_effect (exec_autoPeriodEnd s t c no) ?_
  rw [State.settle_chan, State.endPeriod_free (s := s.advance t) hget hfree, hend]
  exact State.histoPeriod_restarts (s := s.advance t) hget reason began

theorem autoPeriodEnd_idles (s : State) (t : Nat) (c : BitVec 20) (no : Fin 4) (h : Histo)
    (hget : tget? (s.chan c.toNat).histos no.val = some h) (hfree : s.sealedCastling c.toNat = none)
    (hend : (s.advance t).periodEnd c.toNat h = none) : Idles (.autoPeriodEnd t c no) s := by
  refine Idles.of_effect (t := t) rfl (exec_autoPeriodEnd s t c no) ?_
  rw [State.endPeriod_free (s := s.advance t) hget hfree, hend]

theorem State.periodEnd_count (s : State) (c : Nat) {h : Histo} (hreasons : h.reasons ≠ 0) (hauto : h.auto = true) :
    s.periodEnd c h = some (1, h.began) :=
  if_pos (by rw [hauto, decide_eq_true hreasons]; rfl)

theorem State.periodEnd_time {s : State} {c : Nat} {h : Histo} (hauto : h.auto = true) (hreasons : h.reasons = 0) (hstop : h.stop ≠ 0)
    (htime : h.began + h.stop + 860652 ≤ s.devTime) (hfed : ∀ i ∈ (s.chan c).instants, h.began + h.stop ≤ i) :
    s.periodEnd c h = some (2, h.began + h.stop) := by
  simpa [State.periodEnd, hauto, hreasons, hstop, htime] using hfed

theorem State.periodEnd_oneShot (s : State) (c : Nat) {h : Histo} (hshot : h.auto = false) : s.periodEnd c h = none := by
  simp [State.periodEnd, hshot]

end Sys2Proof.Machine

section
open Sys2Proof.Machine

/-- Settles O14: an accepted statistics descriptor is its channel's only target; reports leave the targets and the set that a target
leaves; and each report ends by writing what it has cleared. -/
theorem statisticsRowsComplete : Obligations.StatisticsRowsComplete := by
  unfold Obligations.StatisticsRowsComplete
  refine ⟨?_, ?_, ?_, ?_, ?_, ?_, statsTargetApply_idles, ?_, ?_⟩
  · intro s t ring d hd hwaits hset hform hunit hlow hhigh hholds hroom
    obtain ⟨u, hu, target⟩ :=
      devSetup_does s t ring d hd hwaits (State.devFail_setup hset hform hunit hlow hhigh hholds hroom)
    simp only [devTarget, hset] at target
    exact ⟨u, hu, target⟩
  · intro s t ring d hd hwaits hrel hform hholds hdev
    obtain ⟨u, hu, target⟩ := devSetup_does s t ring d hd hwaits (State.devFail_release hrel hform hholds hdev)
    simp only [devTarget, hrel] at target
    exact ⟨u, hu, _, _, _, _, _, target⟩
  · intro s t ring d hd hwaits hrel hform hholds hhas
    obtain ⟨u, hu, target⟩ := histoSetup_does s t ring d hd hwaits (State.histoFail_release hrel hform hholds hhas)
    simp only [hrel] at target
    exact ⟨u, hu, _, _, target⟩
  · intro s t ring d hd hwaits hset hform hmode hw hends hholds hsuits hroom hstream
    obtain ⟨u, hu, target⟩ := histoSetup_does s t ring d hd hwaits
      (State.histoFail_setup hset hform hmode hw hends hholds hsuits hroom hstream)
    simp only [hset] at target
    exact ⟨u, hu, _, _, target, rfl, rfl, rfl, rfl⟩
  · intro s t ring d hd hwaits hform hsome hholds hdev hhistos
    obtain ⟨u, hu, target⟩ := statsRead_does s t ring d hd hwaits
      (State.readFail_passes hform hsome hholds (Chan.readMissing_of_has hdev hhistos))
    exact ⟨u, hu, _, target⟩
  · intro s t x c release y dq unit n tag a r rest htargets _ hinstants hengine hfree hsettled hinbox hpaired
    exact statsTargetApply_dev s t x c release y dq unit n tag a r rest htargets hpaired
      (State.fedTo_of_fed (s := s.advance t) hsettled hinstants hinbox hpaired hengine hfree)
  · exact fun s t c d hdev hfree => ⟨devReport_due s t c d hdev hfree, devReport_idles s t c d hdev hfree⟩
  · intro s t c no h hget hfree
    refine ⟨histoComplete_due s t c no h hget hfree, histoComplete_idles s t c no h hget hfree, fun hreasons hauto => ?_,
      fun hauto hreasons hstop htime hfed => ?_, fun hshot => ?_⟩
    · exact autoPeriodEnd_ended s t c no h _ _ hget hfree (State.periodEnd_count _ _ hreasons hauto)
    · exact autoPeriodEnd_ended s t c no h _ _ hget hfree (State.periodEnd_time hauto hreasons hstop htime hfed)
    · exact autoPeriodEnd_idles s t c no h hget hfree (State.periodEnd_oneShot _ _ hshot)

end

namespace Sys2Proof.Machine

/-! ### What the storing of records leaves of the sorting office

A record that is pushed may take holding blocks, give up rewind copies and raise HOLD_PRESSURE (R220, R370, R373, R379). -/

/-- The sorting office but for its count of free holding blocks, the ledger's counts of castlings that ended (R452), and the number of
records produced for each ring. -/
structure Office where
  plc : Plc
  completed : Nat
  aborted : Nat
  produced : Nat → Nat

def Plc.unheld (p : Plc) : Plc := { p with holdFree := 0, minFree := 0 }
def State.office (s : State) : Office :=
  { plc := s.plc.unheld, completed := s.flt.completed, aborted := s.flt.aborted, produced := fun n => (s.ring n).produced }

theorem Plc.wishes_of_unheld {p q : Plc} (h : p.unheld = q.unheld) : p.wishes = q.wishes :=
  show p.unheld.wishes = q.unheld.wishes from congrArg Plc.wishes h
theorem Plc.plan_of_unheld {p q : Plc} (h : p.unheld = q.unheld) : p.plan = q.plan :=
  show p.unheld.plan = q.unheld.plan from congrArg Plc.plan h
theorem Plc.castlings_of_unheld {p q : Plc} (h : p.unheld = q.unheld) : p.castlings = q.castlings :=
  show p.unheld.castlings = q.unheld.castlings from congrArg Plc.castlings h

theorem State.wish_of_plc {s u : State} (h : u.plc.unheld = s.plc.unheld) (c : Nat) : u.wish c = s.wish c := by
  rw [State.wish, Plc.wishes_of_unheld h, State.wish]

theorem State.office_eq {s u : State} (hplc : u.plc = s.plc) (hcompleted : u.flt.completed = s.flt.completed)
    (haborted : u.flt.aborted = s.flt.aborted) (hrings : u.rings = s.rings) : u.office = s.office := by
  rw [State.office, hplc, hcompleted, haborted]
  simp only [State.office, State.ring, hrings]

theorem State.office_bump (s : State) (a lo w : Nat) : (s.bump a lo w).office = s.office :=
  State.office_eq (by simp) (by simp) (by simp) (by simp)

@[simp] theorem raise_completed (s : State) (f : FaultCode) (p : Nat) : (s.raise f p).flt.completed = s.flt.completed := by
  obtain ⟨_, _, _, _, _, _, _, h⟩ := raise_flt s f p
  rw [h]

@[simp] theorem raise_aborted (s : State) (f : FaultCode) (p : Nat) : (s.raise f p).flt.aborted = s.flt.aborted := by
  obtain ⟨_, _, _, _, _, _, _, h⟩ := raise_flt s f p
  rw [h]

theorem State.office_setRing (s : State) (n : Nat) (r : Ring) (h : r.produced = (s.ring n).produced) :
    (s.setRing n r).office = s.office := by
  have hproduced : (s.setRing n r).office.produced = s.office.produced := by
    funext m
    simp only [State.office, State.ring_setRing]
    split
    · next hm => rw [hm, h]
    · rfl
  exact congrArg (fun f => ({ s.office with produced := f } : Office)) hproduced

theorem State.office_holdCheck (s : State) : s.holdCheck.office = s.office := by
  unfold State.holdCheck
  dsimp only
  (repeat' split) <;> simp [State.office, Plc.unheld, State.ring]

theorem Ring.produced_foldl {α : Type} (f : Ring → α → Ring) (h : ∀ r a, (f r a).produced = r.produced) (l : List α) (r : Ring) :
    (l.foldl f r).produced = r.produced := by
  induction l generalizing r with
  | nil => rfl
  | cons a l ih => exact (ih _).trans (h r a)

theorem Ring.produced_setQueue (r : Ring) (cls : Nat) (q : List Record) : (r.setQueue cls q).produced = r.produced := by
  unfold Ring.setQueue
  split <;> rfl

theorem produced_freeRewind (rings : Table Ring) {freed : Table Ring} (h : freeRewind rings = some freed) (n : Nat) :
    (tget {} freed n : Ring).produced = (tget {} rings n : Ring).produced := by
  induction rings generalizing freed with
  | nil => cases h
  | cons x rest ih =>
    obtain ⟨k, r⟩ := x
    unfold freeRewind at h
    split at h
    · cases h
      simp only [tget, tget?]
      split
      · exact Ring.produced_foldl (fun r (k : Kept) => r.unref k.block) (fun _ _ => rfl) _ _
      · rfl
    · obtain ⟨freed', hrest, rfl⟩ := Option.map_eq_some_iff.mp h
      have hn := ih hrest
      simp only [tget, tget?] at hn ⊢
      split
      · rfl
      · exact hn

theorem State.office_makeRoom (k : Nat) (s : State) (need : Nat) : (State.makeRoom k s need).office = s.office := by
  induction k generalizing s with
  | zero => rfl
  | succ k ih =>
    unfold State.makeRoom
    split
    · split
      · next freed h =>
        exact (ih _).trans (congrArg (fun f => ({ s.office with produced := f } : Office)) (funext (produced_freeRewind s.rings h)))
      · rfl
    · rfl

theorem State.office_grant (s u : State) (n size : Nat) (data : Bool) (bs : List Nat)
    (h : State.place.grant s n size data = some (bs, u)) : u.office = s.office := by
  unfold State.place.grant at h
  dsimp only at h
  rw [Option.ite_none_left_eq_some] at h
  obtain ⟨-, h⟩ := h
  cases h
  refine (State.office_holdCheck _).trans ((State.office_setRing _ _ _ ?_).trans (State.office_makeRoom ..))
  exact Ring.produced_foldl Ring.ref (fun _ _ => rfl) _ _

theorem State.office_place (s u : State) (n size : Nat) (data : Bool) (bs : List Nat)
    (h : s.place n size data = some (bs, u)) : u.office = s.office := by
  unfold State.place at h
  dsimp only at h
  split at h
  · split at h
    · cases h
      exact s.office_setRing n _ rfl
    · exact s.office_grant u n size data bs h
  · exact s.office_grant u n size data bs h

theorem State.office_tryPush (s u : State) (n : Nat) (p : Push) (h : s.tryPush n p = some u) : u.office = s.office := by
  unfold State.tryPush at h
  dsimp only at h
  split at h
  · split at h
    · cases h
    · split at h
      · cases h
      · next hplace =>
        cases h
        exact (State.office_setRing _ _ _ (Ring.produced_setQueue ..)).trans (s.office_place _ _ _ _ _ hplace)
  · split at h
    · cases h
    · cases h
      exact s.office_setRing n _ (Ring.produced_setQueue ..)

/-- A pushed record counts as produced for its ring, and the sorting office stays as it is (R370). -/
theorem State.office_push (s : State) (n c : Nat) (e : Option Nat) (r : Record) :
    (s.push n c e r).office = { s.office with produced := fun m => s.office.produced m + if m = n then 1 else 0 } := by
  have counted : (s.modRing n fun r => { r with produced := r.produced + 1 }).office =
      { s.office with produced := fun m => s.office.produced m + if m = n then 1 else 0 } := by
    refine congrArg (fun f => ({ s.office with produced := f } : Office)) (funext fun m => ?_)
    simp only [State.modRing_eq, State.ring_setRing, State.office]
    split
    · next hm => rw [hm]
    · rfl
  have waits (x : State) (p : Push) := x.office_setRing n { x.ring n with waiting := (x.ring n).waiting ++ [p] } rfl
  unfold State.push
  dsimp only
  split
  · exact (waits _ _).trans counted
  · split
    · next h => exact (State.office_tryPush _ _ _ _ h).trans counted
    · exact (waits _ _).trans counted

/-- Every record leaves the sorting office as it is. -/
theorem State.plc_push (s : State) (n c : Nat) (e : Option Nat) (r : Record) : (s.push n c e r).plc.unheld = s.plc.unheld :=
  congrArg Office.plc (s.office_push n c e r)

/-! ### The sorting office behind a judged descriptor (R353) -/

theorem State.office_entries (s : State) (n k : Nat) : (s.entries n k).office = s.office := s.office_setRing n _ rfl

theorem State.office_statusBlock (s : State) (n : Nat) : (s.statusBlock n).office = s.office := by
  unfold State.statusBlock
  split
  · rfl
  · exact s.office_setRing n _ rfl

theorem State.office_message (s : State) (v : Nat) : (s.message v).office = s.office :=
  State.office_eq (by simp) (by simp) (by simp) (by simp)

theorem State.office_ringMessage (s : State) (n : Nat) : (s.ringMessage n).office = s.office := by
  unfold State.ringMessage
  dsimp only
  split
  · exact (State.office_message ..).trans (s.office_setRing n _ rfl)
  · rfl

/-- A consumed descriptor leaves the sorting office and the counts of records (R341). -/
theorem State.office_consume (s : State) (n : Nat) : (s.consume n).office = s.office := by
  have dropped : (s.dropHead n).office = s.office := s.office_setRing n _ rfl
  have counted : ((s.dropHead n).bump (Reg.RING_SEQ n) 0 48).office = s.office := (State.office_bump ..).trans dropped
  have shown : (((s.dropHead n).bump (Reg.RING_SEQ n) 0 48).entries n 1).office = s.office :=
    (State.office_entries ..).trans counted
  exact (State.office_ringMessage ..).trans ((State.office_statusBlock ..).trans shown)

theorem State.plc_rejectHead (s : State) (n : Nat) (d : Desc) (reason : Nat) :
    (s.rejectHead n d reason).plc.unheld = s.plc.unheld :=
  (congrArg Office.plc ((State.office_consume ..).trans (State.office_bump ..))).trans (s.plc_push ..)

theorem State.plc_rejectBad (k : Nat) (s : State) (n : Nat) : (State.rejectBad k s n).plc.unheld = s.plc.unheld := by
  induction k generalizing s with
  | zero => rfl
  | succ k ih =>
    unfold State.rejectBad
    split
    · split
      · rfl
      · exact (ih _).trans (s.plc_rejectHead n _ 1)
    · rfl

/-- Behind an accepted descriptor the sorting office is what its effect made it. -/
theorem State.plc_judge (s : State) (n : Nat) (d : Desc) (effect : State → State) :
    (s.judge n d none effect).plc.unheld = (effect s).plc.unheld :=
  (State.plc_rejectBad ..).trans (congrArg Office.plc (State.office_consume ..))

/-- The last fetched descriptor, accepted, leaves what its effect made but for its own consumption. -/
theorem State.judge_last (s : State) (n : Nat) (d : Desc) (effect : State → State) (h : ((effect s).ring n).fetched = [d]) :
    s.judge n d none effect = (effect s).consume n := by
  have hempty : (((effect s).consume n).ring n).fetched = [] := by
    have hposted := (effect s).posted_consume n
    rw [h] at hposted
    exact (Prod.mk.inj hposted).2
  show ((effect s).consume n).nextDesc n = _
  rw [State.nextDesc, hempty]
  rfl

end Sys2Proof.Machine

namespace Sys2Proof.Machine

/-! ### Pins and hints (R235 to R237) -/

/-- Stores what is wished of a channel. -/
def State.setWish (s : State) (c : Nat) (w : Wish) : State := { s with plc := { s.plc with wishes := tset {} s.plc.wishes c w } }

/-- Drops the planned moves of a channel's context, but for those of its twin that are not pins (R236). -/
def State.unplan (s : State) (c : Nat) : State :=
  { s with plc := { s.plc with plan := s.plc.plan.filter fun m => !(m.chan == c && m.target.isNone && (m.pin || !m.twin)) } }

/-- The square that a PLACE names, none where it leaves the square open (R235). -/
def placeSquare (d : Desc) : Option Nat := if df d 0xC 10 1 = 1 then none else some (df d 0xC 4 6)

/-- A wish with the pin that a PLACE asks for, and without one (R236). -/
def Wish.pinnedBy (w : Wish) (d : Desc) : Wish :=
  { w with pinned := true, engine := df d 0xC 0 4, square := placeSquare d, pinRing := df d 8 24 6, pinTag := descTag d, pinOwed := true }
def Wish.unpinned (w : Wish) : Wish := { w with pinned := false, engine := 0, square := none, pinRing := 0, pinTag := 0, pinOwed := false }

/-- A wish with the hint that a PLACE gives (R237). -/
def Wish.hintedBy (w : Wish) (d : Desc) : Wish := { w with rate := df d 0x10 0 32, group := df d 0x14 0 16, groupMode := df d 0x14 16 2 }

/-- The move that brings a pinned channel to its place, and the one by which its twin makes way for it (log entry 70). -/
def State.pinMove (s : State) (d : Desc) : Move :=
  { chan := descChan d, toEngine := df d 0xC 0 4, toSquare := placeSquare d, pin := true, window := s.plc.windowNo }
def State.makeWay (s : State) (d : Desc) (ch : Chan) : List Move :=
  if ch.place.twin = some (df d 0xC 0 4) then
    [{ s.pinMove d with twin := true, toEngine := s.otherTwin (descChan d) (df d 0xC 0 4) ch.place, toSquare := none }] else []

/-- A pin is stored: a channel that sits where it says is acknowledged, another one is to move there before the moves that are no pins
(R236). -/
def State.pin (s : State) (d : Desc) (w : Wish) (ch : Chan) : State :=
  let s1 := (s.setWish (descChan d) (w.pinnedBy d)).unplan (descChan d)
  if !ch.bound? then s1
  else if s1.sitsPinned (descChan d) then s1.payPin (descChan d)
  else { s1 with plc := { s1.plc with
    plan := s1.plc.plan.filter (·.pin) ++ s1.makeWay d ch ++ [s1.pinMove d] ++ s1.plc.plan.filter (!·.pin) } }

/-- A pin is taken back, and acknowledged (R236). -/
def State.unpin (s : State) (d : Desc) (w : Wish) : State :=
  ((s.setWish (descChan d) w.unpinned).unplan (descChan d)).sendAck (df d 8 24 6) 1 (descChan d) 0 12 (descTag d) []

/-- A hint is stored, and acknowledged (R237). -/
def State.hint (s : State) (d : Desc) (w : Wish) : State :=
  (s.setWish (descChan d) (w.hintedBy d)).sendAck (df d 8 24 6) 1 (descChan d) 0 13 (descTag d) []

/-- The form of a PLACE (R235 to R237). -/
def placeForm (d : Desc) : Bool :=
  match df d 8 20 3 with
  | 0 => descOnly d [(8, 0, 23), (8, 24, 6), (0xC, 0, 11)] && (!(df d 0xC 10 1 = 1) || df d 0xC 4 6 == 0)
  | 1 => descOnly d [(8, 0, 23), (8, 24, 6)]
  | 2 => descOnly d [(8, 0, 23), (8, 24, 6), (0x10, 0, 32), (0x14, 0, 18)] && df d 0x14 16 2 != 3
  | _ => false

/-- A pin has no room: 65,536 channels are pinned, or the square has no free places (R235). -/
def State.pinFull (s : State) (d : Desc) : Bool :=
  (!(s.wish (descChan d)).pinned && decide (65536 ≤ s.pinnedCount)) ||
    (!(df d 0xC 10 1 = 1) && !s.squareRoom (descChan d) (df d 0xC 4 6))

/-- The checks of a PLACE (R235 to R237). -/
def State.placeFail (s : State) (d : Desc) : Option Nat :=
  firstFail [(1, !placeForm d),
    (3, (s.chan (descChan d)).st == .retired || (df d 8 20 3 == 1 && !(s.wish (descChan d)).pinned)),
    (5, df d 8 20 3 == 0 && s.pinFull d)]

/-- The effect of an accepted PLACE on a channel of which `w` is wished (R236, R237). -/
def State.placeEffect (s : State) (d : Desc) (w : Wish) (ch : Chan) : State :=
  match df d 8 20 3 with
  | 0 => s.pin d w ch
  | 1 => s.unpin d w
  | _ => s.hint d w

theorem exec_place (s : State) (t : Nat) (ring : Fin 64) : exec (.place t ring) s = onHead t ring 0x40 s fun x d =>
    if (x.chan (descChan d)).waitsDesc then x
    else x.judge ring d (x.placeFail d) fun y => y.placeEffect d (x.wish (descChan d)) (x.chan (descChan d)) := by
  show execPlace t ring s = _
  unfold execPlace
  refine congrArg (onHead t ring 0x40 s) (funext fun x => funext fun d => ?_)
  unfold State.placeFail placeForm State.placeEffect
  generalize df d 8 20 3 = op
  match op with
  | 0 => rfl
  | 1 => rfl
  | 2 => rfl
  | n + 3 => rfl

/-! #### What an accepted PLACE leaves wished -/

theorem State.wish_setWish (s : State) (c : Nat) (w : Wish) : (s.setWish c w).wish c = w :=
  (tget_tset ..).trans (if_pos rfl)

theorem State.wish_push (s : State) (n k : Nat) (e : Option Nat) (r : Record) (c : Nat) : (s.push n k e r).wish c = s.wish c :=
  State.wish_of_plc (s.plc_push n k e r) c

/-- The acknowledgement of a pin leaves what is wished, but for the debt itself (R236). -/
theorem State.wish_payPin (s : State) (c : Nat) : (s.payPin c).wish c = { s.wish c with pinOwed := false } := by
  unfold State.payPin
  dsimp only
  split
  · exact (State.wish_push ..).trans (s.wish_setWish c _)
  · next howed =>
    rw [Bool.not_eq_true] at howed
    rw [← howed]

theorem State.wish_pin (s : State) (d : Desc) (w : Wish) (ch : Chan) :
    ∃ owed, (s.pin d w ch).wish (descChan d) = { w.pinnedBy d with pinOwed := owed } := by
  have stored : ((s.setWish (descChan d) (w.pinnedBy d)).unplan (descChan d)).wish (descChan d) = w.pinnedBy d :=
    s.wish_setWish (descChan d) (w.pinnedBy d)
  unfold State.pin
  dsimp only
  split
  · exact ⟨_, stored⟩
  · split
    · exact ⟨false, (State.wish_payPin ..).trans (by rw [stored])⟩
    · exact ⟨_, stored⟩

theorem State.wish_unpin (s : State) (d : Desc) (w : Wish) : (s.unpin d w).wish (descChan d) = w.unpinned :=
  (State.wish_push ..).trans (s.wish_setWish ..)

theorem State.wish_hint (s : State) (d : Desc) (w : Wish) : (s.hint d w).wish (descChan d) = w.hintedBy d :=
  (State.wish_push ..).trans (s.wish_setWish ..)

/-- Of the channel's context an unpinned plan holds twin's moves alone (R236). -/
theorem State.plan_unpin (s : State) (d : Desc) (w : Wish) :
    ∀ m ∈ (s.unpin d w).plc.plan, m.chan = descChan d → m.target ≠ none ∨ m.twin = true := by
  intro m hm hchan
  have hplan : (s.unpin d w).plc.plan = ((s.setWish (descChan d) w.unpinned).unplan (descChan d)).plc.plan :=
    Plc.plan_of_unheld (State.plc_push ..)
  rw [hplan] at hm
  have hkept := (List.mem_filter.mp hm).2
  cases htarget : m.target with
  | some => exact .inl nofun
  | none => cases htwin : m.twin <;> simp_all

/-! #### The checks that a PLACE passes -/

theorem State.placeFail_pin {s : State} {d : Desc} (hop : df d 8 20 3 = 0)
    (hform : descOnly d [(8, 0, 23), (8, 24, 6), (0xC, 0, 11)] = true) (hany : df d 0xC 10 1 = 1 → df d 0xC 4 6 = 0)
    (hst : (s.chan (descChan d)).st ≠ .retired) (hcount : s.pinnedCount < 65536)
    (hroom : df d 0xC 10 1 = 0 → s.squareRoom (descChan d) (df d 0xC 4 6) = true) : s.placeFail d = none := by
  have hbit : df d 0xC 10 1 = 0 ∨ df d 0xC 10 1 = 1 := by
    have := fieldOf_lt d.toNat (8 * 0xC + 10) 1
    rw [df]
    omega
  have hformed : placeForm d = true := by
    rcases hbit with hb | hb <;> simp [placeForm, hop, hform, hb, hany]
  have hfull : s.pinFull d = false := by
    rcases hbit with hb | hb <;> simp [State.pinFull, hb, hroom, Nat.not_le.mpr hcount]
  simp [State.placeFail, firstFail, hop, hst, hformed, hfull]

theorem State.placeFail_unpin {s : State} {d : Desc} (hop : df d 8 20 3 = 1)
    (hform : descOnly d [(8, 0, 23), (8, 24, 6)] = true) (hst : (s.chan (descChan d)).st ≠ .retired)
    (hpinned : (s.wish (descChan d)).pinned = true) : s.placeFail d = none := by
  simp [State.placeFail, firstFail, placeForm, hop, hform, hst, hpinned]

theorem State.placeFail_hint {s : State} {d : Desc} (hop : df d 8 20 3 = 2)
    (hform : descOnly d [(8, 0, 23), (8, 24, 6), (0x10, 0, 32), (0x14, 0, 18)] = true) (hmode : df d 0x14 16 2 ≠ 3)
    (hst : (s.chan (descChan d)).st ≠ .retired) : s.placeFail d = none := by
  simp [State.placeFail, firstFail, placeForm, hop, hform, hst, hmode]

/-! #### The rows of PLACE -/

/-- Behind an accepted PLACE the sorting office is what its effect made it. -/
theorem place_does {s : State} {t : Nat} {ring : Fin 64} {d : Desc} {P : State → Prop} (hd : s.head ring.val 0x40 = some d)
    (hwaits : (s.chan (descChan d)).waitsDesc = false) (hfail : s.placeFail d = none)
    (hP : ∀ u : State, u.plc.unheld =
      ((s.advance t).placeEffect d (s.wish (descChan d)) (s.chan (descChan d))).plc.unheld → P u) :
    Does (.place t ring) s P := by
  have hpass : (s.advance t).placeFail d = none := hfail
  refine Does.of_head (exec_place s t ring) hd (hP _ ?_)
  rw [State.judged (by simp [hwaits]) hpass]
  exact State.plc_judge ..

theorem place_pins {s : State} {t : Nat} {ring : Fin 64} {d : Desc} (hd : s.head ring.val 0x40 = some d)
    (hwaits : (s.chan (descChan d)).waitsDesc = false) (hfail : s.placeFail d = none) (hop : df d 8 20 3 = 0) :
    Does (.place t ring) s fun u =>
      (u.wish (descChan d)).pinned = true ∧ (u.wish (descChan d)).engine = df d 0xC 0 4 ∧
      (u.wish (descChan d)).square = placeSquare d := by
  refine place_does hd hwaits hfail fun u hu => ?_
  simp only [State.placeEffect, hop] at hu
  obtain ⟨owed, hwish⟩ := State.wish_pin (s.advance t) d (s.wish (descChan d)) (s.chan (descChan d))
  rw [State.wish_of_plc hu, hwish]
  exact ⟨rfl, rfl, rfl⟩

theorem place_unpins {s : State} {t : Nat} {ring : Fin 64} {d : Desc} (hd : s.head ring.val 0x40 = some d)
    (hwaits : (s.chan (descChan d)).waitsDesc = false) (hfail : s.placeFail d = none) (hop : df d 8 20 3 = 1) :
    Does (.place t ring) s fun u =>
      u.wish (descChan d) = (s.wish (descChan d)).unpinned ∧
      ∀ m ∈ u.plc.plan, m.chan = descChan d → m.target ≠ none ∨ m.twin = true := by
  refine place_does hd hwaits hfail fun u hu => ?_
  simp only [State.placeEffect, hop] at hu
  rw [State.wish_of_plc hu, State.wish_unpin, Plc.plan_of_unheld hu]
  exact ⟨rfl, State.plan_unpin _ d _⟩

theorem place_hints {s : State} {t : Nat} {ring : Fin 64} {d : Desc} (hd : s.head ring.val 0x40 = some d)
    (hwaits : (s.chan (descChan d)).waitsDesc = false) (hfail : s.placeFail d = none) (hop : df d 8 20 3 = 2) :
    Does (.place t ring) s fun u => u.wish (descChan d) = (s.wish (descChan d)).hintedBy d := by
  refine place_does hd hwaits hfail fun u hu => ?_
  simp only [State.placeEffect, hop] at hu
  rw [State.wish_of_plc hu, State.wish_hint]

/-! ### The report of placements (R238) -/

/-- The number of channels that a PLACE_READ asks for (R238). -/
def readCount (d : Desc) : Nat := if df d 8 20 12 = 0 then 4096 else df d 8 20 12

/-- The PLACEMENT records of `n` channels from `first` on, into ring `dest`. -/
def State.placeRecords (s : State) (dest first n : Nat) : State :=
  (List.range n).foldl (fun s i => s.placeRecord dest (first + i) 3) s

theorem exec_placeRead (s : State) (t : Nat) (ring : Fin 64) : exec (.placeRead t ring) s = onHead t ring 0x41 s fun x d =>
    x.judge ring d
      (firstFail [(1, !descOnly d [(8, 0, 32), (0xC, 0, 6)]), (2, decide (1048575 < df d 8 0 20 + readCount d - 1))])
      fun y => y.placeRecords (df d 0xC 0 6) (df d 8 0 20) (readCount d) := rfl

theorem State.placeRecords_succ (s : State) (dest first n : Nat) :
    s.placeRecords dest first (n + 1) = (s.placeRecords dest first n).placeRecord dest (first + n) 3 := by
  rw [State.placeRecords, List.range_succ, List.foldl_append]
  rfl

/-- Each of them counts as produced for the ring; the channels and the descriptors fetched stay as they are. -/
theorem State.placeRecords_does (s : State) (dest first n : Nat) :
    ((s.placeRecords dest first n).ring dest).produced = (s.ring dest).produced + n ∧
    (s.placeRecords dest first n).chans = s.chans ∧ (s.placeRecords dest first n).posted = s.posted := by
  induction n with
  | zero => exact ⟨rfl, rfl, rfl⟩
  | succ n ih =>
    obtain ⟨hproduced, hchans, hposted⟩ := ih
    have one (x : State) (c : Nat) : ((x.placeRecord dest c 3).ring dest).produced = (x.ring dest).produced + 1 ∧
        (x.placeRecord dest c 3).chans = x.chans ∧ (x.placeRecord dest c 3).posted = x.posted :=
      ⟨(congrFun (congrArg Office.produced (x.office_push ..)) dest).trans (by simp [State.office]), by simp [State.placeRecord],
        State.posted_push ..⟩
    obtain ⟨hproduced1, hchans1, hposted1⟩ := one (s.placeRecords dest first n) (first + n)
    rw [State.placeRecords_succ]
    exact ⟨by rw [hproduced1, hproduced, Nat.add_assoc], hchans1.trans hchans, hposted1.trans hposted⟩

theorem placeRead_does {s : State} {t : Nat} {ring : Fin 64} {d : Desc} (hd : s.head ring.val 0x41 = some d)
    (hlast : (s.ring ring).fetched = [d]) (hform : descOnly d [(8, 0, 32), (0xC, 0, 6)] = true)
    (hrange : df d 8 0 20 + readCount d ≤ 1048576) :
    Does (.placeRead t ring) s fun u =>
      (u.ring (df d 0xC 0 6)).produced = (s.ring (df d 0xC 0 6)).produced + readCount d ∧ u.chans = s.chans := by
  have hpass : firstFail [(1, !descOnly d [(8, 0, 32), (0xC, 0, 6)]),
      (2, decide (1048575 < df d 8 0 20 + readCount d - 1))] = none := by
    simp [firstFail, hform]
    omega
  obtain ⟨hproduced, hchans, hposted⟩ := (s.advance t).placeRecords_does (df d 0xC 0 6) (df d 8 0 20) (readCount d)
  have hfetched : (((s.advance t).placeRecords (df d 0xC 0 6) (df d 8 0 20) (readCount d)).ring ring).fetched = [d] :=
    (congrArg Prod.snd (congrFun hposted ring)).trans hlast
  refine Does.of_head (exec_placeRead s t ring) hd ?_
  rw [hpass, State.judge_last _ _ _ _ hfetched]
  exact ⟨(congrFun (congrArg Office.produced (State.office_consume ..)) (df d 0xC 0 6)).trans hproduced,
    (State.chans_consume ..).trans hchans⟩

end Sys2Proof.Machine

section
open Sys2Proof.Machine

/-- Settles O16: an accepted PLACE stores the wish it asks for, which neither its acknowledgement nor a rejection behind it changes, and
each record of a PLACE_READ counts as produced. -/
theorem placeRowsComplete : Obligations.PlaceRowsComplete := by
  refine ⟨fun s t ring d hd hwaits hst => ⟨fun hop hform hany hcount hroom => ?_, fun hop hform hpinned => ?_,
    fun hop hform hmode => ?_⟩, fun s t ring d hd hlast hform hrange => placeRead_does hd hlast hform hrange⟩
  · exact place_pins hd hwaits (State.placeFail_pin hop hform hany hst hcount hroom) hop
  · obtain ⟨u, hu, hwish, hplan⟩ := place_unpins (t := t) hd hwaits (State.placeFail_unpin hop hform hst hpinned) hop
    exact ⟨u, hu, congrArg Wish.pinned hwish, by rw [hwish]; rfl, hplan⟩
  · obtain ⟨u, hu, hwish⟩ := place_hints (t := t) hd hwaits (State.placeFail_hint hop hform hmode hst) hop
    exact ⟨u, hu, congrArg Wish.rate hwish, congrArg Wish.group hwish, congrArg Wish.groupMode hwish, by rw [hwish]; rfl⟩

end

namespace Sys2Proof.Machine

/-! ### A load window ends (R221, R239) -/

/-- What the office holds of an engine's last window. -/
def State.engineLoad (s : State) (e : Nat) : Nat × Nat × Word :=
  (tget 0 s.plc.busy e, tget 0 s.plc.work e, s.reg (Reg.PLC_ENGINE_LOAD e))

/-- PLC_ENGINE_LOAD for a measured load (R239). -/
def loadWord (l : LoadSample) : Word :=
  BitVec.ofNat 64 (packBits [(0, 10, min 1023 (l.busy * 1024 / windowQ)), (10, 10, min 1023 l.xbar)])

theorem loadWord_fields (l : LoadSample) : fieldOf (loadWord l).toNat 0 10 = min 1023 (l.busy * 1024 / windowQ) ∧
    fieldOf (loadWord l).toNat 10 10 = min 1023 l.xbar := by
  unfold loadWord
  generalize l.busy * 1024 / windowQ = b
  simp only [fieldOf, packBits, BitVec.toNat_ofNat]
  omega

theorem State.engineLoad_takeLoad (s : State) (e f : Nat) (l : LoadSample) :
    (s.takeLoad e l).engineLoad f = if f = e then (l.busy, tget 0 s.plc.workNow e, loadWord l) else s.engineLoad f := by
  by_cases hf : f = e
  · subst hf
    simp [State.engineLoad, State.takeLoad, loadWord]
  · have hreg : Reg.PLC_ENGINE_LOAD f ≠ Reg.PLC_ENGINE_LOAD e := by
      rw [Reg.PLC_ENGINE_LOAD, Reg.PLC_ENGINE_LOAD]
      omega
    simp [State.engineLoad, State.takeLoad, hf, hreg]
    rfl

/-- The loads of the engines from `k` on. -/
def State.takeLoads (s : State) (k : Nat) (loads : List LoadSample) : State :=
  (loads.zipIdx k).foldl (fun s (l, e) => s.takeLoad e l) s

theorem State.takeLoads_cons (s : State) (k : Nat) (l : LoadSample) (loads : List LoadSample) :
    s.takeLoads k (l :: loads) = (s.takeLoad k l).takeLoads (k + 1) loads := rfl

theorem State.engineLoad_takeLoads_below (loads : List LoadSample) (s : State) {k e : Nat} (h : e < k) :
    (s.takeLoads k loads).engineLoad e = s.engineLoad e := by
  induction loads generalizing s k with
  | nil => rfl
  | cons l loads ih =>
    rw [State.takeLoads_cons, ih _ (Nat.lt_succ_of_lt h), State.engineLoad_takeLoad, if_neg (Nat.ne_of_lt h)]

/-- Each engine's own sample is taken, with the work it completed in the window (R221). -/
theorem State.engineLoad_takeLoads (loads : List LoadSample) (s : State) (k i : Nat) {l : LoadSample} (h : loads[i]? = some l) :
    (s.takeLoads k loads).engineLoad (k + i) = (l.busy, tget 0 s.plc.workNow (k + i), loadWord l) := by
  induction loads generalizing s k i with
  | nil => cases h
  | cons x loads ih =>
    rw [State.takeLoads_cons]
    cases i with
    | zero =>
      cases h
      show ((s.takeLoad k l).takeLoads (k + 1) loads).engineLoad k = (l.busy, tget 0 s.plc.workNow k, loadWord l)
      rw [State.engineLoad_takeLoads_below _ _ (Nat.lt_succ_self k), State.engineLoad_takeLoad, if_pos rfl]
    | succ i =>
      have hnext := ih (s.takeLoad k x) (k + 1) i h
      rw [Nat.add_right_comm, Nat.add_assoc] at hnext
      exact hnext

theorem State.reg_takeLoads (loads : List LoadSample) (s : State) (k : Nat) {a : Nat} (h : a < 0xF020) :
    (s.takeLoads k loads).reg a = s.reg a := by
  induction loads generalizing s k with
  | nil => rfl
  | cons l loads ih =>
    have hreg : a ≠ Reg.PLC_ENGINE_LOAD k := by
      rw [Reg.PLC_ENGINE_LOAD]
      omega
    rw [State.takeLoads_cons, ih]
    exact (State.reg_setReg ..).trans (if_neg hreg)

/-- The next window begins: its counts start from 0, and PLC_CASTLE_RATE applies (R221, R239). -/
def State.turnWindow (s : State) (w : Nat) : State :=
  { s with
    chans := tmap {} s.chans fun ch => { ch with place := { ch.place with
      lastWork := ch.place.work, work := 0, twinLast := ch.place.twinWork, twinWork := 0 } }
    plc := { s.plc with windowNo := w, predicted := [], workNow := [], limit := s.fld Reg.PLC_CASTLE_RATE 0 17
                        tokens := min s.plc.tokens (ceilDiv (s.fld Reg.PLC_CASTLE_RATE 0 17) 100) } }

/-- The end of window `w`: the loads, the pinned work above the ceiling, the plan and the count (R221 to R226). -/
def State.endWindow (s : State) (w : Nat) (loads : List LoadSample) : State :=
  (((List.range 16).foldl State.pinLoad ((s.takeLoads 0 loads).turnWindow w)).plan w).bump Reg.PLC_WINDOW 0 32

theorem exec_loadWindowEnd (s : State) (t : Nat) (loads : List LoadSample) (h : loads.length = 16) :
    exec (.loadWindowEnd t loads) s = atMoment t s fun x =>
      if x.devTime / windowQ ≤ x.plc.windowNo then x else x.endWindow (x.devTime / windowQ) loads :=
  (show execLoadWindowEnd t loads s = _ from if_neg (not_not_intro h)).trans rfl

/-- What the end of a window shows: the number of the window planned last, the loads of the engines, and PLC_WINDOW. -/
structure Window where
  no : Nat
  loads : Fin 16 → Nat × Nat × Word
  count : Word

def State.window (s : State) : Window := { no := s.plc.windowNo, loads := fun e => s.engineLoad e, count := s.reg Reg.PLC_WINDOW }

theorem State.window_eq {s u : State} (hno : u.plc.windowNo = s.plc.windowNo) (hbusy : u.plc.busy = s.plc.busy)
    (hwork : u.plc.work = s.plc.work) (hregs : ∀ a < 0x12008, u.reg a = s.reg a) : u.window = s.window := by
  have hload (e : Fin 16) : u.reg (Reg.PLC_ENGINE_LOAD e) = s.reg (Reg.PLC_ENGINE_LOAD e) :=
    hregs _ (by rw [Reg.PLC_ENGINE_LOAD]; omega)
  simp only [State.window, State.engineLoad, hno, hbusy, hwork, hload, hregs Reg.PLC_WINDOW (by decide)]

theorem State.windowNo_of_window {s u : State} (h : u.window = s.window) : u.plc.windowNo = s.plc.windowNo := congrArg Window.no h
theorem State.count_of_window {s u : State} (h : u.window = s.window) : u.reg Reg.PLC_WINDOW = s.reg Reg.PLC_WINDOW :=
  congrArg Window.count h
theorem State.engineLoad_of_window {s u : State} (h : u.window = s.window) (e : Fin 16) : u.engineLoad e = s.engineLoad e :=
  congrFun (congrArg Window.loads h) e

theorem State.window_raise (s : State) (f : FaultCode) (p : Nat) : (s.raise f p).window = s.window :=
  State.window_eq (by simp) (by simp) (by simp) fun _ ha => State.reg_raise _ _ _ _ (reportReg_low ha)

theorem State.window_pinLoad (s : State) (e : Nat) : (s.pinLoad e).window = s.window := by
  have counted (runs : Table Nat) : ({ s with plc := { s.plc with pinRuns := runs } } : State).window = s.window :=
    State.window_eq rfl rfl rfl fun _ _ => rfl
  simp only [State.pinLoad, apply_ite State.window, State.window_raise, ite_self, counted]

theorem State.window_plan (s : State) (w : Nat) : (s.plan w).window = s.window := by
  have planned (moves : List Move) : ({ s with plc := { s.plc with plan := moves } } : State).window = s.window :=
    State.window_eq rfl rfl rfl fun _ _ => rfl
  simp only [State.plan, apply_ite State.window, planned, ite_self]

/-- Planning, and the faults of pinned work, leave what the end of a window shows. -/
theorem State.window_planned (s : State) (w : Nat) : (((List.range 16).foldl State.pinLoad s).plan w).window = s.window :=
  (State.window_plan _ w).trans
    (foldl_keeps (fun x => x.window = s.window) State.pinLoad (fun x e hx => (x.window_pinLoad e).trans hx) _ s rfl)

theorem State.plc_bump (s : State) (a lo w : Nat) : (s.bump a lo w).plc = s.plc := by simp

theorem State.engineLoad_bump (s : State) (a lo w : Nat) {e : Nat} (h : Reg.PLC_ENGINE_LOAD e ≠ a) :
    (s.bump a lo w).engineLoad e = s.engineLoad e := by
  rw [State.engineLoad, State.plc_bump, State.reg_bump, if_neg h, State.engineLoad]

theorem State.windowNo_turnWindow (s : State) (w : Nat) : (s.turnWindow w).plc.windowNo = w := rfl
theorem State.reg_turnWindow (s : State) (w a : Nat) : (s.turnWindow w).reg a = s.reg a := rfl
theorem State.engineLoad_turnWindow (s : State) (w e : Nat) : (s.turnWindow w).engineLoad e = s.engineLoad e := rfl

theorem State.windowNo_endWindow (s : State) (w : Nat) (loads : List LoadSample) : (s.endWindow w loads).plc.windowNo = w := by
  rw [State.endWindow, State.plc_bump, State.windowNo_of_window (State.window_planned ..), State.windowNo_turnWindow]

theorem State.count_endWindow (s : State) (w : Nat) (loads : List LoadSample) :
    (s.endWindow w loads).fld Reg.PLC_WINDOW 0 32 = (s.fld Reg.PLC_WINDOW 0 32 + 1) % 2 ^ 32 := by
  rw [State.endWindow, State.fld_bump _ _ _ _ (by decide), State.fld, State.count_of_window (State.window_planned ..),
    State.reg_turnWindow, State.reg_takeLoads _ _ _ (by decide), ← State.fld]

theorem State.engineLoad_endWindow (s : State) (w : Nat) (loads : List LoadSample) (e : Fin 16) {l : LoadSample}
    (hl : loads[e.val]? = some l) :
    (s.endWindow w loads).engineLoad e = (l.busy, tget 0 s.plc.workNow e, loadWord l) := by
  have hreg : Reg.PLC_ENGINE_LOAD e ≠ Reg.PLC_WINDOW := by
    rw [Reg.PLC_ENGINE_LOAD, Reg.PLC_WINDOW]
    omega
  have htaken := State.engineLoad_takeLoads loads s 0 e hl
  rw [Nat.zero_add] at htaken
  rw [State.endWindow, State.engineLoad_bump _ _ _ _ hreg, State.engineLoad_of_window (State.window_planned ..) e,
    State.engineLoad_turnWindow, htaken]

@[simp] theorem State.settle_plc (w s : State) (t : Nat) : (w.settle s t).plc = w.plc := rfl
@[simp] theorem State.settle_engineLoad (w s : State) (t e : Nat) : (w.settle s t).engineLoad e = w.engineLoad e := rfl

/-- A load window that has ended is taken; the samples come in the order of the engines. -/
theorem loadWindowEnd_does (s : State) (t : Nat) (loads : List LoadSample) (hlen : loads.length = 16)
    (hended : s.plc.windowNo < (s.advance t).devTime / windowQ) :
    Does (.loadWindowEnd t loads) s fun u =>
      u.plc.windowNo = (s.advance t).devTime / windowQ ∧
      u.fld Reg.PLC_WINDOW 0 32 = (s.fld Reg.PLC_WINDOW 0 32 + 1) % 2 ^ 32 ∧
      ∀ (e : Fin 16) (l : LoadSample), loads[e.val]? = some l →
        u.engineLoad e = (l.busy, tget 0 s.plc.workNow e, loadWord l) := by
  refine Does.of_effect (exec_loadWindowEnd s t loads hlen) ?_
  rw [State.advance_plc, if_neg (Nat.not_le.mpr hended), State.settle_plc, State.settle_fld, State.windowNo_endWindow,
    State.count_endWindow, State.fld_advance]
  refine ⟨rfl, rfl, fun e l hl => ?_⟩
  rw [State.settle_engineLoad, State.engineLoad_endWindow _ _ _ e hl, State.advance_plc]

theorem loadWindowEnd_idles (s : State) (t : Nat) (loads : List LoadSample) (hlen : loads.length = 16)
    (hopen : (s.advance t).devTime / windowQ ≤ s.plc.windowNo) : Idles (.loadWindowEnd t loads) s :=
  Idles.of_effect (t := t) rfl (exec_loadWindowEnd s t loads hlen) (if_pos hopen)

/-- The fields that an engine's taken load shows (R239). -/
theorem State.engineLoad_fields {s : State} {e work : Nat} {l : LoadSample} (h : s.engineLoad e = (l.busy, work, loadWord l)) :
    tget 0 s.plc.busy e = l.busy ∧ tget 0 s.plc.work e = work ∧
    s.fld (Reg.PLC_ENGINE_LOAD e) 0 10 = min 1023 (l.busy * 1024 / windowQ) ∧
    s.fld (Reg.PLC_ENGINE_LOAD e) 10 10 = min 1023 l.xbar := by
  obtain ⟨hbusy, hrest⟩ := Prod.mk.inj h
  obtain ⟨hwork, hword⟩ := Prod.mk.inj hrest
  rw [State.fld, State.fld, hword]
  exact ⟨hbusy, hwork, loadWord_fields l⟩

end Sys2Proof.Machine

namespace Sys2Proof.Machine

/-! ### A castling begins (R226 to R228, R233) -/

theorem State.chans_allot (squares : List Nat) (s : State) (got : List (Nat × Nat)) : (State.allot squares s got).2.chans = s.chans := by
  induction squares generalizing s got with
  | nil => rfl
  | cons q squares ih => exact ih _ _

/-- A reserved destination takes places; the channels stay where they are (R225). -/
theorem State.chans_reserve (s : State) (m : Move) : (s.reserve m).2.chans = s.chans := by
  have allotted := State.chans_allot (s.destSquares m) s []
  unfold State.reserve
  dsimp only
  split
  · rfl
  · split
    · rfl
    · split <;> exact allotted

/-- The castling of the planned move `m` begins, and `rest` stays planned. -/
def State.beginMove (s : State) (m : Move) (rest : List Move) : State :=
  let s0 := (s.reserve m).2
  let s1 : State := { s0 with
    plc := { s0.plc with plan := rest, tokens := s.plc.tokens - 1
                         castlings := s.plc.castlings ++ [{ move := m, dest := (s.reserve m).1 }]
                         tokenAt := if s.plc.tokens = s.castleCap then s.now else s.plc.tokenAt }
    flt := { s.flt with begun := ledgerAdd s.flt.begun 1 } }
  if m.target.isNone then s1.modChan m.chan fun ch => { ch with back := ch.st, st := .castling } else s1

theorem exec_castlingBegin (s : State) (t : Nat) : exec (.castlingBegin t) s = atMoment t s fun x =>
    if x.castleHeld || x.plc.tokens = 0 then x
    else match takeFirst x.mayBegin x.plc.plan with
      | none => x
      | some (m, rest) => x.beginMove m rest := rfl

theorem State.beginMove_plc (s : State) (m : Move) (rest : List Move) :
    (s.beginMove m rest).plc.tokens = s.plc.tokens - 1 ∧ (s.beginMove m rest).plc.plan = rest ∧
    (s.beginMove m rest).plc.castlings = s.plc.castlings ++ [{ move := m, dest := (s.reserve m).1 }] ∧
    (s.beginMove m rest).plc.tokenAt = (if s.plc.tokens = s.castleCap then s.now else s.plc.tokenAt) ∧
    (s.beginMove m rest).flt.begun = (s.flt.begun + 1) % 2 ^ 48 := by
  unfold State.beginMove
  dsimp only
  split <;> exact ⟨rfl, rfl, rfl, rfl, rfl⟩

theorem State.beginMove_context (s : State) {m : Move} (rest : List Move) (h : m.target = none) :
    ((s.beginMove m rest).chan m.chan).st = .castling ∧ ((s.beginMove m rest).chan m.chan).back = (s.chan m.chan).st := by
  have hplace : (s.reserve m).2.chan m.chan = s.chan m.chan := State.chan_of_chans (s.chans_reserve m) _
  have hst := congrArg Chan.st hplace
  simp only [State.beginMove, h, Option.isNone_none, if_true, State.modChan_eq, State.chan_setChan]
  exact ⟨trivial, hst⟩

theorem State.beginMove_target (s : State) {m : Move} (rest : List Move) (h : m.target ≠ none) :
    (s.beginMove m rest).chans = s.chans := by
  have hsome : ¬m.target.isNone = true := by simpa using h
  rw [State.beginMove, if_neg hsome]
  exact s.chans_reserve m

theorem castlingBegin_does (s : State) (t : Nat) (m : Move) (rest : List Move) (hfree : s.castleHeld = false)
    (htokens : s.plc.tokens ≠ 0) (hnext : takeFirst s.mayBegin s.plc.plan = some (m, rest)) :
    Does (.castlingBegin t) s fun u =>
      u.plc.tokens = s.plc.tokens - 1 ∧ u.plc.plan = rest ∧
      u.plc.castlings = s.plc.castlings ++ [{ move := m, dest := ((s.advance t).reserve m).1 }] ∧
      (s.plc.tokens = s.castleCap → u.plc.tokenAt = max s.now t) ∧
      u.flt.begun = (s.flt.begun + 1) % 2 ^ 48 ∧
      (m.target = none → (u.chan m.chan).st = .castling ∧ (u.chan m.chan).back = (s.chan m.chan).st) ∧
      (m.target ≠ none → u.chans = s.chans) := by
  have hgo : ¬((s.advance t).castleHeld || decide ((s.advance t).plc.tokens = 0)) = true := by
    rw [show (s.advance t).castleHeld = false from hfree, State.advance_plc]
    simpa using htokens
  have hnow : s.now + (t - s.now) = max s.now t := by omega
  obtain ⟨hleft, hplan, hcastlings, hat, hbegun⟩ := (s.advance t).beginMove_plc m rest
  refine Does.of_effect (exec_castlingBegin s t) ?_
  rw [if_neg hgo, show takeFirst (s.advance t).mayBegin (s.advance t).plc.plan = some (m, rest) from hnext]
  exact ⟨hleft, hplan, hcastlings, fun hfull => (hat.trans (if_pos hfull)).trans hnow, hbegun,
    fun h => (s.advance t).beginMove_context rest h, fun h => (s.advance t).beginMove_target rest h⟩

theorem castlingBegin_idles (s : State) (t : Nat)
    (h : s.castleHeld = true ∨ s.plc.tokens = 0 ∨ takeFirst s.mayBegin s.plc.plan = none) : Idles (.castlingBegin t) s := by
  refine Idles.of_effect (t := t) rfl (exec_castlingBegin s t) ?_
  rw [show (s.advance t).castleHeld = s.castleHeld from rfl, State.advance_plc,
    show takeFirst (s.advance t).mayBegin s.plc.plan = takeFirst s.mayBegin s.plc.plan from rfl]
  rcases h with h | h | h
  · rw [h]
    rfl
  · rw [h]
    exact if_pos (by simp)
  · rw [h]
    exact ite_self _

/-! ### The seal and the tokens (R227, R232) -/

theorem exec_castlingSealAck (s : State) (t : Nat) (c : BitVec 20) : exec (.castlingSealAck t c) s = atMoment t s fun x =>
    { x with plc := { x.plc with castlings := x.plc.castlings.map fun k =>
        if k.move.chan == c.toNat && !k.sealed then { k with sealed := true, sealAt := x.devTime } else k } } := rfl

theorem castlingSealAck_does (s : State) (t : Nat) (c : BitVec 20) : Does (.castlingSealAck t c) s fun u =>
    u.plc.castlings = s.plc.castlings.map (fun k => if k.move.chan = c.toNat ∧ k.sealed = false then
      { k with sealed := true, sealAt := (s.advance t).devTime } else k) := by
  refine Does.of_effect (exec_castlingSealAck s t c) (List.map_congr_left fun k _ => ?_)
  simp

theorem exec_castleToken (s : State) (t : Nat) : exec (.castleToken t) s = atMoment t s fun x =>
    if x.plc.tokens < x.castleCap && x.plc.tokenAt + ceilDiv secQ x.plc.limit ≤ x.now then
      { x with plc := { x.plc with tokens := x.plc.tokens + 1, tokenAt := x.plc.tokenAt + ceilDiv secQ x.plc.limit } }
    else x := rfl

theorem State.advance_now_max (s : State) (t : Nat) : (s.advance t).now = max s.now t := by
  rw [State.advance_now]
  omega

theorem castleToken_does (s : State) (t : Nat) (hroom : s.plc.tokens < s.castleCap)
    (hdue : s.plc.tokenAt + ceilDiv secQ s.plc.limit ≤ max s.now t) :
    Does (.castleToken t) s fun u => u.plc.tokens = s.plc.tokens + 1 ∧ u.plc.tokens ≤ s.castleCap := by
  have hgo : ((s.advance t).plc.tokens < (s.advance t).castleCap &&
      (s.advance t).plc.tokenAt + ceilDiv secQ (s.advance t).plc.limit ≤ (s.advance t).now : Bool) = true := by
    rw [State.advance_now_max, State.advance_plc, show (s.advance t).castleCap = s.castleCap from rfl]
    simp [hroom, hdue]
  refine Does.of_effect (exec_castleToken s t) ?_
  rw [if_pos hgo]
  exact ⟨rfl, hroom⟩

theorem castleToken_idles (s : State) (t : Nat)
    (h : s.castleCap ≤ s.plc.tokens ∨ max s.now t < s.plc.tokenAt + ceilDiv secQ s.plc.limit) : Idles (.castleToken t) s := by
  refine Idles.of_effect (t := t) rfl (exec_castleToken s t) (if_neg ?_)
  rw [State.advance_now_max, State.advance_plc, show (s.advance t).castleCap = s.castleCap from rfl]
  simp only [Bool.and_eq_true, decide_eq_true_eq, not_and_or, Nat.not_lt, Nat.not_le]
  exact h

end Sys2Proof.Machine

namespace Sys2Proof.Machine

/-! ### Reports leave the castlings and what they moved (R238, R446) -/

/-- Between two states no castling, no ledger count of castlings that ended and no channel has changed, and of the registers only those
that a fault's report writes. -/
structure State.ReportsOnly (s u : State) : Prop where
  castlings : u.plc.castlings = s.plc.castlings
  completed : u.flt.completed = s.flt.completed
  aborted : u.flt.aborted = s.flt.aborted
  chans : u.chans = s.chans
  regs : ∀ a, reportReg a = false → u.reg a = s.reg a

theorem State.ReportsOnly.refl (s : State) : s.ReportsOnly s := ⟨rfl, rfl, rfl, rfl, fun _ _ => rfl⟩

theorem State.ReportsOnly.trans {s u v : State} (h : s.ReportsOnly u) (k : u.ReportsOnly v) : s.ReportsOnly v :=
  ⟨k.castlings.trans h.castlings, k.completed.trans h.completed, k.aborted.trans h.aborted, k.chans.trans h.chans,
    fun a ha => (k.regs a ha).trans (h.regs a ha)⟩

theorem State.ReportsOnly.castlingOf {s u : State} (h : s.ReportsOnly u) (c : Nat) : u.castlingOf c = s.castlingOf c := by
  rw [State.castlingOf, h.castlings, State.castlingOf]

theorem State.ReportsOnly.chan {s u : State} (h : s.ReportsOnly u) (c : Nat) : u.chan c = s.chan c := State.chan_of_chans h.chans c

theorem State.ReportsOnly.fld {s u : State} (h : s.ReportsOnly u) (a lo w : Nat) (ha : reportReg a = false) :
    u.fld a lo w = s.fld a lo w := by
  rw [State.fld, h.regs a ha, State.fld]

theorem State.push_reports (s : State) (n c : Nat) (e : Option Nat) (r : Record) : s.ReportsOnly (s.push n c e r) :=
  ⟨Plc.castlings_of_unheld (s.plc_push n c e r), congrArg Office.completed (s.office_push n c e r),
    congrArg Office.aborted (s.office_push n c e r), by simp, fun a ha => s.reg_push n c e r a ha⟩

theorem State.raise_reports (s : State) (f : FaultCode) (p : Nat) : s.ReportsOnly (s.raise f p) :=
  ⟨by simp, raise_completed s f p, raise_aborted s f p, by simp, fun a ha => s.reg_raise f p a ha⟩

theorem State.settle_reports (w s : State) (t : Nat) : w.ReportsOnly (w.settle s t) := ⟨rfl, rfl, rfl, rfl, fun _ _ => rfl⟩

theorem State.placeRecord_reports (s : State) (dest c reason : Nat) : s.ReportsOnly (s.placeRecord dest c reason) := s.push_reports ..

theorem State.placeReport_reports (s : State) (c reason : Nat) : s.ReportsOnly (s.placeReport c reason) := by
  unfold State.placeReport
  split
  · exact s.placeRecord_reports ..
  · exact .refl s

theorem State.setWish_reports (s : State) (c : Nat) (w : Wish) : s.ReportsOnly (s.setWish c w) := ⟨rfl, rfl, rfl, rfl, fun _ _ => rfl⟩

theorem State.payPin_reports (s : State) (c : Nat) : s.ReportsOnly (s.payPin c) := by
  unfold State.payPin
  dsimp only
  split
  · exact (s.setWish_reports c _).trans (State.push_reports ..)
  · exact .refl s

/-! ### A castling ends (R227, R229, R230) -/

/-- The castling is gone, and counted in the low `w` bits of register `a`. -/
def State.closeCastling (s : State) (k : Castling) (a w : Nat) : State := (s.endCastling k).bump a 0 w

/-- The ledger counts a castling that was completed (R452). -/
def State.countCompleted (s : State) : State := { s with flt := { s.flt with completed := ledgerAdd s.flt.completed 1 } }

/-- The ledger counts a castling that was aborted; a pin's move is planned again (R229, R452). -/
def State.countAborted (s : State) (m : Move) : State :=
  { s with flt := { s.flt with aborted := ledgerAdd s.flt.aborted 1 }
           plc := { s.plc with plan := (if m.pin then [m] else []) ++ s.plc.plan } }

/-- The window in which a channel was castled last. -/
def State.noteCastled (s : State) (c w : Nat) : State := s.modChan c fun ch => { ch with place := { ch.place with castledIn := some w } }

/-- The copy has passed its comparison, or there was nothing to copy: the move is taken. -/
def State.castled (s : State) (k : Castling) : State := ((s.takeMove k).closeCastling k Reg.PLC_CNT_CASTLED 48).countCompleted

/-- The copy has failed its comparison: the destination is freed. -/
def State.uncastled (s : State) (c : Nat) (k : Castling) : State :=
  (((s.freeDest k).closeCastling k Reg.PLC_CNT_ABORTED 32).countAborted k.move).noteCastled c s.plc.windowNo

/-- A move that was taken is reported, and its pin acknowledged where the channel now sits as the pin says. -/
def State.reportMove (s : State) (c reason : Nat) : State :=
  let s1 := s.placeReport c reason
  if s1.sitsPinned c then s1.payPin c else s1

/-- An abort raises PLC_COPY and is reported. -/
def State.reportAbort (s : State) (c : Nat) : State := (s.raise .plcCopy c).placeRecord (s.fld Reg.PLC_CTRL 8 6) c 2

theorem exec_castlingCopyDone (s : State) (t : Nat) (c : BitVec 20) (crc : Bool) : exec (.castlingCopyDone t c crc) s =
    atMoment t s fun x => match x.castlingOf c.toNat with
      | some k =>
        if !k.sealed then x
        else if crc || !x.copies k then (x.castled k).reportMove c.toNat (if k.move.target.isSome then 4 else 1)
        else (x.uncastled c.toNat k).reportAbort c.toNat
      | none => x := rfl

theorem State.chan_of_castlingOf {s : State} {c : Nat} {k : Castling} (h : s.castlingOf c = some k) : k.move.chan = c := by
  simpa using List.find?_some h

/-- No castling of the channel is left (R227, R229). -/
theorem State.castlingOf_endCastling (s : State) (k : Castling) : (s.endCastling k).castlingOf k.move.chan = none := by
  refine List.find?_eq_none.mpr fun x hx => ?_
  have hother := (List.mem_filter.mp hx).2
  simpa using hother

/-- What was returned, diverted or held is released in order behind the inbox, and the recorded state is restored (R227, R230). -/
def Chan.released (ch : Chan) (k : Castling) : Chan :=
  { ch with inbox := if k.move.twin then ch.inbox else ch.inbox ++ (k.diverted ++ k.waiting).flatten
            st := if k.move.target.isNone then ch.back else ch.st }

theorem State.chan_endCastling (s : State) (k : Castling) :
    (s.endCastling k).chan k.move.chan = (s.chan k.move.chan).released k :=
  (State.chan_setChan ..).trans (if_pos rfl)

theorem State.closeCastling_does (s : State) (k : Castling) (a w : Nat) (hw : w ≤ 64) :
    (s.closeCastling k a w).castlingOf k.move.chan = none ∧
    (s.closeCastling k a w).chan k.move.chan = (s.chan k.move.chan).released k ∧
    (s.closeCastling k a w).fld a 0 w = (s.fld a 0 w + 1) % 2 ^ w ∧ (s.closeCastling k a w).flt = s.flt := by
  have hchans : (s.closeCastling k a w).chans = (s.endCastling k).chans := by simp [State.closeCastling]
  have hflt : (s.closeCastling k a w).flt = (s.endCastling k).flt := by simp [State.closeCastling]
  refine ⟨?_, (State.chan_of_chans hchans _).trans (s.chan_endCastling k), ?_, hflt⟩
  · rw [State.closeCastling, State.castlingOf, State.plc_bump, ← State.castlingOf, State.castlingOf_endCastling]
  · exact State.fld_bump (s.endCastling k) a 0 w (by omega)

theorem State.takeMove_keeps (s : State) (k : Castling) :
    (s.takeMove k).flt = s.flt ∧ ∀ a, (s.takeMove k).reg a = s.reg a := by
  unfold State.takeMove
  dsimp only
  (repeat' split) <;> exact ⟨rfl, fun _ => rfl⟩

/-- A context that was moved, or its twin, is served by the receiving engine; of the channel nothing else changes (R227). -/
theorem State.takeMove_context (s : State) {k : Castling} (h : k.move.target = none) :
    ∃ p, (s.takeMove k).chan k.move.chan = { s.chan k.move.chan with place := p } ∧
      (k.move.twin = false → p.engine = k.move.toEngine) ∧ (k.move.twin = true → p.twin = some k.move.toEngine) := by
  have stored (x : State) (p : Placed) : (x.modChan k.move.chan fun ch => { ch with place := p }).chan k.move.chan =
      { x.chan k.move.chan with place := p } := (State.chan_setChan ..).trans (if_pos rfl)
  unfold State.takeMove
  simp only [h]
  split
  · next htwin => exact ⟨_, stored _ _, fun hno => absurd (htwin.symm.trans hno) nofun, fun _ => rfl⟩
  · next htwin => exact ⟨_, stored _ _, fun _ => rfl, fun hyes => absurd hyes htwin⟩

theorem State.freeDest_keeps (s : State) (k : Castling) :
    (s.freeDest k).flt = s.flt ∧ (s.freeDest k).chans = s.chans ∧ ∀ a, (s.freeDest k).reg a = s.reg a := by
  unfold State.freeDest
  dsimp only
  split <;> exact ⟨rfl, rfl, fun _ => rfl⟩

/-! #### The state behind a castling that ended -/

theorem State.countCompleted_does (s : State) (c a w : Nat) : s.countCompleted.castlingOf c = s.castlingOf c ∧
    s.countCompleted.chan c = s.chan c ∧ s.countCompleted.fld a 0 w = s.fld a 0 w ∧
    s.countCompleted.flt.completed = (s.flt.completed + 1) % 2 ^ 48 := ⟨rfl, rfl, rfl, rfl⟩

theorem State.castled_does (s : State) (k : Castling) :
    (s.castled k).castlingOf k.move.chan = none ∧ (s.castled k).chan k.move.chan = ((s.takeMove k).chan k.move.chan).released k ∧
    (s.castled k).fld Reg.PLC_CNT_CASTLED 0 48 = (s.fld Reg.PLC_CNT_CASTLED 0 48 + 1) % 2 ^ 48 ∧
    (s.castled k).flt.completed = (s.flt.completed + 1) % 2 ^ 48 := by
  obtain ⟨hflt, hreg⟩ := s.takeMove_keeps k
  obtain ⟨hgone, hchan, hcount, hkept⟩ := (s.takeMove k).closeCastling_does k Reg.PLC_CNT_CASTLED 48 (by decide)
  obtain ⟨hof, hch, hfld, hcompleted⟩ :=
    State.countCompleted_does ((s.takeMove k).closeCastling k Reg.PLC_CNT_CASTLED 48) k.move.chan Reg.PLC_CNT_CASTLED 48
  refine ⟨hof.trans hgone, hch.trans hchan, ?_, ?_⟩
  · rw [State.castled, hfld, hcount, State.fld, hreg, ← State.fld]
  · rw [State.castled, hcompleted, hkept, hflt]

/-- A context's move behind its castling: the recorded state, the released items and the receiving engine (R227, R230). -/
theorem Chan.released_moved (ch : Chan) (k : Castling) (p : Placed) (h : k.move.target = none) :
    (Chan.released { ch with place := p } k).st = ch.back ∧
    (k.move.twin = false → (Chan.released { ch with place := p } k).inbox = ch.inbox ++ (k.diverted ++ k.waiting).flatten) ∧
    (Chan.released { ch with place := p } k).place = p := by
  rw [Chan.released, h]
  exact ⟨rfl, fun hno => by rw [hno]; rfl, rfl⟩

theorem State.countAborted_does (s : State) (m : Move) (c a w : Nat) : (s.countAborted m).castlingOf c = s.castlingOf c ∧
    (s.countAborted m).chan c = s.chan c ∧ (s.countAborted m).fld a 0 w = s.fld a 0 w ∧
    (s.countAborted m).flt.aborted = (s.flt.aborted + 1) % 2 ^ 48 := ⟨rfl, rfl, rfl, rfl⟩

theorem State.noteCastled_does (s : State) (c n a w : Nat) : (s.noteCastled c n).castlingOf c = s.castlingOf c ∧
    (s.noteCastled c n).chan c = { s.chan c with place := { (s.chan c).place with castledIn := some n } } ∧
    (s.noteCastled c n).fld a 0 w = s.fld a 0 w ∧ (s.noteCastled c n).flt = s.flt :=
  ⟨rfl, (State.chan_setChan ..).trans (if_pos rfl), rfl, rfl⟩

/-- An aborted castling leaves the channel with the engine that it had, in its recorded state (R229). -/
theorem State.uncastled_does (s : State) (k : Castling) :
    let u := s.uncastled k.move.chan k
    u.castlingOf k.move.chan = none ∧
    u.fld Reg.PLC_CNT_ABORTED 0 32 = (s.fld Reg.PLC_CNT_ABORTED 0 32 + 1) % 2 ^ 32 ∧
    u.flt.aborted = (s.flt.aborted + 1) % 2 ^ 48 ∧
    (u.chan k.move.chan).place.engine = (s.chan k.move.chan).place.engine ∧
    (k.move.target = none → (u.chan k.move.chan).st = (s.chan k.move.chan).back) := by
  obtain ⟨hflt, hchans, hreg⟩ := s.freeDest_keeps k
  obtain ⟨hgone, hchan, hcount, hkept⟩ := (s.freeDest k).closeCastling_does k Reg.PLC_CNT_ABORTED 32 (by decide)
  obtain ⟨hof, hch, hfld, haborted⟩ := State.countAborted_does ((s.freeDest k).closeCastling k Reg.PLC_CNT_ABORTED 32) k.move
    k.move.chan Reg.PLC_CNT_ABORTED 32
  obtain ⟨hof', hch', hfld', hflt'⟩ := State.noteCastled_does
    (((s.freeDest k).closeCastling k Reg.PLC_CNT_ABORTED 32).countAborted k.move) k.move.chan s.plc.windowNo Reg.PLC_CNT_ABORTED 32
  dsimp only
  rw [State.uncastled, hof', hof, hgone, hch', hch, hchan, State.chan_of_chans hchans, hfld', hfld, hcount, hflt', haborted, hkept, hflt,
    State.fld, hreg, ← State.fld]
  refine ⟨rfl, rfl, rfl, rfl, fun h => ?_⟩
  rw [Chan.released, h]
  rfl

theorem State.reportMove_reports (s : State) (c reason : Nat) : s.ReportsOnly (s.reportMove c reason) := by
  unfold State.reportMove
  dsimp only
  split
  · exact (s.placeReport_reports c reason).trans (State.payPin_reports ..)
  · exact s.placeReport_reports c reason

theorem State.reportAbort_reports (s : State) (c : Nat) : s.ReportsOnly (s.reportAbort c) :=
  (s.raise_reports .plcCopy c).trans (State.placeRecord_reports ..)

theorem State.reportAbort_raises (s : State) (c : Nat) : (s.reportAbort c).flt.active.getLsbD FaultCode.plcCopy.cls = true :=
  (State.push_stand ..).2 _ (s.raise_class .plcCopy c)

/-! #### The rows of a copy's completion -/

theorem castlingCopyDone_idles {s : State} {c : BitVec 20} (t : Nat) (crc : Bool)
    (h : ∀ k, s.castlingOf c.toNat = some k → k.sealed = false) : Idles (.castlingCopyDone t c crc) s := by
  refine Idles.of_effect (t := t) rfl (exec_castlingCopyDone s t c crc) ?_
  rw [show (s.advance t).castlingOf c.toNat = s.castlingOf c.toNat from rfl]
  split
  · next k hk => simp [h k hk]
  · rfl

theorem castlingCopyDone_takes {s : State} {c : BitVec 20} {k : Castling} (t : Nat) {crc : Bool}
    (hk : s.castlingOf c.toNat = some k) (hsealed : k.sealed = true) (htaken : crc = true ∨ s.copies k = false) :
    Does (.castlingCopyDone t c crc) s fun u => ((s.advance t).castled k).ReportsOnly u := by
  have hgo : (crc || !(s.advance t).copies k) = true := by
    rw [show (s.advance t).copies k = s.copies k from rfl]
    simpa using htaken
  refine Does.of_effect (exec_castlingCopyDone s t c crc) ?_
  rw [show (s.advance t).castlingOf c.toNat = some k from hk]
  simp only [hsealed, hgo, Bool.not_true, Bool.false_eq_true, if_false, if_true]
  exact (State.reportMove_reports ..).trans (State.settle_reports ..)

theorem castlingCopyDone_aborts {s : State} {c : BitVec 20} {k : Castling} (t : Nat) (hk : s.castlingOf c.toNat = some k)
    (hsealed : k.sealed = true) (hcopies : s.copies k = true) :
    Does (.castlingCopyDone t c false) s fun u => ((s.advance t).uncastled c.toNat k).ReportsOnly u ∧
      u.flt.active.getLsbD FaultCode.plcCopy.cls = true := by
  refine Does.of_effect (exec_castlingCopyDone s t c false) ?_
  rw [show (s.advance t).castlingOf c.toNat = some k from hk]
  simp only [hsealed, show (s.advance t).copies k = true from hcopies, Bool.not_true, Bool.false_eq_true, Bool.or_false, if_false]
  rw [State.settle_flt]
  exact ⟨(State.reportAbort_reports ..).trans (State.settle_reports ..), State.reportAbort_raises ..⟩

/-- What a castling that took its move leaves, behind its reports (R227, R230). -/
theorem State.castled_reported {s u : State} {k : Castling} (h : (s.castled k).ReportsOnly u) :
    u.castlingOf k.move.chan = none ∧
    u.fld Reg.PLC_CNT_CASTLED 0 48 = (s.fld Reg.PLC_CNT_CASTLED 0 48 + 1) % 2 ^ 48 ∧
    u.flt.completed = (s.flt.completed + 1) % 2 ^ 48 ∧
    (k.move.target = none → (u.chan k.move.chan).st = (s.chan k.move.chan).back ∧
      (k.move.twin = false → (u.chan k.move.chan).inbox = (s.chan k.move.chan).inbox ++ (k.diverted ++ k.waiting).flatten) ∧
      (k.move.twin = false → (u.chan k.move.chan).place.engine = k.move.toEngine) ∧
      (k.move.twin = true → (u.chan k.move.chan).place.twin = some k.move.toEngine)) := by
  obtain ⟨hgone, hchan, hcount, hcompleted⟩ := s.castled_does k
  refine ⟨(h.castlingOf _).trans hgone, (h.fld _ _ _ (by decide)).trans hcount, h.completed.trans hcompleted, fun htarget => ?_⟩
  obtain ⟨p, hmoved, hengine, htwin⟩ := s.takeMove_context htarget
  obtain ⟨hst, hinbox, hplace⟩ := Chan.released_moved (s.chan k.move.chan) k p htarget
  rw [h.chan, hchan, hmoved, hplace]
  exact ⟨hst, hinbox, hengine, htwin⟩

/-- What an aborted castling leaves, behind its reports (R229). -/
theorem State.uncastled_reported {s u : State} {k : Castling} (h : (s.uncastled k.move.chan k).ReportsOnly u) :
    u.castlingOf k.move.chan = none ∧
    u.fld Reg.PLC_CNT_ABORTED 0 32 = (s.fld Reg.PLC_CNT_ABORTED 0 32 + 1) % 2 ^ 32 ∧
    u.flt.aborted = (s.flt.aborted + 1) % 2 ^ 48 ∧
    (u.chan k.move.chan).place.engine = (s.chan k.move.chan).place.engine ∧
    (k.move.target = none → (u.chan k.move.chan).st = (s.chan k.move.chan).back) := by
  rw [h.castlingOf, h.fld _ _ _ (by decide), h.aborted, h.chan]
  exact s.uncastled_does k

end Sys2Proof.Machine

section
open Sys2Proof.Machine

/-- Settles O15: the end of a window takes each engine's sample, and a castling that ends is gone with its move taken or undone; plans,
reports and raised faults change none of it. -/
theorem castlingRowsComplete : Obligations.CastlingRowsComplete := by
  refine ⟨fun s t loads hlen => ⟨fun hended => ?_, loadWindowEnd_idles s t loads hlen⟩, castlingBegin_does, castlingBegin_idles,
    castlingSealAck_does, fun s t c k hk => ?_, fun s t c crc hnone => castlingCopyDone_idles t crc (by simp [hnone]),
    fun s t => ⟨castleToken_does s t, fun h => castleToken_idles s t h⟩⟩
  · obtain ⟨u, hu, hno, hcount, hloads⟩ := loadWindowEnd_does s t loads hlen hended
    exact ⟨u, hu, hno, hcount, fun e l hl => State.engineLoad_fields (hloads e l hl)⟩
  · have hchan := State.chan_of_castlingOf hk
    refine ⟨fun hsealed => ?_, fun hsealed hcopies => ?_, fun hsealed hcopies => ?_, fun hopen crc => ?_⟩
    · obtain ⟨u, hu, hreports⟩ := castlingCopyDone_takes t hk hsealed (.inl rfl)
      have htaken := State.castled_reported hreports
      rw [hchan, State.fld_advance, State.advance_flt, State.chan_advance] at htaken
      exact ⟨u, hu, htaken⟩
    · obtain ⟨u, hu, hreports⟩ := castlingCopyDone_takes t hk hsealed (.inr hcopies)
      obtain ⟨hgone, -, hcompleted, -⟩ := State.castled_reported hreports
      exact ⟨u, hu, hchan ▸ hgone, hcompleted⟩
    · obtain ⟨u, hu, hreports, hraised⟩ := castlingCopyDone_aborts t hk hsealed hcopies
      rw [← hchan] at hreports
      have hleft := State.uncastled_reported hreports
      rw [hchan, State.fld_advance, State.advance_flt, State.chan_advance] at hleft
      obtain ⟨hgone, hcount, haborted, hengine, hst⟩ := hleft
      exact ⟨u, hu, hgone, hcount, haborted, hraised, hengine, hst⟩
    · exact castlingCopyDone_idles t crc fun k' hk' => Option.some.inj (hk.symm.trans hk') ▸ hopen

end

namespace Sys2Proof.Machine

/-! ### A lane, and what an update of another part of the state leaves of it -/

theorem State.lane_of_lanes {s u : State} (h : u.lanes = s.lanes) (n : Nat) : u.lane n = s.lane n := by
  rw [State.lane, h, State.lane]

/-- A field of a register that is as before. -/
theorem State.fld_of_reg {s u : State} {a : Nat} (h : u.reg a = s.reg a) (lo w : Nat) : u.fld a lo w = s.fld a lo w := by
  rw [State.fld, h, State.fld]

@[simp] theorem State.lane_start (s : State) (x : Timer) (n : Nat) : (s.start x).lane n = s.lane n := rfl
@[simp] theorem State.lane_out (s : State) (o : Output) (n : Nat) : (s.out o).lane n = s.lane n := rfl
@[simp] theorem State.lane_setFld (s : State) (a lo w v n : Nat) : (s.setFld a lo w v).lane n = s.lane n := rfl
@[simp] theorem State.lane_bump (s : State) (a lo w n : Nat) : (s.bump a lo w).lane n = s.lane n := rfl
@[simp] theorem State.lane_bumpSat (s : State) (a lo w n : Nat) : (s.bumpSat a lo w).lane n = s.lane n := rfl
@[simp] theorem State.lane_free (s : State) (n : Nat) : s.free.2.lane n = s.lane n := rfl
@[simp] theorem State.lane_raise (s : State) (f : FaultCode) (p n : Nat) : (s.raise f p).lane n = s.lane n :=
  State.lane_of_lanes (by simp) n
@[simp] theorem State.lane_push (s : State) (m c : Nat) (e : Option Nat) (r : Record) (n : Nat) :
    (s.push m c e r).lane n = s.lane n := State.lane_of_lanes (by simp) n
@[simp] theorem State.lane_laneEvent (s : State) (m n : Nat) : (s.laneEvent m).lane n = s.lane n := by
  unfold State.laneEvent
  split
  · exact State.lane_of_lanes (by simp) n
  · rfl
@[simp] theorem State.settle_lane (w s : State) (t n : Nat) : (w.settle s t).lane n = w.lane n := rfl
@[simp] theorem State.settle_lanes (w s : State) (t : Nat) : (w.settle s t).lanes = w.lanes := rfl
@[simp] theorem State.settle_pwr (w s : State) (t : Nat) : (w.settle s t).pwr = w.pwr := rfl
@[simp] theorem State.settle_bit (w s : State) (t a i : Nat) : (w.settle s t).bit a i = w.bit a i := rfl

/-- The registers of a lane take no report of a fault. -/
theorem reportReg_cou (n : Fin 16) (o : Nat) (ho : o < 256) : reportReg (0xC000 + o + 256 * n) = false :=
  reportReg_low (by omega)

theorem reportReg_couErr (n : Fin 16) : reportReg (Reg.COU_ERR n) = false := reportReg_cou n 0x28 (by decide)
theorem reportReg_couKa (n : Fin 16) : reportReg (Reg.COU_KA n) = false := reportReg_cou n 0x2C (by decide)
theorem reportReg_trainStatus (n : Fin 16) : reportReg (Reg.COU_TRAIN_STATUS n) = false := reportReg_cou n 0x20 (by decide)

/-! ### A command that acts under a condition -/

/-- A command whose condition holds at its moment has its effect. -/
theorem Does.of_met {c : Instr} {s : State} {t : Nat} {b : State → Bool} {f : State → State} {P : State → Prop}
    (h : exec c s = atMoment t s fun x => if b x then f x else x) (hb : b (s.advance t) = true)
    (hP : P ((f (s.advance t)).settle s t)) : Does c s P :=
  Does.of_effect h (by rwa [if_pos hb])

/-- A command by the outcome of its effect in the case that the state is in. -/
theorem Does.of_outcome {c : Instr} {s w : State} {t : Nat} {f : State → State} {P : State → Prop}
    (h : exec c s = atMoment t s f) (hw : f (s.advance t) = w) (hP : P (w.settle s t)) : Does c s P :=
  Does.of_effect h (hw ▸ hP)

/-- A command whose condition fails at its moment only lets time pass (log entry 15). -/
theorem Idles.of_unmet {c : Instr} {s : State} {t : Nat} {b : State → Bool} {f : State → State} (ht : c.time = t)
    (h : exec c s = atMoment t s fun x => if b x then f x else x) (hb : b (s.advance t) = false) : Idles c s :=
  Idles.of_effect ht h (if_neg (by simp [hb]))

/-- A lane is in state `st` and its timer `k` has run for `d`. -/
def State.laneDue (s : State) (n : Nat) (st : LaneState) (k : LaneTimer) (d : Nat) : Bool :=
  (s.lane n).st == st && s.past (.lane k n) d

theorem State.laneDue_advance {s : State} {t n d : Nat} {st : LaneState} {k : LaneTimer} (hst : (s.lane n).st = st)
    (hd : (s.advance t).past (.lane k n) d = true) : (s.advance t).laneDue n st k d = true := by
  simp [State.laneDue, hst, hd]

theorem State.laneDue_advance_false {s : State} {t n d : Nat} {st : LaneState} {k : LaneTimer}
    (h : (s.lane n).st ≠ st ∨ (s.advance t).past (.lane k n) d = false) : (s.advance t).laneDue n st k d = false := by
  obtain h | h := h <;> simp [State.laneDue, h]

/-! ### The blocks that a lane sends (R240, R254, R257) -/

/-- A lane whose transmitter has sent blocks: the scrambler and the block on the line. -/
def Lane.lined (l : Lane) (x : BitVec 58 × BitVec 66) : Lane := { l with scrambler := x.1, lineBlock := x.2 }

/-- Between two states lane n has sent blocks, and nothing else of it has changed. -/
def State.Sends (s u : State) (n : Nat) : Prop := ∃ x, u.lane n = (s.lane n).lined x

theorem State.Sends.of_lane {s u : State} {n : Nat} (h : u.lane n = s.lane n) : s.Sends u n :=
  ⟨((s.lane n).scrambler, (s.lane n).lineBlock), h⟩

theorem State.Sends.trans {s u v : State} {n : Nat} (h : s.Sends u n) (k : u.Sends v n) : s.Sends v n := by
  obtain ⟨x, hx⟩ := h
  obtain ⟨y, hy⟩ := k
  exact ⟨y, by rw [hy, hx]; rfl⟩

/-- What does not read the transmitter's line is as before. -/
theorem State.Sends.keeps {α : Type} {s u : State} {n : Nat} (h : s.Sends u n) (f : Lane → α) (hf : ∀ l x, f (l.lined x) = f l) :
    f (u.lane n) = f (s.lane n) := by
  obtain ⟨x, hx⟩ := h
  rw [hx, hf]

/-- What blocks are sent one after the other is sent by the whole. -/
theorem State.sends_foldl {α : Type} {n : Nat} {f : State → α → State} (h : ∀ (s : State) a, s.Sends (f s a) n) (l : List α)
    (s : State) :
    s.Sends (l.foldl f s) n :=
  foldl_keeps (fun u => s.Sends u n) f (fun _ a hu => hu.trans (h _ a)) l s (.of_lane rfl)

theorem Lane.line_lined (l : Lane) (control : Bool) (payload : Word) : ∃ x, l.line control payload = l.lined x :=
  ⟨(_, _), rfl⟩

theorem Lane.fills_lined (k : Nat) : ∀ l : Lane, ∃ x, Lane.fills k l = l.lined x := by
  induction k with
  | zero => exact fun l => ⟨(l.scrambler, l.lineBlock), rfl⟩
  | succ k ih =>
    intro l
    obtain ⟨y, hy⟩ := l.line_lined false 0
    obtain ⟨x, hx⟩ := ih (l.line false 0)
    exact ⟨x, by rw [Lane.fills, hx, hy]; rfl⟩

theorem State.sendCtl_sends (s : State) (n type : Nat) (p : Ctl) : s.Sends (s.sendCtl n type p) n :=
  have ⟨x, hx⟩ := (s.lane n).line_lined true (ctlWord type p)
  ⟨x, by simp [State.sendCtl, hx]⟩

theorem State.sendData_sends (s : State) (n : Nat) (w : Word) : s.Sends (s.sendData n w) n :=
  have ⟨x, hx⟩ := (s.lane n).line_lined false w
  ⟨x, by simp [State.sendData, hx]⟩

theorem State.sendFill_sends (s : State) (n k : Nat) : s.Sends (s.sendFill n k) n := by
  obtain ⟨x, hx⟩ := Lane.fills_lined k (s.lane n)
  exact ⟨x, by simp [State.sendFill, hx]⟩

theorem State.sendAlign_sends (s : State) (n : Nat) (req ans : Bool) (turn : Nat) : s.Sends (s.sendAlign n req ans turn) n := by
  unfold State.sendAlign
  dsimp only
  split
  · exact s.sendCtl_sends ..
  · exact (s.sendCtl_sends ..).trans (State.sendFill_sends ..)

theorem State.sendDispatch_sends (s : State) (n : Nat) (d : Dispatched) : s.Sends (s.sendDispatch n d) n :=
  ((s.sendCtl_sends n 0x87 d.head).trans (State.sends_foldl (fun s w => s.sendData_sends n w) d.data _)).trans
    ((State.sendCtl_sends ..).trans (.of_lane rfl))

theorem State.resend_sends (s : State) (n : Nat) (ds : List Dispatched) : s.Sends (s.resend n ds) n :=
  (State.sends_foldl (fun s d => (s.sendDispatch_sends n d).trans (.of_lane (State.lane_bump ..))) ds s).trans (.of_lane rfl)

@[simp] theorem State.reg_sendCtl (s : State) (n type : Nat) (p : Ctl) (a : Nat) : (s.sendCtl n type p).reg a = s.reg a := rfl
@[simp] theorem State.reg_sendFill (s : State) (n k a : Nat) : (s.sendFill n k).reg a = s.reg a := rfl
@[simp] theorem State.reg_sendAlign (s : State) (n : Nat) (req ans : Bool) (turn a : Nat) :
    (s.sendAlign n req ans turn).reg a = s.reg a := by
  unfold State.sendAlign
  dsimp only
  split <;> simp

/-- A training frame counts itself, and its rx_ready (R254, R256). -/
theorem State.lane_sendTraining (s : State) (n : Nat) : ∃ x, (s.sendTraining n).lane n =
    let l := (s.lane n).lined x
    { l with train := { l.train with seq := l.train.seq + 1, readyTx := if l.train.rxReady then l.train.readyTx + 1 else 0 } } := by
  obtain ⟨x, hx⟩ := (s.sendCtl_sends n 0x3C (s.trainBits n)).trans (State.sendFill_sends _ n 31)
  exact ⟨x, by simp only [State.sendTraining, State.modLane_eq, State.lane_setLane, if_true, hx]⟩

@[simp] theorem State.reg_sendTraining (s : State) (n a : Nat) : (s.sendTraining n).reg a = s.reg a := by
  simp [State.sendTraining]

/-- An echo request notes the boundary at which it goes (R258). -/
theorem State.lane_sendEcho (s : State) (n : Nat) :
    ∃ x, (s.sendEcho n).lane n = { (s.lane n).lined x with echoAt := some s.nextCycle } := by
  obtain ⟨x, hx⟩ := s.sendAlign_sends n true false 0
  exact ⟨x, by simp only [State.sendEcho, State.lane_start, State.modLane_eq, State.lane_setLane, if_true, hx]⟩

/-! ### A lane's changes of state (R247) -/

/-- A lane that has entered a state, with what each entry clears. -/
def Lane.entered (l : Lane) (st : LaneState) : Lane :=
  { l with st := st, probing := false, probed := false, backoff := false, alignRun := 0, echoAt := none, echoed := false
           loopNew := 0, frozen := false, kaMissing := false, nakOut := none }

@[simp] theorem State.lane_laneTo (s : State) (n : Nat) (st : LaneState) : (s.laneTo n st).lane n = (s.lane n).entered st := by
  unfold State.laneTo
  dsimp only
  split <;> split <;> split <;> simp [Lane.entered]


@[simp] theorem State.reg_laneEvent (s : State) (n a : Nat) : (s.laneEvent n).reg a = s.reg a := by
  unfold State.laneEvent
  split
  · exact State.reg_event ..
  · rfl

/-- A change of state writes COU_LANE_CNT alone of the registers. -/
theorem State.reg_laneTo (s : State) (n : Nat) (st : LaneState) (a : Nat) (h : a ≠ Reg.COU_LANE_CNT n) :
    (s.laneTo n st).reg a = s.reg a := by
  unfold State.laneTo
  dsimp only
  split <;> split <;> split <;> simp [h]

@[simp] theorem State.lane_laneToOff (s : State) (n : Nat) : (s.laneToOff n).lane n =
    { ((s.lane n).entered .off).unlock with
      tokens := false, attempt := 0, partner := false, signal := false, eq := 0, train := s.freshTaps n } := by
  simp [State.laneToOff]

@[simp] theorem State.lane_laneToDetect (s : State) (n : Nat) : (s.laneToDetect n).lane n =
    { ((s.lane n).entered .detect).unlock with tokens := false, attempt := 0, empty := 0 } := by
  simp [State.laneToDetect]

@[simp] theorem State.lane_laneToAbsent (s : State) (n : Nat) : (s.laneToAbsent n).lane n =
    { ((s.lane n).entered .absent).unlock with partnerSeen := false } := by
  simp [State.laneToAbsent]

/-- A lane in RECOVER sends ALIGN blocks (R259). -/
theorem State.lane_laneToRecover (s : State) (n : Nat) : ∃ x, (s.laneToRecover n).lane n = ((s.lane n).entered .recover).lined x := by
  obtain ⟨x, hx⟩ := (s.laneTo n .recover).sendAlign_sends n false false 0
  exact ⟨x, by rw [State.laneToRecover, hx, State.lane_laneTo]⟩

/-- A lane that enters TRAIN keeps its attempt, its partner and its empty probes; after RECOVER it keeps its taps (R256, R259). -/
theorem State.lane_laneToTrain (s : State) (n : Nat) (kept : Bool) : let k := (s.laneToTrain n kept).lane n
    k.st = .train ∧ k.attempt = (s.lane n).attempt ∧ k.partner = (s.lane n).partner ∧ k.empty = (s.lane n).empty ∧
    (kept = true → (k.train.pre, k.train.main, k.train.post) =
      ((s.lane n).train.pre, (s.lane n).train.main, (s.lane n).train.post)) := by
  cases kept <;> simp [State.laneToTrain, Lane.entered, Lane.unlock]

/-- A failed attempt is counted with its cause; the lane is in backoff, or in ABSENT after the eighth (R247, R248). -/
theorem State.laneFails_does (s : State) (n : Fin 16) (cause : Nat) (hc : cause < 8) : let u := s.laneFails n cause
    (u.lane n).attempt = (s.lane n).attempt + 1 ∧ u.fld (Reg.COU_TRAIN_STATUS n) 17 3 = cause ∧
    (u.lane n).st = (if (s.lane n).attempt = 7 then .absent else .detect) := by
  have hne : Reg.COU_TRAIN_STATUS n ≠ Reg.COU_LANE_CNT n := by simp [Reg.COU_TRAIN_STATUS, Reg.COU_LANE_CNT]
  have counted (x : State) (h : x.reg (Reg.COU_TRAIN_STATUS n) =
      (s.setFld (Reg.COU_TRAIN_STATUS n) 17 3 cause).reg (Reg.COU_TRAIN_STATUS n)) :
      x.fld (Reg.COU_TRAIN_STATUS n) 17 3 = cause := by
    rw [State.fld_of_reg h, State.fld_setFld _ _ _ _ _ (by decide)]
    exact Nat.mod_eq_of_lt hc
  by_cases h : (s.lane n).attempt = 7
  · refine ⟨?_, counted _ ?_, ?_⟩
    · simp [State.laneFails, h, Lane.entered, Lane.unlock]
    · simp [State.laneFails, h, State.laneToAbsent, reportReg_trainStatus, State.reg_laneTo _ _ _ _ hne]
    · simp [State.laneFails, h, Lane.entered, Lane.unlock]
  · refine ⟨?_, counted _ ?_, ?_⟩
    · simp [State.laneFails, h, Lane.entered, Lane.unlock]
    · simp [State.laneFails, h, State.reg_laneTo _ _ _ _ hne]
    · simp [State.laneFails, h, Lane.entered, Lane.unlock]

end Sys2Proof.Machine

namespace Sys2Proof.Machine

/-! ### Adaptation and keep-alives of an ACTIVE lane (R258, R260, R261) -/

theorem exec_loopEcho (s : State) (t : Nat) (n : Fin 16) : exec (.loopEcho t n) s = atMoment t s fun x =>
    if x.laneDue n .active .echo (1000000 * usQ) then x.sendEcho n else x := rfl

theorem exec_adaptFreeze (s : State) (t : Nat) (n : Fin 16) : exec (.adaptFreeze t n) s = atMoment t s fun x =>
    if x.laneDue n .active .data (1024 * 3168) then x.modLane n fun l => { l with frozen := true } else x := rfl

/-- The hub's keep-alive: the next value of its count as a data block (R261). -/
def State.sendKeepalive (s : State) (n : Nat) : State :=
  ((s.sendData n (s.lane n).kaCount).start (.lane .keepalive n)).modLane n fun l => { l with kaCount := l.kaCount + 1 }

theorem exec_keepaliveSend (s : State) (t : Nat) (n : Fin 16) : exec (.keepaliveSend t n) s = atMoment t s fun x =>
    if x.laneDue n .active .keepalive (x.fld (Reg.COU_ADAPT n) 0 8 * usQ) then x.sendKeepalive n else x := rfl

theorem State.sendKeepalive_does (s : State) (n : Nat) : let u := s.sendKeepalive n
    u.sent = s.sent ++ [.data n (s.lane n).kaCount] ∧ (u.lane n).kaCount = (s.lane n).kaCount + 1 ∧
    u.began (.lane .keepalive n) = s.now := by
  have hcount := (s.sendData_sends n (s.lane n).kaCount).keeps Lane.kaCount fun _ _ => rfl
  refine ⟨?_, ?_, ?_⟩
  · simp [State.sendKeepalive, State.sendData, State.out]
  · simp [State.sendKeepalive, hcount]
  · simp [State.sendKeepalive, State.began, State.start, State.sendData]

/-- A keep-alive stays away: counted, and raised once in a run of misses (R261). -/
def State.missKeepalive (s : State) (n : Nat) : State :=
  let s1 := (s.bumpSat (Reg.COU_KA n) 0 16).start (.lane .miss n)
  if (s.lane n).kaMissing then s1 else (s1.modLane n fun l => { l with kaMissing := true }).raise .keepaliveMiss n

theorem exec_keepaliveMiss (s : State) (t : Nat) (n : Fin 16) : exec (.keepaliveMiss t n) s = atMoment t s fun x =>
    if x.laneDue n .active .miss (64 * usQ) then x.missKeepalive n else x := rfl

theorem State.missKeepalive_does (s : State) (n : Fin 16) : let u := s.missKeepalive n
    u.fld (Reg.COU_KA n) 0 16 = min 65535 (s.fld (Reg.COU_KA n) 0 16 + 1) ∧ (u.lane n).kaMissing = true ∧
    ((s.lane n).kaMissing = false → u.flt.active.getLsbD FaultCode.keepaliveMiss.cls = true) := by
  have counted := s.fld_bumpSat (Reg.COU_KA n) 0 16 (by decide)
  unfold State.missKeepalive
  split
  next hrun => exact ⟨counted, by simpa using hrun, fun h => absurd hrun (by simp [h])⟩
  next => exact ⟨(State.fld_raise _ _ _ _ _ _ (reportReg_couKa n)).trans counted, by simp, fun _ => State.raise_class ..⟩

/-- Adaptation moves the codes of the receiver, and those only while they are not held (R260). -/
theorem State.lane_adapt (s : State) (n : Nat) : ∃ e, (s.adapt n).lane n = { s.lane n with eq := e } ∧
    (s.bit (Reg.COU_ADAPT n) 8 = true → e = (s.lane n).eq) := by
  unfold State.adapt
  split
  next => exact ⟨(s.lane n).eq, rfl, fun _ => rfl⟩
  next hfree => exact ⟨s.free.1 &&& 0x3F3F3F3F3F1F, by simp, fun h => absurd h hfree⟩

theorem exec_keepaliveBlock (s : State) (t : Nat) (n : Fin 16) (w : Word) : exec (.keepaliveBlock t n w) s = atMoment t s fun x =>
    if (x.lane n).st == .active then x.dataBlock n else x := rfl

theorem State.dataBlock_does (s : State) (n : Nat) : let k := (s.dataBlock n).lane n
    k.frozen = false ∧ k.kaMissing = false ∧ k.buffer = (s.lane n).buffer ∧
    (s.bit (Reg.COU_ADAPT n) 8 = true → k.eq = (s.lane n).eq) := by
  obtain ⟨e, hlane, hheld⟩ := (((s.start (.lane .data n)).start (.lane .miss n)).modLane n fun l =>
    { l.valid 1 with frozen := false, kaMissing := false }).lane_adapt n
  rw [State.dataBlock, hlane]
  simpa [Lane.valid, State.bit] using hheld

/-! ### Loss of signal and invalid sync headers (R241, R250) -/

/-- What the loss of signal does in each state (R247, R250). -/
def State.loseSignal (s : State) (n : Nat) : State :=
  let s1 := s.modLane n fun l => { l with signal := false }
  match (s.lane n).st with
  | .active | .recover => (s1.laneToDetect n).raise .laneDown n
  | .train | .align | .credit => s1.laneFails n 1
  | .off | .detect | .absent => s1

theorem exec_lossOfSignal (s : State) (t : Nat) (n : Fin 16) :
    exec (.lossOfSignal t n) s = atMoment t s fun x => x.loseSignal n := rfl

theorem State.loseSignal_carrying {s : State} {n : Nat} (h : (s.lane n).st = .active ∨ (s.lane n).st = .recover) :
    s.loseSignal n = ((s.modLane n fun l => { l with signal := false }).laneToDetect n).raise .laneDown n := by
  unfold State.loseSignal
  obtain h | h := h <;> rw [h]

theorem State.loseSignal_attempting {s : State} {n : Nat}
    (h : (s.lane n).st = .train ∨ (s.lane n).st = .align ∨ (s.lane n).st = .credit) :
    s.loseSignal n = (s.modLane n fun l => { l with signal := false }).laneFails n 1 := by
  unfold State.loseSignal
  obtain h | h | h := h <;> rw [h]

theorem State.loseSignal_unlinked {s : State} {n : Nat}
    (h : (s.lane n).st = .off ∨ (s.lane n).st = .detect ∨ (s.lane n).st = .absent) :
    s.loseSignal n = s.modLane n fun l => { l with signal := false } := by
  unfold State.loseSignal
  obtain h | h | h := h <;> rw [h]

/-- The moments of the last invalid headers of 64 blocks, this one included (R241). -/
def State.recentHeaders (s : State) (n : Nat) : List Nat :=
  s.now :: (s.lane n).recentBad.filter fun x => decide (s.now < x + 64 * 3168)

/-- An invalid header is counted and ends the runs of valid ones (R241). -/
def State.countHeader (s : State) (n : Nat) : State :=
  (s.modLane n fun l =>
    { l with validRun := 0, recentBad := s.recentHeaders n, train := { l.train with clean := 0 } }).bump (Reg.COU_ERR n) 0 16

/-- Block lock is lost, and counted (R241). -/
def State.loseLock (s : State) (n : Nat) : State := (s.modLane n (·.unlock)).bump (Reg.COU_ERR n) 16 16

/-- An invalid header where the receiver looks for block lock or has it: an ACTIVE lane that loses its lock recovers (R241, R259). -/
def State.badHeader (s : State) (n : Nat) : State :=
  let s1 := s.countHeader n
  if (s.lane n).blockLock && 16 ≤ (s.recentHeaders n).length then
    if (s.lane n).st == .active then (s1.loseLock n).laneToRecover n else s1.loseLock n
  else s1

/-- What an invalid header does in each state (R241). -/
def State.invalidHeader (s : State) (n : Nat) : State :=
  match (s.lane n).st with
  | .off => s
  | .detect | .absent => s.bump (Reg.COU_ERR n) 0 16
  | _ => s.badHeader n

theorem exec_invalidSyncHeader (s : State) (t : Nat) (n : Fin 16) :
    exec (.invalidSyncHeader t n) s = atMoment t s fun x => x.invalidHeader n := rfl

theorem State.invalidHeader_linking {s : State} {n : Nat} (hoff : (s.lane n).st ≠ .off) (hdetect : (s.lane n).st ≠ .detect)
    (habsent : (s.lane n).st ≠ .absent) : s.invalidHeader n = s.badHeader n := by
  unfold State.invalidHeader
  split
  next h => exact absurd h hoff
  next h => exact absurd h hdetect
  next h => exact absurd h habsent
  next => rfl

theorem State.invalidHeader_unlinked {s : State} {n : Nat} (h : (s.lane n).st = .detect ∨ (s.lane n).st = .absent) :
    s.invalidHeader n = s.bump (Reg.COU_ERR n) 0 16 := by
  unfold State.invalidHeader
  obtain h | h := h <;> rw [h]

theorem State.countHeader_does (s : State) (n : Nat) : let u := s.countHeader n
    u.fld (Reg.COU_ERR n) 0 16 = (s.fld (Reg.COU_ERR n) 0 16 + 1) % 2 ^ 16 ∧ (u.lane n).validRun = 0 ∧
    (u.lane n).st = (s.lane n).st ∧ (u.lane n).blockLock = (s.lane n).blockLock :=
  ⟨State.fld_bump _ _ _ _ (by decide), by simp [State.countHeader], by simp [State.countHeader], by simp [State.countHeader]⟩

theorem State.loseLock_does (s : State) (n : Nat) : let u := s.loseLock n
    u.fld (Reg.COU_ERR n) 0 16 = s.fld (Reg.COU_ERR n) 0 16 ∧ u.lane n = (s.lane n).unlock :=
  ⟨State.fld_bumpBy_other _ _ _ _ _ _ _ (by decide) (.inl (by decide)), by simp [State.loseLock]⟩

theorem State.badHeader_does (s : State) (n : Nat) : let u := s.badHeader n
    (u.lane n).validRun = 0 ∧ u.fld (Reg.COU_ERR n) 0 16 = (s.fld (Reg.COU_ERR n) 0 16 + 1) % 2 ^ 16 ∧
    ((s.recentHeaders n).length < 16 → (u.lane n).st = (s.lane n).st ∧ (u.lane n).blockLock = (s.lane n).blockLock) ∧
    (16 ≤ (s.recentHeaders n).length → (s.lane n).blockLock = true → (u.lane n).blockLock = false ∧
      (u.lane n).st = (if (s.lane n).st = .active then .recover else (s.lane n).st)) := by
  obtain ⟨hcount, hrun, hst, hlock⟩ := s.countHeader_does n
  obtain ⟨herr, hlost⟩ := (s.countHeader n).loseLock_does n
  have hne : Reg.COU_ERR n ≠ Reg.COU_LANE_CNT n := by simp [Reg.COU_ERR, Reg.COU_LANE_CNT]
  unfold State.badHeader
  dsimp only
  split
  next h =>
    simp only [Bool.and_eq_true, decide_eq_true_eq] at h
    split
    next hactive =>
      obtain ⟨x, hx⟩ := ((s.countHeader n).loseLock n).lane_laneToRecover n
      rw [hlost] at hx
      have hreg : (((s.countHeader n).loseLock n).laneToRecover n).fld (Reg.COU_ERR n) 0 16 = _ :=
        State.fld_of_reg ((State.reg_sendAlign ..).trans (State.reg_laneTo _ n .recover _ hne)) 0 16
      rw [hx, hreg, if_pos (by simpa using hactive)]
      exact ⟨rfl, herr.trans hcount, fun hfew => by omega, fun _ _ => ⟨rfl, rfl⟩⟩
    next hactive =>
      rw [hlost, if_neg (by simpa using hactive)]
      exact ⟨rfl, herr.trans hcount, fun hfew => by omega, fun _ _ => ⟨rfl, hst⟩⟩
  next h =>
    simp only [Bool.and_eq_true, decide_eq_true_eq] at h
    exact ⟨hrun, hcount, fun _ => ⟨hst, hlock⟩, fun hmany hlocked => absurd ⟨hlocked, hmany⟩ h⟩

end Sys2Proof.Machine

section
open Sys2Proof.Machine

/-- Settles O19: each timer acts where the lane is ACTIVE and the time has run, the loss of signal and an invalid header by the state in
which they find the lane. -/
theorem laneActiveRowsComplete : Obligations.LaneActiveRowsComplete := by
  refine ⟨fun s t n => ⟨fun hst hd => ?_, fun h => ?_, fun hst hd => ?_, fun h => ?_, fun hst hd => ?_, fun h => ?_,
    fun hst hd => ?_, fun h => ?_⟩, fun s t n w => ⟨fun hst => ?_, fun hst => ?_⟩,
    fun s t n => ⟨fun h => ?_, fun h => ?_, fun h => ?_⟩,
    fun s t n => ⟨fun hoff hdetect habsent => ?_, fun h => ?_, fun hoff => ?_⟩⟩
  · obtain ⟨x, hx⟩ := (s.advance t).lane_sendEcho n
    exact .of_met (exec_loopEcho ..) (State.laneDue_advance hst hd) (congrArg Lane.echoAt hx)
  · exact .of_unmet rfl (exec_loopEcho ..) (State.laneDue_advance_false h)
  · exact .of_met (exec_adaptFreeze ..) (State.laneDue_advance hst hd) (by simp)
  · exact .of_unmet rfl (exec_adaptFreeze ..) (State.laneDue_advance_false h)
  · exact .of_met (exec_keepaliveSend ..) (State.laneDue_advance hst hd) ((s.advance t).sendKeepalive_does n)
  · exact .of_unmet rfl (exec_keepaliveSend ..) (State.laneDue_advance_false h)
  · exact .of_met (exec_keepaliveMiss ..) (State.laneDue_advance hst hd) ((s.advance t).missKeepalive_does n)
  · exact .of_unmet rfl (exec_keepaliveMiss ..) (State.laneDue_advance_false h)
  · exact .of_met (exec_keepaliveBlock ..) (by simp [hst]) ((s.advance t).dataBlock_does n)
  · exact .of_unmet rfl (exec_keepaliveBlock ..) (by simp [hst])
  · refine .of_outcome (exec_lossOfSignal ..) (State.loseSignal_carrying h) ⟨?_, ?_, ?_, ?_, State.raise_class ..⟩ <;>
      simp [Lane.entered, Lane.unlock]
  · have failed := ((s.advance t).modLane n fun l => { l with signal := false }).laneFails_does n 1 (by decide)
    exact .of_outcome (exec_lossOfSignal ..) (State.loseSignal_attempting h) (by simpa using failed)
  · exact .of_outcome (exec_lossOfSignal ..) (State.loseSignal_unlinked h) (by simp)
  · have bad := (s.advance t).badHeader_does n
    rw [State.recentHeaders, s.advance_now_max t] at bad
    exact .of_outcome (exec_invalidSyncHeader ..) (State.invalidHeader_linking hoff hdetect habsent) bad
  · exact .of_outcome (exec_invalidSyncHeader ..) (State.invalidHeader_unlinked h) ⟨rfl, State.fld_bump _ _ _ _ (by decide)⟩
  · exact .of_effect rfl (exec_invalidSyncHeader ..) (by simp [State.invalidHeader, hoff])

end

namespace Sys2Proof.Machine

/-! ### Training blocks (R254 to R256) -/

/-- What the receiver has seen of a lane, and the taps of the hub's transmitter. -/
def Lane.held (l : Lane) : (Bool × Nat) × (Nat × Nat × Nat) :=
  ((l.signal, l.validRun), (l.train.pre, l.train.main, l.train.post))

@[simp] theorem State.held_askPreset (s : State) (n : Nat) : ((s.askPreset n).lane n).held = (s.lane n).held := by
  unfold State.askPreset
  dsimp only
  split
  · simp [Lane.held]
  · rfl

@[simp] theorem State.held_discardTraining (s : State) (n : Nat) : ((s.discardTraining n).lane n).held = (s.lane n).held := by
  simp [State.discardTraining, Lane.held]

@[simp] theorem State.held_sendTraining (s : State) (n : Nat) : ((s.sendTraining n).lane n).held = (s.lane n).held := by
  obtain ⟨x, hx⟩ := s.lane_sendTraining n
  rw [hx]
  rfl

@[simp] theorem State.held_adapt (s : State) (n : Nat) : ((s.adapt n).lane n).held = (s.lane n).held := by
  obtain ⟨e, he, -⟩ := s.lane_adapt n
  rw [he]
  rfl

@[simp] theorem State.held_nextTap (s : State) (n : Nat) (p : Ctl) : ((s.nextTap n p).lane n).held = (s.lane n).held := by
  unfold State.nextTap
  dsimp only
  split
  · rfl
  · split <;> simp [Lane.held]

@[simp] theorem State.held_laneToAlign (s : State) (n : Nat) : ((s.laneToAlign n).lane n).held = (s.lane n).held := by
  obtain ⟨x, hx⟩ := (s.laneTo n .align).lane_sendEcho n
  rw [State.laneToAlign, hx, State.lane_laneTo]
  rfl

/-- A good training block under block lock: the partner's requests are answered and its answers heard (R254, R255). -/
def State.takeTraining (s : State) (n : Nat) (p : Ctl) (preset : Nat) : State :=
  let ready := cf p 16 1 = 1
  s.modLane n fun l =>
    let t := (l.train.answers p).heard p preset
    { l with train := { t with partnerReady := ready, readyRx := if ready then t.readyRx + 1 else 0, clean := t.clean + 32 } }

/-- Behind the partner's requests and answers, the hub's own part of the training leaves what the receiver has seen and its taps: its
adaptation, its next tap, its training frame, and the change to ALIGN once both sides are ready (R256). -/
theorem State.held_trainingIn (s : State) (n : Nat) (p : Ctl) (hlock : ((s.lane n).valid 32).blockLock = true)
    (hgood : badTraining p = false) : ((s.trainingIn n p).lane n).held =
      ((((s.modLane n (·.valid 32)).askPreset n).takeTraining n p (s.fld (Reg.COU_TRAIN n) 0 3)).lane n).held := by
  unfold State.trainingIn
  extract_lets s0 s1 ready preset s2 s3 t
  have hlock0 : (s0.lane n).blockLock = true := by simpa [s0] using hlock
  have h3 : (s3.lane n).held = (s2.lane n).held := by
    simp only [s3, State.held_sendTraining, State.held_nextTap]
    split
    · rfl
    · exact State.held_adapt ..
  rw [if_neg (by simp [hlock0]), if_neg (by simp [hgood])]
  split
  · exact (State.held_laneToAlign ..).trans h3
  · exact h3

@[simp] theorem State.seen_takeTraining (s : State) (n : Nat) (p : Ctl) (preset : Nat) :
    ((s.takeTraining n p preset).lane n).held.1 = (s.lane n).held.1 := by
  simp [State.takeTraining, Lane.held]

/-- A training block that is discarded is counted, ends the run of clean blocks, and the lane's next frame goes (R254, R256). -/
theorem State.trainingIn_bad (s : State) (n : Nat) (p : Ctl) (hbad : badTraining p = true) : ∃ x : State,
    s.trainingIn n p = (x.discardTraining n).sendTraining n ∧ x.reg (Reg.COU_ERR n) = s.reg (Reg.COU_ERR n) ∧
    (x.lane n).held = ((s.lane n).valid 32).held := by
  have hne : Reg.COU_ERR n ≠ Reg.COU_TRAIN_STATUS n := by simp [Reg.COU_ERR, Reg.COU_TRAIN_STATUS]
  unfold State.trainingIn
  extract_lets s0 s1
  have h0 : (s0.lane n).held = ((s.lane n).valid 32).held := by simp [s0]
  rw [if_pos hbad, if_pos hbad]
  split
  · exact ⟨s0, rfl, rfl, h0⟩
  · refine ⟨s1, rfl, ?_, (State.held_askPreset ..).trans h0⟩
    simp only [s1, State.askPreset]
    split
    · simp [hne, s0]
    · rfl

/-- Before block lock a good training block is answered with the lane's next frame alone (R256). -/
theorem State.trainingIn_unlocked (s : State) (n : Nat) (p : Ctl) (hlock : ((s.lane n).valid 32).blockLock = false)
    (hgood : badTraining p = false) : s.trainingIn n p = (s.modLane n (·.valid 32)).sendTraining n := by
  unfold State.trainingIn
  extract_lets s0
  have hlock0 : (s0.lane n).blockLock = false := by simpa [s0] using hlock
  rw [if_pos (by simp [hlock0]), if_neg (by simp [hgood])]

/-- Every training block is 32 valid headers (R241, R254). -/
theorem State.seen_trainingIn (s : State) (n : Nat) (p : Ctl) :
    ((s.trainingIn n p).lane n).held.1 = (true, min 64 ((s.lane n).validRun + 32)) := by
  cases hp : badTraining p with
  | true =>
    obtain ⟨x, hx, -, hheld⟩ := s.trainingIn_bad n p hp
    rw [hx, State.held_sendTraining, State.held_discardTraining, hheld]
    rfl
  | false =>
    cases hlock : ((s.lane n).valid 32).blockLock with
    | false =>
      rw [s.trainingIn_unlocked n p hlock hp, State.held_sendTraining]
      simp [Lane.held, Lane.valid]
    | true =>
      rw [s.held_trainingIn n p hlock hp, State.seen_takeTraining, State.held_askPreset]
      simp [Lane.held, Lane.valid]

theorem State.fld_discardTraining (s : State) (n : Nat) :
    (s.discardTraining n).fld (Reg.COU_ERR n) 0 16 = (s.fld (Reg.COU_ERR n) 0 16 + 1) % 2 ^ 16 :=
  State.fld_bump _ _ _ _ (by decide)

theorem State.trainingIn_bad_does (s : State) (n : Nat) (p : Ctl) (h : badTraining p = true) : let u := s.trainingIn n p
    (u.lane n).train.clean = 0 ∧ u.fld (Reg.COU_ERR n) 0 16 = (s.fld (Reg.COU_ERR n) 0 16 + 1) % 2 ^ 16 := by
  obtain ⟨x, hx, herr, -⟩ := s.trainingIn_bad n p h
  obtain ⟨y, hy⟩ := (x.discardTraining n).lane_sendTraining n
  dsimp only
  rw [hx, hy, State.fld_of_reg (State.reg_sendTraining ..), State.fld_discardTraining, State.fld_of_reg herr]
  exact ⟨by simp [State.discardTraining, Lane.lined], rfl⟩

/-- What the partner answers to the hub's requests leaves the hub's own taps. -/
theorem Training.heard_taps (t : Training) (p : Ctl) (preset : Nat) : let u := t.heard p preset
    (u.pre, u.main, u.post) = (t.pre, t.main, t.post) := by
  unfold Training.heard
  dsimp only
  (repeat' split) <;> rfl

/-- A preset that the partner asks for is taken (R255). -/
theorem State.taps_takeTraining (s : State) (n : Nat) (p : Ctl) (preset : Nat) (h : cf p 6 1 = 1) :
    ((s.takeTraining n p preset).lane n).held.2 = tapPreset (cf p 7 3) := by
  have htaps := ((s.lane n).train.answers p).heard_taps p preset
  rw [Training.answers, if_pos h] at htaps
  simpa [State.takeTraining, Lane.held, Training.answers, h] using htaps

theorem State.trainingIn_preset (s : State) (n : Nat) (p : Ctl) (hlock : (s.lane n).blockLock = true)
    (hgood : badTraining p = false) (h : cf p 6 1 = 1) :
    ((s.trainingIn n p).lane n).held.2 = tapPreset (cf p 7 3) := by
  rw [s.held_trainingIn n p (by simp [Lane.valid, hlock]) hgood]
  exact State.taps_takeTraining _ _ _ _ h

/-! #### A training block outside TRAIN -/

/-- What a training block does in each state (R254, R291). -/
def State.hearTraining (s : State) (n : Nat) (p : Ctl) : State :=
  match (s.lane n).st with
  | .train => s.trainingIn n p
  | .active =>
    let s1 := (if badTraining p then s.discardTraining n else s).modLane n (·.valid 1)
    if s.isPeer n then s1 else s1.formatBlock n
  | .align | .credit | .recover => (if badTraining p then s.discardTraining n else s).modLane n (·.valid 1)
  | .detect | .absent => if badTraining p then s.discardTraining n else s.lateAgreement n p
  | .off => s

theorem exec_trainingBlock (s : State) (t : Nat) (n : Fin 16) (p : Ctl) :
    exec (.trainingBlock t n p) s = atMoment t s fun x => x.hearTraining n p := rfl

theorem State.hearTraining_train {s : State} {n : Nat} (p : Ctl) (h : (s.lane n).st = .train) :
    s.hearTraining n p = s.trainingIn n p := by
  rw [State.hearTraining, h]

theorem State.hearTraining_linking {s : State} {n : Nat} (p : Ctl) (hbad : badTraining p = true)
    (h : (s.lane n).st = .align ∨ (s.lane n).st = .credit ∨ (s.lane n).st = .recover) :
    s.hearTraining n p = (s.discardTraining n).modLane n (·.valid 1) := by
  unfold State.hearTraining
  obtain h | h | h := h <;> rw [h, if_pos hbad]

theorem State.hearTraining_active {s : State} {n : Nat} (p : Ctl) (hbad : badTraining p = true) (h : (s.lane n).st = .active) :
    let s1 := (s.discardTraining n).modLane n (·.valid 1)
    s.hearTraining n p = if s.isPeer n then s1 else s1.formatBlock n := by
  rw [State.hearTraining, h, if_pos hbad]

/-- A violation of the protocol leaves the lane's state, and of the registers of the lane all but its own counter (R291, R292). -/
theorem State.formatBlock_does (s : State) (n : Fin 16) : let u := s.formatBlock n
    (u.lane n).st = (s.lane n).st ∧ u.reg (Reg.COU_ERR n) = s.reg (Reg.COU_ERR n) := by
  have hne : Reg.COU_ERR n ≠ Reg.COU_PROTO_ERR n := by simp [Reg.COU_ERR, Reg.COU_PROTO_ERR]
  have hquiet := reportReg_couErr n
  have occur (x : State) (reason seq : Nat) : ((x.laneOccur n reason seq).lane n).st = (x.lane n).st ∧
      (x.laneOccur n reason seq).reg (Reg.COU_ERR n) = x.reg (Reg.COU_ERR n) := by
    unfold State.laneOccur State.laneReturn
    dsimp only
    split <;> simp [hquiet]
  have fault (x : State) : ((x.protocolFault n).lane n).st = (x.lane n).st ∧
      (x.protocolFault n).reg (Reg.COU_ERR n) = x.reg (Reg.COU_ERR n) := by
    unfold State.protocolFault
    split <;> simp [hquiet]
  obtain ⟨hst, hreg⟩ := occur ((s.bumpSat (Reg.COU_PROTO_ERR n) 16 8).protocolFault n) 13 (s.lane n).rxNext.toNat
  obtain ⟨hst', hreg'⟩ := fault (s.bumpSat (Reg.COU_PROTO_ERR n) 16 8)
  exact ⟨hst.trans hst', hreg.trans (hreg'.trans (by simp [hne]))⟩

/-- A discarded training block in a state behind TRAIN is counted and changes no state (R254). -/
theorem State.hearTraining_discards (s : State) (n : Fin 16) (p : Ctl) (h : badTraining p = true)
    (hst : (s.lane n).st = .align ∨ (s.lane n).st = .credit ∨ (s.lane n).st = .recover ∨ (s.lane n).st = .active) :
    let u := s.hearTraining n p
    (u.lane n).st = (s.lane n).st ∧ u.fld (Reg.COU_ERR n) 0 16 = (s.fld (Reg.COU_ERR n) 0 16 + 1) % 2 ^ 16 := by
  have counted : let u := (s.discardTraining n).modLane n (·.valid 1)
      (u.lane n).st = (s.lane n).st ∧ u.fld (Reg.COU_ERR n) 0 16 = (s.fld (Reg.COU_ERR n) 0 16 + 1) % 2 ^ 16 :=
    ⟨by simp [State.discardTraining, Lane.valid], s.fld_discardTraining n⟩
  have linking (hlink : (s.lane n).st = .align ∨ (s.lane n).st = .credit ∨ (s.lane n).st = .recover) :=
    State.hearTraining_linking p h hlink
  obtain hst | hst | hst | hst := hst
  · exact linking (.inl hst) ▸ counted
  · exact linking (.inr (.inl hst)) ▸ counted
  · exact linking (.inr (.inr hst)) ▸ counted
  · rw [State.hearTraining_active p h hst]
    split
    · exact counted
    · obtain ⟨hkept, hreg⟩ := ((s.discardTraining n).modLane n (·.valid 1)).formatBlock_does n
      exact ⟨hkept.trans counted.1, (State.fld_of_reg hreg 0 16).trans counted.2⟩

end Sys2Proof.Machine

namespace Sys2Proof.Machine

/-! ### The hub's requests, rx_ready and the limits of the states (R247, R255, R256, R262) -/

/-- The hub waits for the answer to a request. -/
def Training.waits (t : Training) : Bool := t.preset && t.asked || t.reqTap.isSome

theorem Training.waits_of {t : Training} (h : t.preset = true ∧ t.asked = true ∨ t.reqTap.isSome = true) : t.waits = true := by
  simpa [Training.waits] using h

theorem Training.not_waits {t : Training} (h : (t.preset = false ∨ t.asked = false) ∧ t.reqTap = none) : t.waits = false := by
  obtain ⟨h, htap⟩ := h
  obtain h | h := h <;> simp [Training.waits, h, htap]

/-- A request that stays unanswered is given up: counted, and HOLD is sent (R255). -/
def State.dropRequest (s : State) (n : Nat) : State :=
  ((s.modLane n fun l => { l with train := { l.train with preset := false, reqTap := none } }).bumpSat
    (Reg.COU_TRAIN_STATUS n) 8 8).sendTraining n

theorem exec_tapRequestTimeout (s : State) (t : Nat) (n : Fin 16) : exec (.tapRequestTimeout t n) s = atMoment t s fun x =>
    if (x.lane n).st == .train && (x.lane n).train.waits && x.past (.lane .request n) (1000 * usQ) then x.dropRequest n else x := rfl

theorem State.dropRequest_does (s : State) (n : Nat) : let u := s.dropRequest n
    (u.lane n).train.preset = false ∧ (u.lane n).train.reqTap = none ∧
    u.fld (Reg.COU_TRAIN_STATUS n) 8 8 = min 255 (s.fld (Reg.COU_TRAIN_STATUS n) 8 8 + 1) := by
  obtain ⟨x, hx⟩ := ((s.modLane n fun l => { l with train := { l.train with preset := false, reqTap := none } }).bumpSat
    (Reg.COU_TRAIN_STATUS n) 8 8).lane_sendTraining n
  dsimp only
  rw [State.dropRequest, hx, State.fld_of_reg (State.reg_sendTraining ..)]
  exact ⟨by simp [Lane.lined], by simp [Lane.lined], State.fld_bumpSat _ _ _ _ (by decide)⟩

theorem tapRequestTimeout_drops (s : State) (t : Nat) (n : Fin 16) (hst : (s.lane n).st = .train)
    (hw : (s.lane n).train.preset = true ∧ (s.lane n).train.asked = true ∨ (s.lane n).train.reqTap.isSome = true)
    (hd : (s.advance t).past (.lane .request n) (1000 * usQ) = true) : Does (.tapRequestTimeout t n) s fun u =>
      (u.lane n).train.preset = false ∧ (u.lane n).train.reqTap = none ∧
      u.fld (Reg.COU_TRAIN_STATUS n) 8 8 = min 255 (s.fld (Reg.COU_TRAIN_STATUS n) 8 8 + 1) := by
  refine .of_met (exec_tapRequestTimeout ..) (by simp [hst, hd, Training.waits_of hw]) ?_
  have dropped := (s.advance t).dropRequest_does n
  rw [State.fld_advance] at dropped
  rwa [State.settle_lane, State.settle_fld]

theorem tapRequestTimeout_idles (s : State) (t : Nat) (n : Fin 16)
    (h : (s.lane n).st ≠ .train ∨ (s.advance t).past (.lane .request n) (1000 * usQ) = false ∨
      ((s.lane n).train.preset = false ∨ (s.lane n).train.asked = false) ∧ (s.lane n).train.reqTap = none) :
    Idles (.tapRequestTimeout t n) s := by
  refine .of_unmet (t := t) rfl (exec_tapRequestTimeout ..) ?_
  obtain h | h | h := h
  · simp [h]
  · rw [h, Bool.and_false]
  · simp [Training.not_waits h]

/-- The conditions of rx_ready (R256 step 4). -/
def State.seesEye (s : State) (n : Nat) (margin : Byte) : Bool :=
  let l := s.lane n
  l.st == .train && l.blockLock && !l.train.preset && 2 ^ 20 ≤ l.train.clean && s.fld (Reg.COU_TRAIN n) 8 8 ≤ margin.toNat

theorem exec_rxReady (s : State) (t : Nat) (n : Fin 16) (margin : Byte) : exec (.rxReady t n margin) s = atMoment t s fun x =>
    if x.seesEye n margin then
      x.modLane n fun l => { l with train := { l.train with rxReady := true, stepsDone := true, reqTap := none } }
    else x := rfl

theorem State.seesEye_of {s : State} {n : Nat} {margin : Byte} (hst : (s.lane n).st = .train) (hlock : (s.lane n).blockLock = true)
    (hpre : (s.lane n).train.preset = false) (hclean : 2 ^ 20 ≤ (s.lane n).train.clean)
    (hmargin : s.fld (Reg.COU_TRAIN n) 8 8 ≤ margin.toNat) : s.seesEye n margin = true := by
  simp only [State.seesEye, hst, hlock, hpre, decide_eq_true hclean, decide_eq_true hmargin]
  rfl

theorem State.not_seesEye {s : State} {n : Nat} {margin : Byte}
    (h : (s.lane n).st ≠ .train ∨ (s.lane n).blockLock = false ∨ (s.lane n).train.preset = true ∨ (s.lane n).train.clean < 2 ^ 20 ∨
      margin.toNat < s.fld (Reg.COU_TRAIN n) 8 8) : s.seesEye n margin = false := by
  obtain h | h | h | h | h := h
  · simp [State.seesEye, h]
  · simp [State.seesEye, h]
  · simp [State.seesEye, h]
  · simp only [State.seesEye, decide_eq_false (Nat.not_le.mpr h), Bool.and_false, Bool.false_and]
  · simp only [State.seesEye, decide_eq_false (Nat.not_le.mpr h), Bool.and_false]

/-- The attempt fails at the limit of TRAIN; the runs of ready blocks are kept, to tell a late agreement (R30, R256). -/
def State.trainFails (s : State) (n : Nat) : State :=
  (s.laneFails n 2).modLane n fun l =>
    { l with train := { l.train with readyRx := (s.lane n).train.readyRx, readyTx := (s.lane n).train.readyTx } }

theorem exec_trainLimit (s : State) (t : Nat) (n : Fin 16) : exec (.trainLimit t n) s = atMoment t s fun x =>
    if x.laneDue n .train .state (24000 * usQ) then x.trainFails n else x := rfl

theorem exec_alignLimit (s : State) (t : Nat) (n : Fin 16) : exec (.alignLimit t n) s = atMoment t s fun x =>
    if x.laneDue n .align .state (2000 * usQ) then x.laneFails n 3 else x := rfl

theorem exec_creditLimit (s : State) (t : Nat) (n : Fin 16) : exec (.creditLimit t n) s = atMoment t s fun x =>
    if x.laneDue n .credit .state (2000 * usQ) then x.laneFails n 4 else x := rfl

theorem exec_recoverLimit (s : State) (t : Nat) (n : Fin 16) : exec (.recoverLimit t n) s = atMoment t s fun x =>
    if x.laneDue n .recover .state (1000 * usQ) then (x.laneToTrain n true).setFld (Reg.COU_TRAIN_STATUS n) 17 3 5 else x := rfl

theorem State.trainFails_does (s : State) (n : Fin 16) : let u := s.trainFails n
    (u.lane n).attempt = (s.lane n).attempt + 1 ∧ u.fld (Reg.COU_TRAIN_STATUS n) 17 3 = 2 ∧
    (u.lane n).st = (if (s.lane n).attempt = 7 then .absent else .detect) := by
  obtain ⟨hattempt, hcause, hst⟩ := s.laneFails_does n 2 (by decide)
  exact ⟨by simpa [State.trainFails] using hattempt, hcause, by simpa [State.trainFails] using hst⟩

/-- A state whose limit has run out fails its attempt (R247, R248). -/
theorem limit_fails {c : Instr} {s : State} {t d cause : Nat} {n : Fin 16} {st : LaneState} {f : State → State}
    (h : exec c s = atMoment t s fun x => if x.laneDue n st .state d then f x else x) (hst : (s.lane n).st = st)
    (hd : (s.advance t).past (.lane .state n) d = true)
    (hf : let u := f (s.advance t)
      (u.lane n).attempt = (s.lane n).attempt + 1 ∧ u.fld (Reg.COU_TRAIN_STATUS n) 17 3 = cause ∧
      (u.lane n).st = (if (s.lane n).attempt = 7 then .absent else .detect)) :
    Does c s fun u => (u.lane n).attempt = (s.lane n).attempt + 1 ∧ u.fld (Reg.COU_TRAIN_STATUS n) 17 3 = cause ∧
      (u.lane n).st = (if (s.lane n).attempt = 7 then .absent else .detect) := by
  refine .of_met h (State.laneDue_advance hst hd) ?_
  rw [State.settle_lane, State.settle_fld]
  exact hf

/-! ### ALIGN blocks (R257 to R259) -/

/-- What an ALIGN block does before it is counted: the lane's receiver sees 16 valid headers, or one in ACTIVE; a partner's echo request
is answered, and the answer to the hub's is taken. -/
def State.hearAlign (s : State) (n : Nat) (p : Ctl) : State :=
  let st := (s.lane n).st
  let good := checkOk p
  let s0 := if st == .off || st == .absent || st == .detect then s else s.modLane n fun l => l.valid (if st == .active then 1 else 16)
  let asked := good && s0.isPeer n && cf p 5 1 = 1
  let s1 := if asked && (st == .align || st == .active || st == .recover) then s0.echoReply n else s0
  if good && cf p 6 1 = 1 && (st == .align || st == .active) then s1.echoAnswer n p else s1

/-- The run of good ALIGN blocks. -/
def State.countAlign (s : State) (n : Nat) (good : Bool) : State :=
  s.modLane n fun l => { l with alignRun := if good then l.alignRun + 1 else 0 }

/-- An ALIGN block in ALIGN: the 64th good one in a row, with an echo completed, ends it (R257). -/
def State.alignOn (s : State) (n : Nat) : State :=
  if 64 ≤ (s.lane n).alignRun && (s.lane n).echoed then s.laneToCredit n else s.nextAlign n

/-- An ALIGN block in RECOVER under block lock: the 64th good one in a row ends it (R259). -/
def State.recoverOn (s : State) (n : Nat) : State :=
  if 64 ≤ (s.lane n).alignRun then s.laneRecovered n else s.sendAlign n false false 0

/-- What an ALIGN block does in each state. -/
def State.takeAlign (s : State) (n : Nat) (p : Ctl) : State :=
  let s2 := s.hearAlign n p
  match (s.lane n).st with
  | .align => (s2.countAlign n (checkOk p)).alignOn n
  | .recover => if !(s2.lane n).blockLock then s2.sendAlign n false false 0 else (s2.countAlign n (checkOk p)).recoverOn n
  | .active => if s2.isPeer n && checkOk p && cf p 5 2 = 0 then s2.laneToRecover n else s2
  | _ => s2

theorem exec_alignBlock (s : State) (t : Nat) (n : Fin 16) (p : Ctl) :
    exec (.alignBlock t n p) s = atMoment t s fun x => x.takeAlign n p := rfl

/-- What hearing an ALIGN block leaves of a lane's alignment; without an echo's answer in it, the loop delay too. -/
structure Lane.HearsAlign (p : Ctl) (l k : Lane) : Prop where
  st : k.st = l.st
  run : k.alignRun = l.alignRun
  echoed : l.echoed = true → k.echoed = true
  lock : l.blockLock = true → k.blockLock = true
  delay : cf p 6 1 = 0 → k.loopNew = l.loopNew

theorem Lane.HearsAlign.refl (p : Ctl) (l : Lane) : l.HearsAlign p l := ⟨rfl, rfl, id, id, fun _ => rfl⟩

theorem Lane.HearsAlign.trans {p : Ctl} {l k m : Lane} (h : l.HearsAlign p k) (g : k.HearsAlign p m) : l.HearsAlign p m :=
  ⟨g.st.trans h.st, g.run.trans h.run, g.echoed ∘ h.echoed, g.lock ∘ h.lock, fun h0 => (g.delay h0).trans (h.delay h0)⟩

theorem Lane.hearsAlign_valid (p : Ctl) (l : Lane) (k : Nat) : l.HearsAlign p (l.valid k) :=
  ⟨rfl, rfl, id, fun h => by simp [Lane.valid, h], fun _ => rfl⟩

theorem State.Sends.hearsAlign {s u : State} {n : Nat} (h : s.Sends u n) (p : Ctl) : (s.lane n).HearsAlign p (u.lane n) := by
  obtain ⟨x, hx⟩ := h
  rw [hx]
  exact ⟨rfl, rfl, id, id, fun _ => rfl⟩

theorem State.echoAnswer_hearsAlign (s : State) (n : Nat) (p : Ctl) (h : cf p 6 1 = 1) :
    (s.lane n).HearsAlign p ((s.echoAnswer n p).lane n) := by
  have answered (u : State) (hu : u.lane n = s.lane n) (d : Nat) :
      (s.lane n).HearsAlign p ((u.modLane n fun l => { l with echoAt := none, echoed := true, loopNew := d }).lane n) := by
    rw [State.modLane_eq, State.lane_setLane, if_pos rfl, hu]
    exact ⟨rfl, rfl, fun _ => rfl, id, fun h0 => by omega⟩
  unfold State.echoAnswer
  split
  · refine answered _ ?_ _
    split <;> rfl
  · exact .refl p _

theorem State.hearAlign_hearsAlign (s : State) (n : Nat) (p : Ctl) : (s.lane n).HearsAlign p ((s.hearAlign n p).lane n) := by
  unfold State.hearAlign
  extract_lets st good s0 asked s1
  have h0 : (s.lane n).HearsAlign p (s0.lane n) := by
    simp only [s0]
    split
    · exact .refl p _
    · rw [State.modLane_eq, State.lane_setLane, if_pos rfl]
      exact Lane.hearsAlign_valid ..
  have h1 : (s0.lane n).HearsAlign p (s1.lane n) := by
    simp only [s1]
    split
    · exact (s0.sendAlign_sends ..).hearsAlign p
    · exact .refl p _
  split
  next h =>
    simp only [Bool.and_eq_true, decide_eq_true_eq] at h
    exact (h0.trans h1).trans (s1.echoAnswer_hearsAlign n p h.1.2)
  next => exact h0.trans h1

/-- An ALIGN block that has been heard and counted. -/
def State.alignCounted (s : State) (n : Nat) (p : Ctl) : State := (s.hearAlign n p).countAlign n (checkOk p)

theorem State.alignCounted_does (s : State) (n : Nat) (p : Ctl) : let k := (s.alignCounted n p).lane n
    k.st = (s.lane n).st ∧ k.alignRun = (if checkOk p then (s.lane n).alignRun + 1 else 0) ∧
    ((s.lane n).echoed = true → k.echoed = true) ∧ (cf p 6 1 = 0 → k.loopNew = (s.lane n).loopNew) := by
  have heard := s.hearAlign_hearsAlign n p
  simp only [State.alignCounted, State.countAlign, State.modLane_eq, State.lane_setLane, if_true, ← heard.run]
  exact ⟨heard.st, trivial, heard.echoed, heard.delay⟩

/-- The hub's next ALIGN block, with an echo request in it or not, leaves the lane in its state and its run (R257). -/
theorem State.nextAlign_keeps (s : State) (n : Nat) : ((s.nextAlign n).lane n).st = (s.lane n).st ∧
    ((s.nextAlign n).lane n).alignRun = (s.lane n).alignRun := by
  have plain := s.sendAlign_sends n false false 0
  have sent := And.intro (plain.keeps Lane.st fun _ _ => rfl) (plain.keeps Lane.alignRun fun _ _ => rfl)
  obtain ⟨x, hx⟩ := s.lane_sendEcho n
  unfold State.nextAlign
  dsimp only
  split
  · split
    · rw [hx]
      exact ⟨rfl, rfl⟩
    · exact sent
  · exact sent

/-- A lane that enters CREDIT shows the loop delay that it has measured, and starts its exchange afresh (R258, R262, R277). -/
theorem State.laneToCredit_does (s : State) (n : Nat) : let u := s.laneToCredit n
    (u.lane n).st = .credit ∧ (u.lane n).initGood = false ∧ u.fld (Reg.COU_LOOP_DELAY n) 0 32 = (s.lane n).loopNew % 2 ^ 32 := by
  have hne : Reg.COU_LOOP_DELAY n ≠ Reg.COU_LANE_CNT n := by simp [Reg.COU_LOOP_DELAY, Reg.COU_LANE_CNT]
  refine ⟨by simp [State.laneToCredit, Lane.entered], by simp [State.laneToCredit], ?_⟩
  exact (State.fld_of_reg (State.reg_laneTo _ n .credit _ hne) 0 32).trans (State.fld_setFld _ _ _ _ _ (by decide))

theorem State.st_grantLane (s : State) (n : Nat) : ((s.grantLane n).lane n).st = (s.lane n).st := by
  unfold State.grantLane
  split <;> simp

theorem State.st_ackLane (s : State) (n : Nat) (sync req : Bool) : ((s.ackLane n sync req).lane n).st = (s.lane n).st := by
  unfold State.ackLane
  dsimp only
  refine ((State.sendCtl_sends ..).keeps Lane.st fun _ _ => rfl).trans ?_
  split <;> simp [State.st_grantLane]

/-- A lane that has recovered is ACTIVE, whatever it replays and asks for again (R259). -/
theorem State.st_laneRecovered (s : State) (n : Nat) : ((s.laneRecovered n).lane n).st = .active := by
  have hactive : ((s.laneToActive n).lane n).st = .active := by simp [State.laneToActive, Lane.entered]
  unfold State.laneRecovered
  extract_lets s1 s2
  have h2 : (s2.lane n).st = .active := by
    simp only [s2]
    split
    · exact hactive
    · exact ((s1.resend_sends ..).keeps Lane.st fun _ _ => rfl).trans hactive
  split
  · exact (State.st_ackLane ..).trans h2
  · exact h2

theorem State.takeAlign_align {s : State} {n : Nat} (p : Ctl) (h : (s.lane n).st = .align) :
    s.takeAlign n p = (s.alignCounted n p).alignOn n := by
  rw [State.takeAlign, h, State.alignCounted]

theorem State.takeAlign_recover {s : State} {n : Nat} (p : Ctl) (h : (s.lane n).st = .recover)
    (hlock : (s.lane n).blockLock = true) : s.takeAlign n p = (s.alignCounted n p).recoverOn n := by
  have hlock' := (s.hearAlign_hearsAlign n p).lock hlock
  rw [State.takeAlign, h]
  exact if_neg (by simp [hlock'])

/-- ALIGN goes on while its run is short (R257). -/
theorem State.alignOn_short {s : State} {n : Nat} (h : (s.lane n).alignRun < 64) :
    ((s.alignOn n).lane n).st = (s.lane n).st ∧ ((s.alignOn n).lane n).alignRun = (s.lane n).alignRun := by
  rw [State.alignOn, if_neg (by simp; omega)]
  exact s.nextAlign_keeps n

theorem State.alignOn_done {s : State} {n : Nat} (h : 64 ≤ (s.lane n).alignRun) (he : (s.lane n).echoed = true) :
    s.alignOn n = s.laneToCredit n := if_pos (by simp [h, he])

/-- While the run of good ALIGN blocks is short, ALIGN goes on and counts; a bad one ends the run (R257). -/
theorem alignBlock_counts (s : State) (t : Nat) (n : Fin 16) (p : Ctl) (hst : (s.lane n).st = .align)
    (hrun : (if checkOk p then (s.lane n).alignRun + 1 else 0) < 64) : Does (.alignBlock t n p) s fun u =>
      (u.lane n).st = .align ∧ (u.lane n).alignRun = if checkOk p then (s.lane n).alignRun + 1 else 0 := by
  obtain ⟨hcst, hcrun, -, -⟩ := (s.advance t).alignCounted_does n p
  obtain ⟨hkst, hkrun⟩ := State.alignOn_short (s := (s.advance t).alignCounted n p) (n := n) (hcrun ▸ hrun)
  refine .of_outcome (exec_alignBlock ..) (State.takeAlign_align p hst) ?_
  rw [State.settle_lane]
  exact ⟨hkst.trans (hcst.trans hst), hkrun.trans hcrun⟩

/-- The 64th good ALIGN block in a row with an echo completed ends ALIGN (R257, R262). -/
theorem alignBlock_aligns (s : State) (t : Nat) (n : Fin 16) (p : Ctl) (hst : (s.lane n).st = .align) (hgood : checkOk p = true)
    (hrun : 63 ≤ (s.lane n).alignRun) (he : (s.lane n).echoed = true) : Does (.alignBlock t n p) s fun u =>
      (u.lane n).st = .credit ∧ (u.lane n).initGood = false ∧
      (cf p 6 1 = 0 → u.fld (Reg.COU_LOOP_DELAY n) 0 32 = (s.lane n).loopNew % 2 ^ 32) := by
  obtain ⟨-, hcrun, hecho, hdelay⟩ := (s.advance t).alignCounted_does n p
  rw [if_pos hgood, State.lane_advance] at hcrun
  obtain ⟨hcredit, hinit, hshown⟩ := ((s.advance t).alignCounted n p).laneToCredit_does n
  have taken := State.takeAlign_align (s := s.advance t) p hst
  have done := State.alignOn_done (s := (s.advance t).alignCounted n p) (n := n) (by omega) (hecho he)
  refine .of_outcome (exec_alignBlock ..) (taken.trans done) ?_
  rw [State.settle_lane, State.settle_fld]
  exact ⟨hcredit, hinit, fun h0 => hshown.trans (by rw [hdelay h0, State.lane_advance])⟩

/-- The 64th good ALIGN block in a row ends RECOVER (R259). -/
theorem alignBlock_recovers (s : State) (t : Nat) (n : Fin 16) (p : Ctl) (hst : (s.lane n).st = .recover)
    (hlock : (s.lane n).blockLock = true) (hgood : checkOk p = true) (hrun : 63 ≤ (s.lane n).alignRun) :
    Does (.alignBlock t n p) s fun u => (u.lane n).st = .active := by
  obtain ⟨-, hcrun, -, -⟩ := (s.advance t).alignCounted_does n p
  rw [if_pos hgood, State.lane_advance] at hcrun
  have taken := State.takeAlign_recover (s := s.advance t) p hst hlock
  have done : ((s.advance t).alignCounted n p).recoverOn n = ((s.advance t).alignCounted n p).laneRecovered n :=
    if_pos (by omega)
  exact .of_outcome (exec_alignBlock ..) (taken.trans done) (State.st_laneRecovered ..)

end Sys2Proof.Machine

section
open Sys2Proof.Machine

/-- Settles O18: a training or ALIGN block by what it does in the state in which it finds the lane, each limit by the failed attempt or
the return to TRAIN that it begins. -/
theorem laneTrainRowsComplete : Obligations.LaneTrainRowsComplete := by
  refine ⟨fun s t n p hst => ?_, fun s t n p hbad hst => ?_,
    fun s t n => ⟨tapRequestTimeout_drops s t n, tapRequestTimeout_idles s t n⟩,
    fun s t n margin => ⟨fun hst hlock hpre hclean hmargin => ?_, fun h => ?_⟩,
    fun s t n => ⟨fun hst hd => ?_, fun h => ?_, fun hst hd => ?_, fun h => ?_, fun hst hd => ?_, fun h => ?_, fun hst hd => ?_,
      fun h => ?_⟩,
    fun s t n p => ⟨fun hst hgood hrun => ?_, alignBlock_aligns s t n p, fun hst hbad => ?_, alignBlock_recovers s t n p⟩⟩
  · refine .of_outcome (exec_trainingBlock ..) (State.hearTraining_train p hst) ?_
    simp only [State.settle_lane, State.settle_fld]
    have seen := (s.advance t).seen_trainingIn n p
    have bad := (s.advance t).trainingIn_bad_does n p
    have preset := (s.advance t).trainingIn_preset n p
    generalize (s.advance t).trainingIn n p = u at seen bad preset ⊢
    exact ⟨congrArg Prod.fst seen, congrArg Prod.snd seen, bad,
      fun hlock hok h0 h2 h4 h6 => preset hlock (by simp [badTraining, hok, h0, h2, h4]) h6⟩
  · refine Does.of_effect (exec_trainingBlock ..) ?_
    rw [State.settle_lane, State.settle_fld]
    exact (s.advance t).hearTraining_discards n p hbad hst
  · exact .of_met (exec_rxReady ..) (State.seesEye_of hst hlock hpre hclean hmargin) (by simp [hst])
  · exact .of_unmet rfl (exec_rxReady ..) (State.not_seesEye h)
  · exact limit_fails (exec_trainLimit ..) hst hd ((s.advance t).trainFails_does n)
  · exact .of_unmet rfl (exec_trainLimit ..) (State.laneDue_advance_false h)
  · exact limit_fails (exec_alignLimit ..) hst hd ((s.advance t).laneFails_does n 3 (by decide))
  · exact .of_unmet rfl (exec_alignLimit ..) (State.laneDue_advance_false h)
  · exact limit_fails (exec_creditLimit ..) hst hd ((s.advance t).laneFails_does n 4 (by decide))
  · exact .of_unmet rfl (exec_creditLimit ..) (State.laneDue_advance_false h)
  · obtain ⟨htrain, hattempt, -, -, htaps⟩ := (s.advance t).lane_laneToTrain n true
    have htaps := htaps rfl
    refine .of_met (exec_recoverLimit ..) (State.laneDue_advance hst hd) ?_
    rw [State.settle_lane, State.settle_fld, State.lane_setFld, State.fld_setFld _ _ _ _ _ (by decide)]
    exact ⟨htrain, hattempt, rfl, congrArg (·.1) htaps, congrArg (·.2.1) htaps, congrArg (·.2.2) htaps⟩
  · exact .of_unmet rfl (exec_recoverLimit ..) (State.laneDue_advance_false h)
  · have counts := alignBlock_counts s t n p hst
    rw [if_pos hgood] at counts
    exact counts hrun
  · have counts := alignBlock_counts s t n p hst
    rw [if_neg (by simp [hbad])] at counts
    exact counts (by decide)

end

namespace Sys2Proof.Machine

/-! ### Writes of a lane's registers (R310, R321) -/

/-- The block of the lanes. -/
def couBlock : Block :=
  { base := 0xC000, top := 0xD000, stride := 256, inst := 16, window := 256, epoch := some 5, rows := rowsCou }

/-- A register of a lane as a port reaches it. -/
def couHit (n : Nat) (r : RegRow) : Hit :=
  { reg := 0xC000 + r.off + 256 * n, upper := false, row := r, epoch := some 5, inst := n }

/-- The rows of COU_CTRL and COU_CMD. -/
def couCtrlRow : RegRow := { off := 0x0, mask := 0x7FF, reset := 0x400 }
def couCmdRow : RegRow := { off := 0x4, mask := 0x3 }

theorem findBlock_cou (a : Nat) (hle : 0xC000 ≤ a) (hlt : a < 0xD000) : findBlock blocks a = some couBlock := by
  have hlow (k : Nat) (hk : k ≤ 0xC000) : ¬a < k := by omega
  simp [blocks, findBlock, couBlock, hlt, hle, hlow]

theorem couBlock_hit (n : Nat) (r : RegRow) (hr : findRow rowsCou r.off = some (r, r.off)) (hg : r.group = false) :
    couBlock.hit n r.off = some (couHit n r) := by
  simp [Block.hit, couBlock, hr, hg, couHit, Nat.add_right_comm]

theorem regAt_cou (n : Fin 16) (r : RegRow) (ho : r.off < 256) (hr : findRow rowsCou r.off = some (r, r.off))
    (hg : r.group = false) : regAt (0xC000 + r.off + 256 * n) = some (couHit n r) := by
  have hb := findBlock_cou (0xC000 + r.off + 256 * n) (by omega) (by omega)
  have hunit : (0xC000 + r.off + 256 * n.val - 0xC000) / 256 = n := by omega
  have hoff : (0xC000 + r.off + 256 * n.val - 0xC000) % 256 = r.off := by omega
  have hhit := couBlock_hit n r hr hg
  simp only [couBlock] at hb hhit
  simp [regAt, hb, hunit, hoff, hhit]

theorem mspiAt_cou (n : Fin 16) (r : RegRow) (ho : r.off < 256) (ha : r.off % 4 = 0)
    (hr : findRow rowsCou r.off = some (r, r.off)) (hg : r.group = false) :
    mspiAt (0xC000 + r.off + 256 * n) = some (couHit n r) := by
  have hb := findBlock_cou (0xC000 + r.off + 256 * n) (by omega) (by omega)
  have haddr : (0xC000 + r.off + 256 * n) % 0x20000 / 4 * 4 = 0xC000 + r.off + 256 * n := by omega
  have hlow : ¬0x10000 ≤ 0xC000 + r.off + 256 * n.val := by omega
  have hunit : (0xC000 + r.off + 256 * n.val - 0xC000) / 256 % 16 = n := by omega
  have hoff : (0xC000 + r.off + 256 * n.val - 0xC000) % 256 % 256 = r.off := by omega
  have hhit := couBlock_hit n r hr hg
  simp only [couBlock] at hb hhit
  simp only [mspiAt, mspiPlace, haddr, if_neg hlow, hb, hunit, hoff, hhit]

/-- A register of a lane is not one of the registers with a rule of their own. -/
theorem couHit_reg_ne (n : Nat) (r : RegRow) : (couHit n r).reg ≠ Reg.GBL_KEY ∧ (couHit n r).reg ≠ Reg.GBL_SNAP_CMD := by
  simp only [couHit, Reg.GBL_KEY, Reg.GBL_SNAP_CMD]
  omega

/-- A write that has passed its checks, or what is noted of it, leaves the lanes, the time base and the power side as they were (R321,
R325). -/
structure State.CouOpened (s x : State) : Prop where
  lanes : x.lanes = s.lanes
  tb : x.tb = s.tb
  pwr : x.pwr = s.pwr

theorem State.CouOpened.setReg {s x : State} (h : s.CouOpened x) (a : Nat) (v : Word) : s.CouOpened (x.setReg a v) :=
  ⟨h.lanes, h.tb, h.pwr⟩

theorem State.CouOpened.cfgLane {s x : State} (h : s.CouOpened x) (n : Nat) : s.CouOpened (x.cfgLane n) := ⟨h.lanes, h.tb, h.pwr⟩

theorem State.couOpened_countEpoch (s : State) (n : Nat) (r : RegRow) (hm : r.mask ≠ 0) :
    s.CouOpened ((s.rewritten (couHit n r).reg).countEpoch (couHit n r)) := by
  have counted : (s.rewritten (couHit n r).reg).countEpoch (couHit n r) = (s.rewritten (couHit n r).reg).bumpEpoch 5 := by
    simp [State.countEpoch, couHit, hm]
  rw [counted]
  exact ⟨by simp [State.rewritten], by simp [State.rewritten], by simp [State.rewritten]⟩

/-- The row of a near 32-bit register of a lane without a key. -/
structure CouPlain (r : RegRow) : Prop where
  off : r.off < 256 ∧ r.off % 4 = 0
  row : findRow rowsCou r.off = some (r, r.off)
  group : r.group = false
  wide : r.wide = false
  near : r.msk = false ∧ r.key = false ∧ r.far = false
  mask : r.mask ≠ 0

theorem couCtrlRow_plain : CouPlain couCtrlRow := ⟨by decide, by decide, rfl, rfl, ⟨rfl, rfl, rfl⟩, by decide⟩
theorem couCmdRow_plain : CouPlain couCmdRow := ⟨by decide, by decide, rfl, rfl, ⟨rfl, rfl, rfl⟩, by decide⟩

section
variable {s : State} {p : Port} {n : Fin 16} {r : RegRow} {a : Nat} (v : Nat) (hp : s.portReady p) (hr : CouPlain r)
  (ha : 0xC000 + r.off + 256 * n = a)
include hp hr ha

theorem State.write32_cou : s.write32 p a v = (s.writeReg p (couHit n r) (BitVec.setWidth 64 (BitVec.ofNat 32 v))).2 := by
  obtain ⟨ho, h4⟩ := hr.off
  subst ha
  exact s.write32_open p _ v (couHit n r) hp (regAt_cou n r ho hr.row hr.group) (mspiAt_cou n r ho h4 hr.row hr.group) hr.wide
    (by omega) (by omega) (by simp only [couHit, Reg.GBL_CTRL]; omega)

/-- A write of a lane's register whose value is in range is stored, and acts (R321). -/
theorem State.write32_cou_taken : let raw : Word := BitVec.setWidth 64 (BitVec.ofNat 32 v)
    let new := stored (s.reg a) raw r.mask
    s.rangeCou n a (s.reg a) new raw = [] →
    ∃ x, s.CouOpened x ∧ s.write32 p a v = (x.setReg a new).tookCou n a (s.reg a) new raw := by
  intro raw new hrange
  obtain ⟨hmsk, hkey, hfar⟩ := hr.near
  obtain ⟨hne, hne'⟩ := couHit_reg_ne n r
  rw [State.write32_cou v hp hr ha]
  subst ha
  exact ⟨_, s.couOpened_countEpoch n r hr.mask,
    s.writeReg_takes p (couHit n r) raw hp.2.1 hmsk hkey hfar (.inl hr.mask) hne hne' _ rfl hrange⟩

/-- A write of a lane's register that the block refuses raises its fault (R321). -/
theorem State.write32_cou_refused (f : FaultCode) (param : Nat) : let raw : Word := BitVec.setWidth 64 (BitVec.ofNat 32 v)
    s.rangeCou n a (s.reg a) (stored (s.reg a) raw r.mask) raw = [(f, param)] → s.write32 p a v = s.raise f param := by
  intro raw hrange
  obtain ⟨hne, hne'⟩ := couHit_reg_ne n r
  rw [State.write32_cou v hp hr ha]
  subst ha
  exact s.writeReg_refuses_near p (couHit n r) raw hp.2.1 hr.near hr.mask hne hne' f param hrange

end

/-! #### COU_CTRL.enable (R247) -/

/-- A write of one bit of COU_CTRL stores that bit and no other. -/
theorem getLsbD_storedBit (old : Word) (i j : Nat) (b : Bool) (hi : i < 11) (hj : j < 11) :
    (stored old (BitVec.setWidth 64 (BitVec.ofNat 32 (putField old i 1 (b2n b)).toNat)) 0x7FF).getLsbD j =
      if j = i then b else old.getLsbD j := by
  have hmask : Nat.testBit 0x7FF j = true := by
    rw [show 0x7FF = 2 ^ 11 - 1 by decide, Nat.testBit_two_pow_sub_one, decide_eq_true hj]
  have hbit : (putField old i 1 (b2n b)).toNat.testBit j = if j = i then b else old.getLsbD j := by
    rw [testBit_toNat_putField _ _ _ _ _ (by omega)]
    by_cases h : j = i
    · subst h
      cases b <;> simp [b2n]
    · rw [if_neg (by omega), if_neg h]
      rfl
  rw [getLsbD_stored _ _ _ _ (by omega), if_pos hmask, BitVec.getLsbD_setWidth, BitVec.getLsbD_ofNat, hbit]
  rw [decide_eq_true (by omega : j < 64), decide_eq_true (by omega : j < 32), Bool.true_and, Bool.true_and]

/-- The effect of a write of COU_CTRL that finds the enable as `old` and leaves it as `new` (R247). -/
def State.enableWritten (s : State) (n : Nat) (old new : Bool) : State :=
  if new && !old then s.laneOn n else if !new && old then s.laneOff n else s

theorem couCmd_ne_ctrl (n : Nat) : Reg.COU_CMD n ≠ Reg.COU_CTRL n := by simp [Reg.COU_CMD, Reg.COU_CTRL]

theorem State.tookCou_ctrl (s : State) (n : Nat) (old new raw : Word) :
    s.tookCou n (Reg.COU_CTRL n) old new raw = (s.cfgLane n).enableWritten n (old.getLsbD 0) (new.getLsbD 0) := by
  rw [State.tookCou, if_neg (couCmd_ne_ctrl n).symm]
  exact if_pos rfl

theorem State.reg_cfgLane (s : State) (n a : Nat) : (s.cfgLane n).reg a = s.reg a := rfl

/-- A write of the enable stores it, and acts where it changes (R247). -/
theorem State.writeBit_couCtrl (s : State) (p : Port) (n : Fin 16) (b : Bool) (hp : s.portReady p) : ∃ x : State, s.CouOpened x ∧
    x.bit (Reg.COU_CTRL n) 0 = b ∧ s.writeBit p (Reg.COU_CTRL n) 0 b = x.enableWritten n (s.bit (Reg.COU_CTRL n) 0) b := by
  have henable := getLsbD_storedBit (s.reg (Reg.COU_CTRL n)) 0 0 b (by decide) (by decide)
  have hmode := getLsbD_storedBit (s.reg (Reg.COU_CTRL n)) 0 1 b (by decide) (by decide)
  obtain ⟨x, hx, hacts⟩ := State.write32_cou_taken (putField (s.reg (Reg.COU_CTRL n)) 0 1 (b2n b)).toNat hp couCtrlRow_plain
    (a := Reg.COU_CTRL n) rfl ((if_pos rfl).trans (if_pos (beq_iff_eq.mpr hmode.symm)))
  rw [State.tookCou_ctrl, show couCtrlRow.mask = 0x7FF from rfl, henable, if_pos rfl] at hacts
  refine ⟨_, (hx.setReg ..).cfgLane n, ?_, hacts⟩
  rw [State.bit, State.reg_cfgLane, State.reg_setReg, if_pos rfl, henable, if_pos rfl]

theorem State.laneOn_does (s : State) (n : Nat) : let u := s.laneOn n
    (∀ a, u.reg a = s.reg a) ∧
    ((s.lane n).st = .off → (s.lane n).tokens = false → s.pwr.st = .run →
      (u.lane n).tokens = true ∧ u.pwr.queue = s.pwr.queue ++ [.lane n]) ∧
    ((s.lane n).st ≠ .off → u = s) := by
  refine ⟨fun a => ?_, fun hst htok hrun => ?_, fun hst => if_neg (by simp [hst])⟩
  · unfold State.laneOn
    dsimp only
    split <;> rfl
  · rw [State.laneOn, if_pos (by simp [hst, htok, hrun])]
    exact ⟨congrArg Lane.tokens ((State.lane_setLane ..).trans (if_pos rfl)), rfl⟩

theorem State.laneOff_does (s : State) (n : Nat) : let u := s.laneOff n
    u.reg (Reg.COU_CTRL n) = s.reg (Reg.COU_CTRL n) ∧ u.lane n = (s.laneToOff n).lane n ∧ .lane n ∉ u.pwr.queue := by
  have hne : Reg.COU_CTRL n ≠ Reg.COU_LANE_CNT n := by simp [Reg.COU_CTRL, Reg.COU_LANE_CNT]
  have hreg : (s.laneToOff n).reg (Reg.COU_CTRL n) = s.reg (Reg.COU_CTRL n) := by
    simp [State.laneToOff, State.reg_laneTo _ _ _ _ hne]
  exact ⟨(State.reg_of_regs _ _ _ rfl).trans hreg, State.lane_of_lanes rfl n, fun h => by simpa using (List.mem_filter.mp h).2⟩

/-! #### COU_CMD (R251) -/

/-- The commands of COU_CMD, in their order. -/
def State.couCommands (s : State) (n : Nat) (retry retrain : Bool) : State :=
  let s1 := if retry then s.laneRetry n else s
  if retrain then s1.laneRetrain n else s1

/-- A state of a lane takes a command of COU_CMD. -/
def LaneState.takes (st : LaneState) (retry retrain : Bool) : Bool :=
  (retry && (st == .absent || st == .detect)) || (retrain && st == .active)

theorem State.tookCou_cmd (s : State) (n : Nat) (old new raw : Word) : s.tookCou n (Reg.COU_CMD n) old new raw =
    (s.setReg (Reg.COU_CMD n) 0).couCommands n (raw.getLsbD 0) (raw.getLsbD 1) := by
  rw [State.tookCou, if_pos rfl]
  rfl

theorem State.rangeCou_cmd (s : State) (n : Nat) (old new raw : Word) : s.rangeCou n (Reg.COU_CMD n) old new raw =
    if (s.lane n).st.takes (raw.getLsbD 0) (raw.getLsbD 1) then []
    else (if raw.getLsbD 0 then [(.couCmdState, n)] else []) ++ (if raw.getLsbD 1 then [(.couCmdState, n)] else []) := by
  unfold State.rangeCou
  dsimp only
  rw [if_neg (couCmd_ne_ctrl n), if_pos rfl]
  rfl

/-- A command of COU_CMD that the lane's state takes reaches the lane (R251). -/
theorem State.write32_couCmd_taken (s : State) (p : Port) (n : Fin 16) (v : Nat) (hp : s.portReady p) :
    let raw : Word := BitVec.setWidth 64 (BitVec.ofNat 32 v)
    (s.lane n).st.takes (raw.getLsbD 0) (raw.getLsbD 1) = true →
    ∃ x : State, s.CouOpened x ∧ s.write32 p (Reg.COU_CMD n) v = x.couCommands n (raw.getLsbD 0) (raw.getLsbD 1) := by
  intro raw htakes
  have hrange := s.rangeCou_cmd n (s.reg (Reg.COU_CMD n)) (stored (s.reg (Reg.COU_CMD n)) raw couCmdRow.mask) raw
  rw [if_pos htakes] at hrange
  obtain ⟨x, hx, hacts⟩ := State.write32_cou_taken v hp couCmdRow_plain (a := Reg.COU_CMD n) rfl hrange
  rw [State.tookCou_cmd] at hacts
  exact ⟨_, (hx.setReg ..).setReg .., hacts⟩

/-- A command of COU_CMD that the lane's state does not take is refused (R251). -/
theorem State.write32_couCmd_refused (s : State) (p : Port) (n : Fin 16) (v : Nat) (hp : s.portReady p) :
    let raw : Word := BitVec.setWidth 64 (BitVec.ofNat 32 v)
    (s.lane n).st.takes (raw.getLsbD 0) (raw.getLsbD 1) = false → raw.getLsbD 1 = !raw.getLsbD 0 →
    s.write32 p (Reg.COU_CMD n) v = s.raise .couCmdState n := by
  intro raw htakes hone
  have hrange := s.rangeCou_cmd n (s.reg (Reg.COU_CMD n)) (stored (s.reg (Reg.COU_CMD n)) raw couCmdRow.mask) raw
  rw [if_neg (Bool.eq_false_iff.mp htakes), hone] at hrange
  refine State.write32_cou_refused v hp couCmdRow_plain (a := Reg.COU_CMD n) rfl _ _ (hrange.trans ?_)
  cases raw.getLsbD 0 <;> rfl

end Sys2Proof.Machine

namespace Sys2Proof.Machine

/-! ### Probes and backoff (R247 to R249, R252) -/

/-- A lane probes in DETECT outside backoff, one probe at a time, while a line is live. -/
def State.mayProbe (s : State) (n : Nat) : Bool :=
  (s.lane n).st == .detect && !(s.lane n).backoff && !(s.lane n).probing && s.tb.st.live

/-- A probe begins, and is counted (R249). -/
def State.beginProbe (s : State) (n : Nat) : State :=
  ((s.modLane n fun l => { l with probing := true, probed := true }).bump (Reg.COU_PROBE n) 0 32).start (.lane .probe n)

theorem State.probe_eq (s : State) (n : Nat) : s.probe n = if s.mayProbe n then s.beginProbe n else s := rfl

theorem State.lane_beginProbe (s : State) (n : Nat) :
    (s.beginProbe n).lane n = { s.lane n with probing := true, probed := true } := by
  simp [State.beginProbe]

theorem State.beginProbe_does (s : State) (n : Nat) : let u := s.beginProbe n
    (u.lane n).probing = true ∧ (u.lane n).probed = true ∧
    u.fld (Reg.COU_PROBE n) 0 32 = (s.fld (Reg.COU_PROBE n) 0 32 + 1) % 2 ^ 32 := by
  refine ⟨congrArg Lane.probing (s.lane_beginProbe n), congrArg Lane.probed (s.lane_beginProbe n), ?_⟩
  exact (State.fld_of_reg (State.reg_start ..) 0 32).trans (State.fld_bump _ _ _ _ (by decide))

/-- What a lane in DETECT outside backoff is after it was asked to probe: its state and its attempt as before, and, while a line is
live, a probe under way. -/
theorem State.probe_does {s : State} {n : Nat} (hst : (s.lane n).st = .detect) (hback : (s.lane n).backoff = false) :
    let k := (s.probe n).lane n
    k.st = .detect ∧ k.attempt = (s.lane n).attempt ∧ k.backoff = false ∧ (s.tb.st.live = true → k.probing = true) := by
  rw [State.probe_eq]
  split
  next =>
    rw [State.lane_beginProbe]
    exact ⟨hst, rfl, hback, fun _ => rfl⟩
  next h => exact ⟨hst, rfl, hback, fun hlive => by simpa [State.mayProbe, hst, hback, hlive] using h⟩

theorem exec_laneProbe (s : State) (t : Nat) (n : Fin 16) : exec (.laneProbe t n) s = atMoment t s fun x =>
    if !(x.lane n).probed || x.past (.lane .probe n) (2000 * usQ) then x.probe n else x := rfl

theorem laneProbe_probes (s : State) (t : Nat) (n : Fin 16) (hst : (s.lane n).st = .detect) (hback : (s.lane n).backoff = false)
    (hprobing : (s.lane n).probing = false) (hlive : s.tb.st.live = true)
    (h : (s.lane n).probed = false ∨ (s.advance t).past (.lane .probe n) (2000 * usQ) = true) : Does (.laneProbe t n) s fun u =>
      (u.lane n).probing = true ∧ (u.lane n).probed = true ∧
      u.fld (Reg.COU_PROBE n) 0 32 = (s.fld (Reg.COU_PROBE n) 0 32 + 1) % 2 ^ 32 := by
  have hmay : (s.advance t).mayProbe n = true := by simp [State.mayProbe, hst, hback, hprobing, hlive]
  refine .of_met (exec_laneProbe ..) ?_ ?_
  · obtain h | h := h <;> simp [h]
  · rw [State.probe_eq, if_pos hmay]
    exact (s.advance t).beginProbe_does n

theorem laneProbe_idles (s : State) (t : Nat) (n : Fin 16)
    (h : (s.lane n).st ≠ .detect ∨ (s.lane n).backoff = true ∨ (s.lane n).probing = true ∨ s.tb.st.live = false ∨
      (s.lane n).probed = true ∧ (s.advance t).past (.lane .probe n) (2000 * usQ) = false) : Idles (.laneProbe t n) s := by
  have cannot (hmay : (s.advance t).mayProbe n = false) : Idles (.laneProbe t n) s := by
    have same : (s.advance t).probe n = s.advance t := (State.probe_eq ..).trans (if_neg (by simp [hmay]))
    refine .of_effect (t := t) rfl (exec_laneProbe ..) ?_
    rw [same, ite_self]
  obtain h | h | h | h | ⟨hprobed, hsoon⟩ := h
  · exact cannot (by simp [State.mayProbe, h])
  · exact cannot (by simp [State.mayProbe, h])
  · exact cannot (by simp [State.mayProbe, h])
  · exact cannot (by simp [State.mayProbe, h])
  · refine .of_unmet (t := t) rfl (exec_laneProbe ..) ?_
    rw [hsoon, State.lane_advance, hprobed]
    rfl

/-- A probe has found no termination: counted, and ABSENT at the limit of COU_CTRL (R249). -/
def State.foundNone (s : State) (n : Nat) : State :=
  let lim := s.fld (Reg.COU_CTRL n) 2 8
  let s1 := s.modLane n fun l => { l with partner := false, probing := false, empty := l.empty + 1 }
  if lim ≠ 0 && lim ≤ (s.lane n).empty + 1 then s1.laneToAbsent n else s1

/-- A probe has found a partner (R247). -/
def State.foundPartner (s : State) (n : Nat) : State :=
  (s.modLane n fun l => { l with partner := true, empty := 0 }).laneToTrain n false

theorem exec_probeDone (s : State) (t : Nat) (n : Fin 16) (found : Bool) : exec (.probeDone t n found) s = atMoment t s fun x =>
    if (x.lane n).st == .detect && (x.lane n).probing then if found then x.foundPartner n else x.foundNone n else x := rfl

theorem State.foundPartner_does (s : State) (n : Nat) : let k := (s.foundPartner n).lane n
    k.st = .train ∧ k.partner = true ∧ k.empty = 0 := by
  obtain ⟨hst, -, hpartner, hempty, -⟩ := (s.modLane n fun l => { l with partner := true, empty := 0 }).lane_laneToTrain n false
  exact ⟨hst, hpartner.trans (by simp), hempty.trans (by simp)⟩

theorem State.foundNone_does {s : State} {n : Nat} (hst : (s.lane n).st = .detect) : let u := s.foundNone n
    (u.lane n).empty = (s.lane n).empty + 1 ∧ (u.lane n).partner = false ∧ (u.lane n).probing = false ∧
    (let lim := s.fld (Reg.COU_CTRL n) 2 8
     if lim ≠ 0 ∧ lim ≤ (s.lane n).empty + 1 then
       (u.lane n).st = .absent ∧ u.flt.active.getLsbD FaultCode.laneAbsent.cls = true
     else (u.lane n).st = .detect) := by
  by_cases h : s.fld (Reg.COU_CTRL n) 2 8 ≠ 0 ∧ s.fld (Reg.COU_CTRL n) 2 8 ≤ (s.lane n).empty + 1
  · have hnone : s.foundNone n =
        (s.modLane n fun l => { l with partner := false, probing := false, empty := l.empty + 1 }).laneToAbsent n :=
      if_pos (by simpa using h)
    dsimp only
    rw [hnone, if_pos h, State.lane_laneToAbsent]
    exact ⟨by simp [Lane.entered, Lane.unlock], by simp [Lane.entered, Lane.unlock], rfl, rfl, State.raise_class ..⟩
  · have hnone : s.foundNone n = s.modLane n fun l => { l with partner := false, probing := false, empty := l.empty + 1 } :=
      if_neg (by simpa using h)
    dsimp only
    rw [hnone, if_neg h]
    simp [hst]

/-- The backoff of a failed attempt is over: the lane probes (R248, R262). -/
def State.endBackoff (s : State) (n : Nat) : State := (s.modLane n fun l => { l with backoff := false, probed := false }).probe n

theorem exec_backoffEnd (s : State) (t : Nat) (n : Fin 16) : exec (.backoffEnd t n) s = atMoment t s fun x =>
    if (x.lane n).st == .detect && (x.lane n).backoff && x.past (.lane .state n) (2000 * usQ * 2 ^ ((x.lane n).attempt - 1)) then
      x.endBackoff n
    else x := rfl

/-! ### The commands of COU_CMD (R251) -/

@[simp] theorem State.laneTo_tb (s : State) (n : Nat) (st : LaneState) : (s.laneTo n st).tb = s.tb := by
  unfold State.laneTo State.laneEvent
  dsimp only
  split <;> split <;> split <;> (try split) <;> simp

/-- A retry takes a lane that is ABSENT or in DETECT to a fresh DETECT, in which it probes (R251). -/
theorem State.laneRetry_does {s : State} {n : Nat} (h : (s.lane n).st = .absent ∨ (s.lane n).st = .detect) :
    let k := (s.laneRetry n).lane n
    k.st = .detect ∧ k.attempt = 0 ∧ k.backoff = false ∧ (s.tb.st.live = true → k.probing = true) := by
  have fresh : ∃ w : State, s.laneRetry n = w.probe n ∧ (w.lane n).st = .detect ∧ (w.lane n).attempt = 0 ∧
      (w.lane n).backoff = false ∧ w.tb = s.tb := by
    unfold State.laneRetry
    obtain h | h := h <;> rw [h]
    · exact ⟨s.laneToDetect n, rfl, by simp [Lane.entered, Lane.unlock], by simp, by simp [Lane.entered, Lane.unlock],
        by simp [State.laneToDetect]⟩
    · exact ⟨_, rfl, by simp [h], by simp, by simp, by simp⟩
  obtain ⟨w, hw, hst, hattempt, hback, htb⟩ := fresh
  obtain ⟨hst', hattempt', hback', hprobing⟩ := State.probe_does hst hback
  dsimp only
  rw [hw]
  exact ⟨hst', hattempt'.trans hattempt, hback', htb ▸ hprobing⟩

theorem LaneState.takes_retry (st : LaneState) : st.takes true false = (st == .absent || st == .detect) := by
  simp [LaneState.takes]

theorem LaneState.takes_retrain (st : LaneState) : st.takes false true = (st == .active) := by
  simp [LaneState.takes]

theorem exec_laneEnable (s : State) (t : Nat) (p : Port) (n : Fin 16) :
    exec (.laneEnable t p n) s = atMoment t s fun x => x.writeBit p (Reg.COU_CTRL n) 0 true := rfl
theorem exec_laneDisable (s : State) (t : Nat) (p : Port) (n : Fin 16) :
    exec (.laneDisable t p n) s = atMoment t s fun x => x.writeBit p (Reg.COU_CTRL n) 0 false := rfl
theorem exec_laneRetry (s : State) (t : Nat) (p : Port) (n : Fin 16) :
    exec (.laneRetry t p n) s = atMoment t s fun x => x.write32 p (Reg.COU_CMD n) 1 := rfl
theorem exec_laneRetrain (s : State) (t : Nat) (p : Port) (n : Fin 16) :
    exec (.laneRetrain t p n) s = atMoment t s fun x => x.write32 p (Reg.COU_CMD n) 2 := rfl
theorem exec_partnerSeen (s : State) (t : Nat) (n : Fin 16) : exec (.partnerSeen t n) s = atMoment t s fun x =>
    if (x.lane n).st == .absent then x.modLane n fun l => { l with signal := true, partnerSeen := true } else x := rfl

/-- A command of COU_CMD that is refused leaves the lanes, and says why (R251). -/
theorem Does.of_couCmd_refused {c : Instr} {s : State} {t v : Nat} {p : Port} {n : Fin 16}
    (h : exec c s = atMoment t s fun x => x.write32 p (Reg.COU_CMD n) v)
    (hw : (s.advance t).write32 p (Reg.COU_CMD n) v = (s.advance t).raise .couCmdState n) :
    Does c s fun u => u.lanes = s.lanes ∧ u.reg Reg.FLT_LAST = BitVec.ofNat 64 FaultCode.couCmdState.code :=
  .of_outcome h hw ⟨by simp, raise_last ..⟩

/-- Setting the enable in OFF asks for the lane's wake tokens (R247, R437). -/
theorem laneEnable_does (s : State) (t : Nat) (p : Port) (n : Fin 16) (hp : s.portReady p)
    (h0 : s.bit (Reg.COU_CTRL n) 0 = false) : Does (.laneEnable t p n) s fun u =>
      u.bit (Reg.COU_CTRL n) 0 = true ∧
      ((s.lane n).st = .off → (s.lane n).tokens = false →
        (u.lane n).tokens = true ∧ u.pwr.queue = s.pwr.queue ++ [.lane n]) ∧
      ((s.lane n).st ≠ .off → (u.lane n) = (s.lane n) ∧ u.pwr.queue = s.pwr.queue) := by
  obtain ⟨x, hx, hbit, hw⟩ := (s.advance t).writeBit_couCtrl p n true hp
  rw [State.bit_advance, h0] at hw
  have hlane : x.lane n = s.lane n := State.lane_of_lanes hx.lanes n
  have hpwr : x.pwr = s.pwr := hx.pwr
  obtain ⟨hreg, hasks, hstays⟩ := x.laneOn_does n
  rw [hlane, hpwr] at hasks
  rw [hlane] at hstays
  refine .of_outcome (exec_laneEnable ..) hw ?_
  rw [State.settle_bit, State.settle_lane, State.settle_pwr]
  refine ⟨(congrArg (·.getLsbD 0) (hreg _)).trans hbit, fun hst htok => hasks hst htok hp.1, fun hst => ?_⟩
  rw [show x.enableWritten n false true = x from hstays hst]
  exact ⟨hlane, congrArg Power.queue hpwr⟩

/-- Clearing the enable takes the lane to OFF and withdraws its request (R247, R437). -/
theorem laneDisable_does (s : State) (t : Nat) (p : Port) (n : Fin 16) (hp : s.portReady p)
    (h1 : s.bit (Reg.COU_CTRL n) 0 = true) : Does (.laneDisable t p n) s fun u =>
      u.bit (Reg.COU_CTRL n) 0 = false ∧ (u.lane n).st = .off ∧ (u.lane n).tokens = false ∧ (u.lane n).attempt = 0 ∧
      .lane n.val ∉ u.pwr.queue := by
  obtain ⟨x, hx, hbit, hw⟩ := (s.advance t).writeBit_couCtrl p n false hp
  rw [State.bit_advance, h1] at hw
  obtain ⟨hreg, hlane, hqueue⟩ := x.laneOff_does n
  rw [State.lane_laneToOff] at hlane
  refine .of_outcome (exec_laneDisable ..) hw ?_
  rw [State.settle_bit, State.settle_lane, State.settle_pwr, show x.enableWritten n true false = x.laneOff n from rfl, hlane]
  exact ⟨(congrArg (·.getLsbD 0) hreg).trans hbit, rfl, rfl, rfl, hqueue⟩

/-- A retry that the lane's state takes (R251). -/
theorem laneRetry_taken (s : State) (t : Nat) (p : Port) (n : Fin 16) (hp : s.portReady p)
    (h : (s.lane n).st = .absent ∨ (s.lane n).st = .detect) : Does (.laneRetry t p n) s fun u =>
      (u.lane n).st = .detect ∧ (u.lane n).attempt = 0 ∧ (u.lane n).backoff = false ∧
      (s.tb.st.live = true → (u.lane n).probing = true) := by
  obtain ⟨x, hx, hw⟩ := (s.advance t).write32_couCmd_taken p n 1 hp (by
    refine (LaneState.takes_retry _).trans ?_
    obtain h | h := h <;> simp [h])
  have hlane : x.lane n = s.lane n := State.lane_of_lanes hx.lanes n
  have retried := State.laneRetry_does (s := x) (n := n) (hlane ▸ h)
  rw [show x.tb = s.tb from hx.tb] at retried
  refine .of_outcome (exec_laneRetry ..) hw ?_
  rw [State.settle_lane]
  exact retried

/-- A retrain of an ACTIVE lane (R251). -/
theorem laneRetrain_taken (s : State) (t : Nat) (p : Port) (n : Fin 16) (hp : s.portReady p)
    (h : (s.lane n).st = .active) : Does (.laneRetrain t p n) s fun u => (u.lane n).st = .recover := by
  obtain ⟨x, hx, hw⟩ := (s.advance t).write32_couCmd_taken p n 2 hp ((LaneState.takes_retrain _).trans (by simp [h]))
  have hlane : x.lane n = s.lane n := State.lane_of_lanes hx.lanes n
  have hrecovers : x.laneRetrain n = x.laneToRecover n := if_pos (by simp [hlane, h])
  obtain ⟨y, hy⟩ := x.lane_laneToRecover n
  refine .of_outcome (exec_laneRetrain ..) (hw.trans hrecovers) ?_
  rw [State.settle_lane, hy]
  rfl

end Sys2Proof.Machine

section
open Sys2Proof.Machine

/-- Settles O17: a write of COU_CTRL or COU_CMD reaches the lane in a state that agrees with the one before, and a probe's end, a backoff's
end and a signal act in the state that waits for them. -/
theorem laneDetectRowsComplete : Obligations.LaneDetectRowsComplete := by
  refine ⟨laneEnable_does, laneDisable_does, fun s t n => ⟨laneProbe_probes s t n, laneProbe_idles s t n⟩,
    fun s t n found => ⟨fun hst hprobing => ?_, fun h => ?_⟩, fun s t n => ⟨fun hst hback hd => ?_, fun h => ?_⟩,
    fun s t p n hp => ⟨laneRetry_taken s t p n hp, fun habsent hdetect => ?_, laneRetrain_taken s t p n hp, fun hactive => ?_⟩,
    fun s t n => ⟨fun hst => ?_, fun hst => ?_⟩⟩
  · refine .of_met (exec_probeDone ..) (by simp [hst, hprobing]) ?_
    rw [State.settle_lane, State.settle_flt]
    cases found with
    | true => exact ⟨fun _ => (s.advance t).foundPartner_does n, nofun⟩
    | false => exact ⟨nofun, fun _ => State.foundNone_does (s := s.advance t) hst⟩
  · refine .of_unmet (t := t) rfl (exec_probeDone ..) ?_
    obtain h | h := h <;> simp [h]
  · obtain ⟨hst', -, hback', hprobing⟩ := State.probe_does (n := n)
      (s := (s.advance t).modLane n fun l => { l with backoff := false, probed := false }) (by simp [hst]) (by simp)
    refine .of_met (exec_backoffEnd ..) (by simp [hst, hback, hd]) ?_
    rw [State.settle_lane]
    exact ⟨hst', hback', hprobing⟩
  · refine .of_unmet (t := t) rfl (exec_backoffEnd ..) ?_
    obtain h | h | h := h
    · simp [h]
    · simp [h]
    · rw [State.lane_advance, h, Bool.and_false]
  · refine .of_couCmd_refused (exec_laneRetry ..) ((s.advance t).write32_couCmd_refused p n 1 hp ?_ rfl)
    exact (LaneState.takes_retry _).trans (by simp [habsent, hdetect])
  · refine .of_couCmd_refused (exec_laneRetrain ..) ((s.advance t).write32_couCmd_refused p n 2 hp ?_ rfl)
    exact (LaneState.takes_retrain _).trans (by simp [hactive])
  · exact .of_met (exec_partnerSeen ..) (by simp [hst]) (by simp)
  · exact .of_unmet rfl (exec_partnerSeen ..) (by simp [hst])

end

namespace Sys2Proof.Machine

/-! ### A remote time (R281) -/

/-- A field of `w` bits names the time with those bits that lies within half their span of R. -/
theorem extend64_nearest (r v w : Nat) : let half : Int := (2 ^ (w + 5) : Nat)
    (extend64 r v w - ((v * 64 : Nat) : Int)) % (2 * half) = 0 ∧ (r : Int) - half ≤ extend64 r v w ∧
    extend64 r v w < (r : Int) + half := by
  intro half
  have hspan : ((2 ^ (w + 6) : Nat) : Int) = 2 * half := by simp only [half]; push_cast; ring
  have hpos : 0 < half := by positivity
  have hhalf : 2 * half / 2 = half := by omega
  unfold extend64
  dsimp only
  rw [hspan, hhalf]
  generalize ((v * 64 : Nat) : Int) = x
  have hlow := Int.emod_nonneg (x - r) (b := 2 * half) (by omega)
  have hhigh := Int.emod_lt_of_pos (x - r) (b := 2 * half) (by omega)
  have hbits : (2 * half) ∣ r + (x - r) % (2 * half) - x := by
    have h := Int.dvd_self_sub_emod (x := x - r) (m := 2 * half)
    have hneg : r + (x - r) % (2 * half) - x = -(x - r - (x - r) % (2 * half)) := by ring
    exact hneg ▸ (dvd_neg.mpr h)
  split
  · exact ⟨Int.emod_eq_zero_of_dvd hbits, by omega, by omega⟩
  · refine ⟨Int.emod_eq_zero_of_dvd ?_, by omega, by omega⟩
    have hback : r + ((x - r) % (2 * half) - 2 * half) - x = r + (x - r) % (2 * half) - x - 2 * half := by ring
    exact hback ▸ Int.dvd_sub hbits (Int.dvd_refl _)

end Sys2Proof.Machine

section
open Sys2Proof.Machine

/-- Settles O53: of all times with the field's bits, one lies within half their span of R. -/
theorem remoteTimeIsNearest : Obligations.RemoteTimeIsNearest := fun r v _ => extend64_nearest r v 44

end

namespace Sys2Proof.Machine

/-! ### Posting a letter (R289, R353) -/

theorem State.lanes_consume (s : State) (n : Nat) : (s.consume n).lanes = s.lanes := by
  have status (x : State) : (x.statusBlock n).lanes = x.lanes := by
    unfold State.statusBlock
    split <;> rfl
  have message (x : State) : (x.ringMessage n).lanes = x.lanes := by
    unfold State.ringMessage
    dsimp only
    split
    · simp
    · rfl
  exact (message _).trans ((status _).trans rfl)

theorem State.lanes_rejectBad (k : Nat) (s : State) (n : Nat) : (State.rejectBad k s n).lanes = s.lanes := by
  induction k generalizing s with
  | zero => rfl
  | succ k ih =>
    unfold State.rejectBad
    split
    · split
      · rfl
      · exact (ih _).trans ((State.lanes_consume ..).trans (by simp))
    · rfl

/-- The lanes behind an accepted descriptor are what its effect made them (R353). -/
theorem State.lanes_judge (s : State) (n : Nat) (d : Desc) (effect : State → State) :
    (s.judge n d none effect).lanes = (effect s).lanes :=
  (State.lanes_rejectBad ..).trans (State.lanes_consume ..)

/-- The checks of a LETTER_POST (R289). -/
def State.letterFail (s : State) (d : Desc) : Option Nat :=
  let l := s.lane (df d 8 0 4)
  let field := descOnly d [(8, 0, 4), (8, 8, 6), (8, 16, 10), (0x10, 0, 64), (0x18, 0, 32)] && df d 0x10 0 3 = 0
  firstFail [(1, !field), (2, df d 8 16 10 < 1 || 512 < df d 8 16 10 || df d 0x18 0 32 < df d 8 16 10),
    (3, s.isPeer (df d 8 0 4) || l.st != .active), (5, decide (16 ≤ l.letters.length + l.replay.length))]

theorem State.letterFail_none {s : State} {d : Desc}
    (honly : descOnly d [(8, 0, 4), (8, 8, 6), (8, 16, 10), (0x10, 0, 64), (0x18, 0, 32)] = true) (halign : df d 0x10 0 3 = 0)
    (hbytes : 1 ≤ df d 8 16 10 ∧ df d 8 16 10 ≤ 512 ∧ df d 8 16 10 ≤ df d 0x18 0 32) (hpeer : s.isPeer (df d 8 0 4) = false)
    (hst : (s.lane (df d 8 0 4)).st = .active)
    (hroom : (s.lane (df d 8 0 4)).letters.length + (s.lane (df d 8 0 4)).replay.length < 16) : s.letterFail d = none := by
  have hsize : (df d 8 16 10 < 1 || 512 < df d 8 16 10 || df d 0x18 0 32 < df d 8 16 10) = false := by simp; omega
  have hfits : decide (16 ≤ (s.lane (df d 8 0 4)).letters.length + (s.lane (df d 8 0 4)).replay.length) = false := by
    simpa using hroom
  simp only [State.letterFail, firstFail, honly, halign, hsize, hpeer, hst, hfits]
  rfl

/-- The letter that a LETTER_POST posts with the bytes of its buffer, the missing ones as zeros. -/
def letterOf (d : Desc) (pos : Nat) (buf : List Byte) : Letter :=
  { bytes := buf.take (df d 8 16 10) ++ List.replicate (df d 8 16 10 - buf.length) 0, ackRing := df d 8 8 6, tag := descTag d,
    pos := pos }

theorem letterOf_bytes (d : Desc) (pos : Nat) (buf : List Byte) :
    (letterOf d pos buf).bytes = (buf ++ List.replicate (df d 8 16 10) 0).take (df d 8 16 10) := by
  rw [letterOf, List.take_append, List.take_replicate, Nat.min_eq_left (Nat.sub_le ..)]

theorem exec_letterPost (s : State) (t : Nat) (ring : Fin 64) (buf : Option (List Byte)) :
    exec (.letterPost t ring buf) s = onHead t ring 0x50 s fun x d =>
      x.judgeBuf ring d (x.letterFail d) buf (fun _ => none) fun bs y => y.modLane (df d 8 0 4) fun l =>
        { l with letters := l.letters ++ [letterOf d (posField (x.depth ring) (x.ring ring).pos) bs] } := rfl

theorem letterPost_posts (s : State) (t : Nat) (ring : Fin 64) (d : Desc) (buf : List Byte) (hd : s.head ring.val 0x50 = some d)
    (hpass : (s.advance t).letterFail d = none) : Does (.letterPost t ring (some buf)) s fun u =>
      ∃ x, (u.lane (df d 8 0 4)).letters = (s.lane (df d 8 0 4)).letters ++ [x] ∧
        x.bytes = (buf ++ List.replicate (df d 8 16 10) 0).take (df d 8 16 10) ∧ x.tag = descTag d ∧ x.ackRing = df d 8 8 6 := by
  refine .of_head (exec_letterPost ..) hd
    ⟨letterOf d (posField ((s.advance t).depth ring) ((s.advance t).ring ring).pos) buf, ?_, letterOf_bytes .., rfl, rfl⟩
  rw [State.judgeBuf_accepts _ _ _ _ _ hpass rfl, State.settle_lane, State.lane_of_lanes (State.lanes_judge ..)]
  simp

/-! ### The RETURN of a lane (R292) -/

/-- A record that is pushed counts as produced for its ring (R370). -/
theorem State.produced_push (s : State) (n c : Nat) (e : Option Nat) (r : Record) :
    ((s.push n c e r).ring n).produced = (s.ring n).produced + 1 :=
  (congrFun (congrArg Office.produced (s.office_push ..)) n).trans (by simp [State.office])

/-- What a lane holds of a RETURN reason. -/
def State.setOccur (s : State) (n reason : Nat) (o : Occur) : State :=
  s.modLane n fun l => { l with occurs := tset {} l.occurs reason o }

/-- The occurrences since the last RETURN of a reason are reported, or its timer stops (R292). -/
def State.endReturn (s : State) (n reason : Nat) : State :=
  let o := tget {} (s.lane n).occurs reason
  if 0 < o.count then
    ((s.setOccur n reason { running := true }).laneReturn n reason o.first o.count).start (.laneReturn n reason)
  else s.setOccur n reason {}

theorem exec_laneReturnTimer (s : State) (t : Nat) (n : Fin 16) (reason : Fin 32) :
    exec (.laneReturnTimer t n reason) s = atMoment t s fun x =>
      if (tget {} (x.lane n).occurs reason.val).running && x.past (.laneReturn n reason) (1000 * usQ) then x.endReturn n reason
      else x := rfl

theorem State.endReturn_reports {s : State} {n reason : Nat} (h : 0 < (tget {} (s.lane n).occurs reason).count) :
    let u := s.endReturn n reason
    tget {} (u.lane n).occurs reason = { running := true } ∧
    (u.ring (s.fld (Reg.COU_PROTO_CTRL n) 16 6)).produced = (s.ring (s.fld (Reg.COU_PROTO_CTRL n) 16 6)).produced + 1 := by
  dsimp only
  rw [State.endReturn, if_pos h, State.lane_start, State.laneReturn, State.lane_push]
  exact ⟨by simp [State.setOccur], State.produced_push ..⟩

theorem State.endReturn_stops {s : State} {n reason : Nat} (h : (tget {} (s.lane n).occurs reason).count = 0) :
    let u := s.endReturn n reason
    tget {} (u.lane n).occurs reason = {} ∧ u.rings = s.rings := by
  dsimp only
  rw [State.endReturn, if_neg (by omega)]
  exact ⟨by simp [State.setOccur], rfl⟩

end Sys2Proof.Machine

section
open Sys2Proof.Machine

/-- Settles O22: a letter that passes its checks is the last of its lane's letters whatever the ring rejects behind it, and a RETURN's timer
reports what has occurred or stops. -/
theorem letterRowsComplete : Obligations.LetterRowsComplete := by
  refine ⟨fun s t ring d buf hd honly halign hone hmost hsize hpeer hst hroom => letterPost_posts s t ring d buf hd
      (State.letterFail_none honly halign ⟨hone, hmost, hsize⟩ hpeer hst hroom),
    fun s t n reason => ⟨fun hrun hcount hpast => ?_, fun hrun hcount hpast => ?_, fun h => ?_⟩⟩
  · exact .of_met (exec_laneReturnTimer ..) (by simp [hrun, hpast]) (State.endReturn_reports (s := s.advance t) hcount)
  · exact .of_met (exec_laneReturnTimer ..) (by simp [hrun, hpast]) (State.endReturn_stops (s := s.advance t) hcount)
  · refine .of_unmet (t := t) rfl (exec_laneReturnTimer ..) ?_
    obtain h | h := h
    · simp [h]
    · rw [h, Bool.and_false]

end

namespace Sys2Proof.Machine

/-! ### The link of a lane, and what leaves it (R268 to R276) -/

/-- The sequences, the credit taken and the ledger of a lane, and the dispatches and letters that wait on it. -/
structure Link where
  rxNext : BitVec 16
  txNext : BitVec 16
  firstDispatch : Bool
  replay : List Dispatched
  letters : List Letter
  sent : Nat
  limitRx : Nat
  accepted : Nat
  sync : Bool
  blocksAcc : Nat
  blocksRef : Nat
  blocksDup : Nat

def Lane.link (l : Lane) : Link :=
  { rxNext := l.rxNext, txNext := l.txNext, firstDispatch := l.firstDispatch, replay := l.replay, letters := l.letters,
    sent := l.sent, limitRx := l.limitRx, accepted := l.accepted, sync := l.sync,
    blocksAcc := l.blocksAcc, blocksRef := l.blocksRef, blocksDup := l.blocksDup }

theorem State.lane_modLane (s : State) (n : Nat) (f : Lane → Lane) : (s.modLane n f).lane n = f (s.lane n) := by simp

theorem State.carries_advance (s : State) (t n : Nat) : (s.advance t).carries n = s.carries n := rfl

/-- A field of a lane that is one of its link. -/
theorem Lane.of_link {α : Type} (f : Lane → α) (g : Link → α) {l : Lane} {k : Link} (h : l.link = k)
    (hfg : ∀ m, f m = g m.link := by exact fun _ => rfl) : f l = g k := (hfg l).trans (congrArg g h)

/-- Between two states lane n keeps its link, and register a its value. -/
structure State.LinkKept (s u : State) (n a : Nat) : Prop where
  link : (u.lane n).link = (s.lane n).link
  reg : u.reg a = s.reg a

section
variable {s u v : State} {n a : Nat}

theorem State.LinkKept.refl (s : State) (n a : Nat) : s.LinkKept s n a := ⟨rfl, rfl⟩

theorem State.LinkKept.trans (h : s.LinkKept u n a) (k : u.LinkKept v n a) : s.LinkKept v n a :=
  ⟨k.link.trans h.link, k.reg.trans h.reg⟩

theorem State.LinkKept.fld (h : s.LinkKept u n a) (lo w : Nat) : u.fld a lo w = s.fld a lo w := State.fld_of_reg h.reg lo w

theorem State.LinkKept.ite {c : Prop} [Decidable c] (h : s.LinkKept u n a) (k : s.LinkKept v n a) :
    s.LinkKept (if c then u else v) n a := by split <;> assumption

theorem State.LinkKept.of_lane (h : u.lane n = s.lane n) (hr : u.reg a = s.reg a) : s.LinkKept u n a := ⟨congrArg Lane.link h, hr⟩

theorem State.Sends.linkKept (h : s.Sends u n) (hr : u.reg a = s.reg a) : s.LinkKept u n a :=
  ⟨h.keeps Lane.link fun _ _ => rfl, hr⟩

end

section
variable (s : State) (n a : Nat)

theorem State.modLane_kept {f : Lane → Lane} (hf : (f (s.lane n)).link = (s.lane n).link) : s.LinkKept (s.modLane n f) n a :=
  ⟨(congrArg Lane.link (s.lane_modLane n f)).trans hf, rfl⟩

theorem State.foldl_kept {α : Type} {f : State → α → State} (h : ∀ (x : State) y, x.LinkKept (f x y) n a) (l : List α) :
    s.LinkKept (l.foldl f s) n a :=
  foldl_keeps (fun u => s.LinkKept u n a) f (fun x y hx => hx.trans (h x y)) l s (.refl s n a)

theorem State.raise_kept (f : FaultCode) (p : Nat) (ha : reportReg a = false) : s.LinkKept (s.raise f p) n a :=
  .of_lane (s.lane_raise f p n) (s.reg_raise f p a ha)

theorem State.bump_kept {b : Nat} (lo w : Nat) (h : a ≠ b) : s.LinkKept (s.bump b lo w) n a :=
  .of_lane rfl (by rw [State.reg_bump, if_neg h])

theorem State.bumpSat_kept {b : Nat} (lo w : Nat) (h : a ≠ b) : s.LinkKept (s.bumpSat b lo w) n a :=
  .of_lane rfl (by rw [State.bumpSat, State.reg_bumpSatBy, if_neg h])

theorem State.sendCtl_kept (type : Nat) (p : Ctl) : s.LinkKept (s.sendCtl n type p) n a := (s.sendCtl_sends n type p).linkKept rfl

/-- Behind a change of state the link is as before (R247). -/
theorem State.laneTo_kept (st : LaneState) (h : a ≠ Reg.COU_LANE_CNT n) : s.LinkKept (s.laneTo n st) n a :=
  ⟨by rw [State.lane_laneTo]; rfl, s.reg_laneTo n st a h⟩

theorem State.laneToRecover_kept (h : a ≠ Reg.COU_LANE_CNT n) : s.LinkKept (s.laneToRecover n) n a :=
  (s.laneTo_kept n a .recover h).trans ((State.sendAlign_sends ..).linkKept (State.reg_sendAlign ..))

/-- A received data block is a valid header, and moves the adaptation (R260, R261). -/
theorem State.lane_dataBlock : ∃ e, (s.dataBlock n).lane n = { ({ (s.lane n).valid 1 with
      frozen := false, kaMissing := false } : Lane) with eq := e } := by
  unfold State.dataBlock
  obtain ⟨e, he, -⟩ := State.lane_adapt (((s.start (.lane .data n)).start (.lane .miss n)).modLane n fun l =>
    { l.valid 1 with frozen := false, kaMissing := false }) n
  rw [State.lane_modLane, State.lane_start, State.lane_start] at he
  exact ⟨e, he⟩

theorem State.reg_adapt : (s.adapt n).reg a = s.reg a := by
  unfold State.adapt
  split <;> rfl

theorem State.reg_dataBlock : (s.dataBlock n).reg a = s.reg a := by
  rw [State.dataBlock, State.reg_adapt, State.modLane_eq, State.reg_setLane, State.reg_start, State.reg_start]

theorem State.dataBlock_kept : s.LinkKept (s.dataBlock n) n a := by
  obtain ⟨e, he⟩ := s.lane_dataBlock n
  exact ⟨by rw [he]; rfl, s.reg_dataBlock n a⟩

/-! ### Violations and NAKs (R269, R272, R291, R292) -/

theorem State.protocolFault_kept (ha : reportReg a = false) : s.LinkKept (s.protocolFault n) n a := by
  unfold State.protocolFault
  refine .ite (.refl s n a) (.trans ?_ (State.raise_kept _ n a _ _ ha))
  exact s.modLane_kept n a rfl

theorem State.laneOccur_kept (reason seq : Nat) (ha : reportReg a = false) : s.LinkKept (s.laneOccur n reason seq) n a := by
  have returned (x : State) : x.LinkKept ((x.laneReturn n reason seq 1).start (.laneReturn n reason)) n a := by
    unfold State.laneReturn
    exact .of_lane (by rw [State.lane_start, State.lane_push]) (by rw [State.reg_start, State.reg_push _ _ _ _ _ a ha])
  unfold State.laneOccur
  exact .ite (s.modLane_kept n a rfl) ((s.modLane_kept n a rfl).trans (returned _))

/-- What a violation brings beyond its count: PROTOCOL and the RETURN. -/
theorem State.violation_answers (second : Bool) (lo reason seq : Nat) (ha : reportReg a = false) :
    (s.bumpSat (if second then Reg.COU_PROTO_ERR2 n else Reg.COU_PROTO_ERR n) lo 8).LinkKept (s.violation n second lo reason seq) n a :=
  (State.protocolFault_kept _ n a ha).trans (State.laneOccur_kept _ n a reason seq ha)

theorem State.violation_kept (second : Bool) (lo reason seq : Nat) (ha : reportReg a = false)
    (h : a ≠ if second then Reg.COU_PROTO_ERR2 n else Reg.COU_PROTO_ERR n) : s.LinkKept (s.violation n second lo reason seq) n a :=
  (s.bumpSat_kept n a lo 8 h).trans (s.violation_answers n a second lo reason seq ha)

end

theorem reportReg_couProtoErr (n : Fin 16) : reportReg (Reg.COU_PROTO_ERR n) = false := reportReg_cou n 0xB8 (by decide)
theorem reportReg_couNak (n : Fin 16) : reportReg (Reg.COU_NAK n) = false := reportReg_cou n 0xC0 (by decide)
theorem reportReg_couCntDispatch (n : Fin 16) : reportReg (Reg.COU_CNT_DISPATCH n) = false := reportReg_cou n 0xA8 (by decide)

/-- A violation of the first register is counted there, and leaves the link (R291). -/
theorem State.violation_counts (s : State) (n : Fin 16) (lo reason seq : Nat) (hlo : lo + 8 ≤ 64) :
    let u := s.violation n false lo reason seq
    (u.lane n).link = (s.lane n).link ∧
    u.fld (Reg.COU_PROTO_ERR n) lo 8 = min 255 (s.fld (Reg.COU_PROTO_ERR n) lo 8 + 1) := by
  have answered := s.violation_answers n (Reg.COU_PROTO_ERR n) false lo reason seq (reportReg_couProtoErr n)
  exact ⟨answered.link, (answered.fld lo 8).trans (s.fld_bumpSat _ lo 8 hlo)⟩

/-- NAKs sent for the sequence that is expected, with the next one (R272). -/
def Lane.nakCount (l : Lane) : Nat :=
  match l.nakOut with | some (q, k, _) => if q = l.rxNext then k + 1 else 1 | none => 1

/-- A NAK is noted in the lane, and counted. -/
def State.noteNak (s : State) (n reason : Nat) : State :=
  (s.modLane n fun l => { l with nakOut := some (l.rxNext, l.nakCount, reason) }).bump (Reg.COU_NAK n) 0 16

/-- Behind its count a NAK leaves the link, whether or not the lane recovers with REPLAY_STALL (R272). -/
theorem State.nak_sends (s : State) (n reason a : Nat) (ha : reportReg a = false) (hcnt : a ≠ Reg.COU_LANE_CNT n) :
    (s.noteNak n reason).LinkKept (s.nak n reason) n a := by
  have stalled (x : State) : x.LinkKept ((x.raise .replayStall n).laneToRecover n) n a :=
    (x.raise_kept n a _ _ ha).trans (State.laneToRecover_kept _ n a hcnt)
  have sent := (s.noteNak n reason).sendCtl_kept n a 0xA6 (withCheck (packBits [(0, 16, (s.lane n).rxNext.toNat), (16, 4, reason)]))
  unfold State.nak
  extract_lets l k s1
  have hs1 : (s.noteNak n reason).LinkKept s1 n a := sent.trans (.of_lane rfl rfl)
  exact .ite (hs1.trans (stalled s1)) hs1

theorem State.nak_kept (s : State) (n reason a : Nat) (ha : reportReg a = false) (hcnt : a ≠ Reg.COU_LANE_CNT n)
    (hnak : a ≠ Reg.COU_NAK n) : s.LinkKept (s.nak n reason) n a :=
  ((s.modLane_kept n a rfl).trans (State.bump_kept _ n a 0 16 hnak)).trans (s.nak_sends n reason a ha hcnt)

/-- A NAK is counted (R269). -/
theorem State.nak_counts (s : State) (n : Fin 16) (reason : Nat) :
    (s.nak n reason).fld (Reg.COU_NAK n) 0 16 = (s.fld (Reg.COU_NAK n) 0 16 + 1) % 2 ^ 16 :=
  ((s.nak_sends n reason _ (reportReg_couNak n) (by simp [Reg.COU_NAK, Reg.COU_LANE_CNT])).fld 0 16).trans
    (State.fld_bump _ _ _ _ (by decide))

/-! ### ACKs and replays (R271 to R274) -/

/-- What the grant of withheld credit moves (R274). -/
theorem State.lane_grantLane (s : State) (n : Nat) :
    ∃ limit freed, (s.grantLane n).lane n = { s.lane n with limitTx := limit, freed := freed } := by
  unfold State.grantLane
  split
  · exact ⟨_, _, rfl⟩
  · exact ⟨_, _, s.lane_modLane ..⟩

/-- An ACK grants credit and begins the count of freed blocks again (R271). -/
theorem State.lane_ackLane (s : State) (n : Nat) (sync req : Bool) : ∃ x limit freed,
    (s.ackLane n sync req).lane n = { (s.lane n).lined x with limitTx := limit, freed := freed, freedSinceAck := 0 } := by
  obtain ⟨limit, freed, hgrant⟩ := s.lane_grantLane n
  unfold State.ackLane
  extract_lets s0 s1 l
  have h1 : s1.lane n = (s.grantLane n).lane n := by
    simp only [s1]
    split <;> rfl
  obtain ⟨x, hx⟩ := (s1.modLane n fun l => { l with freedSinceAck := 0 }).sendCtl_sends n 0xA5 (withCheck (packBits
    [(0, 16, l.rxNext.toNat), (16, 12, l.limitTx), (28, 12, l.accepted), (40, 1, b2n sync), (41, 1, b2n req)]))
  exact ⟨x, limit, freed, by rw [hx, State.lane_modLane, h1, hgrant]; rfl⟩

end Sys2Proof.Machine

namespace Sys2Proof.Machine

theorem State.reg_grantLane (s : State) (n a : Nat) : (s.grantLane n).reg a = s.reg a := by
  unfold State.grantLane
  split <;> rfl

theorem State.sent_grantLane (s : State) (n : Nat) : (s.grantLane n).sent = s.sent := by
  unfold State.grantLane
  split <;> rfl

theorem State.reg_ackLane (s : State) (n : Nat) (sync req : Bool) (a : Nat) : (s.ackLane n sync req).reg a = s.reg a := by
  unfold State.ackLane
  extract_lets s0 s1 l
  have h1 : s1.reg a = (s.grantLane n).reg a := by
    simp only [s1]
    split <;> rfl
  rw [State.reg_sendCtl, State.modLane_eq, State.reg_setLane, h1, State.reg_grantLane]

/-- One ACK block goes out. -/
theorem State.sent_ackLane (s : State) (n : Nat) (sync req : Bool) : ∃ p, (s.ackLane n sync req).sent = s.sent ++ [.ctl n 0xA5 p] := by
  unfold State.ackLane
  extract_lets s0 s1 l
  have h1 : s1.sent = (s.grantLane n).sent := by
    simp only [s1]
    split <;> rfl
  rw [← s.sent_grantLane n, ← h1]
  exact ⟨_, rfl⟩

theorem State.ackLane_kept (s : State) (n : Nat) (sync req : Bool) (a : Nat) : s.LinkKept (s.ackLane n sync req) n a := by
  obtain ⟨x, limit, freed, hlane⟩ := s.lane_ackLane n sync req
  exact ⟨by rw [hlane]; rfl, s.reg_ackLane n sync req a⟩

theorem State.reg_sendDispatch (s : State) (n : Nat) (d : Dispatched) (a : Nat) : (s.sendDispatch n d).reg a = s.reg a := by
  have sent (x : State) : (d.data.foldl (fun s w => s.sendData n w) x).reg a = x.reg a :=
    foldl_keeps (fun u => u.reg a = x.reg a) (fun s w => s.sendData n w) (fun _ _ h => h) d.data x rfl
  rw [State.sendDispatch, State.reg_start, State.reg_sendCtl, sent, State.reg_sendCtl]

/-- Of the registers a replay counts its dispatches in COU_REPLAY alone (R272). -/
theorem State.reg_resend (s : State) (n : Nat) (ds : List Dispatched) (a : Nat) (h : a ≠ Reg.COU_REPLAY n) :
    (s.resend n ds).reg a = s.reg a :=
  foldl_keeps (fun u => u.reg a = s.reg a) _
    (fun x d hx => by rw [State.reg_bump, if_neg h, State.reg_sendDispatch, hx]) ds s rfl

theorem State.resend_counts (s : State) (n : Nat) (ds : List Dispatched) :
    (s.resend n ds).fld (Reg.COU_REPLAY n) 0 16 = (s.fld (Reg.COU_REPLAY n) 0 16 + ds.length) % 2 ^ 16 := by
  have hstart (x : State) : (x.start (.lane .replay n)).fld (Reg.COU_REPLAY n) 0 16 = x.fld (Reg.COU_REPLAY n) 0 16 := rfl
  rw [State.resend, hstart]
  induction ds generalizing s with
  | nil => exact (Nat.mod_eq_of_lt (fieldOf_lt ..)).symm
  | cons d ds ih =>
    rw [List.foldl_cons, ih, State.fld_bump _ _ _ _ (by decide), State.fld_of_reg (s.reg_sendDispatch n d _), List.length_cons]
    omega

/-! ### The content of a dispatch (R279 to R290) -/

theorem State.reg_endLaneGaps (s : State) (n h a : Nat) : (s.endLaneGaps n h).reg a = s.reg a := rfl

section
variable (s : State) (a : Arrival) (hq : reportReg (Reg.COU_CNT_DISPATCH a.lane) = false)

theorem State.toBuffer_kept (n r : Nat) (b : LaneBlock) : s.LinkKept (s.toBuffer n b) n r := s.modLane_kept n r rfl

theorem State.setSrc_kept (n r i : Nat) (x : RemoteSrc) : s.LinkKept (s.setSrc n i x) n r := s.modLane_kept n r rfl

theorem State.takeIn_kept (i : Nat) (x : Item) : s.LinkKept (s.takeIn a i x) a.lane (Reg.COU_CNT_DISPATCH a.lane) := by
  refine .trans (u := s.bumpBy (Reg.COU_CNT_EVENTS a.lane) 0 48 x.edges) (.of_lane rfl ?_) (State.toBuffer_kept ..)
  rw [State.reg_bumpBy, if_neg (by simp [Reg.COU_CNT_DISPATCH, Reg.COU_CNT_EVENTS])]

include hq

theorem State.itemViolation_kept (lo reason : Nat) :
    s.LinkKept (s.violation a.lane true lo reason a.seq) a.lane (Reg.COU_CNT_DISPATCH a.lane) :=
  s.violation_kept a.lane _ true lo reason a.seq hq (by simp [Reg.COU_CNT_DISPATCH, Reg.COU_PROTO_ERR2])

/-- An item set aside is counted, and its violation (R291). -/
theorem State.countDiscard_kept : s.LinkKept ((s.bump (Reg.COU_CNT_ITEM_DISC a.lane) 0 32).violation a.lane true 16 15 a.seq)
    a.lane (Reg.COU_CNT_DISPATCH a.lane) :=
  (s.bump_kept _ _ 0 32 (by simp [Reg.COU_CNT_DISPATCH, Reg.COU_CNT_ITEM_DISC])).trans (State.itemViolation_kept _ a hq 16 15)

theorem State.discardItem_kept : s.LinkKept (s.discardItem a) a.lane (Reg.COU_CNT_DISPATCH a.lane) :=
  (s.countDiscard_kept a hq).trans (State.toBuffer_kept ..)

/-- An item of whatever kind leaves the link and the count of dispatches (R279 to R283). -/
theorem State.remoteItem_kept (w : Word) : s.LinkKept (s.remoteItem a w) a.lane (Reg.COU_CNT_DISPATCH a.lane) := by
  unfold State.remoteItem
  extract_lets v i src ti time order future early
  have early_kept (x : State) : x.LinkKept (early x) a.lane (Reg.COU_CNT_DISPATCH a.lane) :=
    .ite (x.itemViolation_kept a hq 24 18) (.refl ..)
  have dated (item : Item) : s.LinkKept ((s.setSrc a.lane i { src with last := time }).takeIn a i item) a.lane
      (Reg.COU_CNT_DISPATCH a.lane) := (s.setSrc_kept ..).trans (State.takeIn_kept ..)
  have discarded := s.discardItem_kept a hq
  split
  · refine .ite discarded (.ite ?_ ((dated _).trans (early_kept _)))
    exact ((s.takeIn_kept a i _).trans (State.itemViolation_kept _ a hq _ _)).trans (early_kept _)
  · exact .ite discarded (s.takeIn_kept a i _)
  · exact .ite discarded ((dated _).trans (early_kept _))
  · exact .ite (s.toBuffer_kept ..) discarded

/-- A horizon moves the lane's own and its registers (R283). -/
theorem State.takeHorizon_kept (field : Nat) : s.LinkKept (s.takeHorizon a field) a.lane (Reg.COU_CNT_DISPATCH a.lane) := by
  unfold State.takeHorizon
  extract_lets h
  have shown (x : State) : x.LinkKept (((x.setReg (Reg.COU_HORIZON_LO a.lane) (BitVec.ofNat 64 h)).setReg
      (Reg.COU_HORIZON_HI a.lane) (BitVec.ofNat 64 (h / 2 ^ 64))).endLaneGaps a.lane h) a.lane (Reg.COU_CNT_DISPATCH a.lane) := by
    refine .of_lane rfl ?_
    rw [State.reg_endLaneGaps, State.reg_setReg, if_neg (by simp [Reg.COU_CNT_DISPATCH, Reg.COU_HORIZON_HI]), State.reg_setReg,
      if_neg (by simp [Reg.COU_CNT_DISPATCH, Reg.COU_HORIZON_LO])]
  refine .ite (s.itemViolation_kept a hq 8 17) (.ite (s.itemViolation_kept a hq 24 18) (.trans ?_ (shown _)))
  exact s.modLane_kept a.lane _ rfl

/-- A letter is delivered, counted or refused (R290). -/
theorem State.letterUp_kept (head : Ctl) (data : List Word) :
    s.LinkKept (s.letterUp a head data) a.lane (Reg.COU_CNT_DISPATCH a.lane) := by
  unfold State.letterUp
  extract_lets bytes s0
  have stored : s.LinkKept s0 a.lane (Reg.COU_CNT_DISPATCH a.lane) :=
    s.foldl_kept _ _ (fun x _ => x.toBuffer_kept ..) data
  refine .ite (stored.trans (State.countDiscard_kept _ a hq)) (.ite ?_ ?_)
  · exact stored.trans (.of_lane (State.lane_push ..) (State.reg_push _ _ _ _ _ _ hq))
  · exact stored.trans (State.bump_kept _ _ _ 16 16 (by simp [Reg.COU_CNT_DISPATCH, Reg.COU_LETTER_STATUS]))

end

end Sys2Proof.Machine

namespace Sys2Proof.Machine

/-! ### A dispatch is judged (R270, R275, R291) -/

/-- A command of a lane that carries dispatches has its effect. -/
theorem Does.of_carried {c : Instr} {s : State} {t n : Nat} {f : State → State} {P : State → Prop}
    (h : exec c s = atMoment t s fun x => if !x.carries n then x else f x) (hc : s.carries n = true)
    (hP : P ((f (s.advance t)).settle s t)) : Does c s P :=
  .of_effect h (by rwa [if_neg (by simp [State.carries_advance, hc])])

theorem Idles.of_uncarried {c : Instr} {s : State} {t n : Nat} {f : State → State} (ht : c.time = t)
    (h : exec c s = atMoment t s fun x => if !x.carries n then x else f x) (hc : s.carries n = false) : Idles c s :=
  .of_effect ht h (if_pos (by simp [State.carries_advance, hc]))

/-- The data blocks of a dispatch are received. -/
def State.countBlocks (s : State) (n : Nat) (data : List Word) : State :=
  (data.foldl (fun s _ => s.dataBlock n) s).modLane n fun l => { l with blocksRx := ledgerAdd l.blocksRx data.length }

/-- A dispatch whose blocks have been received is refused, or judged by its sequence. -/
def State.judgeDispatch (s : State) (n : Nat) (head : Ctl) (data : List Word) (tail : Ctl) (clean : Bool) : State :=
  if !clean || data.length ≠ headLen head || cf tail 32 16 ≠ cf head 8 16 then s.refuse n data.length 16 3 13 (cf head 8 16)
  else if cf tail 0 32 ≠ dispatchCrc head data then s.refuse n data.length 0 1 11 (cf head 8 16)
  else if 1 < cf head 6 2 then s.refuse n data.length 16 3 13 (cf head 8 16)
  else s.seqDispatch n head data

theorem exec_dispatch (s : State) (t : Nat) (n : Fin 16) (head : Ctl) (data : List Word) (tail : Ctl) (clean : Bool) :
    exec (.dispatch t n head data tail clean) s = atMoment t s fun x =>
      if !x.carries n then x else (x.countBlocks n data).judgeDispatch n head data tail clean := rfl

theorem State.countBlocks_kept (s : State) (n a : Nat) (data : List Word) : s.LinkKept (s.countBlocks n data) n a :=
  (s.foldl_kept n a (fun x _ => x.dataBlock_kept n a) data).trans (State.modLane_kept _ n a rfl)

theorem State.countBlocks_limit (s : State) (n : Nat) (data : List Word) :
    ((s.countBlocks n data).lane n).limitTx = (s.lane n).limitTx := by
  rw [State.countBlocks, State.lane_modLane]
  refine foldl_keeps (fun u => (u.lane n).limitTx = (s.lane n).limitTx) _ (fun x _ hx => ?_) data s rfl
  obtain ⟨e, he⟩ := x.lane_dataBlock n
  rw [he]
  exact hx

/-- A refused dispatch adds to the ledger what it brought, and its violation to its counter (R291). -/
theorem State.refuse_does (s : State) (n : Fin 16) (blocks lo nakReason reason seq : Nat) (hlo : lo + 8 ≤ 64) :
    let u := s.refuse n blocks lo nakReason reason seq
    (u.lane n).link = { (s.lane n).link with blocksRef := ledgerAdd (s.lane n).blocksRef blocks } ∧
    u.fld (Reg.COU_PROTO_ERR n) lo 8 = min 255 (s.fld (Reg.COU_PROTO_ERR n) lo 8 + 1) := by
  have naked := (s.modLane n fun l => { l with blocksRef := ledgerAdd l.blocksRef blocks }).nak_kept n nakReason
    (Reg.COU_PROTO_ERR n) (reportReg_couProtoErr n) (by simp [Reg.COU_PROTO_ERR, Reg.COU_LANE_CNT])
    (by simp [Reg.COU_PROTO_ERR, Reg.COU_NAK])
  obtain ⟨hlink, hcount⟩ := State.violation_counts
    ((s.modLane n fun l => { l with blocksRef := ledgerAdd l.blocksRef blocks }).nak n nakReason) n lo reason seq hlo
  refine ⟨hlink.trans (naked.link.trans (by rw [State.lane_modLane]; rfl)), hcount.trans ?_⟩
  rw [naked.fld]
  rfl

theorem dispatch_refuses (s : State) (t : Nat) (n : Fin 16) {head : Ctl} {data : List Word} {tail : Ctl} {clean : Bool}
    {lo nakReason reason : Nat} (hlo : lo + 8 ≤ 64) (hc : s.carries n = true)
    (h : ∀ x : State, x.judgeDispatch n head data tail clean = x.refuse n data.length lo nakReason reason (cf head 8 16)) :
    Does (.dispatch t n head data tail clean) s fun u =>
      (u.lane n).blocksRef = ledgerAdd (s.lane n).blocksRef data.length ∧ (u.lane n).rxNext = (s.lane n).rxNext ∧
      u.fld (Reg.COU_PROTO_ERR n) lo 8 = min 255 (s.fld (Reg.COU_PROTO_ERR n) lo 8 + 1) := by
  have counted := (s.advance t).countBlocks_kept n (Reg.COU_PROTO_ERR n) data
  obtain ⟨hlink, hcount⟩ := ((s.advance t).countBlocks n data).refuse_does n data.length lo nakReason reason (cf head 8 16) hlo
  refine .of_carried (exec_dispatch ..) hc ?_
  rw [h, State.settle_lane, State.settle_fld]
  refine ⟨(Lane.of_link Lane.blocksRef Link.blocksRef hlink).trans ?_,
    (Lane.of_link Lane.rxNext Link.rxNext hlink).trans (Lane.of_link Lane.rxNext Link.rxNext counted.link), ?_⟩
  · exact congrArg (ledgerAdd · data.length) (Lane.of_link Lane.blocksRef Link.blocksRef counted.link)
  · rw [hcount, counted.fld, State.fld_advance]

/-! #### The sequence of a dispatch (R268, R270, R273) -/

theorem State.acceptDispatch_does (s : State) (n : Fin 16) (head : Ctl) (data : List Word) :
    let u := s.acceptDispatch n head data
    (u.lane n).link = { (s.lane n).link with rxNext := BitVec.ofNat 16 (cf head 8 16 + 1)
                                             blocksAcc := ledgerAdd (s.lane n).blocksAcc data.length } ∧
    u.fld (Reg.COU_CNT_DISPATCH n) 0 48 = (s.fld (Reg.COU_CNT_DISPATCH n) 0 48 + 1) % 2 ^ 48 := by
  have hq := reportReg_couCntDispatch n
  unfold State.acceptDispatch
  extract_lets seq a s1 s2
  have taken : s1.LinkKept s2 n (Reg.COU_CNT_DISPATCH n) :=
    .ite ((s1.foldl_kept a.lane _ (fun x w => x.remoteItem_kept a hq w) data).trans (State.takeHorizon_kept _ a hq _))
      (s1.letterUp_kept a hq head data)
  have acked := taken.trans (s2.ackLane_kept n false false _)
  have counted : s1.fld (Reg.COU_CNT_DISPATCH n) 0 48 = (s.fld (Reg.COU_CNT_DISPATCH n) 0 48 + 1) % 2 ^ 48 :=
    State.fld_bump _ _ _ _ (by decide)
  refine ⟨acked.link.trans ?_, (acked.fld 0 48).trans counted⟩
  simp only [s1, State.lane_bump, State.lane_modLane]
  rfl

/-- Within its credit a dispatch is accepted and counted against it (R273). -/
theorem State.creditDispatch_within {s : State} {n : Nat} {data : List Word} (head : Ctl)
    (h : data.length ≤ (s.lane n).limitTx - (s.lane n).accepted) : s.creditDispatch n head data =
      (s.modLane n fun l => { l with accepted := l.accepted + data.length }).acceptDispatch n head data := if_pos h

theorem State.seqDispatch_inTurn {s : State} {n : Nat} {head : Ctl} (data : List Word) (hfirst : (s.lane n).firstDispatch = false)
    (hseq : BitVec.ofNat 16 (cf head 8 16) = (s.lane n).rxNext) : s.seqDispatch n head data = s.creditDispatch n head data := by
  unfold State.seqDispatch
  dsimp only
  rw [if_neg (by simp [hfirst]), if_pos hseq]

/-- A dispatch accepted before is counted, and acknowledged again (R270). -/
theorem State.seqDispatch_again {s : State} {n : Nat} {head : Ctl} (data : List Word) (hfirst : (s.lane n).firstDispatch = false)
    (hseq : BitVec.ofNat 16 (cf head 8 16) ≠ (s.lane n).rxNext)
    (hback : ((s.lane n).rxNext - BitVec.ofNat 16 (cf head 8 16)).toNat ≤ 32768) : s.seqDispatch n head data =
      (s.modLane n fun l => { l with blocksDup := ledgerAdd l.blocksDup data.length }).ackLane n false false := by
  unfold State.seqDispatch
  dsimp only
  rw [if_neg (by simp [hfirst]), if_neg hseq, if_pos hback]

section
variable {s : State} {n : Fin 16} {head : Ctl} {data : List Word} {tail : Ctl} {clean : Bool} (t : Nat)

theorem State.judgeDispatch_malformed (x : State)
    (h : clean = false ∨ data.length ≠ headLen head ∨ cf tail 32 16 ≠ cf head 8 16) :
    x.judgeDispatch n head data tail clean = x.refuse n data.length 16 3 13 (cf head 8 16) :=
  if_pos (by simpa [or_assoc] using h)

theorem State.judgeDispatch_badCrc (x : State) (hclean : clean = true) (hlen : data.length = headLen head)
    (htail : cf tail 32 16 = cf head 8 16) (hcrc : cf tail 0 32 ≠ dispatchCrc head data) :
    x.judgeDispatch n head data tail clean = x.refuse n data.length 0 1 11 (cf head 8 16) :=
  (if_neg (by simp [hclean, hlen, htail])).trans (if_pos hcrc)

theorem State.judgeDispatch_good (x : State) (hclean : clean = true) (hlen : data.length = headLen head)
    (htail : cf tail 32 16 = cf head 8 16) (hcrc : cf tail 0 32 = dispatchCrc head data) (htype : cf head 6 2 ≤ 1) :
    x.judgeDispatch n head data tail clean = x.seqDispatch n head data :=
  (if_neg (by simp [hclean, hlen, htail])).trans ((if_neg (by simp [hcrc])).trans (if_neg (by omega)))

variable (hc : s.carries n = true) (hgood : ∀ x : State, x.judgeDispatch n head data tail clean = x.seqDispatch n head data)
  (hfirst : (s.lane n).firstDispatch = false)
include hc hgood hfirst

theorem dispatch_accepted (hseq : BitVec.ofNat 16 (cf head 8 16) = (s.lane n).rxNext)
    (hcredit : data.length ≤ (s.lane n).limitTx - (s.lane n).accepted) :
    Does (.dispatch t n head data tail clean) s fun u =>
      (u.lane n).rxNext = (s.lane n).rxNext + 1 ∧ (u.lane n).blocksAcc = ledgerAdd (s.lane n).blocksAcc data.length ∧
      (u.lane n).accepted = (s.lane n).accepted + data.length ∧
      u.fld (Reg.COU_CNT_DISPATCH n) 0 48 = (s.fld (Reg.COU_CNT_DISPATCH n) 0 48 + 1) % 2 ^ 48 := by
  have counted := (s.advance t).countBlocks_kept n (Reg.COU_CNT_DISPATCH n) data
  have hlimit := (s.advance t).countBlocks_limit n data
  generalize hx : (s.advance t).countBlocks n data = x at counted hlimit
  have hlink : (x.lane n).link = (s.lane n).link := counted.link
  obtain ⟨hlinked, hcount⟩ := (x.modLane n fun l => { l with accepted := l.accepted + data.length }).acceptDispatch_does n head data
  rw [State.lane_modLane] at hlinked
  have haccepted : (x.lane n).accepted = (s.lane n).accepted := Lane.of_link Lane.accepted Link.accepted hlink
  have hacc : (x.lane n).blocksAcc = (s.lane n).blocksAcc := Lane.of_link Lane.blocksAcc Link.blocksAcc hlink
  have hjudged : x.judgeDispatch n head data tail clean = _ := (hgood x).trans
    ((State.seqDispatch_inTurn data ((Lane.of_link Lane.firstDispatch Link.firstDispatch hlink).trans hfirst)
      (hseq.trans (Lane.of_link Lane.rxNext Link.rxNext hlink).symm)).trans
    (State.creditDispatch_within head (by rw [hlimit, haccepted]; exact hcredit)))
  refine .of_carried (exec_dispatch ..) hc ?_
  rw [hx, hjudged, State.settle_lane, State.settle_fld]
  refine ⟨(Lane.of_link Lane.rxNext Link.rxNext hlinked).trans ?_, (Lane.of_link Lane.blocksAcc Link.blocksAcc hlinked).trans ?_,
    (Lane.of_link Lane.accepted Link.accepted hlinked).trans ?_, hcount.trans ?_⟩
  · exact (BitVec.ofNat_add ..).trans (congrArg (· + 1) hseq)
  · exact congrArg (ledgerAdd · data.length) hacc
  · exact congrArg (· + data.length) haccepted
  · exact congrArg (fun k => (k + 1) % 2 ^ 48) (counted.fld 0 48)

theorem dispatch_duplicate (hseq : BitVec.ofNat 16 (cf head 8 16) ≠ (s.lane n).rxNext)
    (hback : ((s.lane n).rxNext - BitVec.ofNat 16 (cf head 8 16)).toNat ≤ 32768) :
    Does (.dispatch t n head data tail clean) s fun u =>
      (u.lane n).rxNext = (s.lane n).rxNext ∧ (u.lane n).accepted = (s.lane n).accepted ∧
      (u.lane n).blocksDup = ledgerAdd (s.lane n).blocksDup data.length := by
  have counted := (s.advance t).countBlocks_kept n 0 data
  generalize hx : (s.advance t).countBlocks n data = x at counted
  have hlink : (x.lane n).link = (s.lane n).link := counted.link
  have hfirst' : (x.lane n).firstDispatch = false := (Lane.of_link Lane.firstDispatch Link.firstDispatch hlink).trans hfirst
  have hnext : (x.lane n).rxNext = (s.lane n).rxNext := Lane.of_link Lane.rxNext Link.rxNext hlink
  have hdup : (x.lane n).blocksDup = (s.lane n).blocksDup := Lane.of_link Lane.blocksDup Link.blocksDup hlink
  have acked := (x.modLane n fun l => { l with blocksDup := ledgerAdd l.blocksDup data.length }).ackLane_kept n false false 0
  have hlinked := acked.link
  rw [State.lane_modLane] at hlinked
  have hjudged : x.judgeDispatch n head data tail clean = _ := (hgood x).trans
    (State.seqDispatch_again data hfirst' (hnext ▸ hseq) (hnext ▸ hback))
  refine .of_carried (exec_dispatch ..) hc ?_
  rw [hx, hjudged, State.settle_lane]
  exact ⟨(Lane.of_link Lane.rxNext Link.rxNext hlinked).trans hnext,
    (Lane.of_link Lane.accepted Link.accepted hlinked).trans (Lane.of_link Lane.accepted Link.accepted hlink),
    (Lane.of_link Lane.blocksDup Link.blocksDup hlinked).trans (congrArg (ledgerAdd · data.length) hdup)⟩

end

/-! ### ACK and NAK blocks (R269, R272, R276) -/

/-- The dispatches that an ACK acknowledges leave the replay buffer (R272). -/
theorem State.lane_acked {s u : State} {n : Nat} {next : BitVec 16} (h : s.acked n next = some u) : u.lane n =
    { s.lane n with replay := (s.lane n).replay.drop ((s.lane n).replay.length - ((s.lane n).txNext - next).toNat) } := by
  unfold State.acked at h
  extract_lets l j k s1 at h
  rw [Option.ite_none_left_eq_some] at h
  obtain ⟨-, h⟩ := h
  have h1 : s1.lane n = s.lane n := by
    simp only [s1]
    split <;> rfl
  rw [← Option.some.inj h]
  refine (foldl_keeps (fun x => x.lane n = (s1.modLane n fun l => { l with replay := l.replay.drop k }).lane n)
    (fun s d => s.letterAck n d) (fun x d hx => (x.lane_push ..).trans hx) _ _ rfl).trans ?_
  rw [State.lane_modLane, h1]

theorem State.acked_of_sent {s : State} {n : Nat} {next : BitVec 16} (h : ((s.lane n).txNext - next).toNat ≤ 32768) :
    ∃ u, s.acked n next = some u := ⟨_, if_neg (by omega)⟩

/-- What an ACK tells beyond the sequence: the limit, and in a resynchronisation the count (R269, R276). -/
def State.noteAck (s : State) (n : Nat) (p : Ctl) : State :=
  let sync := cf p 40 1 = 1
  let req := cf p 41 1 = 1
  let s2 := (s.start (.lane .ackRx n)).modLane n fun l =>
    { l.valid 1 with limitRx := cf p 16 12, sent := if sync then cf p 28 12 else l.sent, sync := l.sync && !(sync && !req) }
  if req then s2.ackLane n true false else s2

/-- What an ACK block does on a lane that carries dispatches. -/
def State.takeAck (s : State) (n : Nat) (p : Ctl) : State :=
  if !checkOk p then s.badAck n false
  else match s.acked n (BitVec.ofNat 16 (cf p 0 16)) with
    | none => s.badAck n true
    | some s1 => s1.noteAck n p

/-- What a NAK block does on a lane that carries dispatches. -/
def State.takeNak (s : State) (n : Nat) (p : Ctl) : State :=
  if !checkOk p then s.badAck n false
  else
    let l := s.lane n
    let j := (l.txNext - BitVec.ofNat 16 (cf p 0 16)).toNat
    if cf p 16 4 = 0 || 4 < cf p 16 4 || 32768 < j then s.badAck n true
    else ((s.modLane n (·.valid 1)).bump (Reg.COU_NAK n) 16 16).resend n (l.replay.drop (l.replay.length - j))

theorem exec_ackBlock (s : State) (t : Nat) (n : Fin 16) (p : Ctl) :
    exec (.ackBlock t n p) s = atMoment t s fun x => if !x.carries n then x else x.takeAck n p := rfl

theorem exec_nakBlock (s : State) (t : Nat) (n : Fin 16) (p : Ctl) :
    exec (.nakBlock t n p) s = atMoment t s fun x => if !x.carries n then x else x.takeNak n p := rfl

theorem State.noteAck_link (s : State) (n : Nat) (p : Ctl) : ((s.noteAck n p).lane n).link =
    { (s.lane n).link with
      limitRx := cf p 16 12, sent := if cf p 40 1 = 1 then cf p 28 12 else (s.lane n).sent
      sync := (s.lane n).sync && !(cf p 40 1 = 1 && !(cf p 41 1 = 1)) } := by
  unfold State.noteAck
  extract_lets sync req s2
  have h2 : ((if req then s2.ackLane n true false else s2).lane n).link = (s2.lane n).link :=
    (State.LinkKept.ite (s2.ackLane_kept n true false 0) (.refl s2 n 0)).link
  rw [h2, State.lane_modLane]
  rfl

/-- A good ACK is taken from where the hub's sequence stands (R272, R273). -/
theorem State.takeAck_good {s : State} {n : Nat} {p : Ctl} (hgood : checkOk p = true)
    (h : ((s.lane n).txNext - BitVec.ofNat 16 (cf p 0 16)).toNat ≤ 32768) : let k := (s.takeAck n p).lane n
    k.replay = (s.lane n).replay.drop ((s.lane n).replay.length - ((s.lane n).txNext - BitVec.ofNat 16 (cf p 0 16)).toNat) ∧
    k.limitRx = cf p 16 12 ∧ k.sent = (if cf p 40 1 = 1 then cf p 28 12 else (s.lane n).sent) := by
  obtain ⟨u, hu⟩ := State.acked_of_sent h
  have hlink := u.noteAck_link n p
  rw [State.lane_acked hu] at hlink
  have taken : s.takeAck n p = u.noteAck n p := by
    rw [State.takeAck, hgood, hu]
    rfl
  dsimp only
  rw [taken]
  exact ⟨Lane.of_link Lane.replay Link.replay hlink, Lane.of_link Lane.limitRx Link.limitRx hlink,
    Lane.of_link Lane.sent Link.sent hlink⟩

/-- An ACK with a bad check counts under FORMAT (R291). -/
theorem State.takeAck_bad (s : State) (n : Fin 16) {p : Ctl} (hbad : checkOk p = false) : let u := s.takeAck n p
    (u.lane n).link = (s.lane n).link ∧
    u.fld (Reg.COU_PROTO_ERR n) 16 8 = min 255 (s.fld (Reg.COU_PROTO_ERR n) 16 8 + 1) := by
  have taken : s.takeAck n p = s.violation n false 16 13 (s.lane n).rxNext.toNat := by
    rw [State.takeAck, hbad]
    rfl
  rw [taken]
  exact s.violation_counts n 16 13 _ (by decide)

/-- A good NAK has every dispatch from its sequence on sent again (R272). -/
theorem State.takeNak_good {s : State} {n : Fin 16} {p : Ctl} (hgood : checkOk p = true)
    (h : ((s.lane n).txNext - BitVec.ofNat 16 (cf p 0 16)).toNat ≤ 32768) (hlow : 1 ≤ cf p 16 4) (hhigh : cf p 16 4 ≤ 4) :
    let u := s.takeNak n p
    (u.lane n).replay = (s.lane n).replay ∧
    u.fld (Reg.COU_NAK n) 16 16 = (s.fld (Reg.COU_NAK n) 16 16 + 1) % 2 ^ 16 ∧
    u.fld (Reg.COU_REPLAY n) 0 16 = (s.fld (Reg.COU_REPLAY n) 0 16 +
      min ((s.lane n).txNext - BitVec.ofNat 16 (cf p 0 16)).toNat (s.lane n).replay.length) % 2 ^ 16 := by
  have hne : Reg.COU_NAK n ≠ Reg.COU_REPLAY n := by simp [Reg.COU_NAK, Reg.COU_REPLAY]
  have taken : s.takeNak n p = ((s.modLane n (·.valid 1)).bump (Reg.COU_NAK n) 16 16).resend n ((s.lane n).replay.drop
      ((s.lane n).replay.length - ((s.lane n).txNext - BitVec.ofNat 16 (cf p 0 16)).toNat)) :=
    (if_neg (by simp [hgood])).trans (if_neg (by simp only [Bool.or_eq_true, decide_eq_true_eq, not_or]; omega))
  dsimp only
  rw [taken]
  generalize ((s.lane n).txNext - BitVec.ofNat 16 (cf p 0 16)).toNat = j
  refine ⟨?_, ?_, ?_⟩
  · refine ((State.resend_sends ..).keeps Lane.replay fun _ _ => rfl).trans ?_
    rw [State.lane_bump, State.lane_modLane]
    rfl
  · rw [State.fld_of_reg (State.reg_resend _ n _ _ hne), State.fld_bump _ _ _ _ (by decide)]
    rfl
  · have hother : ((s.modLane n (·.valid 1)).bump (Reg.COU_NAK n) 16 16).reg (Reg.COU_REPLAY n) = s.reg (Reg.COU_REPLAY n) := by
      rw [State.reg_bump, if_neg hne.symm]
      rfl
    have hlen : (s.lane n).replay.length - ((s.lane n).replay.length - j) = min j (s.lane n).replay.length := by omega
    rw [State.resend_counts, State.fld_of_reg hother, List.length_drop, hlen]

end Sys2Proof.Machine

section
open Sys2Proof.Machine

/-- Settles O20: received data blocks leave the link of the lane; a dispatch that is refused, accepted or had before then moves of it its
own part, which neither its content nor a NAK, an ACK or a violation behind it changes, and ACK and NAK blocks take the replay buffer from
the hub's own sequence. -/
theorem dispatchRowsComplete : Obligations.DispatchRowsComplete := by
  refine ⟨fun s t n head data tail clean => ⟨.of_uncarried rfl (exec_dispatch ..), fun hc h => ?_,
    fun hc hclean hlen htail hcrc => ?_, fun hc hclean hlen htail hcrc htype hfirst => ?_⟩,
    fun s t n p => ⟨fun hc => ?_, fun hc hgood h => ?_, fun hc hbad => ?_, fun hc hgood h hlow hhigh => ?_⟩⟩
  · exact dispatch_refuses s t n (by decide) hc fun x => x.judgeDispatch_malformed h
  · exact dispatch_refuses s t n (by decide) hc fun x => x.judgeDispatch_badCrc hclean hlen htail hcrc
  · have good (x : State) := x.judgeDispatch_good (n := n) hclean hlen htail hcrc htype
    exact ⟨dispatch_accepted t hc good hfirst, dispatch_duplicate t hc good hfirst⟩
  · exact ⟨.of_uncarried rfl (exec_ackBlock ..) hc, .of_uncarried rfl (exec_nakBlock ..) hc⟩
  · exact .of_carried (exec_ackBlock ..) hc (State.takeAck_good (s := s.advance t) hgood h)
  · obtain ⟨hlink, hcount⟩ := (s.advance t).takeAck_bad n hbad
    exact .of_carried (exec_ackBlock ..) hc
      ⟨Lane.of_link Lane.replay Link.replay hlink, Lane.of_link Lane.limitRx Link.limitRx hlink, hcount⟩
  · exact .of_carried (exec_nakBlock ..) hc (State.takeNak_good (s := s.advance t) hgood h hlow hhigh)

end

namespace Sys2Proof.Machine

@[simp] theorem State.settle_sent (w s : State) (t : Nat) : (w.settle s t).sent = w.sent := rfl

theorem State.sent_sendCtl (s : State) (n type : Nat) (p : Ctl) : (s.sendCtl n type p).sent = s.sent ++ [.ctl n type p] := rfl

/-- Of a lane that has sent blocks the transmitter's line alone has changed. -/
theorem State.Sends.lane_eq {s u : State} {n : Nat} (h : s.Sends u n) :
    u.lane n = { s.lane n with scrambler := (u.lane n).scrambler, lineBlock := (u.lane n).lineBlock } := by
  obtain ⟨x, hx⟩ := h
  rw [hx]
  rfl

/-! ### The timers of a lane that carries dispatches (R271, R272, R276) -/

theorem exec_ackSendTimer (s : State) (t : Nat) (n : Fin 16) : exec (.ackSendTimer t n) s = atMoment t s fun x =>
    if x.carries n && x.past (.lane .ack n) (8 * usQ) then x.ackLane n false false else x := rfl

theorem exec_replayTimeout (s : State) (t : Nat) (n : Fin 16) : exec (.replayTimeout t n) s = atMoment t s fun x =>
    if x.carries n && !(x.lane n).replay.isEmpty && x.past (.lane .replay n) (x.fld (Reg.COU_PROTO_CTRL n) 0 8 * usQ) then
      x.resend n (x.lane n).replay
    else x := rfl

theorem exec_resyncRepeat (s : State) (t : Nat) (n : Fin 16) : exec (.resyncRepeat t n) s = atMoment t s fun x =>
    if x.carries n && (x.lane n).sync && x.past (.lane .syncReq n) (16 * usQ) then x.ackLane n true true else x := rfl

/-- A resynchronisation that has not been answered (R276, R291). -/
def State.failSync (s : State) (n : Nat) : State :=
  (((s.raise .creditSync n).protocolFault n).laneOccur n 19 0).laneToRecover n

theorem exec_creditSync (s : State) (t : Nat) (n : Fin 16) : exec (.creditSync t n) s = atMoment t s fun x =>
    if x.carries n && (x.lane n).sync && x.past (.lane .sync n) (1000 * usQ) then x.failSync n else x := rfl

/-- The NAK of a dispatch that has not arrived goes again (R272). -/
def State.repeatNak (s : State) (n : Nat) : State :=
  match (s.lane n).nakOut with
  | some (_, _, reason) => if s.carries n && s.past (.lane .nak n) (20 * usQ) then s.nak n reason else s
  | none => s

theorem exec_nakRepeat (s : State) (t : Nat) (n : Fin 16) : exec (.nakRepeat t n) s = atMoment t s fun x => x.repeatNak n := rfl

theorem State.repeatNak_due {s : State} {n : Nat} {x : BitVec 16 × Nat × Nat} (hc : s.carries n = true)
    (hx : (s.lane n).nakOut = some x) (hd : s.past (.lane .nak n) (20 * usQ) = true) : s.repeatNak n = s.nak n x.2.2 := by
  rw [State.repeatNak, hx]
  exact if_pos (by simp [hc, hd])

theorem State.repeatNak_quiet {s : State} {n : Nat}
    (h : s.carries n = false ∨ (s.lane n).nakOut = none ∨ s.past (.lane .nak n) (20 * usQ) = false) : s.repeatNak n = s := by
  unfold State.repeatNak
  split
  next hx =>
    obtain h | h | h := h
    · exact if_neg (by simp [h])
    · cases hx.symm.trans h
    · exact if_neg (by simp [h])
  next => rfl

/-- A resynchronisation begins where the next letter lacks credit and no ACK has come (R276). -/
def State.watchCredit (s : State) (n : Nat) : State :=
  match (s.lane n).letters with
  | x :: _ =>
    if s.carries n && !(s.lane n).sync && (s.lane n).txCredit < x.blocks &&
        s.past (.lane .ackRx n) (8 * s.fld (Reg.COU_PROTO_CTRL n) 8 8 * usQ) then s.startSync n
    else s
  | [] => s

theorem exec_creditWatchdog (s : State) (t : Nat) (n : Fin 16) :
    exec (.creditWatchdog t n) s = atMoment t s fun x => x.watchCredit n := rfl

theorem State.watchCredit_due {s : State} {n : Nat} {x : Letter} {rest : List Letter} (hc : s.carries n = true)
    (hx : (s.lane n).letters = x :: rest) (hlack : (s.lane n).txCredit < x.blocks) (hsync : (s.lane n).sync = false)
    (hd : s.past (.lane .ackRx n) (8 * s.fld (Reg.COU_PROTO_CTRL n) 8 8 * usQ) = true) : s.watchCredit n = s.startSync n := by
  rw [State.watchCredit, hx]
  exact if_pos (by simp [hc, hlack, hsync, hd])

theorem State.watchCredit_quiet {s : State} {n : Nat}
    (h : s.carries n = false ∨ (s.lane n).letters = [] ∨ (s.lane n).sync = true ∨
      s.past (.lane .ackRx n) (8 * s.fld (Reg.COU_PROTO_CTRL n) 8 8 * usQ) = false) : s.watchCredit n = s := by
  unfold State.watchCredit
  split
  next hx =>
    obtain h | h | h | h := h
    · exact if_neg (by simp [h])
    · cases hx.symm.trans h
    · exact if_neg (by simp [h])
    · exact if_neg (by simp [h])
  next => rfl

/-- A resynchronisation that begins changes nothing else of the link (R276). -/
theorem State.startSync_link {s : State} {n : Nat} (h : (s.lane n).sync = false) :
    ((s.startSync n).lane n).link = { (s.lane n).link with sync := true } := by
  rw [State.startSync, if_neg (by simp [h]), (State.ackLane_kept _ n true true 0).link, State.lane_start, State.lane_bump,
    State.lane_modLane]
  rfl

/-! #### A failed resynchronisation leaves its fault standing (R276, R291) -/

theorem State.protocolFault_stand (s : State) (n : Nat) : s.FaultsStand (s.protocolFault n) := by
  have marked (f : Lane → Lane) : s.FaultsStand (s.modLane n f) := .of_flt rfl
  unfold State.protocolFault
  exact .ite (.refl s) ((marked _).trans (State.raise_stand ..))

theorem State.laneOccur_stand (s : State) (n reason seq : Nat) : s.FaultsStand (s.laneOccur n reason seq) := by
  have noted (f : Lane → Lane) : s.FaultsStand (s.modLane n f) := .of_flt rfl
  have returned (x : State) : x.FaultsStand ((x.laneReturn n reason seq 1).start (.laneReturn n reason)) := by
    unfold State.laneReturn
    exact (x.push_stand _ _ _ _).trans (.of_flt (State.start_flt ..))
  unfold State.laneOccur
  extract_lets o put
  exact .ite (noted _) ((noted _).trans (returned _))

theorem State.laneTo_stand (s : State) (n : Nat) (st : LaneState) : s.FaultsStand (s.laneTo n st) := by
  unfold State.laneTo
  extract_lets old s1 s2 s3
  have h2 : s2.flt = s.flt := by
    simp only [s2]
    split <;> rfl
  have h3 : s3.flt = s2.flt := by
    simp only [s3]
    split <;> rfl
  have counted : s.FaultsStand s3 := .of_flt (h3.trans h2)
  have told : s3.FaultsStand (s3.laneEvent n) := by
    unfold State.laneEvent
    exact .ite (State.event_stand ..) (.refl s3)
  exact .ite counted (counted.trans told)

theorem State.flt_sendAlign (s : State) (n : Nat) (req ans : Bool) (turn : Nat) : (s.sendAlign n req ans turn).flt = s.flt := by
  unfold State.sendAlign
  dsimp only
  split <;> simp [State.sendCtl, State.sendFill]

theorem State.laneToRecover_stand (s : State) (n : Nat) : s.FaultsStand (s.laneToRecover n) := by
  rw [State.laneToRecover]
  exact (s.laneTo_stand n .recover).trans (.of_flt (State.flt_sendAlign ..))

theorem State.failSync_does (s : State) (n : Nat) : let u := s.failSync n
    (u.lane n).st = .recover ∧ u.flt.active.getLsbD FaultCode.creditSync.cls = true := by
  obtain ⟨x, hx⟩ := State.lane_laneToRecover (((s.raise .creditSync n).protocolFault n).laneOccur n 19 0) n
  dsimp only
  rw [State.failSync, hx]
  refine ⟨rfl, ?_⟩
  have stands := ((State.protocolFault_stand (s.raise .creditSync n) n).trans (State.laneOccur_stand _ n 19 0)).trans
    (State.laneToRecover_stand _ n)
  exact stands.2 _ (s.raise_class ..)

/-! ### A letter goes out (R268, R273, R289) -/

/-- The dispatch of a letter. -/
def State.dispatchOf (s : State) (n : Nat) (x : Letter) : Dispatched :=
  let data := blocksOf x.blocks x.bytes
  let seq := (s.lane n).txNext.toNat
  let head : Ctl := BitVec.ofNat 56 (packBits [(0, 6, x.blocks), (6, 2, 1), (8, 16, seq), (24, 10, x.bytes.length)])
  { head := head, data := data, tail := BitVec.ofNat 56 (packBits [(0, 32, dispatchCrc head data), (32, 16, seq)])
    ackRing := x.ackRing, tag := x.tag, pos := x.pos }

/-- A new dispatch of `k` blocks goes out, and waits for its ACK. -/
def State.sendNew (s : State) (n : Nat) (rest : List Letter) (d : Dispatched) (k : Nat) : State :=
  (s.modLane n fun l => { l with letters := rest, replay := l.replay ++ [d], txNext := l.txNext + 1, sent := l.sent + k }).sendDispatch
    n d

/-- The next letter goes out where credit and the replay buffer have room for it. -/
def State.sendNext (s : State) (n : Nat) : State :=
  match (s.lane n).letters with
  | x :: rest =>
    if s.carries n && x.blocks ≤ (s.lane n).txCredit && ((s.lane n).replay.map fun d => d.data.length).sum + x.blocks ≤ 256 then
      (if (s.lane n).replay.isEmpty then s.start (.lane .replay n) else s).sendNew n rest (s.dispatchOf n x) x.blocks
    else s
  | [] => s

theorem exec_dispatchSend (s : State) (t : Nat) (n : Fin 16) :
    exec (.dispatchSend t n) s = atMoment t s fun x => x.sendNext n := rfl

theorem blocksOf_length (k : Nat) (bytes : List Byte) : (blocksOf k bytes).length = k := by
  induction k generalizing bytes with
  | zero => rfl
  | succ k ih => rw [blocksOf, List.length_cons, ih]

/-- The blocks of a dispatch, in order (R266). -/
theorem State.sent_sendDispatch (s : State) (n : Nat) (d : Dispatched) : (s.sendDispatch n d).sent =
    s.sent ++ .ctl n 0x87 d.head :: (d.data.map (.data n) ++ [.ctl n 0x99 d.tail]) := by
  have datas (ws : List Word) (x : State) : (ws.foldl (fun s w => s.sendData n w) x).sent = x.sent ++ ws.map (.data n) := by
    induction ws generalizing x with
    | nil => simp
    | cons w ws ih =>
      rw [List.foldl_cons, ih]
      simp [State.sendData]
  simp [State.sendDispatch, State.sendCtl, datas]

theorem State.sendNext_sends {s : State} {n : Nat} {x : Letter} {rest : List Letter} (hc : s.carries n = true)
    (hx : (s.lane n).letters = x :: rest) (hcredit : x.blocks ≤ (s.lane n).txCredit)
    (hroom : ((s.lane n).replay.map fun d => d.data.length).sum + x.blocks ≤ 256) : let u := s.sendNext n
    (u.lane n).letters = rest ∧ (u.lane n).txNext = (s.lane n).txNext + 1 ∧ (u.lane n).sent = (s.lane n).sent + x.blocks ∧
    (u.lane n).replay.length = (s.lane n).replay.length + 1 ∧ u.sent.length = s.sent.length + x.blocks + 2 := by
  have sends (w : State) (hlane : w.lane n = s.lane n) (hsent : w.sent = s.sent) :
      let u := w.sendNew n rest (s.dispatchOf n x) x.blocks
      (u.lane n).link = { (s.lane n).link with
        letters := rest, replay := (s.lane n).replay ++ [s.dispatchOf n x], txNext := (s.lane n).txNext + 1
        sent := (s.lane n).sent + x.blocks } ∧
      u.sent.length = s.sent.length + x.blocks + 2 := by
    refine ⟨((State.sendDispatch_sends ..).keeps Lane.link fun _ _ => rfl).trans ?_, ?_⟩
    · rw [State.lane_modLane, hlane]
      rfl
    · simp [State.sendNew, State.sent_sendDispatch, hsent, State.dispatchOf, blocksOf_length]
      omega
  have taken : s.sendNext n =
      (if (s.lane n).replay.isEmpty then s.start (.lane .replay n) else s).sendNew n rest (s.dispatchOf n x) x.blocks := by
    rw [State.sendNext, hx]
    exact if_pos (by simp [hc, hcredit, hroom])
  obtain ⟨hlink, hsent⟩ := sends (if (s.lane n).replay.isEmpty then s.start (.lane .replay n) else s)
    (by split <;> rfl) (by split <;> rfl)
  dsimp only
  rw [taken]
  exact ⟨Lane.of_link Lane.letters Link.letters hlink, Lane.of_link Lane.txNext Link.txNext hlink,
    Lane.of_link Lane.sent Link.sent hlink, (congrArg List.length (Lane.of_link Lane.replay Link.replay hlink)).trans (by simp), hsent⟩

theorem State.sendNext_quiet {s : State} {n : Nat} (h : s.carries n = false ∨ (s.lane n).letters = []) : s.sendNext n = s := by
  unfold State.sendNext
  split
  next hx =>
    obtain h | h := h
    · exact if_neg (by simp [h])
    · cases hx.symm.trans h
  next => rfl

end Sys2Proof.Machine

namespace Sys2Proof.Machine

/-! ### Blocks leave the receive buffer (R228, R273, R279) -/

/-- Routing changes no lane, and begins no castling. -/
theorem State.route_keeps {s : State} (h : s.plc.castlings = []) (src : Source) (word : List Item) :
    (s.route src word).lanes = s.lanes ∧ (s.route src word).plc.castlings = [] := by
  have counts (x : State) (i : Item) (k : Nat) (hx : x.lanes = s.lanes ∧ x.plc.castlings = []) :
      (x.routeCount i k).lanes = s.lanes ∧ (x.routeCount i k).plc.castlings = [] := by
    unfold State.routeCount
    dsimp only
    split <;> exact hx
  have hands (x : State) (c : Nat) (w : List (Nat × Item)) (hx : x.lanes = s.lanes ∧ x.plc.castlings = []) :
      (x.hand c w).lanes = s.lanes ∧ (x.hand c w).plc.castlings = [] := by
    unfold State.hand
    dsimp only
    split <;> simp [hx]
  unfold State.route
  exact foldl_keeps (fun x => x.lanes = s.lanes ∧ x.plc.castlings = []) _ (fun x c => hands x c _) _ _
    (foldl_keeps (fun x => x.lanes = s.lanes ∧ x.plc.castlings = []) _ (fun x i => counts x i _) word s ⟨rfl, h⟩)

/-- A routed item sets its source's zone, and no block of the buffer changes (R280). -/
theorem State.routeRemote_keeps {s : State} (h : s.plc.castlings = []) (n i : Nat) (x : Item) :
    ((s.routeRemote n i x).lane n).buffer = (s.lane n).buffer ∧ (s.routeRemote n i x).plc.castlings = [] := by
  have routed (w : State) (hw : (w.lane n).buffer = (s.lane n).buffer ∧ w.plc.castlings = []) :
      ((w.route (.remote n i) [x]).lane n).buffer = (s.lane n).buffer ∧ (w.route (.remote n i) [x]).plc.castlings = [] := by
    obtain ⟨hlanes, hnone⟩ := State.route_keeps hw.2 (.remote n i) [x]
    exact ⟨(congrArg Lane.buffer (State.lane_of_lanes hlanes n)).trans hw.1, hnone⟩
  have zoned (src : RemoteSrc) :
      ((s.setSrc n i src).lane n).buffer = (s.lane n).buffer ∧ (s.setSrc n i src).plc.castlings = [] :=
    ⟨by rw [State.setSrc, State.lane_modLane], h⟩
  unfold State.routeRemote
  dsimp only
  split
  · split
    · exact routed _ (zoned _)
    · exact zoned _
  · exact routed _ (zoned _)
  · refine routed _ ?_
    split
    · exact ⟨rfl, h⟩
    · exact zoned _
  · exact routed _ ⟨rfl, h⟩

/-- Without castlings the arbiter holds no source (R228). -/
theorem State.arbiterHeld_uncastled {s : State} (h : s.plc.castlings = []) (src : Source) : s.arbiterHeld src = false := by
  simp [State.arbiterHeld, h]

/-- A block counts against the violation reserve while that holds any, else as freed (R273, R275). -/
def Lane.freeBlock (l : Lane) (rest : List LaneBlock) : Lane :=
  if 0 < l.reserve then { l with buffer := rest, reserve := l.reserve - 1 }
  else { l with buffer := rest, freed := l.freed + 1, freedSinceAck := l.freedSinceAck + 1 }

theorem Lane.freeBlock_buffer (l : Lane) (rest : List LaneBlock) : (l.freeBlock rest).buffer = rest := by
  unfold Lane.freeBlock
  split <;> rfl

/-- The item of a block that leaves the buffer goes to the sorting office. -/
def State.routeBlock (s : State) (n : Nat) (b : LaneBlock) : State := match b with | some (i, x) => s.routeRemote n i x | none => s

theorem State.routeBlock_keeps {s : State} (h : s.plc.castlings = []) (n : Nat) (b : LaneBlock) :
    ((s.routeBlock n b).lane n).buffer = (s.lane n).buffer ∧ (s.routeBlock n b).plc.castlings = [] := by
  unfold State.routeBlock
  split
  · exact State.routeRemote_keeps h n _ _
  · exact ⟨rfl, h⟩

/-- Without castlings the oldest block leaves the buffer. -/
theorem State.drainLane_cons {s : State} {n k : Nat} {b : LaneBlock} {rest : List LaneBlock} (hnone : s.plc.castlings = [])
    (hb : (s.lane n).buffer = b :: rest) :
    State.drainLane (k + 1) s n = State.drainLane k ((s.modLane n (·.freeBlock rest)).routeBlock n b) n := by
  rw [State.drainLane, hb]
  refine if_neg ?_
  split <;> simp [State.arbiterHeld_uncastled hnone]

theorem State.drainLane_buffer (k : Nat) {s : State} (n : Nat) (hnone : s.plc.castlings = []) :
    ((State.drainLane k s n).lane n).buffer = (s.lane n).buffer.drop k := by
  induction k generalizing s with
  | zero => rfl
  | succ k ih =>
    cases hb : (s.lane n).buffer with
    | nil =>
      rw [State.drainLane, hb]
      exact hb
    | cons b rest =>
      have freed : ((s.modLane n (·.freeBlock rest)).lane n).buffer = rest := by
        rw [State.lane_modLane, Lane.freeBlock_buffer]
      obtain ⟨hbuffer, hnone'⟩ := State.routeBlock_keeps (s := s.modLane n (·.freeBlock rest)) hnone n b
      rw [State.drainLane_cons hnone hb, List.drop_succ_cons, ih hnone', hbuffer, freed]

/-- Blocks leave the buffer, credit is granted, and every 64 freed blocks send an ACK (R271, R273, R274). -/
def State.releaseCredit (s : State) (n blocks : Nat) : State :=
  let s1 := (State.drainLane (min blocks (s.lane n).buffer.length) s n).grantLane n
  if s1.carries n && 64 ≤ (s1.lane n).freedSinceAck then s1.ackLane n false false else s1

theorem exec_creditRelease (s : State) (t : Nat) (n : Fin 16) (blocks : Nat) :
    exec (.creditRelease t n blocks) s = atMoment t s fun x => x.releaseCredit n blocks := rfl

theorem State.releaseCredit_buffer {s : State} (n blocks : Nat) (hnone : s.plc.castlings = []) :
    ((s.releaseCredit n blocks).lane n).buffer = (s.lane n).buffer.drop blocks := by
  have granted (x : State) : ((x.grantLane n).lane n).buffer = (x.lane n).buffer := by
    obtain ⟨limit, freed, h⟩ := x.lane_grantLane n
    rw [h]
  have acked (x : State) : ((x.ackLane n false false).lane n).buffer = (x.lane n).buffer := by
    obtain ⟨y, limit, freed, h⟩ := x.lane_ackLane n false false
    rw [h]
    rfl
  have drained := (granted _).trans (State.drainLane_buffer (min blocks (s.lane n).buffer.length) n hnone)
  rw [List.drop_eq_drop_min, ← drained]
  unfold State.releaseCredit
  extract_lets s1
  split
  · exact acked s1
  · rfl

/-! ### The INIT exchange (R277, R278) -/

/-- A good INIT block is judged by the parameters that it announces (R277). -/
def State.judgeInit (s : State) (n : Nat) (p : Ctl) : State :=
  let s1 := s.modLane n fun l =>
    { l.valid 1 with pCredits := cf p 0 12, pReplay := cf p 32 8, pVersion := cf p 45 3, pResume := cf p 13 1 = 1
                     pRxNext := BitVec.ofNat 16 (cf p 16 16) }
  if cf p 0 12 < 16 || cf p 32 8 < 8 || cf p 45 3 ≠ 1 || cf p 40 1 = 0 then s1.raise .satParam n
  else s1.modLane n fun l => { l with initGood := true, initSeen := l.initSeen || decide (cf p 12 1 = 1) }

/-- What an INIT block does in each state. -/
def State.hearInit (s : State) (n : Nat) (p : Ctl) : State :=
  match (s.lane n).st with
  | .active => if s.isPeer n then s else (s.modLane n (·.valid 1)).formatBlock n
  | .credit => if s.isPeer n || !checkOk p then s else s.judgeInit n p
  | _ => s

theorem exec_initBlock (s : State) (t : Nat) (n : Fin 16) (p : Ctl) :
    exec (.initBlock t n p) s = atMoment t s fun x => x.hearInit n p := rfl

theorem State.hearInit_credit {s : State} {n : Nat} {p : Ctl} (hst : (s.lane n).st = .credit) (hpeer : s.isPeer n = false)
    (hgood : checkOk p = true) : s.hearInit n p = s.judgeInit n p := by
  rw [State.hearInit, hst]
  exact if_neg (by simp [hpeer, hgood])

theorem State.judgeInit_taken (s : State) (n : Nat) {p : Ctl} (hcredit : 16 ≤ cf p 0 12) (hreplay : 8 ≤ cf p 32 8)
    (hversion : cf p 45 3 = 1) (hsat : cf p 40 1 = 1) : let k := (s.judgeInit n p).lane n
    k.initGood = true ∧ k.pCredits = cf p 0 12 ∧ k.initSeen = ((s.lane n).initSeen || decide (cf p 12 1 = 1)) := by
  dsimp only
  rw [State.judgeInit, if_neg (by simp [hversion, hsat]; omega), State.lane_modLane, State.lane_modLane]
  exact ⟨rfl, rfl, rfl⟩

theorem State.judgeInit_refused (s : State) (n : Nat) {p : Ctl}
    (h : cf p 0 12 < 16 ∨ cf p 32 8 < 8 ∨ cf p 45 3 ≠ 1 ∨ cf p 40 1 = 0) : let u := s.judgeInit n p
    (u.lane n).initGood = (s.lane n).initGood ∧ u.flt.active.getLsbD FaultCode.satParam.cls = true := by
  dsimp only
  rw [State.judgeInit, if_pos (by simpa [or_assoc] using h), State.lane_raise, State.lane_modLane]
  exact ⟨rfl, State.raise_class ..⟩

/-- The hub's INIT block (R277). -/
def State.putInit (s : State) (n : Nat) : State :=
  let l := s.lane n
  (s.start (.lane .init n)).sendCtl n 0xC3 (withCheck (packBits [(0, 12, 512), (12, 1, b2n l.initGood), (13, 1, b2n l.session),
    (16, 16, l.rxNext.toNat), (32, 8, 16), (41, 4, n), (45, 3, 1)]))

theorem State.putInit_does (s : State) (n : Nat) : s.Sends (s.putInit n) n ∧ ∃ p, (s.putInit n).sent = s.sent ++ [.ctl n 0xC3 p] :=
  ⟨State.sendCtl_sends (s.start (.lane .init n)) n 0xC3 _, _, State.sent_sendCtl (s.start (.lane .init n)) n 0xC3 _⟩

/-- The hub's INIT goes, and completes the exchange where the partner's have come (R277). -/
def State.sendInit (s : State) (n : Nat) : State :=
  if (s.lane n).initGood && (s.lane n).initSeen then (s.putInit n).initDone n else s.putInit n

theorem exec_initSend (s : State) (t : Nat) (n : Fin 16) : exec (.initSend t n) s = atMoment t s fun x =>
    if (x.lane n).st == .credit && !x.isPeer n && x.past (.lane .init n) usQ then x.sendInit n else x := rfl

/-- Once the exchange has completed the lane is ACTIVE with its attempts at 0, whether its session goes on or a new one begins. -/
theorem State.initDone_does (s : State) (n : Nat) :
    ((s.initDone n).lane n).st = .active ∧ ((s.initDone n).lane n).attempt = 0 := by
  unfold State.initDone
  extract_lets l j goesOn s1 s2 s3 s4
  have h1 : (s1.lane n).st = .active ∧ (s1.lane n).attempt = 0 := by
    simp only [s1, State.lane_modLane]
    exact ⟨by simp [State.laneToActive, Lane.entered], trivial⟩
  clear_value s1
  split
  · have h2 : (s2.lane n).st = .active ∧ (s2.lane n).attempt = 0 := by
      simp only [s2]
      split
      next hx => exact ⟨(congrArg Lane.st (State.lane_acked hx)).trans h1.1, (congrArg Lane.attempt (State.lane_acked hx)).trans h1.2⟩
      next => exact h1
    clear_value s2
    have sent := s2.resend_sends n (s2.lane n).replay
    exact ⟨(sent.keeps Lane.st fun _ _ => rfl).trans h2.1, (sent.keeps Lane.attempt fun _ _ => rfl).trans h2.2⟩
  · have returned {α : Type} (f : State → α → State) (hf : ∀ x a, (f x a).lane n = x.lane n) (xs : List α) (x : State) :
        (xs.foldl f x).lane n = x.lane n :=
      foldl_keeps (fun u => u.lane n = x.lane n) f (fun u a hu => (hf u a).trans hu) xs x rfl
    have h4 : s4.lane n = s1.lane n :=
      (returned _ (fun x _ => x.lane_push ..) _ s3).trans (returned _ (fun x _ => x.lane_push ..) _ s1)
    rw [State.lane_modLane, h4]
    exact h1

theorem State.sendInit_does (s : State) (n : Nat) : let u := s.sendInit n
    ((s.lane n).initGood = true → (s.lane n).initSeen = true → (u.lane n).st = .active ∧ (u.lane n).attempt = 0) ∧
    ((s.lane n).initGood = false ∨ (s.lane n).initSeen = false →
      u.lane n = { s.lane n with scrambler := (u.lane n).scrambler, lineBlock := (u.lane n).lineBlock } ∧
      ∃ p, u.sent = s.sent ++ [.ctl n 0xC3 p]) := by
  refine ⟨fun hgood hseen => ?_, fun h => ?_⟩
  · rw [State.sendInit, if_pos (by simp [hgood, hseen])]
    exact State.initDone_does ..
  · rw [State.sendInit, if_neg (by obtain h | h := h <;> simp [h])]
    obtain ⟨hsends, hsent⟩ := s.putInit_does n
    exact ⟨hsends.lane_eq, hsent⟩

/-! ### Beacons (R286, R287) -/

/-- A FINE_BEACON is due. -/
def State.beaconDue (s : State) (n : Nat) : Bool :=
  s.carries n && s.tb.st.live && s.fld (Reg.COU_BEACON n) 0 16 ≠ 0 &&
    ((s.lane n).beacons = 0 || s.past (.lane .beacon n) (s.fld (Reg.COU_BEACON n) 0 16 * usQ))

/-- A FINE_BEACON goes, behind the COARSE_BEACON that it may need. -/
def State.sendBeacon (s : State) (n : Nat) : State :=
  let l := s.lane n
  let every := s.fld (Reg.COU_BEACON n) 0 16
  let tx := s.nextCycle
  let arrival : Nat := ((tx : Int) + ((s.fld (Reg.COU_LOOP_DELAY n) 0 32 + 1) / 2 : Nat) + sx 16 (s.fld (Reg.COU_ASYM n) 0 16)).toNat
  let k := l.beacons + 1
  let stepped := match l.lastBeacon with
    | some (before, _) => s.tb.forward.any fun x => decide (before < x.2)
    | none => false
  let coarse := k = 1 || k % 64 = 0 || (match l.lastBeacon with | some (_, a) => a / 2 ^ 54 != arrival / 2 ^ 54 | none => true)
  let coast := s.tb.st == .coasting || s.tb.st == .handover
  let s1 := (s.start (.lane .beacon n)).modLane n fun l => { l with beacons := k, lastBeacon := some (tx, arrival) }
  let s2 := if coarse then s1.sendCtl n 0x4D (BitVec.ofNat 56 (packBits [(0, 18, arrival / 2 ^ 54), (18, 16, every)])) else s1
  s2.sendCtl n 0x4B (BitVec.ofNat 56 (packBits [(0, 54, arrival), (54, 1, b2n coast), (55, 1, b2n stepped)]))

theorem exec_fineBeacon (s : State) (t : Nat) (n : Fin 16) : exec (.fineBeacon t n) s = atMoment t s fun x =>
    if x.beaconDue n then x.sendBeacon n else x := rfl

theorem State.sendBeacon_does (s : State) (n : Nat) : let u := s.sendBeacon n
    (u.lane n).beacons = (s.lane n).beacons + 1 ∧ ∃ l p, u.sent = s.sent ++ l ++ [.ctl n 0x4B p] := by
  unfold State.sendBeacon
  extract_lets l every tx arrival k stepped coarse coast s1 s2
  have h1 : (s1.lane n).beacons = (s.lane n).beacons + 1 ∧ s1.sent = s.sent := ⟨congrArg Lane.beacons (State.lane_modLane ..), rfl⟩
  clear_value s1
  have h2 : (s2.lane n).beacons = (s1.lane n).beacons ∧ ∃ l, s2.sent = s1.sent ++ l := by
    simp only [s2]
    split
    · exact ⟨(State.sendCtl_sends ..).keeps Lane.beacons fun _ _ => rfl, _, State.sent_sendCtl ..⟩
    · exact ⟨rfl, [], (List.append_nil _).symm⟩
  clear_value s2
  obtain ⟨hcount, coarses, hsent⟩ := h2
  have last (p : Ctl) : (s2.sendCtl n 0x4B p).sent = s.sent ++ coarses ++ [.ctl n 0x4B p] := by
    rw [State.sent_sendCtl, hsent, h1.2]
  exact ⟨((State.sendCtl_sends ..).keeps Lane.beacons fun _ _ => rfl).trans (hcount.trans h1.1), coarses, _, last _⟩

end Sys2Proof.Machine

namespace Sys2Proof.Machine

/-! ### The rows of a link's timers (R271, R272, R276) -/

section
variable {s : State} {n : Fin 16} (t : Nat)

theorem ackSendTimer_sends (hc : s.carries n = true) (hd : (s.advance t).past (.lane .ack n) (8 * usQ) = true) :
    Does (.ackSendTimer t n) s fun u => (∃ p, u.sent = s.sent ++ [.ctl n 0xA5 p]) ∧ (u.lane n).freedSinceAck = 0 := by
  obtain ⟨x, limit, freed, hlane⟩ := (s.advance t).lane_ackLane n false false
  refine .of_met (exec_ackSendTimer ..) (by simp [State.carries_advance, hc, hd]) ?_
  rw [State.settle_sent, State.settle_lane, hlane]
  exact ⟨(s.advance t).sent_ackLane n false false, rfl⟩

theorem ackSendTimer_idles (h : s.carries n = false ∨ (s.advance t).past (.lane .ack n) (8 * usQ) = false) :
    Idles (.ackSendTimer t n) s := by
  refine .of_unmet (t := t) rfl (exec_ackSendTimer ..) ?_
  obtain h | h := h <;> simp [State.carries_advance, h]

theorem replayTimeout_replays (hc : s.carries n = true) (hreplay : (s.lane n).replay ≠ [])
    (hd : (s.advance t).past (.lane .replay n) (s.fld (Reg.COU_PROTO_CTRL n) 0 8 * usQ) = true) :
    Does (.replayTimeout t n) s fun u =>
      u.fld (Reg.COU_REPLAY n) 0 16 = (s.fld (Reg.COU_REPLAY n) 0 16 + (s.lane n).replay.length) % 2 ^ 16 ∧
      u.lane n = { s.lane n with scrambler := (u.lane n).scrambler, lineBlock := (u.lane n).lineBlock } :=
  .of_met (exec_replayTimeout ..) (by simp [State.carries_advance, hc, hreplay, hd])
    ⟨(s.advance t).resend_counts n _, ((s.advance t).resend_sends n _).lane_eq⟩

theorem replayTimeout_idles (h : s.carries n = false ∨ (s.lane n).replay = [] ∨
    (s.advance t).past (.lane .replay n) (s.fld (Reg.COU_PROTO_CTRL n) 0 8 * usQ) = false) : Idles (.replayTimeout t n) s := by
  refine .of_unmet (t := t) rfl (exec_replayTimeout ..) ?_
  obtain h | h | h := h <;> simp [State.carries_advance, h]

theorem nakRepeat_idles (h : s.carries n = false ∨ (s.lane n).nakOut = none ∨
    (s.advance t).past (.lane .nak n) (20 * usQ) = false) : Idles (.nakRepeat t n) s :=
  .of_effect (t := t) rfl (exec_nakRepeat ..) (State.repeatNak_quiet (s := s.advance t) h)

theorem creditWatchdog_starts {x : Letter} {rest : List Letter} (hc : s.carries n = true) (hx : (s.lane n).letters = x :: rest)
    (hlack : (s.lane n).txCredit < x.blocks) (hsync : (s.lane n).sync = false)
    (hd : (s.advance t).past (.lane .ackRx n) (8 * s.fld (Reg.COU_PROTO_CTRL n) 8 8 * usQ) = true) :
    Does (.creditWatchdog t n) s fun u => (u.lane n).sync = true ∧ (u.lane n).letters = (s.lane n).letters := by
  have hlink := State.startSync_link (s := s.advance t) hsync
  refine .of_outcome (exec_creditWatchdog ..) (State.watchCredit_due (s := s.advance t) hc hx hlack hsync hd) ?_
  rw [State.settle_lane]
  exact ⟨Lane.of_link Lane.sync Link.sync hlink, Lane.of_link Lane.letters Link.letters hlink⟩

theorem creditWatchdog_idles (h : s.carries n = false ∨ (s.lane n).letters = [] ∨ (s.lane n).sync = true ∨
    (s.advance t).past (.lane .ackRx n) (8 * s.fld (Reg.COU_PROTO_CTRL n) 8 8 * usQ) = false) : Idles (.creditWatchdog t n) s :=
  .of_effect (t := t) rfl (exec_creditWatchdog ..) (State.watchCredit_quiet (s := s.advance t) h)

theorem dispatchSend_idles (h : s.carries n = false ∨ (s.lane n).letters = []) : Idles (.dispatchSend t n) s :=
  .of_effect (t := t) rfl (exec_dispatchSend ..) (State.sendNext_quiet (s := s.advance t) h)

theorem resyncRepeat_asks (hc : s.carries n = true) (hsync : (s.lane n).sync = true)
    (hd : (s.advance t).past (.lane .syncReq n) (16 * usQ) = true) :
    Does (.resyncRepeat t n) s fun u => ∃ p, u.sent = s.sent ++ [.ctl n 0xA5 p] := by
  refine .of_met (exec_resyncRepeat ..) (by simp [State.carries_advance, hc, hsync, hd]) ?_
  rw [State.settle_sent]
  exact (s.advance t).sent_ackLane n true true

theorem resyncRepeat_idles (h : s.carries n = false ∨ (s.lane n).sync = false ∨
    (s.advance t).past (.lane .syncReq n) (16 * usQ) = false) : Idles (.resyncRepeat t n) s := by
  refine .of_unmet (t := t) rfl (exec_resyncRepeat ..) ?_
  obtain h | h | h := h <;> simp [State.carries_advance, h]

theorem creditSync_fails (hc : s.carries n = true) (hsync : (s.lane n).sync = true)
    (hd : (s.advance t).past (.lane .sync n) (1000 * usQ) = true) : Does (.creditSync t n) s fun u =>
      (u.lane n).st = .recover ∧ u.flt.active.getLsbD FaultCode.creditSync.cls = true := by
  refine .of_met (exec_creditSync ..) (by simp [State.carries_advance, hc, hsync, hd]) ?_
  rw [State.settle_lane, State.settle_flt]
  exact (s.advance t).failSync_does n

theorem creditSync_idles (h : s.carries n = false ∨ (s.lane n).sync = false ∨
    (s.advance t).past (.lane .sync n) (1000 * usQ) = false) : Idles (.creditSync t n) s := by
  refine .of_unmet (t := t) rfl (exec_creditSync ..) ?_
  obtain h | h | h := h <;> simp [State.carries_advance, h]

/-! #### The rows of INIT and of the beacons (R277, R286) -/

theorem initSend_idles (h : (s.lane n).st ≠ .credit ∨ s.isPeer n = true ∨ (s.advance t).past (.lane .init n) usQ = false) :
    Idles (.initSend t n) s := by
  have hpeer : (s.advance t).isPeer n = s.isPeer n := rfl
  refine .of_unmet (t := t) rfl (exec_initSend ..) ?_
  obtain h | h | h := h <;> simp [hpeer, h]

theorem fineBeacon_sends (hc : s.carries n = true) (hlive : s.tb.st.live = true) (hevery : s.fld (Reg.COU_BEACON n) 0 16 ≠ 0)
    (hd : (s.lane n).beacons = 0 ∨ (s.advance t).past (.lane .beacon n) (s.fld (Reg.COU_BEACON n) 0 16 * usQ) = true) :
    Does (.fineBeacon t n) s fun u =>
      (u.lane n).beacons = (s.lane n).beacons + 1 ∧ ∃ l p, u.sent = s.sent ++ l ++ [.ctl n 0x4B p] := by
  refine .of_met (exec_fineBeacon ..) ?_ ((s.advance t).sendBeacon_does n)
  obtain hd | hd := hd <;> simp [State.beaconDue, State.carries_advance, hc, hlive, hevery, hd]

theorem fineBeacon_idles (h : s.carries n = false ∨ s.tb.st.live = false ∨ s.fld (Reg.COU_BEACON n) 0 16 = 0 ∨
    (s.lane n).beacons ≠ 0 ∧ (s.advance t).past (.lane .beacon n) (s.fld (Reg.COU_BEACON n) 0 16 * usQ) = false) :
    Idles (.fineBeacon t n) s := by
  refine .of_unmet (t := t) rfl (exec_fineBeacon ..) ?_
  obtain h | h | h | ⟨hbegun, hsoon⟩ := h
  · simp [State.beaconDue, State.carries_advance, h]
  · simp [State.beaconDue, h]
  · simp [State.beaconDue, h]
  · simp [State.beaconDue, hbegun, hsoon]

end

end Sys2Proof.Machine

section
open Sys2Proof.Machine

/-- Settles O21: each timer acts where the lane carries dispatches and its time has run, by what an ACK, a replay, a NAK and a
resynchronisation send and leave of the lane; without castlings no block of a receive buffer is held. -/
theorem linkRowsComplete : Obligations.LinkRowsComplete := by
  refine ⟨fun s t n => ⟨ackSendTimer_sends t, fun h => ackSendTimer_idles t (.inr h), replayTimeout_replays t,
    fun h => replayTimeout_idles t (.inr h), fun x hc hx hd => ?_, fun h => nakRepeat_idles t (.inr h),
    fun x rest => creditWatchdog_starts t, fun h => ⟨creditWatchdog_idles t (.inr (.inl h)), dispatchSend_idles t (.inr h)⟩,
    fun h => creditWatchdog_idles t (.inr (.inr h)), resyncRepeat_asks t, creditSync_fails t,
    fun h => ⟨resyncRepeat_idles t (.inr (.inl h)), creditSync_idles t (.inr (.inl h))⟩,
    fun h => resyncRepeat_idles t (.inr (.inr h)), fun h => creditSync_idles t (.inr (.inr h)),
    fun h => ⟨ackSendTimer_idles t (.inl h), replayTimeout_idles t (.inl h), nakRepeat_idles t (.inl h),
      creditWatchdog_idles t (.inl h), resyncRepeat_idles t (.inl h), creditSync_idles t (.inl h), dispatchSend_idles t (.inl h),
      fineBeacon_idles t (.inl h)⟩⟩,
    fun s t n x rest hc hx hcredit hroom => ?_, fun s t n blocks hnone => ?_,
    fun s t n p hst hpeer hgood => ⟨fun hcredit hreplay hversion hsat => ?_, fun h => ?_⟩,
    fun s t n => ⟨fun hst hpeer hd => ?_, initSend_idles t⟩,
    fun s t n => ⟨fineBeacon_sends t, fun h => fineBeacon_idles t (.inr h)⟩⟩
  · exact .of_outcome (exec_nakRepeat ..) (State.repeatNak_due (s := s.advance t) hc hx hd) ((s.advance t).nak_counts n x.2.2)
  · exact .of_effect (exec_dispatchSend ..) (State.sendNext_sends (s := s.advance t) hc hx hcredit hroom)
  · exact .of_effect (exec_creditRelease ..) (State.releaseCredit_buffer (s := s.advance t) n blocks hnone)
  · exact .of_outcome (exec_initBlock ..) (State.hearInit_credit (s := s.advance t) hst hpeer hgood)
      ((s.advance t).judgeInit_taken n hcredit hreplay hversion hsat)
  · exact .of_outcome (exec_initBlock ..) (State.hearInit_credit (s := s.advance t) hst hpeer hgood)
      ((s.advance t).judgeInit_refused n h)
  · have hpeer' : (s.advance t).isPeer n = false := hpeer
    exact .of_met (exec_initSend ..) (by simp [hst, hpeer', hd]) ((s.advance t).sendInit_does n)

end

namespace Sys2Proof.Machine

/-! ### Peer links, and what an update of another part of the state leaves of them -/

@[simp] theorem State.settle_peer (w s : State) (t : Nat) : (w.settle s t).peer = w.peer := rfl
@[simp] theorem State.settle_peerLane (w s : State) (t n : Nat) : (w.settle s t).peerLane n = w.peerLane n := rfl

theorem State.peerLane_of_peerLanes {s u : State} (h : u.peerLanes = s.peerLanes) (n : Nat) : u.peerLane n = s.peerLane n := by
  rw [State.peerLane, h, State.peerLane]

/-- The peer lanes of either branch. -/
@[simp] theorem peerLanes_ite (c : Prop) [Decidable c] (a b : State) :
    (if c then a else b).peerLanes = if c then a.peerLanes else b.peerLanes := apply_ite State.peerLanes c a b

theorem State.peerOn_of_reg {s u : State} (h : u.reg Reg.PEER_CTRL = s.reg Reg.PEER_CTRL) : u.peerOn = s.peerOn := by
  rw [State.peerOn, State.bit, h, State.peerOn, State.bit]

@[simp] theorem State.modPeer_peer (s : State) (f : Peer → Peer) : (s.modPeer f).peer = f s.peer := rfl
@[simp] theorem State.modPeer_peerLanes (s : State) (f : Peer → Peer) : (s.modPeer f).peerLanes = s.peerLanes := rfl
@[simp] theorem State.modPeer_tb (s : State) (f : Peer → Peer) : (s.modPeer f).tb = s.tb := rfl

theorem State.peerLane_modPeerLane (s : State) (n : Nat) (f : PeerLane → PeerLane) :
    (s.modPeerLane n f).peerLane n = f (s.peerLane n) := by simp

theorem State.lane_modPeerLane (s : State) (n m : Nat) (f : PeerLane → PeerLane) : (s.modPeerLane n f).lane m = s.lane m := rfl

/-- A change of link or role is told to the host alone (R308). -/
@[simp] theorem State.peerEvent_keeps (s : State) : s.peerEvent.peerLanes = s.peerLanes ∧ s.peerEvent.peer = s.peer ∧
    s.peerEvent.tb = s.tb ∧ s.peerEvent.regs = s.regs := by
  unfold State.peerEvent
  split <;> simp

@[simp] theorem State.peerLane_peerEvent (s : State) (n : Nat) : s.peerEvent.peerLane n = s.peerLane n :=
  State.peerLane_of_peerLanes s.peerEvent_keeps.1 n

@[simp] theorem State.reg_peerEvent (s : State) (a : Nat) : s.peerEvent.reg a = s.reg a :=
  State.reg_of_regs _ _ a s.peerEvent_keeps.2.2.2

/-- A merge changes the epochs and `part` of the domain, and counts itself (R304, R305). -/
@[simp] theorem State.merge_keeps (s : State) : s.merge.peerLanes = s.peerLanes ∧ s.merge.tb = s.tb ∧
    s.merge.peer.stale = s.peer.stale := by
  unfold State.merge
  dsimp only
  split <;> simp

/-- The choice of the master leaves the links and the time base as they are, and what it ignores (R300). -/
@[simp] theorem State.peerChoose_keeps (s : State) : s.peerChoose.peerLanes = s.peerLanes ∧ s.peerChoose.tb = s.tb ∧
    s.peerChoose.peer.stale = s.peer.stale := by
  unfold State.peerChoose
  extract_lets c old moved elected e s1 s2 s3 s4
  have h2 : s2.peerLanes = s.peerLanes ∧ s2.tb = s.tb ∧ s2.peer.stale = s.peer.stale := by
    simp only [s2]
    split <;> simp [s1]
  clear_value s2
  have h3 : s3.peerLanes = s.peerLanes ∧ s3.tb = s.tb ∧ s3.peer.stale = s.peer.stale := by
    simp only [s3]
    split <;> simp [h2]
  clear_value s3
  split
  · exact ⟨rfl, rfl, rfl⟩
  · split <;> simp [s4, h3]

theorem State.peerActive_modPeer (s : State) (f : Peer → Peer) (m : Nat) : (s.modPeer f).peerActive m = s.peerActive m := rfl
theorem State.peerActive_advance (s : State) (t m : Nat) : (s.advance t).peerActive m = s.peerActive m := rfl

/-! ### PEER_HELLO (R296) -/

/-- A good PEER_HELLO of the hub's version is taken, unless its rank is the hub's own (R296). -/
def State.judgeHello (s : State) (n : Nat) (p : Ctl) : State :=
  if cf p 0 8 = s.peerRank then s.raise .peerRankDup n
  else (s.modLane n fun l => { l.valid 1 with initGood := true, initSeen := l.initSeen || decide (cf p 8 1 = 1) }).modPeerLane n
    fun x => { x with rank := cf p 0 8 }

theorem exec_peerHello (s : State) (t : Nat) (n : Fin 16) (p : Ctl) : exec (.peerHello t n p) s = atMoment t s fun x =>
    if (x.lane n).st == .credit && x.isPeer n && checkOk p && cf p 9 3 = 1 && cf p 12 1 = 0 then x.judgeHello n p else x := rfl

theorem State.judgeHello_taken (s : State) (n : Nat) {p : Ctl} (hrank : cf p 0 8 ≠ s.peerRank) : let u := s.judgeHello n p
    (u.lane n).initGood = true ∧ (u.peerLane n).rank = cf p 0 8 ∧
    (u.lane n).initSeen = ((s.lane n).initSeen || decide (cf p 8 1 = 1)) := by
  dsimp only
  rw [State.judgeHello, if_neg hrank, State.peerLane_modPeerLane, State.lane_modPeerLane, State.lane_modLane]
  exact ⟨rfl, rfl, rfl⟩

theorem State.judgeHello_duplicate (s : State) (n : Nat) {p : Ctl} (hrank : cf p 0 8 = s.peerRank) : let u := s.judgeHello n p
    u.lanes = s.lanes ∧ u.reg Reg.FLT_LAST = BitVec.ofNat 64 FaultCode.peerRankDup.code := by
  dsimp only
  rw [State.judgeHello, if_pos hrank]
  exact ⟨by simp, raise_last ..⟩

/-- The hub's PEER_HELLO. -/
def State.putHello (s : State) (n : Nat) : State :=
  (s.start (.lane .init n)).sendCtl n 0x69
    (withCheck (packBits [(0, 8, s.peerRank), (8, 1, b2n (s.lane n).initGood), (9, 3, 1), (13, 4, n)]))

/-- The hub's PEER_HELLO goes, and completes the handshake where the partner's have come (R296). -/
def State.sendHello (s : State) (n : Nat) : State :=
  if (s.lane n).initGood && (s.lane n).initSeen then ((s.putHello n).laneToActive n).modLane n fun l => { l with attempt := 0 }
  else s.putHello n

theorem exec_peerHelloSend (s : State) (t : Nat) (n : Fin 16) : exec (.peerHelloSend t n) s = atMoment t s fun x =>
    if (x.lane n).st == .credit && x.isPeer n && x.past (.lane .init n) usQ then x.sendHello n else x := rfl

theorem State.sendHello_does (s : State) (n : Nat) : let u := s.sendHello n
    ((s.lane n).initGood = true → (s.lane n).initSeen = true → (u.lane n).st = .active ∧ (u.lane n).attempt = 0) ∧
    ((s.lane n).initGood = false ∨ (s.lane n).initSeen = false →
      u.lane n = { s.lane n with scrambler := (u.lane n).scrambler, lineBlock := (u.lane n).lineBlock } ∧
      ∃ p, u.sent = s.sent ++ [.ctl n 0x69 p]) := by
  refine ⟨fun hgood hseen => ?_, fun h => ?_⟩
  · rw [State.sendHello, if_pos (by simp [hgood, hseen]), State.lane_modLane]
    exact ⟨by simp [State.laneToActive, Lane.entered], rfl⟩
  · rw [State.sendHello, if_neg (by obtain h | h := h <;> simp [h])]
    exact ⟨(State.sendCtl_sends (s.start (.lane .init n)) n 0x69 _).lane_eq, _, State.sent_sendCtl (s.start (.lane .init n)) n 0x69 _⟩

/-! ### The frames that the hub sends (R297, R298) -/

/-- Between two states of a lane's transmitter no lane has changed its state, and nothing of the peers or of the registers has changed. -/
structure State.Transmits (s u : State) : Prop where
  st (m : Nat) : (u.lane m).st = (s.lane m).st
  peerLanes : u.peerLanes = s.peerLanes
  peer : u.peer = s.peer
  regs : u.regs = s.regs

theorem State.Transmits.trans {s u v : State} (h : s.Transmits u) (k : u.Transmits v) : s.Transmits v :=
  ⟨fun m => (k.st m).trans (h.st m), k.peerLanes.trans h.peerLanes, k.peer.trans h.peer, k.regs.trans h.regs⟩

theorem State.Transmits.peerActive {s u : State} (h : s.Transmits u) (m : Nat) : u.peerActive m = s.peerActive m := by
  have hpeer : u.isPeer m = s.isPeer m := congrArg (fun w : Word => w.getLsbD 1) (State.reg_of_regs _ _ _ h.regs)
  rw [State.peerActive, h.st m, hpeer, State.peerActive]

theorem State.out_transmits (s : State) (o : Output) : s.Transmits (s.out o) := ⟨fun _ => rfl, rfl, rfl, rfl⟩

theorem State.modLine_transmits (s : State) (n : Nat) (control : Bool) (w : Word) : s.Transmits (s.modLane n (·.line control w)) := by
  refine ⟨fun m => ?_, rfl, rfl, rfl⟩
  rw [State.modLane_eq, State.lane_setLane]
  split
  · next hm => rw [hm]; rfl
  · rfl

/-- A control block and the data blocks behind it. -/
def State.sendBlocks (s : State) (n type : Nat) (p : Ctl) (words : List Word) : State :=
  words.foldl (fun s w => s.sendData n w) (s.sendCtl n type p)

theorem State.sendBlocks_transmits (s : State) (n type : Nat) (p : Ctl) (words : List Word) :
    s.Transmits (s.sendBlocks n type p words) :=
  foldl_keeps (fun u => s.Transmits u) (fun u w => u.sendData n w)
    (fun u w hu => hu.trans ((u.out_transmits _).trans (State.modLine_transmits _ n false w))) words _
    ((s.out_transmits _).trans (State.modLine_transmits _ n true (ctlWord type p)))

/-- The frame takes the next number of its lane, and is remembered by it (R297, R299). -/
def State.numberFrame (s : State) (n : Nat) : State :=
  s.modPeerLane n fun x => { x with seq := x.seq + 1, sentAt := (x.seq.toNat, s.nextCycle) :: x.sentAt.take 254 }

theorem State.numberFrame_seq (s : State) (n m : Nat) :
    ((s.numberFrame n).peerLane m).seq = (s.peerLane m).seq + (if m = n then 1 else 0) := by
  rw [State.numberFrame, State.modPeerLane_eq, State.peerLane_setPeerLane]
  split
  · next hm => rw [hm]
  · simp

/-- A frame is a PEER_SYNC block and four data blocks, numbered on its lane (R297). -/
theorem State.sendFrame_blocks (s : State) (n : Nat) :
    ∃ sync words, s.sendFrame n = ((s.numberFrame n).sendBlocks n 0x66 sync words).start (.lane .keepalive n) := ⟨_, _, rfl⟩

/-- A frame that is sent numbers itself on its own lane, and no lane changes its state (R297). -/
theorem State.sendFrame_does (s : State) (n m : Nat) : let u := s.sendFrame n
    (u.peerLane m).seq = (s.peerLane m).seq + (if m = n then 1 else 0) ∧ u.peerActive m = s.peerActive m ∧ u.peer = s.peer := by
  obtain ⟨sync, words, h⟩ := s.sendFrame_blocks n
  have sent := (s.numberFrame n).sendBlocks_transmits n 0x66 sync words
  have hseq := s.numberFrame_seq n m
  rw [← State.peerLane_of_peerLanes sent.peerLanes] at hseq
  dsimp only
  rw [h]
  exact ⟨hseq, sent.peerActive m, sent.peer⟩

/-- The frames of a slot: one on each lane of a list that is an ACTIVE peer lane. -/
def State.sendFrames (s : State) (lanes : List Nat) : State :=
  lanes.foldl (fun s n => if s.peerActive n then s.sendFrame n else s) s

theorem State.sendFrames_peer (s : State) (lanes : List Nat) : (s.sendFrames lanes).peer = s.peer := by
  refine foldl_keeps (fun u => u.peer = s.peer) _ (fun u n hu => ?_) lanes s rfl
  split
  · exact (u.sendFrame_does n n).2.2.trans hu
  · exact hu

/-- Each ACTIVE peer lane of the list numbers one frame more, and the others none (R298). -/
theorem State.sendFrames_seq (m : Nat) (lanes : List Nat) (hdistinct : lanes.Nodup) : ∀ s : State,
    ((s.sendFrames lanes).peerLane m).seq = (s.peerLane m).seq + (if m ∈ lanes ∧ s.peerActive m = true then 1 else 0) := by
  induction lanes with
  | nil => intro s; simp [State.sendFrames]
  | cons n rest ih =>
    intro s
    obtain ⟨hn, hrest⟩ := List.nodup_cons.mp hdistinct
    obtain ⟨hseq, hactive, -⟩ := s.sendFrame_does n m
    rw [State.sendFrames, List.foldl_cons, ← State.sendFrames, ih hrest]
    by_cases hm : m = n
    · subst hm
      cases h : s.peerActive m <;> simp [hn, h, hseq]
    · cases h : s.peerActive n <;> simp [hm, hseq, hactive]

/-- The frames of slot `k` (R298). -/
def State.sendSlot (s : State) (k : Nat) : State := (s.modPeer fun p => { p with slot := k }).sendFrames (List.range 16)

theorem exec_peerSyncSend (s : State) (t : Nat) : exec (.peerSyncSend t) s = atMoment t s fun x =>
    if x.tb.st.live && x.peer.slot < x.devTime / slotQ then x.sendSlot (x.devTime / slotQ) else x := rfl

theorem State.sendSlot_does (s : State) (k : Nat) : (s.sendSlot k).peer.slot = k ∧
    ∀ n : Fin 16, ((s.sendSlot k).peerLane n).seq = (s.peerLane n).seq + (if s.peerActive n then 1 else 0) := by
  refine ⟨by rw [State.sendSlot, State.sendFrames_peer]; rfl, fun n => ?_⟩
  have hn : n.val ∈ List.range 16 := List.mem_range.mpr n.2
  have hseq := State.sendFrames_seq n (List.range 16) List.nodup_range (s.modPeer fun p => { p with slot := k })
  simp only [hn, true_and] at hseq
  rw [State.sendSlot, hseq, State.peerLane_of_peerLanes (s.modPeer_peerLanes _), State.peerActive_modPeer]

/-! ### The frames that arrive (R297 to R305) -/

/-- A frame is missed: one more in a row, counted in PEER_LANE_STAT; the third makes a link that is up SUSPECT (R298, R303). -/
theorem State.frameMissed_does (s : State) (n : Nat) : let u := s.frameMissed n
    (u.peerLane n).misses = (s.peerLane n).misses + 1 ∧
    (u.peerLane n).link = (if (s.peerLane n).link = .up ∧ 2 ≤ (s.peerLane n).misses then .suspect else (s.peerLane n).link) ∧
    u.fld (Reg.PEER_LANE_STAT n) 16 16 = (s.fld (Reg.PEER_LANE_STAT n) 16 16 + 1) % 2 ^ 16 := by
  unfold State.frameMissed
  extract_lets s1 x u
  have h1 : s1.peerLane n = { s.peerLane n with misses := (s.peerLane n).misses + 1 } :=
    State.peerLane_modPeerLane (s.start (.lane .frame n)) n fun x => { x with misses := x.misses + 1 }
  have hcount : s1.fld (Reg.PEER_LANE_STAT n) 16 16 = (s.fld (Reg.PEER_LANE_STAT n) 16 16 + 1) % 2 ^ 16 :=
    State.fld_bump _ _ _ _ (by decide)
  clear_value s1
  simp only [u]
  split
  next hdue =>
    obtain ⟨hup, hthree⟩ : (s.peerLane n).link = .up ∧ 2 ≤ (s.peerLane n).misses := by simpa [x, h1] using hdue
    rw [State.peerLane_peerEvent, State.peerLane_modPeerLane, h1, if_pos ⟨hup, hthree⟩, State.fld_of_reg (State.reg_peerEvent ..)]
    exact ⟨rfl, rfl, hcount⟩
  next hdue =>
    rw [if_neg (by simpa [x, h1] using hdue), h1]
    exact ⟨rfl, rfl, hcount⟩

/-- What a lane tells of its partner: the link, and what the partner advertises (R297, R303). -/
structure Advert where
  link : LinkState
  misses : Nat
  rank : Nat
  masterRank : Nat
  hops : Nat
  tde : Nat

def PeerLane.advert (x : PeerLane) : Advert :=
  { link := x.link, misses := x.misses, rank := x.rank, masterRank := x.masterRank, hops := x.hops, tde := x.tde }

/-- What a good frame tells. -/
def frameAdvert (sync : Ctl) : Advert :=
  { link := .up, misses := 0, rank := cf sync 8 8, masterRank := cf sync 16 8, hops := cf sync 24 5, tde := cf sync 32 16 }

/-- A field of a lane that its advert has. -/
theorem PeerLane.of_advert {α : Type} (f : PeerLane → α) (g : Advert → α) {x : PeerLane} {a : Advert} (h : x.advert = a)
    (hfg : ∀ y, f y = g y.advert := by exact fun _ => rfl) : f x = g a := (hfg x).trans (congrArg g h)

/-- What the frame says is noted on its lane (R297, R303). -/
def State.noteFrame (s : State) (n : Nat) (sync : Ctl) (d2 : Word) : State :=
  ((s.start (.lane .frame n)).start (.lane .good n)).modPeerLane n fun x =>
    { x with link := .up, misses := 0, rank := cf sync 8 8, masterRank := cf sync 16 8, hops := cf sync 24 5, coast := cf sync 29 1 = 1
             aligned := cf sync 30 1 = 1, part := cf sync 31 1 = 1, tde := cf sync 32 16, bound := 64 * fieldOf d2.toNat 32 32
             arrived := some (cf sync 0 8, s.devTime) }

/-- `part` spreads when a partner of the domain begins to advertise it, and goes when the parent clears it (R305). -/
def State.spreadPart (s : State) (n : Nat) (sync : Ctl) (was : Bool) : State :=
  let part := cf sync 31 1 = 1
  if !s.peerOn then s
  else if part && !was && cf sync 16 8 = s.peer.masterRank then s.modPeer fun p => { p with part := true }
  else if !part && was && s.peer.parent = some n then s.modPeer fun p => { p with part := false }
  else s

/-- What a good frame does (R299 to R305). -/
def State.takeFrame (s : State) (n : Nat) (sync : Ctl) (d0 d1 d2 d3 : Word) : State :=
  let old := s.peerLane n
  let s1 := s.noteFrame n sync d2
  let s2 := if old.link == .up then s1 else s1.peerEvent
  let s3 := s2.modPeer fun p => { p with seenTde := max p.seenTde (fieldOf d3.toNat 32 16) }
  let t3 := d0.toNat + 2 ^ 64 * fieldOf d2.toNat 0 8
  let t2 := d1.toNat + 2 ^ 64 * fieldOf d2.toNat 8 8
  let s4 := if bitOf d2.toNat 24 then s3.exchange n t2 t3 s.devTime (fieldOf d2.toNat 16 8) else s3
  (s4.peerChoose.merge.spreadPart n sync old.part).follow n

/-- A frame that fails a check of R297. -/
def frameBad (sync : Ctl) (d0 d1 d2 d3 : Word) : Bool :=
  !checkOk sync || fieldOf d3.toNat 0 32 ≠ frameCrc sync d0 d1 d2 d3 || (16 < cf sync 24 5 && cf sync 24 5 < 31)

/-- What a frame does on an ACTIVE peer lane. -/
def State.hearFrame (s : State) (n : Nat) (sync : Ctl) (d0 d1 d2 d3 : Word) : State :=
  if frameBad sync d0 d1 d2 d3 then (s.dataBlock n).frameMissed n else (s.dataBlock n).takeFrame n sync d0 d1 d2 d3

theorem exec_peerSync (s : State) (t : Nat) (n : Fin 16) (sync : Ctl) (d0 d1 d2 d3 : Word) :
    exec (.peerSync t n sync d0 d1 d2 d3) s = atMoment t s fun x =>
      if !x.peerActive n then x else x.hearFrame n sync d0 d1 d2 d3 := rfl

/-! #### What the correction of a follower leaves of the links (R56, R57, R301) -/

@[simp] theorem State.tbEnter_peerLanes (s : State) (st : TbState) (reason : Nat) (value : Int) :
    (s.tbEnter st reason value).peerLanes = s.peerLanes := by simp [State.tbEnter, State.setTb]

@[simp] theorem State.setAligned_peerLanes (s : State) : s.setAligned.peerLanes = s.peerLanes := rfl

@[simp] theorem State.firstLock_peerLanes (s was : State) : (s.firstLock was).peerLanes = s.peerLanes := by simp [State.firstLock]

@[simp] theorem State.setSlew_peerLanes (s : State) (off : Int) : (s.setSlew off).peerLanes = s.peerLanes := rfl

@[simp] theorem State.correctBySlew_peerLanes (s : State) (off : Int) (reason : Nat) (value : Int) :
    (s.correctBySlew off reason value).peerLanes = s.peerLanes := by simp [State.correctBySlew]

@[simp] theorem State.issueInstant_peerLanes (s : State) (c time : Nat) : (s.issueInstant c time).peerLanes = s.peerLanes := by
  unfold State.issueInstant
  dsimp only
  split <;> simp

@[simp] theorem State.issueMany_peerLanes (k : Nat) (s : State) (lim : Nat) : (State.issueMany k s lim).peerLanes = s.peerLanes := by
  induction k generalizing s with
  | zero => rfl
  | succ k ih =>
    unfold State.issueMany
    split
    · exact (ih _).trans (s.issueInstant_peerLanes ..)
    · rfl

@[simp] theorem State.stepForward_peerLanes (s : State) (k : Nat) : (s.stepForward k).peerLanes = s.peerLanes :=
  State.issueMany_peerLanes ..

@[simp] theorem State.correctByStep_peerLanes (s : State) (off : Int) (reason : Nat) (value : Option Int) :
    (s.correctByStep off reason value).peerLanes = s.peerLanes := by simp [State.correctByStep]

@[simp] theorem State.holdReturn_peerLanes (s : State) (off : Int) : (s.holdReturn off).peerLanes = s.peerLanes := by
  simp [State.holdReturn]

@[simp] theorem State.correct_peerLanes (s : State) (off : Int) (same slew step : Nat) :
    (s.correct off same slew step).peerLanes = s.peerLanes := by simp [State.correct]

@[simp] theorem State.slewDone_peerLanes (s : State) : s.slewDone.peerLanes = s.peerLanes := by simp [State.slewDone]

@[simp] theorem State.peerSlew_peerLanes (s : State) (off : Int) : (s.peerSlew off).peerLanes = s.peerLanes := by
  simp [State.peerSlew]

theorem State.advert_modPeerLane (s : State) (n m : Nat) {f : PeerLane → PeerLane} (hf : ∀ x, (f x).advert = x.advert) :
    ((s.modPeerLane n f).peerLane m).advert = (s.peerLane m).advert := by
  rw [State.modPeerLane_eq, State.peerLane_setPeerLane]
  split
  · next hm => rw [hm, hf]
  · rfl

/-- A new window of exchanges leaves every lane's advert as it is (R301). -/
theorem State.advert_windowed {s u : State} (h : u.peerLanes = s.peerLanes) (l m : Nat) :
    ((u.modPeerLane l fun x => { x with thetas := [] }).peerLane m).advert = (s.peerLane m).advert :=
  (u.advert_modPeerLane l m (f := fun x => { x with thetas := [] }) fun _ => rfl).trans
    (congrArg PeerLane.advert (State.peerLane_of_peerLanes h m))

theorem State.follow_advert (s : State) (l m : Nat) : ((s.follow l).peerLane m).advert = (s.peerLane m).advert := by
  unfold State.follow
  dsimp only
  split
  · rfl
  · split
    · exact State.advert_windowed (by simp [State.free]) l m
    · split
      · rfl
      · exact State.advert_windowed (by simp) l m

theorem State.exchange_advert (s : State) (n t2 t3 t4 echo m : Nat) :
    ((s.exchange n t2 t3 t4 echo).peerLane m).advert = (s.peerLane m).advert := by
  unfold State.exchange
  dsimp only
  split
  · exact s.advert_modPeerLane n m fun _ => rfl
  · rfl

@[simp] theorem State.spreadPart_peerLanes (s : State) (n : Nat) (sync : Ctl) (was : Bool) :
    (s.spreadPart n sync was).peerLanes = s.peerLanes := by simp [State.spreadPart]

/-- Behind a good frame its lane says what the frame said, whatever the hub makes of it (R300, R301, R303). -/
theorem State.takeFrame_advert (s : State) (n : Nat) (sync : Ctl) (d0 d1 d2 d3 : Word) :
    ((s.takeFrame n sync d0 d1 d2 d3).peerLane n).advert = frameAdvert sync := by
  unfold State.takeFrame
  extract_lets old s1 s2 s3 t3 t2 s4
  have h1 : (s1.peerLane n).advert = frameAdvert sync := by
    simp only [s1, State.noteFrame, State.peerLane_modPeerLane]
    rfl
  have h3 : s3.peerLanes = s1.peerLanes := by simp [s3, s2]
  have h4 : (s4.peerLane n).advert = (s3.peerLane n).advert := by
    simp only [s4]
    split
    · exact s3.exchange_advert ..
    · rfl
  clear_value s4
  rw [State.follow_advert, State.peerLane_of_peerLanes (s := s4) (by simp), h4, State.peerLane_of_peerLanes h3, h1]

theorem State.peerLanes_dataBlock (s : State) (m : Nat) : (s.dataBlock m).peerLanes = s.peerLanes := by
  unfold State.dataBlock State.adapt
  split <;> rfl

theorem State.hearFrame_good (s : State) (n : Nat) {sync : Ctl} {d0 d1 d2 d3 : Word} (hcheck : checkOk sync = true)
    (hcrc : fieldOf d3.toNat 0 32 = frameCrc sync d0 d1 d2 d3) (hhops : cf sync 24 5 ≤ 16 ∨ cf sync 24 5 = 31) :
    ((s.hearFrame n sync d0 d1 d2 d3).peerLane n).advert = frameAdvert sync := by
  have hgood : ¬(16 < cf sync 24 5 ∧ cf sync 24 5 < 31) := by omega
  rw [State.hearFrame, if_neg (by simpa [frameBad, hcheck, hcrc] using hgood)]
  exact (s.dataBlock n).takeFrame_advert n sync d0 d1 d2 d3

theorem State.hearFrame_bad (s : State) (n : Nat) {sync : Ctl} (d0 d1 d2 d3 : Word) (hcheck : checkOk sync = false) :
    let u := s.hearFrame n sync d0 d1 d2 d3
    (u.peerLane n).misses = (s.peerLane n).misses + 1 ∧
    u.fld (Reg.PEER_LANE_STAT n) 16 16 = (s.fld (Reg.PEER_LANE_STAT n) 16 16 + 1) % 2 ^ 16 := by
  obtain ⟨hmisses, -, hcount⟩ := (s.dataBlock n).frameMissed_does n
  rw [State.peerLane_of_peerLanes (s.peerLanes_dataBlock n)] at hmisses
  rw [State.fld_of_reg (s.reg_dataBlock n _)] at hcount
  dsimp only
  rw [State.hearFrame, if_pos (by simp [frameBad, hcheck])]
  exact ⟨hmisses, hcount⟩

/-! ### A link that is silent, and the steps of a trim (R300, R301, R303) -/

/-- A slot of a lane has gone by without a frame (R303). -/
def State.missSlot (s : State) (n : Nat) : State :=
  match (s.peerLane n).link with
  | .up | .suspect => s.frameMissed n
  | .none | .lost => if s.peerActive n then s.frameMissed n else s

theorem exec_peerFrameMiss (s : State) (t : Nat) (n : Fin 16) : exec (.peerFrameMiss t n) s = atMoment t s fun x =>
    if !x.past (.lane .frame n) slotQ then x else x.missSlot n := rfl

/-- The parent is lost: what it advertised is ignored for 2 ms, and the hub, no longer aligned, chooses again (R300, R303). -/
def State.loseParent (s : State) : State :=
  (((s.start .stale).modPeer fun p =>
    { p with stale := some (p.masterRank, p.hops), rejoin := p.rejoin || s.tb.aligned, trimRemain := 0 }).modTb
      fun b => { b with aligned := false }).peerChoose

/-- A link is LOST; where its partner was of the hub's domain, the domain is in part (R303, R305). -/
def State.markLost (s : State) (n : Nat) : State :=
  let s1 := (s.modPeerLane n fun x => { x with link := .lost, thetas := [] }).peerEvent
  if s1.peerOn && (s.peerLane n).masterRank = s1.peer.masterRank then s1.modPeer fun p => { p with part := true } else s1

/-- A link is lost, and with it perhaps the parent (R303). -/
def State.loseLink (s : State) (n : Nat) : State :=
  let s2 := s.markLost n
  if s2.peerOn && s2.peer.parent = some n then s2.loseParent else s2

/-- 1 ms has gone by without a good frame (R303). -/
def State.silentLink (s : State) (n : Nat) : State :=
  match (s.peerLane n).link with
  | .none | .lost => s
  | .up | .suspect => s.loseLink n

theorem exec_peerLinkLost (s : State) (t : Nat) (n : Fin 16) : exec (.peerLinkLost t n) s = atMoment t s fun x =>
    if !x.past (.lane .good n) (1000 * usQ) then x else x.silentLink n := rfl

theorem State.markLost_does (s : State) (n : Nat) : let u := s.markLost n
    u.peerLane n = { s.peerLane n with link := .lost, thetas := [] } ∧ u.peerOn = s.peerOn ∧ u.peer.parent = s.peer.parent ∧
    (s.peerOn = true → (s.peerLane n).masterRank = s.peer.masterRank → u.peer.part = true) := by
  unfold State.markLost
  extract_lets s1 u
  have hlane : s1.peerLane n = { s.peerLane n with link := .lost, thetas := [] } :=
    (State.peerLane_peerEvent ..).trans (s.peerLane_modPeerLane n fun x => { x with link := .lost, thetas := [] })
  have hon : s1.peerOn = s.peerOn := State.peerOn_of_reg (State.reg_peerEvent ..)
  have hpeer : s1.peer = s.peer := (State.peerEvent_keeps _).2.1
  clear_value s1
  simp only [u, ← hon, ← hpeer]
  split
  · exact ⟨hlane, rfl, rfl, fun _ _ => rfl⟩
  · next hother => exact ⟨hlane, rfl, rfl, fun h1 h2 => absurd (by simp [h1, h2]) hother⟩

theorem State.loseLink_does (s : State) (n : Nat) : let u := s.loseLink n
    (u.peerLane n).link = .lost ∧ (u.peerLane n).thetas = [] ∧
    (s.peerOn = true → s.peer.parent = some n → u.tb.aligned = false) ∧
    (s.peerOn = true → s.peer.parent ≠ some n → (s.peerLane n).masterRank = s.peer.masterRank → u.peer.part = true) := by
  obtain ⟨hlane, hon, hparent, hpart⟩ := s.markLost_does n
  unfold State.loseLink
  extract_lets s2 u
  simp only [u, s2, hon, hparent]
  split
  next hfollows =>
    have hlost : (s.markLost n).loseParent.peerLane n = (s.markLost n).peerLane n :=
      State.peerLane_of_peerLanes (State.peerChoose_keeps _).1 n
    rw [hlost, hlane]
    exact ⟨rfl, rfl, fun _ _ => congrArg Tb.aligned (State.peerChoose_keeps _).2.1,
      fun h1 h2 => absurd (by simpa [h1] using hfollows) h2⟩
  next hother =>
    rw [hlane]
    exact ⟨rfl, rfl, fun h1 h2 => absurd (by simp [h1, h2]) hother, fun h1 _ => hpart h1⟩

theorem exec_peerStaleHoldEnd (s : State) (t : Nat) : exec (.peerStaleHoldEnd t) s = atMoment t s fun x =>
    if x.peer.stale.isSome && x.past .stale (2000 * usQ) then (x.modPeer fun p => { p with stale := none }).peerChoose else x := rfl

/-- A step of the trim is due: a follower of a live parent has an offset left to trim, on a locked line (R301). -/
def State.trimReady (s : State) : Bool :=
  let up := match s.peer.parent with | some l => (s.peerLane l).link == .up | none => false
  s.peerOn && up && (s.tb.st == .locked || s.tb.st == .slewing) && s.peer.trimRemain != 0 && decide (s.trimDue ≤ s.devTime)

theorem State.trimDue_advance (s : State) (t : Nat) : (s.advance t).trimDue = s.trimDue := rfl
theorem State.peerOn_advance (s : State) (t : Nat) : (s.advance t).peerOn = s.peerOn := rfl

/-- One step of the trim (R301). -/
def State.trimOnce (s : State) : State :=
  let k : Int := max (-8) (min 8 s.peer.trimRemain)
  (s.fineStep k).modPeer fun p => { p with trimRemain := p.trimRemain - k, trimN := p.trimN + 1 }

theorem exec_peerTrimStep (s : State) (t : Nat) : exec (.peerTrimStep t) s = atMoment t s fun x =>
    if x.trimReady then x.trimOnce else x := rfl

/-! ### PEER_CMD (R305, R308) -/

/-- PEER_CMD as a port reaches it. -/
def peerCmdHit : Hit := { reg := Reg.PEER_CMD, upper := false, row := { off := 0x4, mask := 0x1 }, epoch := some 6, inst := 0 }

theorem regAt_peerCmd : regAt Reg.PEER_CMD = some peerCmdHit := by decide
theorem mspiAt_peerCmd : mspiAt Reg.PEER_CMD = some peerCmdHit := by decide

theorem exec_peerWhole (s : State) (t : Nat) (p : Port) : exec (.peerWhole t p) s = atMoment t s fun x => x.write32 p Reg.PEER_CMD 1 := rfl

theorem State.write32_peerCmd {s : State} {p : Port} (hp : s.portReady p) :
    s.write32 p Reg.PEER_CMD 1 = (s.writeReg p peerCmdHit 1).2 :=
  s.write32_open p Reg.PEER_CMD 1 peerCmdHit hp regAt_peerCmd mspiAt_peerCmd rfl (by decide) (by decide) (by decide)

/-- PEER_CMD.whole is in range at the master alone. -/
theorem State.rangeFaults_peerCmd (s : State) (old new : Word) : s.rangeFaults peerCmdHit old new 1 =
    if s.peerOn && s.peer.master then [] else [(.peerState, 0)] := by
  have hbit : (1 : Word).getLsbD 0 = true := rfl
  have hrange : s.rangeFaults peerCmdHit old new 1 =
      if (1 : Word).getLsbD 0 && !(s.peerOn && s.peer.master) then [(.peerState, 0)] else [] := rfl
  rw [hrange, hbit]
  cases s.peerOn && s.peer.master <;> rfl

/-- A write of PEER_CMD.whole that has passed its checks reaches the command (R308). -/
theorem State.takeWrite_peerCmd (s : State) (old new : Word) :
    s.takeWrite peerCmdHit old new 1 = ((s.setReg Reg.PEER_CMD new).setReg Reg.PEER_CMD 0).peerWhole.2 := rfl

/-- What a write of PEER_CMD counts and stores is nothing of the hub's part in its domain (R321, R325). -/
theorem State.peerCmd_stored (s : State) (v w : Word) :
    let u := (((s.rewritten Reg.PEER_CMD).countEpoch peerCmdHit).setReg Reg.PEER_CMD v).setReg Reg.PEER_CMD w
    u.peer = s.peer ∧ u.peerOn = s.peerOn := by
  intro u
  have hcount : (s.rewritten Reg.PEER_CMD).countEpoch peerCmdHit = (s.rewritten Reg.PEER_CMD).bumpEpoch 6 := rfl
  have hreg : u.reg Reg.PEER_CTRL = s.reg Reg.PEER_CTRL := by
    simp only [u, hcount]
    rw [State.reg_setReg, if_neg (by decide), State.reg_setReg, if_neg (by decide), State.reg_bumpEpoch _ _ _ (by decide)]
    rfl
  have hpeer (x : State) : (((x.bumpEpoch 6).setReg Reg.PEER_CMD v).setReg Reg.PEER_CMD w).peer = x.peer := by simp
  exact ⟨hpeer (s.rewritten Reg.PEER_CMD), State.peerOn_of_reg hreg⟩

/-- The master declares its domain whole (R305). -/
theorem State.write32_peerCmd_taken {s : State} {p : Port} (hp : s.portReady p) (hon : s.peerOn = true) (hmaster : s.peer.master = true) :
    (s.write32 p Reg.PEER_CMD 1).peer = { s.peer with part := false } := by
  have hrange (old new : Word) : s.rangeFaults peerCmdHit old new 1 = [] :=
    (s.rangeFaults_peerCmd old new).trans (if_pos (by simp [hon, hmaster]))
  have htaken := s.writeReg_takes p peerCmdHit 1 hp.2.1 rfl rfl rfl (.inl (by decide)) (by decide) (by decide) _ rfl (hrange _ _)
  obtain ⟨hpeer, hon'⟩ := s.peerCmd_stored (stored (s.reg Reg.PEER_CMD) 1 peerCmdHit.row.mask) 0
  rw [State.write32_peerCmd hp, htaken, State.takeWrite_peerCmd, State.peerWhole, if_pos]
  · exact congrArg (fun p : Peer => { p with part := false }) hpeer
  · exact Bool.and_eq_true_iff.mpr ⟨hon'.trans hon, (congrArg Peer.master hpeer).trans hmaster⟩

/-- From any other hub the write is refused (R308). -/
theorem State.write32_peerCmd_refused {s : State} {p : Port} (hp : s.portReady p) (h : s.peerOn = false ∨ s.peer.master = false) :
    s.write32 p Reg.PEER_CMD 1 = s.raise .peerState 0 := by
  rw [State.write32_peerCmd hp]
  refine s.writeReg_refuses_near p peerCmdHit 1 hp.2.1 ⟨rfl, rfl, rfl⟩ (by decide) (by decide) (by decide) .peerState 0 ?_
  rw [State.rangeFaults_peerCmd, if_neg (by obtain h | h := h <;> simp [h])]

/-! ### The rows of the peers (R296 to R305) -/

section
variable {s : State} {n : Fin 16} (t : Nat)

theorem peerHelloSend_idles (h : (s.lane n).st ≠ .credit ∨ s.isPeer n = false ∨ (s.advance t).past (.lane .init n) usQ = false) :
    Idles (.peerHelloSend t n) s := by
  have hpeer : (s.advance t).isPeer n = s.isPeer n := rfl
  refine .of_unmet (t := t) rfl (exec_peerHelloSend ..) ?_
  obtain h | h | h := h <;> simp [hpeer, h]

theorem peerSyncSend_sends (hlive : s.tb.st.live = true) (hslot : s.peer.slot < (s.advance t).devTime / slotQ) :
    Does (.peerSyncSend t) s fun u => u.peer.slot = (s.advance t).devTime / slotQ ∧
      ∀ n : Fin 16, (u.peerLane n).seq = (s.peerLane n).seq + (if s.peerActive n then 1 else 0) := by
  obtain ⟨hslot', hseq⟩ := (s.advance t).sendSlot_does ((s.advance t).devTime / slotQ)
  refine .of_met (exec_peerSyncSend ..) (by simp [hlive, hslot]) ⟨?_, fun n => ?_⟩
  · rw [State.settle_peer, hslot']
  · rw [State.settle_peerLane, hseq, State.peerLane_advance]
    rfl

theorem peerSyncSend_idles (h : s.tb.st.live = false ∨ (s.advance t).devTime / slotQ ≤ s.peer.slot) : Idles (.peerSyncSend t) s := by
  refine .of_unmet (t := t) rfl (exec_peerSyncSend ..) ?_
  obtain h | h := h
  · simp [h]
  · simp [Nat.not_lt.mpr h]

section
variable (sync : Ctl) (d0 d1 d2 d3 : Word)

theorem peerSync_idles (h : s.peerActive n = false) : Idles (.peerSync t n sync d0 d1 d2 d3) s :=
  .of_effect (t := t) rfl (exec_peerSync ..) (if_pos (by rw [State.peerActive_advance, h]; rfl))

theorem peerSync_hears {P : State → Prop} (h : s.peerActive n = true)
    (hP : P (((s.advance t).hearFrame n sync d0 d1 d2 d3).settle s t)) : Does (.peerSync t n sync d0 d1 d2 d3) s P :=
  .of_outcome (exec_peerSync ..) (if_neg (by rw [State.peerActive_advance, h]; decide)) hP

end

theorem peerFrameMiss_misses (hlink : (s.peerLane n).link = .up ∨ (s.peerLane n).link = .suspect ∨ s.peerActive n = true)
    (hd : (s.advance t).past (.lane .frame n) slotQ = true) : Does (.peerFrameMiss t n) s fun u =>
      (u.peerLane n).misses = (s.peerLane n).misses + 1 ∧ (u.peerLane n).link =
        (if (s.peerLane n).link = .up ∧ 2 ≤ (s.peerLane n).misses then .suspect else (s.peerLane n).link) := by
  have hmiss : (s.advance t).missSlot n = (s.advance t).frameMissed n := by
    unfold State.missSlot
    split
    · rfl
    · rfl
    all_goals
      next hl => exact if_pos (by rw [State.peerLane_advance] at hl; simpa [hl, State.peerActive_advance] using hlink)
  obtain ⟨hmisses, hlink', -⟩ := (s.advance t).frameMissed_does n
  exact .of_outcome (exec_peerFrameMiss ..) ((if_neg (by simp [hd])).trans hmiss) ⟨hmisses, hlink'⟩

theorem peerFrameMiss_idles (h : (s.advance t).past (.lane .frame n) slotQ = false ∨
    ((s.peerLane n).link = .none ∨ (s.peerLane n).link = .lost) ∧ s.peerActive n = false) : Idles (.peerFrameMiss t n) s := by
  refine .of_effect (t := t) rfl (exec_peerFrameMiss ..) ?_
  obtain h | ⟨hlink, hactive⟩ := h
  · exact if_pos (by simp [h])
  · split
    · rfl
    · obtain hlink | hlink := hlink <;> simp [State.missSlot, State.peerActive_advance, hlink, hactive]

theorem peerLinkLost_loses (hlink : (s.peerLane n).link = .up ∨ (s.peerLane n).link = .suspect)
    (hd : (s.advance t).past (.lane .good n) (1000 * usQ) = true) : Does (.peerLinkLost t n) s fun u =>
      (u.peerLane n).link = .lost ∧ (u.peerLane n).thetas = [] ∧
      (s.peerOn = true → s.peer.parent = some n.val → u.tb.aligned = false) ∧
      (s.peerOn = true → s.peer.parent ≠ some n.val → (s.peerLane n).masterRank = s.peer.masterRank → u.peer.part = true) := by
  have hsilent : (s.advance t).silentLink n = (s.advance t).loseLink n := by
    obtain hlink | hlink := hlink <;> simp [State.silentLink, hlink]
  exact .of_outcome (exec_peerLinkLost ..) ((if_neg (by simp [hd])).trans hsilent) ((s.advance t).loseLink_does n)

theorem peerLinkLost_idles (h : (s.advance t).past (.lane .good n) (1000 * usQ) = false ∨ (s.peerLane n).link = .none ∨
    (s.peerLane n).link = .lost) : Idles (.peerLinkLost t n) s := by
  refine .of_effect (t := t) rfl (exec_peerLinkLost ..) ?_
  obtain h | hlink := h
  · exact if_pos (by simp [h])
  · split
    · rfl
    · obtain hlink | hlink := hlink <;> simp [State.silentLink, hlink]

theorem peerStaleHoldEnd_ends (hstale : s.peer.stale.isSome = true) (hd : (s.advance t).past .stale (2000 * usQ) = true) :
    Does (.peerStaleHoldEnd t) s fun u => u.peer.stale = none :=
  .of_met (exec_peerStaleHoldEnd ..) (by simp [hstale, hd]) (State.peerChoose_keeps _).2.2

theorem peerStaleHoldEnd_idles (h : s.peer.stale = none ∨ (s.advance t).past .stale (2000 * usQ) = false) :
    Idles (.peerStaleHoldEnd t) s := by
  refine .of_unmet (t := t) rfl (exec_peerStaleHoldEnd ..) ?_
  obtain h | h := h <;> simp [h]

theorem State.trimReady_advance {l : Nat} (hon : s.peerOn = true) (hparent : s.peer.parent = some l)
    (hlink : (s.peerLane l).link = .up) (hst : s.tb.st = .locked ∨ s.tb.st = .slewing) (hremain : s.peer.trimRemain ≠ 0)
    (hdue : s.trimDue ≤ (s.advance t).devTime) : (s.advance t).trimReady = true := by
  obtain hst | hst := hst <;>
    simp [State.trimReady, State.peerOn_advance, State.trimDue_advance, hon, hparent, hlink, hst, hremain, hdue]

theorem peerTrimStep_idles (h : s.peer.trimRemain = 0 ∨ (s.advance t).devTime < s.trimDue) : Idles (.peerTrimStep t) s := by
  refine .of_unmet (t := t) rfl (exec_peerTrimStep ..) ?_
  obtain h | h := h
  · simp [State.trimReady, h]
  · simp [State.trimReady, State.trimDue_advance, Nat.not_le.mpr h]

end

end Sys2Proof.Machine

section
open Sys2Proof.Machine

/-- Settles O23: each row acts where its lane's state and timers say so; what a good frame says stands on its lane whatever the
choice of the master and the correction make of it, and a write of PEER_CMD is in range at the master alone. -/
theorem peerRowsComplete : Obligations.PeerRowsComplete := by
  refine ⟨fun s t n p hst hpeer hgood hversion hzero => ?_, fun s t n => ⟨fun hst hpeer hd => ?_, peerHelloSend_idles t⟩,
    fun s t => ⟨peerSyncSend_sends t, peerSyncSend_idles t⟩,
    fun s t n sync d0 d1 d2 d3 => ⟨peerSync_idles t sync d0 d1 d2 d3, fun hactive hcheck hcrc hhops => ?_, fun hactive hcheck =>
      peerSync_hears t sync d0 d1 d2 d3 hactive ((s.advance t).hearFrame_bad n d0 d1 d2 d3 hcheck)⟩,
    fun s t n => ⟨fun hlink hd => ?_, peerLinkLost_loses t, fun hlink => ⟨fun hactive hd => ?_,
      fun hactive => peerFrameMiss_idles t (.inr ⟨hlink, hactive⟩), peerLinkLost_idles t (.inr hlink)⟩,
      fun h => peerFrameMiss_idles t (.inl h), fun h => peerLinkLost_idles t (.inl h)⟩,
    fun s t => ⟨peerStaleHoldEnd_ends t, peerStaleHoldEnd_idles t⟩,
    fun s t l hon hparent hlink hst hremain hdue => .of_met (exec_peerTrimStep ..)
      (State.trimReady_advance t hon hparent hlink hst hremain hdue) ⟨rfl, rfl, rfl⟩,
    fun s t => peerTrimStep_idles t, fun s t p hp => ⟨fun hon hmaster => ?_, fun h => ?_⟩⟩
  · have hpeer' : (s.advance t).isPeer n = true := hpeer
    have met : ((s.advance t).lane n).st == .credit && (s.advance t).isPeer n && checkOk p && cf p 9 3 = 1 && cf p 12 1 = 0 := by
      simp [hst, hpeer', hgood, hversion, hzero]
    exact ⟨fun hrank => .of_met (exec_peerHello ..) met ((s.advance t).judgeHello_taken n hrank),
      fun hrank => .of_met (exec_peerHello ..) met ((s.advance t).judgeHello_duplicate n hrank)⟩
  · have hpeer' : (s.advance t).isPeer n = true := hpeer
    exact .of_met (exec_peerHelloSend ..) (by simp [hst, hpeer', hd]) ((s.advance t).sendHello_does n)
  · have told := (s.advance t).hearFrame_good n hcheck hcrc hhops
    exact peerSync_hears t sync d0 d1 d2 d3 hactive ⟨PeerLane.of_advert PeerLane.link Advert.link told,
      PeerLane.of_advert PeerLane.misses Advert.misses told, PeerLane.of_advert PeerLane.rank Advert.rank told,
      PeerLane.of_advert PeerLane.masterRank Advert.masterRank told, PeerLane.of_advert PeerLane.hops Advert.hops told,
      PeerLane.of_advert PeerLane.tde Advert.tde told⟩
  · obtain ⟨u, hu, hmisses, hlink'⟩ := peerFrameMiss_misses t (hlink.elim .inl (.inr ∘ .inl)) hd
    refine ⟨u, hu, hmisses, hlink'.trans ?_⟩
    obtain hlink | hlink := hlink
    · by_cases hfew : (s.peerLane n).misses < 2
      · rw [if_neg (by omega), if_pos hfew]
      · rw [if_pos ⟨hlink, by omega⟩, if_neg hfew]
    · simp [hlink]
  · obtain ⟨u, hu, hmisses, hlink'⟩ := peerFrameMiss_misses t (.inr (.inr hactive)) hd
    refine ⟨u, hu, hmisses, hlink'.trans (if_neg ?_)⟩
    obtain hlink | hlink := hlink <;> simp [hlink]
  · exact .of_outcome (exec_peerWhole ..) rfl (State.write32_peerCmd_taken (s := s.advance t) hp hon hmaster)
  · refine .of_outcome (exec_peerWhole ..) (State.write32_peerCmd_refused (s := s.advance t) hp h) ⟨?_, raise_last ..⟩
    rw [State.settle_peer]
    simp

end

namespace Sys2Proof.Machine

/-! ### Every command completes -/

/-- An answer is a next state at the moment `t`, with the queue of `s` behind it. -/
def CompletesAt (s : State) (t : Nat) (o : Host.Outcome State Fault Refusal) : Prop :=
  ∃ u, o = .next u ∧ u.now = max s.now t ∧ u.pending = s.pending

theorem atMoment_completesAt (t : Nat) (s : State) (f : State → State) : CompletesAt s t (atMoment t s f) :=
  ⟨_, rfl, atMoment_now t s _ f rfl⟩

theorem onHead_completesAt (t : Nat) (ring : Fin 64) (ty : Nat) (s : State) (f : State → Desc → State) :
    CompletesAt s t (onHead t ring ty s f) := atMoment_completesAt ..

/-- A meaning with a check of its list or its offset before it completes where the check passes. -/
theorem checked_completesAt {t : Nat} {s : State} {f : State → State} {c : Prop} [Decidable c] (hc : ¬c) :
    CompletesAt s t (if c then .fault .illFormed else atMoment t s f) :=
  (if_neg hc).symm ▸ atMoment_completesAt t s f

theorem exec_registerWrite (t : Nat) (p : Port) (off : Nat) (data : List Dword) (be : List (BitVec 4)) (s : State) :
    exec (.registerWrite t p off data be) s = if 1 ≤ data.length ∧ be.length = data.length then
      atMoment t s fun x => x.portWrite p off data be else .fault .illFormed := rfl

/-- A command that the outside can form passes the check of its list or its offset (log entry 16); no other command has one. -/
theorem exec_completesAt (c : Instr) (s : State) (h : c.wf = true) : CompletesAt s c.time (exec c s) := by
  cases c with
  | descriptorFetch t ring descs =>
    have hlen := of_decide_eq_true h
    exact checked_completesAt (by simp only [Bool.or_eq_true, decide_eq_true_eq]; omega)
  | fetchFailed t ring descs =>
    have hlen := of_decide_eq_true h
    exact checked_completesAt (by omega)
  | loadWindowEnd t loads =>
    have hlen := of_decide_eq_true h
    exact checked_completesAt (not_not.mpr hlen)
  | registerWrite t p off data be =>
    have hlen := of_decide_eq_true h
    rw [exec_registerWrite, if_pos hlen]
    exact atMoment_completesAt ..
  | letterboxWrite t off data be =>
    have hoff := of_decide_eq_true h
    exact checked_completesAt (by simp; omega)
  | msixTableWrite t off value =>
    have hoff := of_decide_eq_true h
    exact checked_completesAt (by simp; omega)
  | declare | redeclare | pause | resume | retire | recipeLoad | coefLoad | devSetup | histoSetup | statsRead | place
  | placeRead | letterPost | nop | mark | repost => unfold exec; exact onHead_completesAt ..
  | _ => unfold exec; exact atMoment_completesAt ..

/-- A command that cannot be formed fails that check. -/
theorem exec_illFormed (c : Instr) (s : State) (h : c.wf = false) : exec c s = .fault .illFormed := by
  cases c with
  | descriptorFetch t ring descs =>
    have hlen := of_decide_eq_false h
    exact if_pos (by simp only [Bool.or_eq_true, decide_eq_true_eq]; omega)
  | fetchFailed t ring descs =>
    have hlen := of_decide_eq_false h
    exact if_pos (by omega)
  | loadWindowEnd t loads =>
    have hlen := of_decide_eq_false h
    exact if_pos hlen
  | registerWrite t p off data be =>
    have hlen := of_decide_eq_false h
    exact if_neg hlen
  | letterboxWrite t off data be =>
    have hoff := of_decide_eq_false h
    exact if_pos (by simp; omega)
  | msixTableWrite t off value =>
    have hoff := of_decide_eq_false h
    exact if_pos (by simp; omega)
  | _ => cases h

end Sys2Proof.Machine

section
open Sys2Proof.Machine

/-- Settles O41, command by command: its meaning acts at its moment, and the machine sets the count of time and the queue. -/
theorem commandsComplete : Obligations.CommandsComplete := fun c s => ⟨exec_completesAt c s, exec_illFormed c s⟩

end

namespace Sys2Proof.Machine

/-! ### The block that a register lies in (R468) -/

theorem findBlock_mem {bs : List Block} {a : Nat} {b : Block} (h : findBlock bs a = some b) : b ∈ bs := by
  induction bs with
  | nil => cases h
  | cons c cs ih =>
    rw [findBlock] at h
    split at h
    · exact Option.some.inj h ▸ List.mem_cons_self
    · exact List.mem_cons_of_mem _ (ih h)

/-- A register that an offset reaches lies behind the base of a block and has the block's epoch. -/
theorem regAt_block {a : Nat} {h : Hit} (hr : regAt a = some h) : ∃ b ∈ blocks, h.epoch = b.epoch ∧ b.base ≤ h.reg := by
  unfold regAt at hr
  split at hr
  · cases hr
  · next b hb =>
    refine ⟨b, findBlock_mem hb, ?_⟩
    dsimp only at hr
    split at hr
    · unfold Block.hit at hr
      split at hr
      · cases hr
      · split at hr
        · cases hr
        · cases hr
          exact ⟨rfl, by dsimp only; omega⟩
    · cases hr

/-- The registers of PWR and PLC lie above those of GBL. -/
theorem regAt_pwrPlc {a : Nat} {h : Hit} (hr : regAt a = some h) (he : h.epoch = some 2 ∨ h.epoch = some 8) :
    0x3000 ≤ h.reg := by
  obtain ⟨b, hb, hepoch, hbase⟩ := regAt_block hr
  have hall : ∀ b ∈ blocks, b.epoch = some 2 ∨ b.epoch = some 8 → 0x3000 ≤ b.base := by decide
  exact (hall b hb (hepoch ▸ he)).trans hbase

/-! ### A write that is taken, and one that is out of range (R321, R325) -/

/-- A write of a register of PWR or PLC is stored, and nothing else. -/
theorem State.takeWrite_pwrPlc (s : State) (h : Hit) (old new raw : Word) (he : h.epoch = some 2 ∨ h.epoch = some 8) :
    s.takeWrite h old new raw = s.setReg h.reg new := by
  obtain he | he := he <;> simp [State.takeWrite, he]

/-- An accepted write of a register of a block other than GBL advances the block's epoch (R325). -/
theorem State.fld_countEpoch (s : State) (h : Hit) (e : Nat) (he : h.epoch = some e) (hm : h.row.mask ≠ 0) (h0 : e ≠ 0) :
    (s.countEpoch h).fld (Reg.GBL_EPOCH (e / 2)) (16 * (e % 2)) 16 =
      (s.fld (Reg.GBL_EPOCH (e / 2)) (16 * (e % 2)) 16 + 1) % 65536 := by
  have counted : s.countEpoch h = s.bumpEpoch e := by simp [State.countEpoch, he, hm, h0]
  rw [counted]
  exact State.fld_bump _ _ _ _ (by omega)

/-- A class that shows before a row of faults is raised, or that one of them has, shows afterwards. -/
theorem State.foldl_raise_class (l : List (FaultCode × Nat)) (s : State) (c : Nat)
    (h : s.flt.active.getLsbD c = true ∨ ∃ f ∈ l, f.1.cls = c) :
    (l.foldl (fun x f => x.raise f.1 f.2) s).flt.active.getLsbD c = true := by
  induction l generalizing s with
  | nil =>
    obtain h | ⟨f, hf, -⟩ := h
    · exact h
    · cases hf
  | cons g l ih =>
    refine ih _ ?_
    rw [raise_active, BitVec.getLsbD_or]
    obtain h | ⟨f, hf, rfl⟩ := h
    · exact .inl (by rw [h, Bool.true_or])
    · obtain rfl | hf := List.mem_cons.mp hf
      · exact .inl (by rw [FaultCode.cls_bit, Bool.or_true])
      · exact .inr ⟨f, hf, rfl⟩

theorem State.reg_foldl_raise (l : List (FaultCode × Nat)) (s : State) (a : Nat) (h : reportReg a = false) :
    (l.foldl (fun x f => x.raise f.1 f.2) s).reg a = s.reg a := by
  induction l generalizing s with
  | nil => rfl
  | cons g l ih => exact (ih _).trans (s.reg_raise g.1 g.2 a h)

/-- A value outside its range raises every fault of its fields and does nothing else. -/
theorem State.writeReg_outOfRange (s : State) (p : Port) (h : Hit) (raw : Word) (hs : s.gbl.safe = false)
    (hrow : h.row.msk = false ∧ h.row.key = false ∧ h.row.far = false) (hn : h.row.mask ≠ 0)
    (h1 : h.reg ≠ Reg.GBL_KEY) (h2 : h.reg ≠ Reg.GBL_SNAP_CMD)
    (hr : s.rangeFaults h (s.reg h.reg) (stored (s.reg h.reg) raw h.row.mask) raw ≠ []) :
    (s.writeReg p h raw).2 =
      (s.rangeFaults h (s.reg h.reg) (stored (s.reg h.reg) raw h.row.mask) raw).foldl (fun x f => x.raise f.1 f.2) s := by
  obtain ⟨f, fs, hfs⟩ := List.exists_cons_of_ne_nil hr
  rw [hfs]
  rw [stored] at hfs
  simp [State.writeReg, hs, hrow, hn, h1, h2, hfs]

/-- A write of one whole dword through an open port, by what it does to the register it reaches. -/
theorem registerWrite_reaches {s w : State} {t off : Nat} {p : Port} {v : Dword} {h : Hit} {P : State → Prop}
    (hp : s.portReady p) (hr : regAt off = some h) (hm : mspiAt off = some h) (ha : off % 4 = 0) (hb : off < 0x100000)
    (hwide : h.row.wide = false) (hctrl : h.reg ≠ Reg.GBL_CTRL)
    (hw : ((s.advance t).writeReg p h (v.setWidth 64)).2 = w) (hP : P (w.settle s t)) :
    Does (.registerWrite t p off [v] [15]) s P := by
  refine .of_outcome (exec_registerWrite_one ..) (Eq.trans ?_ hw) hP
  rw [State.write32_open (s.advance t) p off v.toNat h hp hr hm hwide ha hb hctrl, BitVec.ofNat_toNat, BitVec.setWidth_eq]

/-! ### Requests that reach no register (R310, R311) -/

/-- GBL_ACC_LAST after a write of the host to an offset without a register (R332). -/
theorem accLast_hostWrite (a : Nat) (h : a < 0x100000) :
    packBits [(0, 20, a), (20, 1, portBit .host), (21, 4, 0), (25, 1, b2n true)] = a + 2 ^ 25 := by
  simp only [packBits, portBit, b2n, if_true]
  omega

/-- A write of one dword to an offset without a register is dropped and logged. -/
theorem State.hostWrite_reserved (s : State) (off : Nat) (v : Dword) (be : BitVec 4) (hup : s.hostUp = true)
    (hoff : off < 0x100000) (hbe : be ≠ 0) (hr : regAt (off / 4 * 4) = none) :
    (s.hostWrite off [v] [be]).2 = (s.logAccess .host (off / 4 * 4) 0 true).raise .accessFault (off / 4 * 4) := by
  have hin : ¬0x100000 ≤ off := by omega
  have hbe' : be ≠ 0#4 := hbe
  simp [State.hostWrite, hostHits, List.range_succ, hup, hin, hbe', hr, rejected]

theorem exec_registerWrite_dword (t : Nat) (p : Port) (off : Nat) (v : Dword) (be : BitVec 4) (s : State) :
    exec (.registerWrite t p off [v] [be]) s = atMoment t s fun x => x.portWrite p off [v] [be] :=
  (exec_registerWrite ..).trans (if_pos ⟨le_rfl, rfl⟩)

theorem State.reg_logAccess_last (s : State) (p : Port) (off reason : Nat) (write : Bool) :
    (s.logAccess p off reason write).reg Reg.GBL_ACC_LAST =
      BitVec.ofNat 64 (packBits [(0, 20, off), (20, 1, portBit p), (21, 4, reason), (25, 1, b2n write)]) := by
  simp [State.logAccess, State.bump, State.bumpBy, Reg.GBL_ACC_LAST, Reg.GBL_ACC_COUNT]

theorem State.fld_logAccess_count (s : State) (p : Port) (off reason : Nat) (write : Bool) :
    (s.logAccess p off reason write).fld Reg.GBL_ACC_COUNT 0 32 = (s.fld Reg.GBL_ACC_COUNT 0 32 + 1) % 2 ^ 32 := by
  rw [State.logAccess, State.fld_bump _ _ _ _ (by decide)]
  simp [State.fld, Reg.GBL_ACC_LAST, Reg.GBL_ACC_COUNT]

end Sys2Proof.Machine

section
open Sys2Proof.Machine

/-- Settles O28: a write through an open port reaches its register, whose range decides; any other request is told apart
before a register is reached. -/
theorem registerWriteRowsComplete : Obligations.RegisterWriteRowsComplete := by
  refine ⟨fun s t off p v h hp hr hm ha hb hwide hmsk hkey hfar hmask hctrl => ⟨fun he hrange => ?_, fun hrange h1 h2 hrep => ?_⟩,
    fun s t off v be hup hoff hbe hr => ?_, fun s t off v be hup => ?_, fun s t off p data be hform => (exec_registerWrite ..).trans (if_neg ?_)⟩
  · have hlow := regAt_pwrPlc hr he
    have hkeyReg : h.reg ≠ Reg.GBL_KEY := by rw [Reg.GBL_KEY]; omega
    have hsnap : h.reg ≠ Reg.GBL_SNAP_CMD := by rw [Reg.GBL_SNAP_CMD]; omega
    refine registerWrite_reaches hp hr hm ha hb hwide hctrl
      (((s.advance t).writeReg_takes p h _ hp.2.1 hmsk hkey hfar (.inl hmask) hkeyReg hsnap _ rfl hrange).trans
        (State.takeWrite_pwrPlc _ h _ _ _ he)) ⟨?_, fun e hepoch => ?_⟩
    · rw [State.settle_reg, State.reg_setReg, if_pos rfl]
      rfl
    · have hne : e ≠ 0 := by rintro rfl; simp [hepoch] at he
      have hother : Reg.GBL_EPOCH (e / 2) ≠ h.reg := by
        have : e < 9 := by rw [hepoch] at he; simp at he; omega
        rw [Reg.GBL_EPOCH]; omega
      rw [State.settle_fld, State.fld, State.reg_setReg, if_neg hother]
      exact State.fld_countEpoch _ h e hepoch hmask hne
  · refine registerWrite_reaches hp hr hm ha hb hwide hctrl
      ((s.advance t).writeReg_outOfRange p h _ hp.2.1 ⟨hmsk, hkey, hfar⟩ hmask h1 h2 hrange) ⟨?_, fun f hf => ?_⟩
    · exact State.reg_foldl_raise _ _ _ hrep
    · exact State.foldl_raise_class _ _ _ (.inr ⟨f, hf, rfl⟩)
  · refine .of_outcome (exec_registerWrite_dword ..)
      (State.hostWrite_reserved (s.advance t) off v be hup hoff hbe hr) ⟨?_, ?_, raise_last ..⟩
    · rw [State.settle_reg, State.reg_raise _ _ _ _ rfl, State.reg_logAccess_last, accLast_hostWrite _ (by omega)]
    · rw [State.settle_fld, State.fld_raise _ _ _ _ _ _ rfl, State.fld_logAccess_count, State.fld_advance]
  · refine Idles.of_effect (t := t) rfl (exec_registerWrite_dword ..) ?_
    have hup' : (s.advance t).hostUp = false := hup
    simp [State.portWrite, State.hostWrite, hup']
  · rw [not_and_or]
    exact hform.imp (by rintro rfl; decide) id

end


namespace Sys2Proof.Machine

/-! ### What a fault puts out (R356, R358, R445) -/

theorem State.message_sent (s : State) (v : Nat) : ∃ l, (s.message v).sent = s.sent ++ l := by
  unfold State.message
  split
  · exact ⟨[], (List.append_nil _).symm⟩
  · exact ⟨_, rfl⟩

theorem State.event_sent (s : State) (v : Nat) : ∃ l, (s.event v).sent = s.sent ++ l := by
  unfold State.event
  dsimp only
  split
  · exact ⟨[], (List.append_nil _).symm⟩
  · exact State.message_sent _ v

/-- A raised fault adds to what was sent: the message of its vector, or nothing. -/
theorem State.raise_sent (s : State) (f : FaultCode) (p : Nat) : ∃ l, (s.raise f p).sent = s.sent ++ l := by
  have logged : ((s.logFault f p).faultEntry f p).sent = s.sent := by simp
  obtain ⟨l, hl⟩ := ((s.logFault f p).faultEntry f p).event_sent 64
  rw [logged] at hl
  unfold State.raise
  dsimp only
  split <;> split
  · exact ⟨l, by simpa using hl⟩
  · exact ⟨l, hl⟩
  · exact ⟨[], by simp⟩
  · exact ⟨[], by simp⟩

/-! ### Accesses that are not honoured (R310, R332) -/

@[simp] theorem State.logAccess_sent (s : State) (p : Port) (off reason : Nat) (write : Bool) :
    (s.logAccess p off reason write).sent = s.sent := by
  have h (v : Word) : ((s.setReg Reg.GBL_ACC_LAST v).bump Reg.GBL_ACC_COUNT 0 32).sent = s.sent := by simp
  exact h _

@[simp] theorem State.settle_regs (w s : State) (t : Nat) : (w.settle s t).regs = w.regs := rfl

/-! ### Reads by the host (R310) -/

theorem exec_bar0ReadAbort (t off len : Nat) (k : ReadKind) (s : State) :
    exec (.bar0ReadAbort t off len k) s = atMoment t s fun x => x.hostRead off len k := rfl

section
variable {s : State} {off : Nat} (len : Nat) (hup : s.hostUp = true) (hoff : off < 0x100000)
include hup hoff

/-- A read through the host's port, which is up, of an offset within BAR0 passes the first check. -/
theorem State.hostRead_open : ¬(!s.hostUp || decide (0x100000 ≤ off)) = true := by
  simp [hup, hoff]

theorem State.hostRead_zeroLen : s.hostRead off len .zeroLen = s.out (.completion (off / 4 * 4) [0]) :=
  if_neg (State.hostRead_open hup hoff)

theorem State.hostRead_atomic : s.hostRead off len .atomic = s.out (.unsupported (off / 4 * 4)) :=
  if_neg (State.hostRead_open hup hoff)

theorem State.hostRead_completed (h : rejected (hostHits off len) [] false = none) (hlen : len ≠ 0) :
    s.hostRead off len .plain =
      s.out (.completion (off / 4 * 4) (((hostHits off len).filterMap id).map s.readDword)) := by
  refine (if_neg (State.hostRead_open hup hoff)).trans ?_
  simp only [h, if_neg hlen]

theorem State.hostRead_rejected {r : Nat} (h : rejected (hostHits off len) [] false = some r) : s.hostRead off len .plain =
    ((s.logAccess .host (off / 4 * 4) r false).raise .accessFault (off / 4 * 4)).out (.completerAbort (off / 4 * 4)) := by
  refine (if_neg (State.hostRead_open hup hoff)).trans ?_
  simp only [h]

end

theorem State.hostRead_closed {s : State} {off : Nat} (len : Nat) (k : ReadKind) (h : s.hostUp = false ∨ 0x100000 ≤ off) :
    s.hostRead off len k = s := if_pos (by obtain h | h := h <;> simp [h])

/-- GBL_ACC_LAST after a read of the host that is not honoured (R332). -/
theorem accLast_hostRead (a r : Nat) (h : a < 0x100000) :
    packBits [(0, 20, a), (20, 1, portBit .host), (21, 4, r), (25, 1, b2n false)] = a + r % 16 * 2 ^ 21 := by
  simp only [packBits, portBit, b2n, Bool.false_eq_true, if_false]
  omega

/-! ### MSPI frames (R313 to R315) -/

/-- What a frame with the opcode byte `b` does. -/
def State.mspiFrame (s : State) (b : Byte) (rest : List Byte) : State :=
  if s.pwr.st != .run then s.mspiNotRun (mspiOpcode b)
  else match mspiOpcode b with
    | some (k, w) => s.mspiRun rest k w
    | none => s.mspiUnknown rest

theorem exec_mspiFrame (t : Nat) (b : Byte) (rest : List Byte) (s : State) :
    exec (.mspiFrame t (b :: rest)) s = atMoment t s fun x => x.mspiFrame b rest := rfl

theorem State.mspiFrame_run {s : State} {b : Byte} {k : Nat} {write : Bool} (rest : List Byte) (hrun : s.pwr.st = .run)
    (hop : mspiOpcode b = some (k, write)) : s.mspiFrame b rest = s.mspiRun rest k write := by
  rw [State.mspiFrame, if_neg (by simp [hrun]), hop]

theorem State.mspiFrame_notRun {s : State} (b : Byte) (rest : List Byte) (hrun : s.pwr.st ≠ .run) :
    s.mspiFrame b rest = s.mspiNotRun (mspiOpcode b) := if_pos (by simp [hrun])

/-- A read of one dword from a register. -/
theorem State.mspiReadFrame_register {s : State} {addr : Nat} {h : Hit} (hrd : s.bit Reg.GBL_CTRL 1 = true)
    (hm : mspiAt (addr / 4 * 4) = some h) :
    s.mspiReadFrame addr 1 = s.out (.mspi ([0, 0] ++ dwordBytes (s.readDword h) ++ [1])) := by
  simp [State.mspiReadFrame, hrd, List.range_succ, hm, mspiAnswer]
  rfl

/-- A read while mspi_rd is 0. -/
theorem State.mspiReadFrame_closed {s : State} (addr : Nat) (hrd : s.bit Reg.GBL_CTRL 1 = false) :
    s.mspiReadFrame addr 1 = s.out (.mspi [0, 0, 0, 0, 0, 0, 28]) := by
  rw [State.mspiReadFrame, if_pos (by simp [hrd])]
  rfl

/-- A write while mspi_wr is 0. -/
theorem State.mspiWriteFrame_closed {s : State} (addr k : Nat) (data : List Byte) (hrun : s.pwr.st = .run)
    (hwr : s.bit Reg.GBL_CTRL 0 = false) : s.mspiWriteFrame addr k data =
      ((s.logAccess .mspi (mspiOffset addr) 7 true).raise .accessFault (mspiOffset addr)).out (.mspi [0, 0, 30]) := by
  have dropped (v : List Dword) : s.mspiWrite addr v = s.mspiDrop (mspiOffset addr) 7 true := by
    simp [State.mspiWrite, hrun, hwr]
  rw [State.mspiWriteFrame, dropped]
  rfl

/-- A write of one dword to a location inside the window that names no register. -/
theorem State.mspiWriteFrame_unnamed {s : State} {addr : Nat} (data : List Byte) (hrun : s.pwr.st = .run)
    (hwr : s.bit Reg.GBL_CTRL 0 = true) (hm : mspiAt (addr / 4 * 4) = none) :
    s.mspiWriteFrame addr 1 data = s.out (.mspi [0, 0, 1]) := by
  have ignored (v : Dword) : s.mspiWrite addr [v] = ({}, s) := by
    simp [State.mspiWrite, hrun, hwr, List.range_succ, hm, rejected, State.applyDwords]
  rw [State.mspiWriteFrame]
  exact (congrArg (fun r : Reply × State => r.2.out (mspiAnswer [] (r.1.status false))) (ignored _))

/-- A frame whose address has arrived and that ends before its data (SHORT). -/
theorem State.mspiRun_short {s : State} {rest : List Byte} {k : Nat} (h3 : 3 ≤ rest.length) (hk : rest.length < 3 + 4 * k) :
    s.mspiRun rest k true = (s.logAccess .mspi (mspiOffset (frameAddr rest)) 8 true).raise .accessFault (mspiOffset (frameAddr rest)) := by
  rw [State.mspiRun, if_pos (by simpa using hk), State.frameOffset, if_pos h3]

/-- A whole frame that reads one dword, and one that writes one. -/
theorem State.mspiFrame_readOne {s : State} (a b c : Byte) (hrun : s.pwr.st = .run) :
    s.mspiFrame 0x03 [a, b, c] = s.mspiReadFrame (frameAddr [a, b, c]) 1 := by
  rw [s.mspiFrame_run [a, b, c] hrun (k := 1) (write := false) rfl]
  rfl

theorem State.mspiFrame_writeOne {s : State} (a b c d0 d1 d2 d3 : Byte) (hrun : s.pwr.st = .run) :
    s.mspiFrame 0x02 [a, b, c, d0, d1, d2, d3] = s.mspiWriteFrame (frameAddr [a, b, c]) 1 [d0, d1, d2, d3] := by
  rw [s.mspiFrame_run [a, b, c, d0, d1, d2, d3] hrun (k := 1) (write := true) rfl]
  rfl

/-- A write outside RUN, in a state in which the logic die has power, answers not_run alone (R314). -/
theorem State.mspiFrame_writeNotRun {s : State} (rest : List Byte) (hrun : s.pwr.st ≠ .run) (hquiet : s.quiet = false) :
    s.mspiFrame 0x02 rest = s.out (.mspi [0, 0, 64]) :=
  (s.mspiFrame_notRun _ rest hrun).trans ((if_neg (by simp [hquiet])).trans rfl)

/-! ### The parity scrub (R328 to R330) -/

theorem exec_scrubPass (t : Nat) (bad : List Nat) (s : State) :
    exec (.scrubPass t bad) s = atMoment t s fun x => (bad.foldl State.mismatch x).bump Reg.GBL_SCRUB 0 16 := rfl

/-- A mismatch in a register is logged, counted and raised (R329). -/
def State.logMismatch (s : State) (a : Nat) (h : Hit) : State :=
  ((s.setReg Reg.GBL_PARITY_LAST (BitVec.ofNat 64 (packBits [(0, 20, a), (20, 1, b2n h.guarded)]))).bumpSat
    Reg.GBL_SCRUB 16 16).raise .cfgParity a

/-- The register counts as one in error from then on, and a guarded one brings the safe state (R330). -/
def State.markMismatch (s : State) (a : Nat) (h : Hit) : State :=
  { s with gbl := { s.gbl with
      mismatched := if s.gbl.mismatched.contains a then s.gbl.mismatched else a :: s.gbl.mismatched
      safe := s.gbl.safe || h.guarded } }

@[simp] theorem State.markMismatch_fld (s : State) (a : Nat) (h : Hit) (b lo w : Nat) :
    (s.markMismatch a h).fld b lo w = s.fld b lo w := rfl
@[simp] theorem State.markMismatch_safe (s : State) (a : Nat) (h : Hit) :
    (s.markMismatch a h).gbl.safe = (s.gbl.safe || h.guarded) := rfl
@[simp] theorem State.markMismatch_flt (s : State) (a : Nat) (h : Hit) : (s.markMismatch a h).flt = s.flt := rfl

/-- A register with fields that may be written is logged and marked; nothing else is. -/
theorem State.mismatch_hit {s : State} {a : Nat} {h : Hit} (hr : regAt a = some h) (hm : h.row.mask ≠ 0) (ha : h.reg = a) :
    s.mismatch a = if h.guarded then ((s.logMismatch a h).markMismatch a h).raise .cfgParitySafe a
      else (s.logMismatch a h).markMismatch a h := by
  have hin : ¬(h.row.mask = 0 ∨ h.reg ≠ a) := by simp [hm, ha]
  simp only [State.mismatch, hr, if_neg hin]
  rfl

theorem State.mismatch_other {s : State} {a : Nat} (h : ∀ h, regAt a = some h → h.row.mask = 0 ∨ h.reg ≠ a) :
    s.mismatch a = s := by
  unfold State.mismatch
  split
  · next k hk => exact if_pos (h k hk)
  · rfl

theorem State.fld_logMismatch (s : State) (a : Nat) (h : Hit) (lo w : Nat) :
    (s.logMismatch a h).fld Reg.GBL_SCRUB lo w = (s.bumpSat Reg.GBL_SCRUB 16 16).fld Reg.GBL_SCRUB lo w := by
  rw [State.logMismatch, State.fld_raise _ _ _ _ _ _ rfl]
  have other (v : Word) : (s.setReg Reg.GBL_PARITY_LAST v).reg Reg.GBL_SCRUB = s.reg Reg.GBL_SCRUB := by
    rw [State.reg_setReg, if_neg (by decide)]
  simp only [State.bumpSat, State.bumpSatBy, State.setFld, State.fld, State.reg_setReg, if_true, other]

theorem State.logMismatch_gbl (s : State) (a : Nat) (h : Hit) : (s.logMismatch a h).gbl = s.gbl := by
  have logged (v : Word) : (((s.setReg Reg.GBL_PARITY_LAST v).bumpSat Reg.GBL_SCRUB 16 16).raise .cfgParity a).gbl = s.gbl := by
    simp
  exact logged _

/-- The scrubber's registers after a mismatch: the count of passes stands, that of mismatches goes on. -/
theorem State.fld_mismatch (s : State) (a : Nat) : (s.mismatch a).fld Reg.GBL_SCRUB 0 16 = s.fld Reg.GBL_SCRUB 0 16 := by
  by_cases h : ∃ h, regAt a = some h ∧ h.row.mask ≠ 0 ∧ h.reg = a
  · obtain ⟨h, hr, hm, ha⟩ := h
    have marked : ((s.logMismatch a h).markMismatch a h).fld Reg.GBL_SCRUB 0 16 = s.fld Reg.GBL_SCRUB 0 16 :=
      (s.fld_logMismatch a h 0 16).trans (State.fld_bumpSatBy_other _ _ _ _ _ _ _ (by decide) (.inl (by decide)))
    rw [State.mismatch_hit hr hm ha]
    split
    · rw [State.fld_raise _ _ _ _ _ _ rfl, marked]
    · exact marked
  · push Not at h
    rw [State.mismatch_other fun k hk => or_iff_not_imp_left.mpr (h k hk)]

theorem State.fld_foldl_mismatch (l : List Nat) (s : State) :
    (l.foldl State.mismatch s).fld Reg.GBL_SCRUB 0 16 = s.fld Reg.GBL_SCRUB 0 16 := by
  induction l generalizing s with
  | nil => rfl
  | cons a l ih => exact (ih _).trans (s.fld_mismatch a)

/-- A register is in error, with what it asks of the safe state, the count of mismatches and the fault CFG_PARITY. -/
structure State.Mismatched (s u : State) (a : Nat) (h : Hit) : Prop where
  listed : a ∈ u.gbl.mismatched
  safe : u.gbl.safe = (s.gbl.safe || h.guarded)
  count : u.fld Reg.GBL_SCRUB 16 16 = min 65535 (s.fld Reg.GBL_SCRUB 16 16 + 1)
  raised : u.flt.active.getLsbD FaultCode.cfgParity.cls = true

theorem State.mem_markMismatch (s : State) (a : Nat) (h : Hit) : a ∈ (s.markMismatch a h).gbl.mismatched := by
  simp only [State.markMismatch]
  split
  · next hc => simpa using hc
  · exact List.mem_cons_self

theorem State.mismatched_mark (s : State) (a : Nat) (h : Hit) : s.Mismatched ((s.logMismatch a h).markMismatch a h) a h where
  listed := State.mem_markMismatch ..
  safe := by rw [State.markMismatch_safe, State.logMismatch_gbl]
  count := by
    rw [State.markMismatch_fld, State.fld_logMismatch, State.fld_bumpSat _ _ _ _ (by decide)]
    norm_num
  raised := by rw [State.markMismatch_flt, State.logMismatch, State.raise_class]

/-- A further fault leaves all of it. -/
theorem State.Mismatched.raise {s u : State} {a : Nat} {h : Hit} (m : s.Mismatched u a h) (f : FaultCode) (p : Nat) :
    s.Mismatched (u.raise f p) a h where
  listed := by simpa using m.listed
  safe := by simpa using m.safe
  count := by rw [State.fld_raise _ _ _ _ _ _ rfl, m.count]
  raised := by rw [raise_active, BitVec.getLsbD_or, m.raised, Bool.true_or]

/-- What a mismatch in a register with fields that may be written leaves. -/
theorem State.mismatch_does {s : State} {a : Nat} {h : Hit} (hr : regAt a = some h) (hm : h.row.mask ≠ 0) (ha : h.reg = a) :
    s.Mismatched (s.mismatch a) a h := by
  rw [State.mismatch_hit hr hm ha]
  split
  · exact (s.mismatched_mark a h).raise _ _
  · exact s.mismatched_mark a h

end Sys2Proof.Machine

section
open Sys2Proof.Machine

/-- Settles O30: a read or a frame by what the port lets through, a scrub pass register by register. -/
theorem accessRowsComplete : Obligations.AccessRowsComplete := by
  refine ⟨fun s t off len => ⟨fun hup hoff => ⟨?_, ?_, fun hok hlen => ?_, fun r hr => ?_⟩, fun k h => ?_⟩,
    fun s t a b c d0 d1 d2 d3 hrun => ⟨fun h hrd hm => ?_, fun hrd => ?_, fun hwr => ?_, fun hwr hm => ?_, ?_⟩,
    fun s t rest hst => ?_, fun s t => ?_, fun s t bad => ?_, fun s t a h hr hm ha => ?_⟩
  · exact .of_outcome (exec_bar0ReadAbort ..) (State.hostRead_zeroLen (s := s.advance t) len hup hoff) ⟨rfl, rfl⟩
  · exact .of_outcome (exec_bar0ReadAbort ..) (State.hostRead_atomic (s := s.advance t) len hup hoff) ⟨rfl, rfl⟩
  · exact .of_outcome (exec_bar0ReadAbort ..) (State.hostRead_completed (s := s.advance t) len hup hoff hok hlen) ⟨rfl, rfl⟩
  · obtain ⟨l, hl⟩ := State.raise_sent ((s.advance t).logAccess .host (off / 4 * 4) r false) .accessFault (off / 4 * 4)
    refine .of_outcome (exec_bar0ReadAbort ..) (State.hostRead_rejected (s := s.advance t) len hup hoff hr) ⟨?_, ?_, l, ?_⟩
    · rw [State.settle_reg, State.reg_out, State.reg_raise _ _ _ _ rfl, State.reg_logAccess_last,
        accLast_hostRead _ _ (by omega)]
    · rw [State.settle_reg, State.reg_out, raise_last]
    · rw [State.settle_sent, State.out_sent, hl, State.logAccess_sent, State.advance_sent]
  · exact .of_effect (t := t) rfl (exec_bar0ReadAbort ..) (State.hostRead_closed (s := s.advance t) len k h)
  · exact .of_outcome (exec_mspiFrame ..) (((s.advance t).mspiFrame_readOne a b c hrun).trans
      (State.mspiReadFrame_register hrd hm)) ⟨rfl, rfl⟩
  · exact .of_outcome (exec_mspiFrame ..) (((s.advance t).mspiFrame_readOne a b c hrun).trans
      (State.mspiReadFrame_closed _ hrd)) ⟨rfl, rfl⟩
  · obtain ⟨l, hl⟩ := State.raise_sent ((s.advance t).logAccess .mspi (mspiOffset (frameAddr [a, b, c])) 7 true)
      .accessFault (mspiOffset (frameAddr [a, b, c]))
    refine .of_outcome (exec_mspiFrame ..) (((s.advance t).mspiFrame_writeOne a b c d0 d1 d2 d3 hrun).trans
      (State.mspiWriteFrame_closed _ _ _ hrun hwr)) ⟨?_, l, ?_⟩
    · rw [State.settle_reg, State.reg_out, raise_last]
    · rw [State.settle_sent, State.out_sent, hl, State.logAccess_sent, State.advance_sent]
  · exact .of_outcome (exec_mspiFrame ..) (((s.advance t).mspiFrame_writeOne a b c d0 d1 d2 d3 hrun).trans
      (State.mspiWriteFrame_unnamed _ hrun hwr hm)) ⟨rfl, rfl⟩
  · refine .of_outcome (exec_mspiFrame ..) (((s.advance t).mspiFrame_run _ hrun rfl).trans
      (State.mspiRun_short (by simp) (by simp))) ⟨raise_last .., ?_⟩
    rw [State.settle_fld, State.fld_raise _ _ _ _ _ _ rfl, State.fld_logAccess_count, State.fld_advance]
  · have hrun : s.pwr.st ≠ .run := by obtain h | h := hst <;> simp [h]
    have hquiet : s.quiet = false := by obtain h | h := hst <;> simp [State.quiet, h]
    exact .of_outcome (exec_mspiFrame ..) ((s.advance t).mspiFrame_writeNotRun rest hrun hquiet) ⟨rfl, rfl⟩
  · exact .of_effect (t := t) (f := id) rfl rfl rfl
  · refine .of_effect (exec_scrubPass ..) ?_
    rw [State.settle_fld, State.fld_bump _ _ _ _ (by decide), State.fld_foldl_mismatch]
    rfl
  · obtain ⟨hmem, hsafe, hcount, hclass⟩ := State.mismatch_does (s := s.advance t) hr hm ha
    refine .of_effect (exec_scrubPass ..) ⟨?_, ?_, ?_, ?_⟩
    · simpa [State.settle] using hmem
    · simpa [State.settle] using hsafe
    · rw [State.settle_fld]
      exact (State.fld_bumpBy_other _ _ _ _ _ _ _ (by decide) (.inr (by decide))).trans hcount
    · simpa using hclass

end

namespace Sys2Proof.Machine

/-! ### The far copies and the register interface's own state, under the effect of a far write (R317, R318)

No effect of a far write changes a far copy or the state of the register interface: capture, the front end, the keeper. -/

@[simp] theorem far_ite (c : Prop) [Decidable c] (a b : State) : (if c then a else b).far = if c then a.far else b.far :=
  apply_ite State.far c a b

@[simp] theorem gbl_ite (c : Prop) [Decidable c] (a b : State) : (if c then a else b).gbl = if c then a.gbl else b.gbl :=
  apply_ite State.gbl c a b

/-- A fold whose step leaves the far side leaves it. -/
theorem foldl_farSide {α : Type} (f : State → α → State) (h : ∀ s a, (f s a).far = s.far ∧ (f s a).gbl = s.gbl) (l : List α) (s : State) :
    (l.foldl f s).far = s.far ∧ (l.foldl f s).gbl = s.gbl :=
  foldl_keeps (fun x => x.far = s.far ∧ x.gbl = s.gbl) f
    (fun x a hx => ⟨(h x a).1.trans hx.1, (h x a).2.trans hx.2⟩) l s ⟨rfl, rfl⟩

@[simp] theorem State.wakeCause_farSide (s : State) (i : Nat) : (s.wakeCause i).far = s.far ∧ (s.wakeCause i).gbl = s.gbl := ⟨rfl, rfl⟩

/-! #### Capture -/

@[simp] theorem State.putGroup_farSide (s : State) (n : Nat) (x : Input) (item : Option Item) (fs : List Fragment) :
    (s.putGroup n x item fs).far = s.far ∧ (s.putGroup n x item fs).gbl = s.gbl := by simp [State.putGroup, State.putInput]

@[simp] theorem State.writeGroup_farSide (s : State) (n : Nat) (g : List Mark) (item : Option Item) :
    (s.writeGroup n g item).2.far = s.far ∧ (s.writeGroup n g item).2.gbl = s.gbl := by
  simp [State.writeGroup, apply_ite Prod.snd]

@[simp] theorem State.anchorGroup_farSide (s : State) (n time : Nat) (g : List Mark) (item : Option Item) :
    (s.anchorGroup n time g item).far = s.far ∧ (s.anchorGroup n time g item).gbl = s.gbl := by
  simp [State.anchorGroup]

@[simp] theorem State.noteLate_farSide (s : State) (n : Nat) (a : Accepted) :
    (s.noteLate n a).far = s.far ∧ (s.noteLate n a).gbl = s.gbl := by
  unfold State.noteLate; split <;> simp

@[simp] theorem State.stampEdge_farSide (s : State) (n : Nat) (a : Accepted) :
    (s.stampEdge n a).far = s.far ∧ (s.stampEdge n a).gbl = s.gbl := by simp [State.stampEdge]

@[simp] theorem State.noteCut_farSide (s : State) (n stamp : Nat) :
    (s.noteCut n stamp).far = s.far ∧ (s.noteCut n stamp).gbl = s.gbl := by
  unfold State.noteCut; split <;> simp

@[simp] theorem State.acceptEdge_farSide (s : State) (n : Nat) (a : Accepted) :
    (s.acceptEdge n a).far = s.far ∧ (s.acceptEdge n a).gbl = s.gbl := by simp [State.acceptEdge, State.thinDecay]

/-! #### The front end -/

@[simp] theorem State.alarmTest_farSide (s : State) (n : Nat) (z : Zone) (time : Nat) :
    (s.alarmTest n z time).far = s.far ∧ (s.alarmTest n z time).gbl = s.gbl := by simp [State.alarmTest]

@[simp] theorem State.alarmFlush_farSide (s : State) (n : Nat) :
    (s.alarmFlush n).far = s.far ∧ (s.alarmFlush n).gbl = s.gbl := by
  unfold State.alarmFlush; split <;> simp

@[simp] theorem State.passEdge_farSide (s : State) (n : Nat) (old new : Zone) (stamp : Nat) (r : Resync) :
    (s.passEdge n old new stamp r).far = s.far ∧ (s.passEdge n old new stamp r).gbl = s.gbl := by simp [State.passEdge]

@[simp] theorem State.closeWindows_farSide (k : Nat) (s : State) (n time : Nat) :
    (State.closeWindows k s n time).far = s.far ∧ (State.closeWindows k s n time).gbl = s.gbl := by
  induction k generalizing s with
  | zero => exact ⟨rfl, rfl⟩
  | succ k ih =>
    unfold State.closeWindows
    dsimp only
    (repeat' split) <;> simp [ih]

@[simp] theorem State.feEstablish_farSide (s : State) (n : Nat) (d : Decided) :
    (s.feEstablish n d).far = s.far ∧ (s.feEstablish n d).gbl = s.gbl := by
  unfold State.feEstablish
  dsimp only
  split <;> simp [State.captureEst]

@[simp] theorem State.feTransit_farSide (s : State) (n : Nat) (d : Decided) (st : Nat) (r : Resync) :
    (s.feTransit n d st r).far = s.far ∧ (s.feTransit n d st r).gbl = s.gbl := by
  unfold State.feTransit
  dsimp only
  split <;> simp [State.blankTrigger]

@[simp] theorem State.feCross_farSide (s : State) (n : Nat) (d : Decided) (st : Nat) (r : Resync) :
    (s.feCross n d st r).far = s.far ∧ (s.feCross n d st r).gbl = s.gbl := by simp [State.feCross, State.endWindows]

@[simp] theorem State.feInput_farSide (s : State) (n : Nat) (v : Int) (stamp : Bool → Nat) (r : Resync) :
    (s.feInput n v stamp r).far = s.far ∧ (s.feInput n v stamp r).gbl = s.gbl := by simp [State.feInput]

@[simp] theorem State.feMove_farSide (s : State) (n : Nat) : (s.feMove n).far = s.far ∧ (s.feMove n).gbl = s.gbl := by
  simp [State.feMove, State.free]

@[simp] theorem State.feApplied_farSide (s : State) (n : Nat) (old : Word) :
    (s.feApplied n old).far = s.far ∧ (s.feApplied n old).gbl = s.gbl := by
  simp [State.feApplied, State.captureCfg, State.cfgInput]

@[simp] theorem State.frontEndToken_farSide (s : State) (n : Nat) (old : Word) :
    (s.frontEndToken n old).far = s.far ∧ (s.frontEndToken n old).gbl = s.gbl := by
  simp [State.frontEndToken, State.takeTokens, State.modPwr]

/-! #### The keeper -/

@[simp] theorem State.modKpr_farSide (s : State) (f : Keeper → Keeper) :
    (s.modKpr f).far = s.far ∧ (s.modKpr f).gbl = s.gbl := ⟨rfl, rfl⟩

theorem State.setReg_farSide {s u : State} (h : s.far = u.far ∧ s.gbl = u.gbl) (a : Nat) (v : Word) :
    (s.setReg a v).far = u.far ∧ (s.setReg a v).gbl = u.gbl := h

@[simp] theorem State.mirrorKpr_farSide (s : State) : s.mirrorKpr.far = s.far ∧ s.mirrorKpr.gbl = s.gbl := by
  obtain ⟨hfar, hgbl⟩ : _ ∧ _ := foldl_farSide _ (fun _ _ => State.setReg_farSide (State.setReg_farSide ⟨rfl, rfl⟩ _ _) _ _) _ _
  obtain ⟨hfar', hgbl'⟩ := State.setReg_farSide (State.setReg_farSide (State.setReg_farSide (State.setReg_farSide
    (State.setReg_farSide (s := s) ⟨rfl, rfl⟩ _ _) _ _) _ _) _ _) _ _
  exact ⟨hfar.trans hfar', hgbl.trans hgbl'⟩

@[simp] theorem State.keeperCheck_farSide (s : State) : s.keeperCheck.far = s.far ∧ s.keeperCheck.gbl = s.gbl :=
  foldl_farSide _ (fun x c => by simp [State.keeperCheckOf, State.modGuard]) _ s

@[simp] theorem State.coverCheck_farSide (s : State) : s.coverCheck.far = s.far ∧ s.coverCheck.gbl = s.gbl := by
  simp [State.coverCheck]

@[simp] theorem State.kprInputApplied_farSide (s : State) (n : Nat) (old : Word) :
    (s.kprInputApplied n old).far = s.far ∧ (s.kprInputApplied n old).gbl = s.gbl := by
  simp [State.kprInputApplied, State.free]

@[simp] theorem State.kprApplied_farSide (s : State) (a : Nat) (old : Word) :
    (s.kprApplied a old).far = s.far ∧ (s.kprApplied a old).gbl = s.gbl := by
  unfold State.kprApplied
  split <;> simp

@[simp] theorem State.wakeCleared_farSide (s : State) (v : Nat) :
    (s.wakeCleared v).far = s.far ∧ (s.wakeCleared v).gbl = s.gbl := by simp [State.wakeCleared]

end Sys2Proof.Machine

namespace Sys2Proof.Machine

/-! ### A far write at its end (R318, R416) -/

/-- The far path is free again. -/
def State.farDone (s : State) : State := { s with gbl := { s.gbl with far := none } }

theorem State.farReg_of_far {s u : State} (h : u.far = s.far) (a : Nat) : u.farReg a = s.farReg a := by
  rw [State.farReg, h, State.farReg]

theorem State.farReg_setFar (s : State) (a : Nat) (v : Word) : (s.setFar a v).farReg a = v := by
  rw [State.farReg, State.setFar, tget?_tset, if_pos rfl]
  split
  · next hv => exact hv.symm
  · rfl

/-- A state that has the far side left by the far write of `v` to `a`: the path is free and the copy is `v`. -/
theorem State.farWritten {s u : State} {a : Nat} {v : Word}
    (h : u.far = (s.farDone.setFar a v).far ∧ u.gbl = (s.farDone.setFar a v).gbl) : u.gbl.far = none ∧ u.farReg a = v :=
  ⟨by rw [h.2]; rfl, (State.farReg_of_far h.1 a).trans (State.farReg_setFar ..)⟩

theorem State.farApply_none {s : State} (h : s.gbl.far = none) : s.farApply = s := by simp only [State.farApply, h]

section
variable {s : State} {a : Nat} {v : Word} (h : s.gbl.far = some (a, v))
include h

/-- A register of a front end takes the write, and its front end acts on it. -/
theorem State.farApply_fe (hk : isKpr a = false) : s.farApply.gbl.far = none ∧ s.farApply.farReg a = v := by
  refine State.farWritten (s := s) ?_
  simp only [State.farApply, h, hk, Bool.false_eq_true, if_false]
  simp [State.farDone]

/-- A register of the keeper takes the write, and the keeper acts on it. -/
theorem State.farApply_kpr (hk : isKpr a = true) (hreset : s.kpr.reset = false) (ha : a ≠ Reg.KPR_WAKE_STATUS) :
    s.farApply.gbl.far = none ∧ s.farApply.farReg a = v := by
  refine State.farWritten (s := s) ?_
  simp only [State.farApply, h, hk, hreset, if_neg ha, Bool.false_eq_true, if_false, if_true]
  simp [State.farDone]

/-- While the keeper is held in reset the write to it is lost. -/
theorem State.farApply_reset (hk : isKpr a = true) (hreset : s.kpr.reset = true) : s.farApply = s.farDone := by
  simp only [State.farApply, h, hk, hreset, if_true]
  rfl

end

theorem State.setReg_keeper {s u : State} (h : s.kpr = u.kpr) (a : Nat) (v : Word) : (s.setReg a v).kpr = u.kpr := h

@[simp] theorem State.mirrorKpr_kpr (s : State) : s.mirrorKpr.kpr = s.kpr := by
  have put (x : State) (a b : Nat) (v w : Word) (hx : x.kpr = s.kpr) : ((x.setReg a v).setReg b w).kpr = s.kpr := hx
  exact foldl_keeps (fun x => x.kpr = s.kpr) _ (fun x _ hx => put x _ _ _ _ hx) _ _
    (State.setReg_keeper (put _ _ _ _ _ (put s _ _ _ _ rfl)) _ _)

/-- A write of ones to KPR_WAKE_STATUS clears those causes, where none arises at this tick. -/
theorem State.wakeCleared_cause (s : State) (v : Nat) (h : s.kpr.tickNow ≠ s.now) :
    (s.wakeCleared v).kpr.cause = s.kpr.cause &&& ~~~BitVec.ofNat 5 v := by
  simp only [State.wakeCleared, State.mirrorKpr_kpr, State.modKpr, if_neg h]
  split <;> simp

theorem State.farApply_wake {s : State} {v : Word} (h : s.gbl.far = some (Reg.KPR_WAKE_STATUS, v)) (hreset : s.kpr.reset = false) :
    s.farApply = s.farDone.wakeCleared v.toNat := by
  have hk : isKpr Reg.KPR_WAKE_STATUS = true := by decide
  simp only [State.farApply, h, hk, hreset, Bool.false_eq_true, if_false, if_true]
  rfl

/-- A write to KPR_WAKE_STATUS frees the path, leaves the copies as they were and clears the causes written as ones. -/
theorem State.farApply_clears {s : State} {v : Word} (h : s.gbl.far = some (Reg.KPR_WAKE_STATUS, v))
    (hreset : s.kpr.reset = false) (htick : s.kpr.tickNow ≠ s.now) :
    s.farApply.gbl.far = none ∧ s.farApply.far = s.far ∧
    s.farApply.kpr.cause = s.kpr.cause &&& ~~~BitVec.ofNat 5 v.toNat := by
  obtain ⟨hfar, hgbl⟩ := s.farDone.wakeCleared_farSide v.toNat
  rw [State.farApply_wake h hreset, hgbl, hfar, State.wakeCleared_cause s.farDone _ htick]
  exact ⟨rfl, rfl, rfl⟩

/-! ### Keys (R320) -/

theorem State.keyOpen_closed {s u : State} {p : Port} (h : u.gbl = (s.setKey p false).gbl) : u.keyOpen p = false := by
  cases p <;> simp [State.keyOpen, h, State.setKey]

theorem State.keyOpen_setKey_other (s : State) {p q : Port} (v : Bool) (h : q ≠ p) : (s.setKey p v).keyOpen q = s.keyOpen q := by
  cases p with
  | host => cases q with
    | host => exact absurd rfl h
    | mspi => rfl
  | mspi => cases q with
    | host => rfl
    | mspi => exact absurd rfl h

theorem State.keyOpen_opened (s : State) (p : Port) : ((s.setKey p true).start (.key p)).keyOpen p = true := by
  cases p <;> simp [State.keyOpen, State.setKey, State.start, State.began]

/-- An unlock by the count of time that the machine leaves. -/
theorem State.keyOpen_settle {w s : State} {t : Nat} (h : w.now = (s.advance t).now) (p : Port) :
    (w.settle s t).keyOpen p = w.keyOpen p := by
  have hnow : (w.settle s t).now = w.now := h.symm
  simp only [State.keyOpen, hnow]
  rfl

theorem State.setKey_regs (s : State) (p : Port) (v : Bool) : (s.setKey p v).regs = s.regs := by cases p <;> rfl
theorem State.fld_setKey (s : State) (p : Port) (v : Bool) (a lo w : Nat) : (s.setKey p v).fld a lo w = s.fld a lo w := by
  cases p <;> rfl
theorem State.setKey_now (s : State) (p : Port) (v : Bool) : (s.setKey p v).now = s.now := by cases p <;> rfl

/-- GBL_KEY and GBL_SNAP_CMD as a port reaches them. -/
def gblKeyHit : Hit := { reg := Reg.GBL_KEY, upper := false, row := { off := 0x10, mask := 0xFFFF }, epoch := some 0, inst := 0 }
def gblSnapHit : Hit := { reg := Reg.GBL_SNAP_CMD, upper := false, row := { off := 0x20, mask := 0x1 }, epoch := some 0, inst := 0 }

theorem regAt_gblKey : regAt Reg.GBL_KEY = some gblKeyHit := by decide
theorem mspiAt_gblKey : mspiAt Reg.GBL_KEY = some gblKeyHit := by decide
theorem regAt_gblSnap : regAt Reg.GBL_SNAP_CMD = some gblSnapHit := by decide
theorem mspiAt_gblSnap : mspiAt Reg.GBL_SNAP_CMD = some gblSnapHit := by decide

theorem State.write32_key {s : State} {p : Port} (hp : s.portReady p) (v : Dword) :
    s.write32 p Reg.GBL_KEY v.toNat = s.keyWrite p v.toNat := by
  rw [State.write32_open s p _ _ gblKeyHit hp regAt_gblKey mspiAt_gblKey rfl (by decide) (by decide) (by decide)]
  have hv : v.toNat % 4294967296 = v.toNat := Nat.mod_eq_of_lt v.isLt
  simp [State.writeReg, hp.2.1, gblKeyHit, hv]

theorem State.write32_snap {s : State} {p : Port} (hp : s.portReady p) :
    s.write32 p Reg.GBL_SNAP_CMD 1 = s.snapWrite 1 := by
  rw [State.write32_open s p _ _ gblSnapHit hp regAt_gblSnap mspiAt_gblSnap rfl (by decide) (by decide) (by decide)]
  have hne : ¬Reg.GBL_SNAP_CMD = Reg.GBL_KEY := by decide
  simp [State.writeReg, hp.2.1, gblSnapHit, hne]

theorem State.keyWrite_opens (s : State) (p : Port) : s.keyWrite p 0x5AC3 = (s.setKey p true).start (.key p) := if_pos rfl

theorem State.keyWrite_closes (s : State) (p : Port) {v : Nat} (h : v ≠ 0x5AC3) :
    s.keyWrite p v = ((s.setKey p false).bumpSat Reg.GBL_KEY_FAULT (16 * portBit p) 16).raise .keyFault (portBit p) := if_neg h

theorem exec_keyUnlock (t : Nat) (p : Port) (v : Dword) (s : State) :
    exec (.keyUnlock t p v) s = atMoment t s fun x => x.write32 p Reg.GBL_KEY v.toNat := rfl

theorem exec_keyExpiry (t : Nat) (p : Port) (s : State) : exec (.keyExpiry t p) s =
    atMoment t s fun x => if x.past (.key p) (1000 * usQ) then x.setKey p false else x := rfl

/-! ### Snapshots (R326) -/

theorem exec_snapshot (t : Nat) (p : Port) (s : State) :
    exec (.snapshot t p) s = atMoment t s fun x => x.write32 p Reg.GBL_SNAP_CMD 1 := rfl

theorem State.snapWrite_takes {s : State} (h : s.gbl.snap = none) :
    (s.snapWrite 1).gbl.snap = some (s.nextCycle, listed s.snapValues) := by
  have hbit : bitOf 1 0 = true := by decide
  simp only [State.snapWrite, h, hbit, Option.isSome_none, Bool.false_eq_true, if_false, if_true]

theorem State.snapWrite_overruns {s : State} (h : s.gbl.snap.isSome = true) (v : Nat) :
    s.snapWrite v = s.raise .snapOverrun 0 := if_pos h

theorem tget?_append {α : Type} (l r : Table α) (a : Nat) : tget? (l ++ r) a = (tget? l a).or (tget? r a) := by
  induction l with
  | nil => rfl
  | cons x l ih =>
    obtain ⟨k, w⟩ := x
    simp only [List.cons_append, tget?]
    split
    · rfl
    · exact ih

theorem tget?_filter_key {α : Type} (q : Nat → Bool) (l : Table α) (a : Nat) :
    tget? (l.filter fun x => q x.1) a = if q a then tget? l a else none := by
  induction l with
  | nil => simp [tget?]
  | cons x l ih =>
    obtain ⟨k, w⟩ := x
    by_cases hk : q k <;> by_cases ha : a = k <;> simp_all [tget?]

theorem tget?_eq_none {α : Type} {l : Table α} {a : Nat} (h : ∀ x ∈ l, x.1 ≠ a) : tget? l a = none := by
  induction l with
  | nil => rfl
  | cons x l ih =>
    obtain ⟨k, w⟩ := x
    rw [tget?, if_neg (h (k, w) List.mem_cons_self).symm]
    exact ih fun y hy => h y (List.mem_cons_of_mem _ hy)

/-- A value as it is listed: one that is zero is not, and reads as zero where zero is what an unlisted key reads as. -/
theorem tget?_listed_cons (k v : Nat) (l : List (Nat × Nat)) (a : Nat) :
    tget? (listed ((k, v) :: l)) a = if a = k ∧ v ≠ 0 then some (BitVec.ofNat 64 v) else tget? (listed l) a := by
  by_cases hv : v = 0 <;> by_cases ha : a = k <;> simp [listed, tget?, hv, ha]

/-- The registers that a snapshot shows beside its values: its sequence number and its time. -/
def State.snapHead (s : State) (time : Nat) : Table Word :=
  listed [(Reg.SNAP_SEQ, (s.fld Reg.SNAP_SEQ 0 32 + 1) % 2 ^ 32), (Reg.SNAP_TIME_LO, time % 2 ^ 64),
    (Reg.SNAP_TIME_HI, time / 2 ^ 64 % 256)]

theorem State.snapShow_shows {s : State} {time : Nat} {vals : Table Word} (h : s.gbl.snap = some (time, vals)) :
    s.snapShow.gbl.snap = none ∧
    s.snapShow.regs = (s.regs.filter fun x => decide (x.1 < 0x14000)) ++ s.snapHead time ++ vals := by
  simp only [State.snapShow, h]
  exact ⟨trivial, rfl⟩

theorem State.snapShow_none {s : State} (h : s.gbl.snap = none) : s.snapShow = s := by simp only [State.snapShow, h]

/-- A register of the block SNAP after the snapshot has been shown is one of the snapshot's; every other one is as before. -/
theorem State.reg_snapShow {s : State} {time : Nat} {vals : Table Word} (h : s.gbl.snap = some (time, vals)) (a : Nat) :
    s.snapShow.reg a = (((if a < 0x14000 then tget? s.regs a else none).or (tget? (s.snapHead time) a)).or
      (tget? vals a)).getD (resetOf a) := by
  rw [State.reg, (State.snapShow_shows h).2, tget?_append, tget?_append, tget?_filter_key fun k => decide (k < 0x14000)]
  simp only [decide_eq_true_eq]

theorem State.tget?_snapHead_other (s : State) (time : Nat) {a : Nat} (h : a < 0x14000 ∨ 0x14020 ≤ a) :
    tget? (s.snapHead time) a = none := by
  have h1 : ¬a = Reg.SNAP_SEQ := by rw [Reg.SNAP_SEQ]; omega
  have h2 : ¬a = Reg.SNAP_TIME_LO := by rw [Reg.SNAP_TIME_LO]; omega
  have h3 : ¬a = Reg.SNAP_TIME_HI := by rw [Reg.SNAP_TIME_HI]; omega
  simp only [State.snapHead, tget?_listed_cons, h1, h2, h3, false_and, if_false]
  rfl

section
variable {s : State} {time : Nat} {vals : Table Word} (h : s.gbl.snap = some (time, vals)) (hvals : ∀ x ∈ vals, 0x14020 ≤ x.1)
include h hvals

theorem State.reg_snapShow_low {a : Nat} (ha : a < 0x14000) : s.snapShow.reg a = s.reg a := by
  have hnone : tget? vals a = none := tget?_eq_none fun x hx => by have := hvals x hx; omega
  rw [State.reg_snapShow h, if_pos ha, s.tget?_snapHead_other time (.inl ha), hnone, Option.or_none, Option.or_none, State.reg]

/-- A register that the snapshot's head holds, and that is zero at reset, shows its value there. -/
theorem State.reg_snapShow_head {a v : Nat} (ha : 0x14000 ≤ a ∧ a < 0x14020) (hreset : resetOf a = 0)
    (hv : tget? (s.snapHead time) a = if v ≠ 0 then some (BitVec.ofNat 64 v) else none) :
    s.snapShow.reg a = BitVec.ofNat 64 v := by
  have hnone : tget? vals a = none := tget?_eq_none fun x hx => by have := hvals x hx; omega
  rw [State.reg_snapShow h, if_neg (by omega), hv, hnone, Option.none_or, Option.or_none, hreset]
  split
  · rfl
  · next h0 => rw [not_not.mp h0]; rfl

end

theorem State.tget?_snapHead_seq (s : State) (time : Nat) : tget? (s.snapHead time) Reg.SNAP_SEQ =
    if (s.fld Reg.SNAP_SEQ 0 32 + 1) % 2 ^ 32 ≠ 0 then some (BitVec.ofNat 64 ((s.fld Reg.SNAP_SEQ 0 32 + 1) % 2 ^ 32)) else none := by
  have hlo : ¬Reg.SNAP_SEQ = Reg.SNAP_TIME_LO := by decide
  have hhi : ¬Reg.SNAP_SEQ = Reg.SNAP_TIME_HI := by decide
  have hnil : tget? (listed []) Reg.SNAP_SEQ = none := rfl
  simp only [State.snapHead, tget?_listed_cons, hlo, hhi, hnil, true_and, false_and, if_false]

theorem State.tget?_snapHead_time (s : State) (time : Nat) : tget? (s.snapHead time) Reg.SNAP_TIME_LO =
    if time % 2 ^ 64 ≠ 0 then some (BitVec.ofNat 64 (time % 2 ^ 64)) else none := by
  have hseq : ¬Reg.SNAP_TIME_LO = Reg.SNAP_SEQ := by decide
  have hhi : ¬Reg.SNAP_TIME_LO = Reg.SNAP_TIME_HI := by decide
  have hnil : tget? (listed []) Reg.SNAP_TIME_LO = none := rfl
  simp only [State.snapHead, tget?_listed_cons, hseq, hhi, hnil, true_and, false_and, if_false]

theorem State.reg_snapShow_values {s : State} {time : Nat} {vals : Table Word} (h : s.gbl.snap = some (time, vals)) {a : Nat}
    (ha : 0x14020 ≤ a) : s.snapShow.reg a = (tget? vals a).getD (resetOf a) := by
  rw [State.reg_snapShow h, if_neg (by omega), s.tget?_snapHead_other time (.inr ha), Option.none_or, Option.none_or]

theorem exec_snapshotDone (t : Nat) (s : State) : exec (.snapshotDone t) s = atMoment t s State.snapShow := rfl

theorem exec_farWriteApply (t : Nat) (s : State) : exec (.farWriteApply t) s = atMoment t s State.farApply := rfl

/-! ### Each row of the key, of a snapshot and of a far write -/

section
variable {s : State} {t : Nat} {p : Port}

theorem keyUnlock_opens (hp : s.portReady p) : Does (.keyUnlock t p 0x5AC3) s fun u => u.keyOpen p = true ∧ u.regs = s.regs :=
  .of_outcome (exec_keyUnlock ..) ((State.write32_key (s := s.advance t) hp _).trans (State.keyWrite_opens ..))
    ⟨(State.keyOpen_settle (w := ((s.advance t).setKey p true).start (.key p)) ((s.advance t).setKey_now p true) p).trans
      (State.keyOpen_opened ..), State.setKey_regs ..⟩

theorem keyUnlock_closes (hp : s.portReady p) {v : Dword} (hv : v ≠ 0x5AC3) : Does (.keyUnlock t p v) s fun u =>
    u.keyOpen p = false ∧
    u.fld Reg.GBL_KEY_FAULT (16 * portBit p) 16 = min 65535 (s.fld Reg.GBL_KEY_FAULT (16 * portBit p) 16 + 1) ∧
    u.reg Reg.FLT_LAST = BitVec.ofNat 64 FaultCode.keyFault.code := by
  have hv' : v.toNat ≠ 0x5AC3 := fun h => hv (BitVec.eq_of_toNat_eq h)
  refine .of_outcome (exec_keyUnlock ..) ((State.write32_key (s := s.advance t) hp _).trans (State.keyWrite_closes _ p hv'))
    ⟨State.keyOpen_closed (s := s.advance t) (p := p) ?_, ?_, raise_last ..⟩
  · simp [State.settle]
  · rw [State.settle_fld, State.fld_raise _ _ _ _ _ _ rfl, State.fld_bumpSat _ _ _ _ (by cases p <;> decide),
      State.fld_setKey, State.fld_advance]
    norm_num

theorem keyExpiry_closes {q : Port} (hd : (s.advance t).past (.key p) (1000 * usQ) = true) : Does (.keyExpiry t p) s fun u =>
    u.keyOpen p = false ∧ (q ≠ p → u.keyOpen q = (s.advance t).keyOpen q) ∧ u.regs = s.regs :=
  .of_met (b := fun x => x.past (.key p) (1000 * usQ)) (exec_keyExpiry ..) hd ⟨State.keyOpen_closed rfl,
    fun hq => (State.keyOpen_settle ((s.advance t).setKey_now p false) q).trans (State.keyOpen_setKey_other _ _ hq),
    State.setKey_regs ..⟩

theorem snapshot_takes (hp : s.portReady p) (hsnap : s.gbl.snap = none) : Does (.snapshot t p) s fun u =>
    u.gbl.snap = some ((s.advance t).nextCycle, listed (s.advance t).snapValues) :=
  .of_outcome (exec_snapshot ..) (State.write32_snap (s := s.advance t) hp) (State.snapWrite_takes (s := s.advance t) hsnap)

theorem snapshot_overruns (hp : s.portReady p) (hsnap : s.gbl.snap.isSome = true) : Does (.snapshot t p) s fun u =>
    u.gbl.snap = s.gbl.snap ∧ u.reg Reg.FLT_LAST = BitVec.ofNat 64 FaultCode.snapOverrun.code :=
  .of_outcome (exec_snapshot ..)
    ((State.write32_snap (s := s.advance t) hp).trans (State.snapWrite_overruns (s := s.advance t) hsnap 1))
    ⟨by simp [State.settle], raise_last ..⟩

theorem State.fld_snapShow_seq {time : Nat} {vals : Table Word} (hsnap : s.gbl.snap = some (time, vals))
    (hvals : ∀ x ∈ vals, 0x14020 ≤ x.1) : s.snapShow.fld Reg.SNAP_SEQ 0 32 = (s.fld Reg.SNAP_SEQ 0 32 + 1) % 2 ^ 32 := by
  rw [State.fld, State.reg_snapShow_head hsnap hvals (by decide) (by decide) (State.tget?_snapHead_seq ..), fieldOf,
    BitVec.toNat_ofNat]
  omega

theorem State.reg_snapShow_time {time : Nat} {vals : Table Word} (hsnap : s.gbl.snap = some (time, vals))
    (hvals : ∀ x ∈ vals, 0x14020 ≤ x.1) : s.snapShow.reg Reg.SNAP_TIME_LO = BitVec.ofNat 64 time := by
  rw [State.reg_snapShow_head hsnap hvals (by decide) (by decide) (State.tget?_snapHead_time ..)]
  exact BitVec.eq_of_toNat_eq (by simp)

theorem snapshotDone_shows {time : Nat} {vals : Table Word} (hsnap : s.gbl.snap = some (time, vals))
    (hvals : ∀ x ∈ vals, 0x14020 ≤ x.1) : Does (.snapshotDone t) s fun u =>
      u.gbl.snap = none ∧ u.fld Reg.SNAP_SEQ 0 32 = (s.fld Reg.SNAP_SEQ 0 32 + 1) % 2 ^ 32 ∧
      u.reg Reg.SNAP_TIME_LO = BitVec.ofNat 64 time ∧ (∀ a, a < 0x14000 → u.reg a = s.reg a) ∧
      (∀ a, 0x14020 ≤ a → u.reg a = (tget? vals a).getD (resetOf a)) := by
  have h : (s.advance t).gbl.snap = some (time, vals) := hsnap
  refine .of_effect (exec_snapshotDone ..) ⟨(State.snapShow_shows h).1, ?_, ?_, fun a ha => ?_, fun a ha => ?_⟩
  · rw [State.settle_fld, State.fld_snapShow_seq h hvals, State.fld_advance]
  · rw [State.settle_reg, State.reg_snapShow_time h hvals]
  · rw [State.settle_reg, State.reg_snapShow_low h hvals ha, State.reg_advance]
  · rw [State.settle_reg, State.reg_snapShow_values h ha]

section
variable {a : Nat} {v : Word}

theorem farWriteApply_fe (hfar : s.gbl.far = some (a, v)) (hk : isKpr a = false) :
    Does (.farWriteApply t) s fun u => u.gbl.far = none ∧ u.farReg a = v :=
  .of_effect (exec_farWriteApply ..) (State.farApply_fe (s := s.advance t) hfar hk)

theorem farWriteApply_kpr (hfar : s.gbl.far = some (a, v)) (hk : isKpr a = true) (hreset : s.kpr.reset = false)
    (ha : a ≠ Reg.KPR_WAKE_STATUS) : Does (.farWriteApply t) s fun u => u.gbl.far = none ∧ u.farReg a = v :=
  .of_effect (exec_farWriteApply ..) (State.farApply_kpr (s := s.advance t) hfar hk hreset ha)

theorem farWriteApply_wake (hfar : s.gbl.far = some (Reg.KPR_WAKE_STATUS, v)) (hreset : s.kpr.reset = false)
    (htick : s.kpr.tickNow ≠ max s.now t) : Does (.farWriteApply t) s fun u =>
      u.gbl.far = none ∧ u.far = s.far ∧ u.kpr.cause = s.kpr.cause &&& ~~~BitVec.ofNat 5 v.toNat := by
  have hnow : s.kpr.tickNow ≠ s.now + (t - s.now) := by omega
  exact .of_effect (exec_farWriteApply ..) (State.farApply_clears (s := s.advance t) hfar hreset hnow)

theorem farWriteApply_reset (hfar : s.gbl.far = some (a, v)) (hk : isKpr a = true) (hreset : s.kpr.reset = true) :
    Does (.farWriteApply t) s fun u => u.gbl.far = none ∧ u.far = s.far :=
  .of_outcome (exec_farWriteApply ..) (State.farApply_reset (s := s.advance t) hfar hk hreset) ⟨rfl, rfl⟩

end
end

end Sys2Proof.Machine

section
open Sys2Proof.Machine

/-- Settles O29: a key and a snapshot by the writes of their registers, a far write by what its register's block does. -/
theorem registerRowsComplete : Obligations.RegisterRowsComplete := by
  refine ⟨fun s t p v hp => ⟨?_, keyUnlock_closes hp⟩, fun s t p q => ⟨keyExpiry_closes, fun hd => ?_⟩,
    fun s t p hp => ⟨snapshot_takes hp, snapshot_overruns hp⟩,
    fun s t => ⟨fun _ _ hsnap hvals => snapshotDone_shows hsnap hvals, fun hsnap => ?_⟩,
    fun s t a v hfar => ⟨farWriteApply_fe hfar, farWriteApply_kpr hfar, ?_, farWriteApply_reset hfar⟩, fun s t hfar => ?_⟩
  · rintro rfl
    exact keyUnlock_opens hp
  · exact .of_unmet (t := t) (b := fun x => x.past (.key p) (1000 * usQ)) rfl (exec_keyExpiry ..) hd
  · exact .of_effect (t := t) rfl (exec_snapshotDone ..) (State.snapShow_none (s := s.advance t) hsnap)
  · rintro rfl
    exact farWriteApply_wake hfar
  · exact .of_effect (t := t) rfl (exec_farWriteApply ..) (State.farApply_none (s := s.advance t) hfar)

end
